-- ==== Sys2Proof/Word.lean ====
section
/-!
DEFINITION. The word types of the module: registers and the on-chip bus carry 32-bit words (R6), memory is
addressed by byte, the tick counter and module time are 64 bits wide (R43, R46).
-/
namespace Sys2Proof

/-- A register word (R6). -/
abbrev Word := BitVec 32
/-- One byte of memory. -/
abbrev Byte := BitVec 8
/-- The tick counter and module time (R43, R46). -/
abbrev DWord := BitVec 64
/-- An IEEE 754 binary32 value, held as its bit pattern (R10). -/
abbrev F32 := BitVec 32
/-- An IEEE 754 binary16 value, held as its bit pattern (R10, R459). -/
abbrev F16 := BitVec 16

end Sys2Proof
end

