-- ==== Sys2Proof/Syntax.lean ====
section
/-!
DEFINITION. The commands of the block: one constructor of `Instr` per row of the opcode table, with the operands
its rule gives it. What the outside world measures, receives or presents is an operand; an index is a `Fin`, so
that a command names a thing that exists.
-/
namespace Sys2Proof

/-- Who makes an access: a core of R445 (APP0–APP3, LA0, LA1, LB0, LB1, GN0, GN1, SV0), the same APP core running
the OEM partition (R2), a DMA of R32 (map engine, fusion, ISP, communication), or the Keyhole (R437). -/
inductive Req where
  | core (c : Fin 11)
  | oem (c : Fin 4)
  | dma (d : Fin 4)
  | keyhole
  deriving DecidableEq, Repr

/-- The two lanes of a module (R13). -/
inductive Lane where
  | A
  | B
  deriving DecidableEq, Repr

/-- What one universal input presents at T of the past tick: the eight samples of an analogue mode in its unit, the TICK
cycles of the edges of FREQ and of the pulses of PULSE_IDX, rising, and the signed counts of QUAD (R68–R71). -/
structure UinSample where
  adc : List F32
  edges : List (Fin 20000)
  delta : Int
  deriving DecidableEq, Repr

/-- What a valve die measures of a channel in the past tick (R178, R186): the mean and the highest current in mA, and the
energy in J that its present BOOST has drawn. -/
structure VlvIn where
  mean : Nat
  top : Nat
  drawn : F32
  deriving DecidableEq, Repr

/-- The energy that a bank's rail has lost to the boosts and otherwise, and that RECOVER has returned to it, in units of
5 nJ (R177, R180). -/
structure RailIn where
  out : Nat
  back : Nat
  deriving DecidableEq, Repr

/-- What a switch die measures of a channel in the past tick (R198, R203): the mean and the highest current in mA, ΔT in 0.5 K,
the cycles from T for which the input pin was high, and the overload time in cycles: that since its last return to 0, and
whether it returned to 0 in this tick. -/
structure PswIn where
  mean : Nat
  top : Nat
  dt : Nat
  pin : Nat
  ovr : Nat
  again : Bool
  deriving DecidableEq, Repr

/-- The case temperature of a switch die, × 0.1 °C, and its rise over the last 1 s, × 0.1 K (R198). -/
structure CaseIn where
  temp : Int
  rise : Nat
  deriving DecidableEq, Repr

/-- What the outside presents at a tick edge: UIN00–UIN47, the eight IMU values of SIG[136..143], the supply voltage, the case
temperature and VBAT_OUT (R81, R177), whether the header is raised (R78), the tick reports of the dies (R16, R186, R203), a
residue mismatch of one channel's computation in one lane (R89), the level of IGN and that of SVC_DET (R498). -/
structure TickIn where
  uin : List UinSample
  imu : List F32
  supply : List F32
  headerRaised : Bool
  vlv : List VlvIn
  rails : List RailIn
  psw : List PswIn
  cases : List CaseIn
  residue : Option (Lane × Fin 96)
  ign : Bool
  svc : Bool
  deriving DecidableEq, Repr

/-! ## Satellite navigation (R221–R224) -/

/-- What a tracking channel latches at an epoch boundary (R221). -/
structure EpochMeas where
  cyc : Word
  frac : Word
  codePh : Nat
  cnt : Word
  deriving DecidableEq, Repr

/-- A band of an antenna at an epoch: the nominal AGC gain of the factory curve and the gain, dB, and whether a
component was left unfiltered (R213). -/
structure BandMeas where
  nom : F32
  gain : F32
  ovl : Bool
  deriving DecidableEq, Repr

/-- The leap-second table as received: GPS − UTC, and a pending leap (true for a deleted second) with its time (R49). -/
structure LeapTable where
  gpsUtc : Nat
  pend : Option (Bool × Nat)
  deriving DecidableEq, Repr

/-- What the navigation message and the almanac say of the satellite of a tracking channel: its health, its elevation
× 0.01°, and whether SBAS corrects it (R208, R222). -/
structure SatIn where
  ch : Fin 384
  healthy : Bool
  elev : Int
  sbas : Bool
  deriving DecidableEq, Repr

/-- A residual test of the epoch: whether it passed at the false-alarm probability of R223, and the normalised residuals
of the satellites it was made with, in their order. -/
structure ResTest where
  passed : Bool
  res : List F32
  deriving DecidableEq, Repr

/-- What GN0 and GN1 compute for an epoch (R222, R223, R228). -/
structure Solution where
  sats : List SatIn            -- the satellites of the channels
  tests : List ResTest         -- the residual tests, in the order in which they are made
  amb : Fin 3                  -- carrier-phase ambiguities: 0 none, 1 float, 2 fixed and validated
  clk : List Int               -- module time minus the time of GPS, Galileo, BeiDou, GLONASS, ns
  eph : Bool                   -- an ephemeris was decoded since the last solution
  alm : Bool                   -- an almanac was
  pos : List Int               -- ECEF, mm
  vel : List Int               -- ECEF, mm/s
  sigH : Nat
  sigV : Nat
  common : Nat                 -- satellites fixed in common on both antennas
  head : Nat                   -- × 0.01°
  pitch : Int
  hsig : Nat
  len : Nat                    -- solved baseline, mm
  iso : List Int               -- Galileo, BeiDou, GLONASS minus GPS, ns
  leap : Option LeapTable
  deriving DecidableEq, Repr

/-- What a tracking loop writes for a channel (R219, R220). -/
structure TrackUpd where
  ch : Fin 384
  carr : Word
  code : Word
  cn0 : Nat
  lock : Bool   -- the phase lock indicator is at 0.6 or above
  deriving DecidableEq, Repr

/-- What a start of the baseband finds beside its saved data: the error of the time from the RTC or from holdover, ms;
whether the saved position lies within 100 km; and the satellites that the almanac predicts as visible, each with its
signal (R216). -/
structure GnssStart where
  timeErr : Nat
  near : Bool
  visible : List (Nat × Nat)
  deriving DecidableEq, Repr

/-! ## Cameras (R238–R247) -/

/-- A camera stream frame: what its header says, the lines that arrived, and when it was exposed (R238, R239, R242). -/
structure StreamIn where
  rvf : Bool               -- subtype RVF
  stream : Nat             -- 64-bit stream ID
  bayer12 : Bool           -- Bayer, 12 bits per pixel
  width : Nat
  height : Nat
  tsValid : Bool
  frame : Nat              -- the frame number of its exposure
  lines : List (Option (List Nat)) -- the lines, 12 bits per pixel; none for a line missing after a gap in the sequence
  ts : Int                 -- the AVTP timestamp of its first packet, gPTP ns
  readout : Int            -- the camera's declared readout offset, ns
  deriving DecidableEq, Repr

/-- The tables of a pipeline that only an image holds (R243, R380): the static defect map (column and line), the shading
grid of 4 channels × 21 × 33 points, four tone curves, and the remap table (column and line × 1/16 for each pixel). -/
structure CamCal where
  dpc : List (Nat × Nat)
  lsc : List Nat
  curves : List (List Nat)
  remap : List (Nat × Nat)
  deriving DecidableEq, Repr

/-! ## Fusion (R255–R276) -/

/-- What fusion finds of one track in a frame: its record, its estimates, the sensors that associated a detection with
it, and those for whose own observation the view conditions of a denial hold (R263–R265). The estimates are X, Y, Z, VX,
VY, LEN, WID, HGT, HEAD, SX, SY and RANGE; `estNo` are those without stereo depth (R257). `front` and `lat` place the nearest part of its extent from the header front, in the vehicle
frame. -/
structure TrackObs where
  t : Fin 256
  pex : F32
  est : List F32
  estNo : List F32
  classP : Nat
  assoc : List (Fin 11)
  deny : List (Fin 11)
  front : F32
  lat : F32
  deriving DecidableEq, Repr

/-- A detection that no track takes: a candidate for a new one; without stereo depth it has estimates only where a LiDAR
return gives its range (R257). -/
structure NewTrack where
  cls : Fin 8
  est : List F32
  estNo : Option (List F32)
  classP : Nat
  by' : List (Fin 11)
  front : F32
  lat : F32
  deriving DecidableEq, Repr

/-- Ego-motion of a frame: X, Y, Z, YAW, PITCH, ROLL, VFWD, VLAT, YAWRATE, and the same without visual odometry; the inputs
at hand from bit 0; the difference of a GNSS solution beyond 5σ of both, m (R257, R268, R269). -/
structure EgoIn where
  vals : List F32
  valsNo : List F32
  sigLat : F32
  used : Nat
  rejected : Option F32
  deriving DecidableEq, Repr

/-- Guidance of a frame: how far the map boundary extends, the line track that serves EDGE and how far it extends, the
lateral position of both, the targets, and the errors (R270, R272, R276). -/
structure GuidIn where
  mapAhead : F32
  edge : Option (Fin 256)
  edgeAhead : F32
  mapLat : F32
  edgeLat : F32
  f27 : F32
  errLat : Int
  errHead : Int
  deriving DecidableEq, Repr

/-- Unloading of a frame: the trailer and spout tracks, whether the opening is in reach, whether the landing point lies
outside it, the F18, F20 and F26 values, and whether the tank is below its end level (R275, R276). -/
structure UnlIn where
  trailer : Option (Fin 256)
  spout : Option (Fin 256)
  inReach : Bool
  outside : Bool
  f18 : F32
  f20 : F32
  f26 : F32
  tankLow : Bool
  deriving DecidableEq, Repr

/-- The inputs of a fused result (R259): the sensors whose expected contribution has not been processed, the LiDAR units
without a sweep, and the samples at hand with the ticks of their own time. -/
structure ResultIn where
  frame : Nat
  missing : List (Fin 11)
  absent : List (Fin 2)
  samples : List (Fin 11 × Nat)
  tracks : List TrackObs
  fresh : List NewTrack
  ego : EgoIn
  guid : GuidIn
  unl : UnlIn
  deriving DecidableEq, Repr

/-! ## Attachments (R305, R307) -/

/-- What an element answers to an authentication: whether it answers within 150 ms, whether the certificate and the
signature over the nonce verify, its identity, its signed counters HRS, HA, KG and IMP, and its calibration entries. -/
structure ElementIn where
  answers : Bool
  certOk : Bool
  signOk : Bool
  serial : Nat
  kind : Nat
  counters : List Nat
  cal : List (Nat × F32)
  deriving DecidableEq, Repr

/-! ## CAN and J1939 (R341, R352) -/

/-- A received frame: format, whether its FDF bit is recessive, identifier, data, and the TICK cycle of its stamp. -/
structure CanFrame where
  ide : Bool
  fdf : Bool
  id : Nat
  data : List Byte
  cycle : Fin 20000
  deriving DecidableEq, Repr

/-- What a J1939 transport message does: a BAM or RTS opens a session, the last packet completes it with its bytes, an
abort ends it. -/
inductive TpEvent where
  | start (src size pgn : Nat) (bam : Bool)
  | done (src : Nat) (bytes : List Byte)
  | stop (src : Nat)
  deriving DecidableEq, Repr

/-! ## Fleet service (R364) -/

/-- The header of an inbound fleet message: version, type, sender and time of validity, and whether its length matches
its type (R364, R365). -/
structure FleetHdr where
  version : Nat
  type : Nat
  sender : Nat
  time : Int
  lenOk : Bool
  deriving DecidableEq, Repr

/-! ## Configuration (R341–R344, R78, R145, R310) -/

/-- A signal map entry (R342). -/
structure SigMap where
  port : Nat
  id : Nat
  mask : Nat
  ide : Bool
  start : Nat
  len : Nat
  big : Bool
  signed : Bool
  scale : F32
  offset : F32
  na : Bool
  timeout : Nat
  deriving DecidableEq, Repr

/-- The placement of a transmit signal in a message (R344). -/
structure TxPlace where
  sig : Nat
  start : Nat
  len : Nat
  big : Bool
  signed : Bool
  scale : F32
  offset : F32
  deriving DecidableEq, Repr

/-- A transmit message (R344): port, identifier, format, period, phase, its bytes before the signals are placed, and
whether a RAW port sends it as network management through the express slot (R350). -/
structure TxMsg where
  port : Nat
  id : Nat
  ide : Bool
  fd : Bool
  period : Nat
  phase : Nat
  bytes : List Byte
  places : List TxPlace
  express : Bool
  deriving DecidableEq, Repr

/-- A calibration slot the configuration declares: slot, the region and the field it targets, and its allowed range
(R310). A whole word takes the binary32 value, a narrower field the nearest whole number. -/
structure CalSlot where
  slot : Nat
  region : Nat
  addr : Nat
  msb : Nat
  lsb : Nat
  lo : F32
  hi : F32
  deriving DecidableEq, Repr

/-- One function of a setpoint set (R145); `none` fields of the set are functions not in it. -/
structure SwgItem where
  base : F32
  amp : F32
  k : Nat
  t0 : Nat
  deriving DecidableEq, Repr

/-- The crop-flow calibration of item 0x0105 that no register shows (R78): the moisture curve, and gain and offset of
the torque and tailings inputs. -/
structure CropCal where
  moist : List (F32 × F32)
  torqK : F32
  torqOfs : F32
  tailK : F32
  tailOfs : F32
  deriving DecidableEq, Repr

/-- What a configuration item carries (R380): its bytes, or, where the spec fixes a record's length and not its layout,
the values it stands for. The crop item has `FUN_CROP_SRC`, then K, ZERO, FS and the cut width. -/
inductive ItemVal where
  | bytes (b : List Byte)
  | crop (src : Word) (flow : List F32) (cal : CropCal)
  | sigMap (m : SigMap)
  | txMsg (m : TxMsg)
  | ethPort (cfg ip4 : Word)
  | fleet (id : Nat) (roster alerts : List Nat) (gga tls : Bool) (svc : Word)
  deriving DecidableEq, Repr

/-- A staged item with its header: position, region, code, index, offset and length (R380, R383). -/
structure CfgItem where
  pos : Nat
  region : Nat
  code : Nat
  index : Nat
  offset : Nat
  length : Nat
  val : ItemVal
  deriving DecidableEq, Repr

/-- A request of the transaction protocol (R382). -/
inductive CfgOp where
  | cfgBegin (mask : Nat)
  | stage (handle : Nat) (item : CfgItem)
  | commit (handle : Nat) (persist : Bool)
  | rollback (handle : Nat)
  deriving DecidableEq, Repr

/-- A window of the slot plan: the position that sends it, its first byte, and the SIG entries of its records (R321). -/
structure EcnWin where
  pos : Nat
  start : Nat
  recs : List Nat
  deriving DecidableEq, Repr

/-- What an image's SYSTEM section and the sections of one position hold beside registers and lane words: the slot plan
and the entries this module consumes (entry, position, record), the SIG entries of Swing search, the mailbox and
guidance, the calibration slots, the revocation list, the CAN NAMEs, the ports that pass raw frames, and the tables of
the six pipelines (R243, R375, R380). -/
structure SysIn where
  plan : List EcnWin
  uses : List (Nat × Nat × Nat)
  swgSigs : List Nat
  mailDests : List Nat
  guid : List (Nat × Nat)
  slots : List CalSlot
  revoked : List Nat
  names : List (Nat × Nat)
  rawSel : List Nat
  cams : List CamCal
  deriving DecidableEq, Repr

/-- A configuration image as a slot of the NOR holds it (R373–R376): its header fields; whether its table lies in the
slot, its signatures verify, its entries equal those of its BASE header, and its sections hash to their entries; the
register words, lane words and items of this position; and the items of its OVERLAY. -/
structure ImageIn where
  magicOk : Bool
  version : Nat
  kind : Nat
  length : Nat
  sections : Nat
  tableOk : Bool
  sysId : Nat
  seq : Nat
  persistGen : Nat
  fwLo : Nat
  fwHi : Nat
  positions : Nat
  orders : Nat
  sigOk : Bool
  baseOk : Bool
  entriesOk : Bool
  hashOk : Bool
  regs : List (Nat × Word)
  lane : List (Nat × Word)
  items : List CfgItem
  overlay : List CfgItem
  sys : SysIn
  deriving DecidableEq, Repr

/-! ## Ecnil (R318–R326) -/

/-- A tick frame as it arrives: whether its header's CRC holds, the header's fields, its status words with a correct CRC
by position, its windows with their CRC and records (value and status word), what the probe block gives, that is t1 to
t4 of R326 in units of 1/32 TICK cycle, and the marker's arrival from the local tick edge in the same unit. -/
structure EcnFrame where
  hdrOk : Bool
  count : Nat
  acc : Nat
  hops : Nat
  mode : Nat
  time : Nat
  halt : Bool                                   -- ABORT
  slots : List (Nat × Word)
  wins : List (Nat × Bool × List (Word × Word))
  probe : Option (Nat × Nat × Nat × Nat)
  arrive : Int
  deriving DecidableEq, Repr

/-- A part of a COMMIT message once its segments have arrived (R384). -/
structure CommitPart where
  gen : Nat
  apply : Nat
  pos : Nat
  index : Nat
  count : Nat
  persist : Bool
  items : List CfgItem
  crcOk : Bool
  replay : Bool                                 -- the replay commit of R389
  deriving DecidableEq, Repr

/-! ## Firmware update (R395–R398) -/

/-- An entry of a manifest: kind, position, order-code mask, version, length, and SHA-384 of the part's header. -/
structure ManEntry where
  kind : Nat
  pos : Nat
  orders : Nat
  version : Nat
  length : Nat
  hash : Nat
  deriving DecidableEq, Repr

/-- A manifest as received: whether its magic, format version and key identity are right and its signature verifies,
and its fields (R395). -/
structure ManifestIn where
  formOk : Bool
  sigOk : Bool
  release : Nat
  floor : Nat
  cfgLo : Nat
  cfgHi : Nat
  changed : Nat
  entries : List ManEntry
  deriving DecidableEq, Repr

/-- A part header as received: whether its magic and header version are right, its own SHA-384, its fields, whether its
signature verifies, and the life-cycle state of the target module (R396, R397). -/
structure PartIn where
  magicOk : Bool
  hash : Nat
  kind : Nat
  pos : Nat
  orders : Nat
  states : Nat
  version : Nat
  length : Nat
  keyId : Nat
  payHash : Nat
  sigOk : Bool
  targetLc : Nat
  deriving DecidableEq, Repr

/-! ## Reset, start-up, power and security (R418–R440) -/

/-- What a step of the bring-up sequence finds (R418–R421): the time from 9 V in µs; the strap samples' agreement and
values; the images that fail their check, as bits of SEC_STATUS.BOOT_FAIL, and whether the retained copy and the staged
parts pass; the self-tests; the dies that complete the handshake, with those that have started from their own power-on;
what the GNSS start finds. -/
inductive BringIn where
  | kal (us : Nat)
  | ref (us : Nat)
  | options (us : Nat) (agree manager : Bool) (pos : Fin 8)
  | boot (us : Nat) (fail : Fin 64) (vers : List Nat) (copyOk stagedOk : Bool)
  | lanes (us : Nat) (a b : Bool)
  | stages (us : Nat) (dies : List (Fin 12 × Bool))
  | services (us : Nat) (gns : GnssStart)
  | ring (us : Nat)
  deriving DecidableEq, Repr

/-- What a wake finds (R354, R428, R431): the time since the state was entered, in ticks; the identifier and format of
the frame of a selective wake, none for the frame-error counter; whether the retained configuration and the lane images
authenticate; the self-tests; the dies that complete the handshake; what the GNSS start finds; and the
time from the wake to the start of the services, µs. -/
structure WakeIn where
  elapsed : Nat
  frame : Option (Nat × Bool)
  copyOk : Bool
  passA : Bool
  passB : Bool
  dies : List (Fin 12)
  gns : GnssStart
  us : Nat
  deriving DecidableEq, Repr

/-- A token (R438): its level, the key slot its signature verifies under (7 for none), and the serial number,
life-cycle state and nonce that it names. -/
structure TokenIn where
  full : Bool
  key : Fin 8
  serial : Nat
  lc : Nat
  nonce : List Word
  deriving DecidableEq, Repr

/-- The commands, in the order of the opcode table; each names its rule. -/
inductive Instr where
/-- REGISTER_WRITE (R8). A write to a register field with no row of its own sets the value, or clears or sets
    bits under its access code. `hwSet` are the W1C bits that a hardware event sets in the same cycle (R9). -/
  | registerWrite (req : Req) (addr : Nat) (value : Word) (hwSet : Word)
/-- BUS_ERROR_ACCESS (R7). An access outside every assigned block, or at an address that is not a multiple of 4,
    ends in a bus error with no side effect. -/
  | busErrorAccess (req : Req) (addr : Nat) (write : Bool)
/-- RC_FIELD_READ (R9). A read of an RC field returns the value and clears it, and an event in the same cycle is
    kept for the next read. `hwSet` are the RC bits that an event sets in the cycle of the read (R9). -/
  | rcFieldRead (req : Req) (addr : Nat) (hwSet : Word)
/-- TICK_EDGE (R39). At each tick edge the Jambs apply commands, inputs are latched and frozen, the tick counter
    increments and each lane fills SIG and runs its panes. -/
  | tickEdge (inp : TickIn)
/-- CHANNEL_RECOVERED (R126). A DEGRADED channel whose GOOD count reaches 400 ticks, or whose other source stays
    OK for 400 ticks, returns to RUNNING. -/
  | channelRecovered (n : Fin 96)
/-- WARMUP_END (R125). WARM_LEFT reaches 0 and the supervision thresholds drop from four times to their set
    values. -/
  | warmupEnd (n : Fin 96)
/-- PANE_DEADLINE (R110). At cycle 17,600 a pane still running is a lane fault, recorded as 0x3001. -/
  | paneDeadline (lane : Lane) (pane : Fin 256) (cycle : Fin 20000)
/-- COMMAND_FRAME (R155). A die receives a command frame and accepts or discards it by CRC, stage, lane, tick,
    deadline and claim. Dies 0–3 are valve dies, 4–11 switch dies, 12 stands for the CAN block; the three words
    are laid out as in R153. -/
  | commandFrame (die : Fin 13) (link : Lane) (w0 w1 w2 : Word) (cycle : Fin 20000)
/-- DROP_FRAME (R157). A drop frame discards the lane's held frames and switches the die to the other lane's
    claim within 1 µs. -/
  | dropFrame (die : Fin 13) (lane : Lane)
/-- LINK_SILENCE (R152). 200 TICK cycles without a symbol on a lane link count as a drop frame from that lane.
    -/
  | linkSilence (die : Fin 13) (lane : Lane)
/-- JAMB_SELECT (R156). In the guard each Jamb selects the command for the next tick by claim, reports selection
    and mismatch to both lanes. -/
  | jambSelect
/-- MISMATCH_GIVE_UP (R159). A mismatch on one channel in 3 consecutive ticks makes the STANDBY lane give up
    with reason MISMATCH. -/
  | mismatchGiveUp (stage : Fin 64)
/-- LANE_FAULT (R151). A lane's lockstep, residue, progress, ECC, clock or supply monitor detects a fault.
    `reason` is 1 LOCKSTEP to 6 SUPPLY of R172. -/
  | laneFault (lane : Lane) (reason : Fin 7)
/-- RECOVERY_STEP_DONE (R161). A step of lane recovery (reset, self-test, state copy) completes and the next
    begins. -/
  | recoveryStepDone (lane : Lane)
/-- RECOVERY_STEP_FAIL (R161). A failed self-test or a mismatch in the compare frame counts a give-up and
    restarts recovery or bars the lane. -/
  | recoveryStepFail (lane : Lane)
/-- RECOVERY_COMPLETE (R160). At the frame boundary ending a clean compare frame the lane becomes STANDBY with
    claim 8 and records 0x2002. -/
  | recoveryComplete (lane : Lane)
/-- TAKE_BACK (R160). After 100,000 ticks in STANDBY the home lane takes back ACTIVE at the next switch tick and
    records 0x2003. -/
  | takeBack
/-- SWITCH_TICK (R162). At a due switch tick both lanes send their exchanged claims. -/
  | switchTick
/-- HINGE_SWAP_DUE (R163). HINGE_INT after the last swap or take-back a Hinge swap starts at the next switch
    tick, or is DEFERRED. -/
  | hingeSwapDue
/-- HINGE_SWAP_END (R163). At S + 400 a swap that met every condition is PASSED and claims return to the home
    lane. -/
  | hingeSwapEnd
/-- HINGE_NOW (R164). A write of 1 to CLM_CTL.HINGE_NOW makes a Hinge swap due at once. -/
  | hingeNow (req : Req)
/-- TEST_GU_A (R171). A write to CLM_CTL.TEST_GU_A makes lane A give up with reason TEST when stable, or is
    REFUSED. -/
  | testGuA (req : Req)
/-- TEST_GU_B (R171). A write to CLM_CTL.TEST_GU_B makes lane B give up with reason TEST when stable, or is
    REFUSED. -/
  | testGuB (req : Req)
/-- NOCLAIM_POLICY (R165). 100 µs without a claim for a channel applies its no-claim policy and records 0x2031.
    -/
  | noclaimPolicy (stage : Fin 48)
/-- HOLD_WINDOW_END (R166). At the end of HOLD_WIN a channel under HOLD acts as OFF. -/
  | holdWindowEnd (stage : Fin 64)
/-- FRAME_BOUNDARY (R23). At each frame boundary the module applies commits, setpoint sets, ISP shadows,
    exposures and the panel refresh in order. -/
  | frameBoundary
/-- MAILBOX_POST (R18). The application cluster fills the inactive mailbox buffer and sets its ready flag for
    the next swap. Each value names its SIG entry (798–959), the value, its VALID bit and the tick it was
    produced in. -/
  | mailboxPost (values : List (Nat × F32 × Bool × Nat))
/-- SRAM_ACCESS_VIOLATION (R27). An SRAM access outside its rights ends in a bus error and records 0x1030. -/
  | sramAccessViolation (req : Req) (addr : Nat) (write : Bool)
/-- ECC_ERROR (R30). A memory read finds a single-bit error to correct or a double-bit error to report. -/
  | eccError (req : Req) (addr : Nat) (double : Bool)
/-- SCRUB_PASS (R31). The scrubber reads SRAM and DRAM words and corrects single-bit errors. Each finding is an
    address, and true for a double-bit error. -/
  | scrubPass (found : List (Nat × Bool))
/-- CLK_TICK_READ (R47). A read of CLK_TICK_LO latches tick, cycle and time for the reading core. -/
  | clkTickRead (req : Req) (cycle : Fin 20000)
/-- HOLDOVER_ENTRY (R51). 10 epochs without a valid solution move LOCKED to HOLDOVER. -/
  | holdoverEntry
/-- HOLDOVER_LIMIT (R51). Time in HOLDOVER reaching CLK_HOLD_LIM moves the status to FREE_RUN. -/
  | holdoverLimit
/-- STEP_SETTLE (R51). 400 ticks after a step the status returns to LOCKED. -/
  | stepSettle
/-- LEAP_SECOND (R49). At the leap time each module updates GPS_UTC, clears PEND and records 0x1052. -/
  | leapSecond
/-- ALIGN_REACHED (R55). 400 consecutive ticks within 12 ns move a worker to ALIGNED and record 0x1042. -/
  | alignReached
/-- ALIGN_LOST (R55). 4 ticks without a tick edge on either Ecnil port move the worker to LOST. -/
  | alignLost
/-- CLOCK_MONITOR_FAULT (R57). A clock domain monitor faults; TICK or REF faults stop both lanes and lead to a
    WARM reset. `domain` is a bit number of CLK_DOM_FAULT. -/
  | clockMonitorFault (domain : Fin 13)
/-- LOCK_REQUEST (R66). A write to FUN_LOCK_SET requests function locks for the next frame boundary. -/
  | lockRequest (req : Req) (bits : Word)
/-- UNLOCK_REQUEST (R66). A write to FUN_LOCK_CLR requests function unlocks for the next frame boundary. -/
  | unlockRequest (req : Req) (bits : Word)
/-- QUAD_ILLEGAL_TRANSITION (R70). Both quadrature lines change in one sample: VALID = 0 for that tick and
    0x3802. -/
  | quadIllegalTransition (p : Fin 24)
/-- UIN_FAULT (R72). An input out of range sets VALID = 0, latches its fault bit and records 0x3800. `value` is
    the out-of-range value. -/
  | uinFault (n : Fin 48) (value : F32)
/-- UIN_FAULT_CLEARED (R72). 400 ticks in range return VALID and record 0x3801. -/
  | uinFaultCleared (n : Fin 48)
/-- EDGE_TIMEOUT (R69). No edge for TOUT × 0.1 s sets the frequency value to 0 Hz. -/
  | edgeTimeout (n : Fin 48)
/-- INDEX_MISSING (R70). 2 × N pulses without an index edge make an input fault on both entries of the pair. -/
  | indexMissing (p : Fin 24)
/-- INDEX_EDGE (R71). An index edge resets the angle zero and sets FIRST on the angle entry. `pulses` are the
    pulses since the last T that came before the edge. -/
  | indexEdge (p : Fin 24) (pulses : Nat)
/-- LOSS_IMPACT (R74). A loss input impact is tracked, classed KERNEL, OTHER or SATURATED and counted. `peak` is
    in units of 1/32,768 of full scale, `rise` in samples of 4 µs, `gap` in units of 40 µs since the last
    impact. -/
  | lossImpact (n : Fin 16) (peak : Nat) (rise : Nat) (gap : Nat)
/-- LOSS_SILENT (R76). 60 s without a KERNEL impact at high flow sets VALID = 0 and records 0x3811. -/
  | lossSilent (n : Fin 16)
/-- FLOW_ZERO (R79). A write of 1 to FUN_CTL.FLOW_ZERO starts a 400-tick zero capture. -/
  | flowZero (req : Req)
/-- FLOW_ZERO_DONE (R79). The zero capture ends SERVED or REFUSED and records 0x3823 or 0x3822. -/
  | flowZeroDone
/-- LOAD_CLR (R112). A write of 1 to LEA_CTL.LOAD_CLR clears LEA_LOAD.MAX. -/
  | loadClr (req : Req) (lane : Lane)
/-- SNAP_REQ (R113). A write of 1 to LEA_CTL.SNAP_REQ sets BUSY and takes a snapshot at cycle 17,600 of the next
    tick. -/
  | snapReq (req : Req) (lane : Lane)
/-- SNAP_DONE (R113). The snapshot completes, VALID becomes 1 and SNAP_DONE is set. -/
  | snapDone (lane : Lane)
/-- SWG_ENABLE (R135). A write of SWG_CTL.ENABLE moves Swing search from OFF to PRESET. `disable` is the DISABLE
    bit of the same write (R148). -/
  | swgEnable (req : Req) (disable : Bool)
/-- SWG_DISABLE (R135). A write of SWG_CTL.DISABLE sends a set with amplitude 0 and moves to OFF. -/
  | swgDisable (req : Req)
/-- SWG_RESTART (R135). A write of SWG_CTL.RESTART clears the window and TRACK_FAIL exclusions. -/
  | swgRestart (req : Req)
/-- COST_FRAME (R139). When a frame's statistics are ready Swing search computes its cost J and judges steady
    flow. -/
  | costFrame (frame : Nat)
/-- STEADY_REACHED (R136). 1,000 steady frames move PRESET or HOLD to FILL with a start set. -/
  | steadyReached
/-- SWING_UPDATE (R143). At each update boundary Swing search fits the window and moves the bases of functions
    with used gradients. -/
  | swingUpdate
/-- SET_POST (R144). Swing search places the setpoint set in the manager's mailbox for apply tick U + 800. -/
  | setPost
/-- SET_MISSED (R144). A set not in the mailbox by U + 790 is discarded and counted in SWG_MISS_CNT. -/
  | setMissed
/-- LEASE_LOST (R138). A lease AGE above 800 ticks makes the lanes end the dither at the next zero crossing. -/
  | leaseLost
/-- DITHER_END (R138). At the first tick that idx crosses 0 or 600,000 the target returns to the base. -/
  | ditherEnd (j : Fin 8)
/-- OPERATOR_SETPOINT (R146). An operator setpoint becomes the function's base at the next set and restarts the
    dither. -/
  | operatorSetpoint (f : Fin 30) (value : F32)
/-- BOOST_DECISION (R179). The die decides waiting boost requests by priority and free energy at T and every 1
    µs. `us` is the 1 µs step after T; `flow` the energy drawn from and returned to the rail since T; `drawn`
    the energy in J each of the four channels has taken in its BOOST. -/
  | boostDecision (bank : Fin 4) (us : Fin 50) (flow : RailIn) (drawn : List F32)
/-- BOOST_REQUEST_REFUSED (R179). A request not served within DEFER_WIN is REFUSED and records 0x4001. As at
    BOOST_DECISION, for the channel's bank. -/
  | boostRequestRefused (n : Fin 16) (us : Fin 50) (flow : RailIn) (drawn : List F32)
/-- BOOST_END (R181). BOOST ends at I_PEAK or T_BOOST, the reservation is released and time to peak recorded.
    `reached` says that the current reached I_PEAK. -/
  | boostEnd (n : Fin 16) (us : Fin 50) (reached : Bool) (flow : RailIn)
/-- PEAK_END (R181). T_PEAK after BOOST the current falls to I_HOLD with OFF_PEAK. -/
  | peakEnd (n : Fin 16) (us : Fin 50) (flow : RailIn)
/-- MOTION_KINK (R184). The armature kink in HOLD gives the motion time in VLV_CH_MOT. `time` is the time in µs
    from the start of BOOST to the kink. -/
  | motionKink (n : Fin 16) (time : Nat)
/-- MOTION_TIMEOUT (R184). No kink by MOT_MAX writes 0xFFFF, records 0x4004 and counts a fault event. -/
  | motionTimeout (n : Fin 16) (us : Fin 50)
/-- VLV_OPEN_LOAD (R187). Open load switches the valve channel off until its next new command. `meas` is the
    current in A at the end of BOOST, or the resistance in kΩ that the off-state test current finds. -/
  | vlvOpenLoad (n : Fin 16) (offTest : Bool) (meas : F32)
/-- VLV_OVERCURRENT (R187). A switch current above 15 A opens both switches within 5 µs. -/
  | vlvOvercurrent (n : Fin 16) (peak : F32)
/-- HOLD_CURRENT_LOW (R187). HOLD current below 0.9 × I_HOLD for 1 ms counts a fault event. -/
  | holdCurrentLow (n : Fin 16) (current : F32)
/-- BOOST_CONVERTER_FAILURE (R187). A rail below half V_BOOST for 10 ms refuses every request of the bank. -/
  | boostConverterFailure (bank : Fin 4)
/-- VLV_DIE_OVERTEMP (R187). A junction above 175 °C switches off all channels and the converter of the die. `n`
    is the channel whose junction is hot; its die is the bank. -/
  | vlvDieOvertemp (n : Fin 16) (junction : F32)
/-- PROP_CURRENT_FAULT (R185). A proportional mean current out of tolerance for 400 ticks records 0x400C. -/
  | propCurrentFault (n : Fin 16)
/-- VLV_CLR (R187). A write of 1 to a VLV_CLR bit releases a LASTING valve channel. -/
  | vlvClr (req : Req) (bits : Word)
/-- BUDGET_DECISION (R194). At each T the acting arbiter serves waiting requests by priority within the budget
    limit. -/
  | budgetDecision
/-- SWITCH_ON_REFUSED (R194). A request not served within DEFER_WIN is REFUSED and records 0x5001. -/
  | switchOnRefused (n : Fin 32)
/-- ARBITER_CHANGE (R196). The acting budget arbiter moves to the next quad and records 0x500E. -/
  | arbiterChange
/-- INRUSH_END (R197). INR_WIN after the first rising edge the overload ceiling falls to 1.25 × I_NOM. -/
  | inrushEnd (n : Fin 32)
/-- PSW_SHORT (R198). Current above the short threshold switches the channel off within 10 µs. -/
  | pswShort (n : Fin 32) (peak : F32)
/-- PSW_OVERLOAD (R198). Current above the ceiling for the overload time switches the channel off. `ovr` is the
    overload time of the present tick in cycles, since its last return to 0, and `again` says that it returned
    to 0 in this tick. -/
  | pswOverload (n : Fin 32) (current : F32) (ovr : Nat) (again : Bool)
/-- DT_LIMIT (R198). Junction minus case above DT_LIM switches the channel off. -/
  | dtLimit (n : Fin 32) (caseT dt : F32)
/-- JUNCTION_OVERTEMP (R198). A switch junction above 175 °C switches the channel off. -/
  | junctionOvertemp (n : Fin 32) (junction : F32)
/-- PSW_OPEN_LOAD (R198). An open load sets PSW_CH_STAT.OPEN without affecting the channel. `meas` is the
    resistance in kΩ that the off-state test current finds. -/
  | pswOpenLoad (n : Fin 32) (onState : Bool) (meas : F32)
/-- CASE_RISE (R198). A die case rise above 5 K in 1 s records 0x500D. -/
  | caseRise (q : Fin 8) (start stop : F32)
/-- PSW_RETRY (R200). After RETRY ms and the release condition the channel switches on again at a period start.
    -/
  | pswRetry (n : Fin 32) (dt junction : F32)
/-- PSW_CLR (R200). A write of 1 to a PSW_CLR bit releases a LASTING switch channel. -/
  | pswClr (req : Req) (bits : Word)
/-- CLAMP_PULSE (R201). A clamp pulse is measured and can set CLAMP_LOCK. `energy` is in units of 0.1 mJ. -/
  | clampPulse (n : Fin 32) (energy : Nat)
/-- CLAMP_LOCK_RELEASE (R201). The lock ends at the first T 10 s after it with duty 0 and records 0x5009. -/
  | clampLockRelease (n : Fin 32)
/-- ANTENNA_SHORT (R210). Overcurrent or undervoltage for 1 ms turns the antenna bias off and records 0x6001.
    `low` says that the output lay below 80 % of the set voltage. -/
  | antennaShort (a : Fin 2) (mA : Nat) (low : Bool)
/-- ANTENNA_TRIAL (R210). 1 s after a short the bias is turned on again for a trial. -/
  | antennaTrial (a : Fin 2)
/-- ANTENNA_OPEN (R210). Bias current below 2 mA for 1 s records OPEN. -/
  | antennaOpen (a : Fin 2) (mA : Nat)
/-- ANTENNA_OK (R210). Current within limits for 1 s returns the bias to OK and records 0x6003. -/
  | antennaOk (a : Fin 2) (mA : Nat)
/-- ANT_RETRY (R210). A write of GNS_CTL.ANT_RETRY starts a trial of each SHORT bias at once. -/
  | antRetry (req : Req)
/-- COLD_START_REQUEST (R216). A write of GNS_CTL.COLD discards saved data and starts COLD. -/
  | coldStartRequest (req : Req)
/-- ANT1_SUBSTITUTE (R211). ANT0 weak for 5 s with ANT1 good moves position to ANT1 and sets SUBST. -/
  | ant1Substitute
/-- ANT0_RESTORE (R211). ANT0 good for 5 s returns the position solution to ANT0. -/
  | ant0Restore
/-- NOTCH_ENGAGE (R212). A narrowband component above NOTCH_THR engages a notch and records 0x6012. -/
  | notchEngage (a : Fin 2) (b : Fin 3) (freq : Int) (level : Nat)
/-- NOTCH_RELEASE (R212). A component below threshold for 100 ms releases its notch. -/
  | notchRelease (a : Fin 2) (b : Fin 3) (k : Fin 4) (level : Nat)
/-- GNSS_EPOCH (R221). At each epoch boundary the baseband latches the measurements of all channels and updates
    jamming indicators. -/
  | gnssEpoch (meas : List EpochMeas) (bands : List BandMeas)
/-- BAND_RETURN (R213). 20 epochs at or below JAM_LIM − 16 return the band and record 0x6011. -/
  | bandReturn (a : Fin 2) (b : Fin 3)
/-- SEARCH_COMPLETE (R214). An acquisition search ends and a detected cell is handed to a tracking channel.
    `power` is the strongest cell above the noise, × 0.1 dB; `carr` and `code` the NCO words of its Doppler and
    code. -/
  | searchComplete (sig sv : Nat) (ant : Fin 2) (power : Nat) (carr code : Word)
/-- NAV_DATA_SAVE (R216). Ephemeris, almanac and position are journalled to the eMMC after a change. -/
  | navDataSave (failed : Bool)
/-- DUMP_LATCH (R218). At the end of an interval a channel latches its correlator sums and sets DUMP_RDY. -/
  | dumpLatch (c : Fin 384) (sums : List (Int × Int))
/-- TRACKING_LOOP_PERIOD (R219). Every 20 ticks GN0 and GN1 read the dumps and write NCO words. `plan` holds the
    signals, satellites and antennas whose acquisition GN1 schedules. -/
  | trackingLoopPeriod (upds : List TrackUpd) (plan : List (Nat × Nat × Fin 2))
/-- NCO_WRITE (R219). A write to a shadow NCO word takes effect at the next interval and counts supersessions.
    -/
  | ncoWrite (req : Req) (c : Fin 384) (codeNco : Bool) (value : Word)
/-- LOCK_LOSS (R220). Low lock indicator or C/N0 for 100 ms makes the channel coast. -/
  | lockLoss (c : Fin 384)
/-- COAST_EXPIRE (R220). After 2 s of coasting the channel is freed and an aided search queued. -/
  | coastExpire (c : Fin 384)
/-- SOLUTION_READY (R222). GN0 completes the epoch solution within 300 ticks, sets GNS_EVT.SOL and posts it. -/
  | solutionReady (sol : Solution)
/-- GNS_SOL_READ (R233). A read of GNS_SOL_TICK_LO latches the solution record for the reading core. -/
  | gnsSolRead (req : Req)
/-- RTCM_MESSAGE (R224). An RTCM 3.3 message is accepted or refused by type and used for corrections. `ntrip` is
    a frame from the NTRIP client; none takes the next frame assembled from CAN. -/
  | rtcmMessage (ntrip : Option (List Byte))
/-- RTCM_CAN_FRAME (R225). A CAN FD frame of the RTCM stream is assembled by sequence number. -/
  | rtcmCanFrame (port : Fin 6) (ext : Bool) (id : Nat) (data : List Byte)
/-- CORR_SOURCE_SWITCH (R226). 2 s without observations from the preferred source switches to the other and
    records 0x6030. -/
  | corrSourceSwitch
/-- CORR_AGE_OUT (R226). Corrections older than CORR_AGE_MAX are dropped and the fix falls back. -/
  | corrAgeOut
/-- TP0_EDGE (R229). TP0 rises at each multiple of the period of module time. -/
  | tp0Edge (cycle : Fin 20000)
/-- STREAM_FRAME (R238). A camera stream frame is accepted or dropped and processed by the pipeline. -/
  | streamFrame (n : Fin 6) (inp : StreamIn)
/-- FRAME_LATE (R239). A frame whose last line arrives after 20 ms is dropped and records 0x7004. -/
  | frameLate (n : Fin 6) (frame : Nat)
/-- PORT_ABSENT (R239). 3 missed exposures make a camera port ABSENT. -/
  | portAbsent (n : Fin 6)
/-- CAM_LINK_DOWN (R239). A camera link that goes down records 0x7001. -/
  | camLinkDown (n : Fin 6)
/-- EXPOSURE_COMMAND (R241). At B − 300 the pipeline sends the exposure message for boundary B. -/
  | exposureCommand (n : Fin 6)
/-- STATS_WRITTEN (R244). The pipeline writes frame n's image and statistics record to its DRAM ring. -/
  | statsWritten (n : Fin 6) (frame : Nat)
/-- ISP_SHADOW_WRITE (R245). A write to an ISP_SH register goes to the shadow, superseding an earlier write. `r`
    counts the words from ISP_SH_EXP to ISP_SH_ROI. -/
  | ispShadowWrite (req : Req) (n : Fin 6) (r : Fin 11) (value : Word)
/-- LIDAR_SWEEP (R256). A LiDAR sweep arrives and is used or set ABSENT by its azimuth-0 time. `offset` is the
    azimuth-0 time less its boundary, ns. -/
  | lidarSweep (u : Fin 2) (offset : Int)
/-- RESULT_ISSUE (R259). Fusion issues frame n's result when all contributions are processed or at 400n + 800.
    -/
  | resultIssue (inp : ResultIn)
/-- LATE_SAMPLE (R266). A late sensor sample is applied out of sequence or dropped. `t` is the sample's time of
    validity in ticks. -/
  | lateSample (t : Nat) (obs : List TrackObs)
/-- FUS_RES_READ (R261). A read of FUS_RES_FRAME_LO latches the last result set for the reading core. -/
  | fusResRead (req : Req)
/-- ENGAGE (R273). FUS_CTL.ENGAGE engages guidance or is REFUSED. `disengage` is the DISENGAGE bit of the same
    write (R277). -/
  | engage (req : Req) (disengage : Bool)
/-- DISENGAGE (R273). FUS_CTL.DISENGAGE returns guidance to IDLE with the fallbacks. -/
  | disengage (req : Req)
/-- RESUME (R273). FUS_CTL.RESUME returns STOPPED to ENGAGED when no obstacle was seen. -/
  | resume (req : Req)
/-- GUIDANCE_FALLBACK (R274). A GUIDANCE target that is unusable or too old makes the home lane apply the
    fallback. -/
  | guidanceFallback (f : Fin 30)
/-- UNL_REQ (R275). FUS_CTL.UNL_REQ starts unloading on the go toward RENDEZVOUS. `stop` is the UNL_STOP bit of
    the same write (R277). -/
  | unlReq (req : Req) (stop : Bool)
/-- UNL_CONFIRM (R275). FUS_CTL.UNL_CONFIRM moves ALIGNED to UNLOADING. `stop` is the UNL_STOP bit of the same
    write (R277). -/
  | unlConfirm (req : Req) (stop : Bool)
/-- UNL_STOP (R275). FUS_CTL.UNL_STOP ends or aborts unloading. -/
  | unlStop (req : Req)
/-- UNLOAD_ENDING_DONE (R275). 2 s after F21 reaches 0 % unloading returns to IDLE. -/
  | unloadEndingDone
/-- MAP_UPDATE_BOUNDARY (R284). At each map-update boundary the lane posts a map sample and life counters
    accumulate. `drained`: the bytes that have left the posted write buffer for DRAM since the last sample (R28,
    R29). -/
  | mapUpdateBoundary (drained : Nat)
/-- MAP_UPDATE_PROCESS (R295). When the result arrives the engine sweeps, attributes, adapts the kernel, counts,
    seals and journals. `deferred` counts the DRAM requests that waited longer than 2 µs (R29). -/
  | mapUpdateProcess (deferred : Nat)
/-- JOURNAL_COMMIT (R297). A journal write of sealed blocks to the eMMC completes or fails. `full`: the map
    store is found full (R298). -/
  | journalCommit (failed full : Bool)
/-- TILE_LOADED (R296). A tile finishes loading and its queued increments are applied. `bad` are the blocks that
    fail authentication (R298). -/
  | tileLoaded (n : Fin 512) (bad : List (Fin 256))
/-- JOURNAL_NOW (R297). MAP_CTL.JOURNAL_NOW makes the next update a journal update. -/
  | journalNow (req : Req)
/-- KER_RESET (R290). MAP_CTL.KER_RESET puts the nominal kernel in force from the next update. -/
  | kerReset (req : Req)
/-- FIELD_CLOSE (R279). MAP_CTL.FIELD_CLOSE closes the open field at the next update. -/
  | fieldClose (req : Req)
/-- TILE_EXPORT (R301). A service-port request exports a tile's sealed cells. -/
  | tileExport (field : Nat) (tx ty : Int)
/-- FIELD_DELETE (R298). A service-port command deletes a field from the map store. -/
  | fieldDelete (field : Nat)
/-- PRESENCE_POLL (R308). Every 100 ms each attachment port polls presence. `present` are the ports with an
    element. -/
  | presencePoll (present : List (Fin 4))
/-- AUTHENTICATION (R307). An element authentication ends AUTH_OK, FAILED or WRONG_KIND. -/
  | authentication (p : Fin 4) (elem : ElementIn)
/-- PERIODIC_REAUTH (R307). Every 600 s each port authenticates its element again. -/
  | periodicReauth (p : Fin 4)
/-- REAUTH (R307). A write to ATT_CTL.REAUTH authenticates a port now. -/
  | reauth (req : Req) (bits : Fin 16)
/-- COUNTER_WRITE (R312). Every 60 s the module writes whole accumulated units to the element. `confirmed` are
    the ports whose element confirms the write. -/
  | counterWrite (confirmed : List (Fin 4))
/-- ECNIL_FRAME (R318). A module receives a tick frame, repeats it and takes signal windows, status and probes.
    `port` is 0 ring in, 1 ring out. -/
  | ecnilFrame (port : Fin 2) (frame : EcnFrame)
/-- ANNOUNCE (R329). An ANNOUNCE message arrives; another manager's stops or isolates this one. -/
  | announce (port : Fin 2) (serial : Nat)
/-- JOIN (R330). A JOIN message reaches the manager, which admits or refuses it. -/
  | join (pos : Fin 8) (serial : Nat) (orderB : Bool) (fw sysId persistGen : Nat)
/-- ADMIT (R330). An ADMIT message sets the worker's join tick, or isolates it. -/
  | ecnAdmit (pos : Fin 8) (tick : Nat) (tbase : Int) (replay : Bool)
/-- REFUSE (R330). A REFUSE message moves the worker to REFUSED. -/
  | ecnRefuse (pos : Fin 8) (reason : Fin 5)
/-- SET (R324). A SET message carries a setpoint set for its apply tick. -/
  | ecnSet (gen apply : Nat) (items : List (Option SwgItem))
/-- COMMIT_MESSAGE (R384). A COMMIT message part carries a commit's items to a worker. -/
  | commitMessage (part : CommitPart)
/-- ACK (R324). An ACK message confirms a worker holds a complete message. -/
  | ecnAck (pos : Fin 8) (gen : Nat)
/-- STEP (R325). A STEP message schedules a time step at the named boundary. -/
  | ecnStep (amount : Int) (boundary : Nat)
/-- LEAP (R325). A LEAP message updates the worker's leap-second registers. -/
  | ecnLeap (table : LeapTable)
/-- RESET (R333). A RESET message makes the named worker perform an ECNIL reset at the next T. -/
  | ecnReset (pos : Fin 8)
/-- MODE (R332). A MODE message returns the ring to RING at its apply tick. -/
  | ecnMode (gen apply : Nat)
/-- ABORT_CHECK (R324). A missing ACK at the end of A − 3 sets ABORT in the next two headers. -/
  | abortCheck
/-- GEN_CHECK (R324). At A + 1 the manager compares each worker's GEN and records 0x9108. -/
  | genCheck
/-- PORT_DOWN (R332). 4 ticks without a valid header make an Ecnil port DOWN and change the ring mode. `down` is
    the number of hops DOWN. -/
  | portDown (port : Fin 2) (down : Fin 9)
/-- PORT_UP (R332). 400 ticks of valid headers and probes make a port UP. -/
  | portUp (port : Fin 2) (down : Fin 9)
/-- WORKER_RESET_REQUEST (R333). A write of ECN_CTL.RESET sends RESET to RESET_POS or is REFUSED. -/
  | workerResetRequest (req : Req) (pos : Fin 8)
/-- MANAGER_LISTEN_END (R329). After 40 ticks of listening the manager sends its first frame. -/
  | managerListenEnd
/-- JOIN_SEND (R330). 16 valid headers and probe results move a worker to JOINING and send JOIN. -/
  | joinSend (port : Fin 2)
/-- JOIN_TIMEOUT (R330). No answer within 400 ticks returns JOINING to SEEK. -/
  | joinTimeout
/-- REFUSED_TIMEOUT (R330). 20,000 ticks in REFUSED return to SEEK. -/
  | refusedTimeout
/-- JOIN_TICK (R44). At the join tick the worker loads count, phase and tbase_ns and becomes JOINED. -/
  | joinTick
/-- REJOIN (R330). A marker after LOST rejoins the worker or isolates it on a differing count. -/
  | rejoin
/-- CLAIMS_ENABLE (R424). Claims are enabled once the join conditions hold, with RESUME = 1. -/
  | claimsEnable
/-- JOIN_WAIT_EXPIRE (R331). JOIN_WAIT after its first frame the manager enables claims with positions missing.
    -/
  | joinWaitExpire
/-- JOIN_LATE (R331). A worker not joined 1 s after its first valid header records 0x9107. -/
  | joinLate
/-- CAN_FRAME_RECEIVE (R341). A received CAN frame is time-stamped and fed to signal maps, RTCM or raw delivery.
    -/
  | canFrameReceive (port : Fin 6) (frame : CanFrame)
/-- SIGNAL_TIMEOUT (R342). No matching frame for TIMEOUT sets VALID = 0 and records 0x9206. `k` counts from
    SIG[192]. -/
  | signalTimeout (k : Fin 256)
/-- TX_MESSAGE_DUE (R344). At its period and phase a transmit message is encoded and queued. -/
  | txMessageDue (m : Fin 32)
/-- CAN_TX_COMPLETE (R346). The head frame is transmitted SERVED or DEFERRED. `tec` is the error count after it
    (ISO 11898-1). -/
  | canTxComplete (port : Fin 6) (express : Bool) (tec : Fin 256)
/-- CAN_TX_RETRY (R349). A lost arbitration or error offers the head again or REFUSES it at the retry limit.
    `error`: a transmit error, otherwise a lost arbitration. -/
  | canTxRetry (port : Fin 6) (express : Bool) (error : Bool) (tec : Fin 256)
/-- HOQ_LIMIT (R348). The head's age passing HOQ_LIM records 0x920D. -/
  | hoqLimit (port : Fin 6)
/-- BUS_OFF (R351). A port enters bus-off and records 0x9201. -/
  | busOff (port : Fin 6) (tec : Fin 256)
/-- BUS_OFF_HOLD_END (R351). After BOFF_HOLD × 10 ms the port starts bus-off recovery. -/
  | busOffHoldEnd (port : Fin 6)
/-- BUS_OFF_RECOVERED (R351). The port returns to error active and records 0x9202. -/
  | busOffRecovered (port : Fin 6)
/-- RECOVER (R351). A write of CAN_CTL.RECOVER starts bus-off recovery now. -/
  | canRecover (req : Req) (bits : Fin 64)
/-- FLUSH (R346). A write of CAN_CTL.FLUSH discards a port's FIFO, each frame REFUSED. -/
  | canFlush (req : Req) (bits : Fin 64)
/-- ADDRESS_CLAIMED (R353). 250 ms without a contending claim makes the address CLAIMED. -/
  | addressClaimed (port : Fin 6)
/-- CONTENDING_CLAIM (R353). A contending address claim is answered by NAME priority. -/
  | contendingClaim (port : Fin 6) (addr : Fin 254) (name : Nat)
/-- CANNOT_CLAIM_SEND (R353). After the random delay the port sends cannot-claim from address 254. -/
  | cannotClaimSend (port : Fin 6)
/-- COMMANDED_ADDRESS (R353). A commanded address for this NAME restarts the claim. -/
  | commandedAddress (port : Fin 6) (name : Nat) (addr : Fin 254)
/-- NO_ADDRESS_TIMEOUT (R353). After 250 ms in CANNOT_CLAIM FIFO entries are REFUSED with NO_ADDRESS. -/
  | noAddressTimeout (port : Fin 6)
/-- J1939_TRANSPORT (R352). A J1939 transport message is received, reassembled or aborted. -/
  | j1939Transport (port : Fin 6) (ev : TpEvent)
/-- DM1_SEND (R352). DM1 is sent every 1 s and on change. -/
  | dm1Send (port : Fin 6) (content : List Byte)
/-- CAN_SLEEP (R354). At the drain limit remaining frames are REFUSED with SLEEP and the transceiver sleeps. -/
  | canSleep (port : Fin 6)
/-- TXS_NOCLAIM_POLICY (R345). A transmit signal without a claim for 100 µs applies its policy and records
    0x920B. -/
  | txsNoclaimPolicy (sig : Fin 16)
/-- ETH_LINK_CHANGE (R372). An Ethernet link goes down or up. `sqi` is the quality before a loss, or of the new
    link. -/
  | ethLinkChange (p : Fin 10) (up : Bool) (sqi : Fin 8)
/-- PTP_FOREIGN (R359). A foreign Announce or Sync is discarded and counted. -/
  | ptpForeign (p : Fin 10)
/-- PTP_SYNC (R359). Sync is sent every 125 ms on asCapable gPTP ports. -/
  | ptpSync (p : Fin 10)
/-- TLS_HANDSHAKE (R361). A TLS 1.3 handshake completes or fails. `conn` is 0 fleet, 1 NTRIP, 2 service. -/
  | tlsHandshake (conn : Fin 3) (ok : Bool) (alert : Nat)
/-- FLEET_CONNECT (R363). The MQTT connection comes up and publishes status. -/
  | fleetConnect
/-- FLEET_DISCONNECT (R369). The fleet connection is lost and the backoff starts. `why` is 0 broker, 1 link, 2
    keep-alive. -/
  | fleetDisconnect (why : Fin 3)
/-- RECONNECT_ATTEMPT (R369). A backoff expires and a fleet or NTRIP connection attempt starts. -/
  | reconnectAttempt (ntrip : Bool)
/-- FLEET_RECONNECT (R369). ETH_CTL.FLEET_RECONNECT starts a fleet connection attempt now. -/
  | fleetReconnect (req : Req)
/-- NTRIP_RECONNECT (R369). ETH_CTL.NTRIP_RECONNECT starts an NTRIP connection attempt now. -/
  | ntripReconnect (req : Req)
/-- TILE_SYNC (R367). ETH_CTL.TILE_SYNC, TILE_INT or field close publishes pending tile deltas. A write of
    ETH_CTL.TILE_SYNC, or none for TILE_INT or the close of the field. -/
  | tileSync (req : Option Req)
/-- FLEET_INBOUND (R365). An inbound fleet message is checked and passed on or discarded. -/
  | fleetInbound (payload : List Byte)
/-- UOFFER (R366). An in/uoffer within 60 s is accepted and answered with uacc. -/
  | uoffer (hdr : FleetHdr) (capacity arrival : Nat)
/-- UEND (R366). An in/uend from the accepted cart is treated as UNL_STOP. -/
  | uend (hdr : FleetHdr) (reason : Fin 256)
/-- TGET (R367). An in/tget is answered with a full tile export. -/
  | tget (hdr : FleetHdr) (field : Nat) (tx ty : Int)
/-- CFG_REQUEST (R365). An in/cfg request is verified and passed to the transaction machine or refused. -/
  | cfgRequest (sigOk : Bool) (op : CfgOp)
/-- CART_POS (R366). A cart pos message is taken as a track-level sample. -/
  | cartPos (hdr : FleetHdr) (lat lon height : Int) (heading speed fix stat : Nat)
/-- PUBACK (R367). A PUBACK for the last chunk acknowledges a tile delta. -/
  | puback (seq chunk : Nat)
/-- PERIODIC_PUBLISH (R364). pos and tank are published at their rates. `fill` × 0.1 % and `mass`, kg, of the
    tank. -/
  | periodicPublish (tank : Bool) (fill mass : Nat)
/-- UREQ_LAPSE (R366). 60 s without an offer lapses the unloading request. -/
  | ureqLapse
/-- PUBLICATION_EXPIRE (R368). A queued ureq, uacc, uend or cfgr is REFUSED after 60 s. -/
  | publicationExpire
/-- NTRIP_REPLY (R370). The caster replies and the stream starts or the connection fails. -/
  | ntripReply (ok : Bool) (status : Nat)
/-- NTRIP_SILENCE (R370). 5 s without a byte closes the NTRIP connection. -/
  | ntripSilence
/-- GGA_SEND (R370). Every 10 s the client sends a GGA sentence. -/
  | ggaSend
/-- BEGIN (R382). BEGIN opens a transaction on its regions or is answered BUSY or REFUSED. `owner` is 0 service
    port, 1 cab terminal, 2 fleet. -/
  | cfgBegin (owner : Fin 3) (mask : Nat)
/-- STAGE (R382). STAGE adds an item to the staging buffer or is REFUSED. -/
  | stage (owner : Fin 3) (handle : Nat) (item : CfgItem)
/-- COMMIT (R382). COMMIT starts validation of the staged configuration. -/
  | commit (owner : Fin 3) (handle : Nat) (persist : Bool)
/-- VALIDATION_DONE (R383). Validation ends and the transaction becomes APPLYING with an apply tick or stays
    STAGING. `remote` is the first item that fails on another position. -/
  | validationDone (remote : Option (Fin 1024))
/-- ROLLBACK (R382). ROLLBACK discards staged items and returns the regions to IDLE. -/
  | rollback (owner : Fin 3) (handle : Nat)
/-- STAGING_TIMEOUT (R382). 120 s without a request rolls the transaction back. -/
  | stagingTimeout
/-- REQUESTER_DISCONNECT (R382). A lost requester connection rolls the staging transaction back. -/
  | requesterDisconnect (owner : Fin 3)
/-- PERSIST_DONE (R390). A DERIVED image write ends, recording 0xA007 or 0xA008. -/
  | persistDone (failed : Bool)
/-- BASE_IMAGE_WRITE (R379). A new BASE image is written to the unused slot or REFUSED. -/
  | baseImageWrite (image : ImageIn)
/-- MANIFEST (R395). A manifest is accepted into RECEIVING or REFUSED. -/
  | manifest (man : ManifestIn)
/-- PART_HEADER (R397). A part header is checked and the part accepted or REFUSED. -/
  | partHeader (part : PartIn)
/-- PART_PAYLOAD (R398). An accepted payload is written and verified against its hash. SHA-384 of the payload
    that arrived. -/
  | partPayload (hash : Nat)
/-- RECEPTION_TIMEOUT (R398). 600 s without a request abandons the reception. -/
  | receptionTimeout
/-- ABANDON (R401). ABANDON clears the staging slots and returns to IDLE. -/
  | updAbandon
/-- UPDATE_ACTIVATE (R402). ACTIVATE arms the update with apply tick G or is REFUSED by an interlock. `remote`
    holds the interlocks that fail on other modules. -/
  | updateActivate (remote : Fin 256)
/-- UPDATE_CONFIRM (R409). The CONFIRM command confirms the update. -/
  | updateConfirm
/-- UPDATE_FALLBACK (R410). The FALLBACK command starts a fall-back to the old slots. `remote` as for
    UPDATE_ACTIVATE. -/
  | updateFallback (remote : Fin 256)
/-- DATA (R400). A DATA operation carries 22 bytes of a part to a worker. `check`, at the end of a part: whether
    it verifies, and its release. -/
  | updData (entry : Fin 64) (offset : Nat) (bytes : List Byte) (check : Option (Bool × Nat))
/-- STAGED (R400). A STAGED operation reports a worker's part result. -/
  | staged (pos : Fin 8) (entry : Fin 64) (result : Fin 3) (offset : Nat)
/-- GO (R403). A GO operation tells workers the slot and apply tick. -/
  | updGo (gen apply : Nat) (slot : Fin 2)
/-- DONE (R404). A DONE operation reports a module's activation result. -/
  | updDone (pos : Fin 8) (result : Fin 2)
/-- UPD_COMMIT (R407). A COMMIT operation marks the new slot as the start slot. `dual`: the manifest marks a
    data class as changed. -/
  | updCommit (dual : Bool)
/-- FALLBACK (R410). A FALLBACK operation orders activation of the old slots. -/
  | updFallbackOp (gen apply : Nat)
/-- LASTING (R409). A LASTING operation reports a worker's LASTING fault and resets confirmation. -/
  | updLasting (pos : Fin 8) (code : Word)
/-- CONFIRM (R409). A CONFIRM operation frees old slots and takes the floor. `floor` is the manifest's rollback
    floor. -/
  | updConfirmed (floor : Word)
/-- ACTIVATION_GO_TICK (R404). At G each module starts the lane handover and restarts its cluster and GNSS. -/
  | activationGoTick
/-- ACTIVATION_TIMEOUT (R401). A DONE missing at G + 200,000 ticks starts a fall-back. -/
  | activationTimeout
/-- HARVEST_CONFIRM (R409). 1,800 s of harvesting without LASTING confirms the update. -/
  | harvestConfirm
/-- POWER_ON (R414). A supply rising through its threshold resets everything and starts bring-up at step 1. -/
  | powerOn
/-- BROWNOUT (R414). A rail below its monitor for 2 µs resets as POWER_ON. -/
  | brownout
/-- EXTERNAL (R416). RESET_N recognised low makes an EXTERNAL reset. -/
  | external
/-- WARM (R414). A write of RST_CTL.WARM makes a WARM reset. -/
  | warm (req : Req)
/-- BLOCK (R422). A write of RST_CTL.BLOCK resets one idle block or is REFUSED. -/
  | rstBlock (req : Req) (id : Fin 32)
/-- BLOCK_RESET_DONE (R422). A BLOCK reset ends and records 0xC107. What the GNSS start finds, and the dies that
    complete a repeated handshake. -/
  | blockResetDone (gns : GnssStart) (dies : List (Fin 12))
/-- BRINGUP_STEP_COMPLETE (R418). A step of the bring-up sequence completes and the next begins, or the module
    stops. -/
  | bringupStepComplete (inp : BringIn)
/-- FULL_SERVICE (R423). Every service of the role becomes ready, setting RST_STATUS.FULL. `app`: the µs from 9
    V at which the service firmware first answered. -/
  | fullService (app : Nat)
/-- LOUVRE (R428). PWR_CTL.LOUVRE moves OPEN to LOUVRED. -/
  | louvre (req : Req)
/-- OPEN (R428). PWR_CTL.OPEN moves LOUVRED to OPEN unless in LIMP. -/
  | pwrOpen (req : Req)
/-- DESCEND (R429). PWR_CTL.DESCEND starts a descent. -/
  | descend (req : Req)
/-- IGN_LOW_TIMEOUT (R428). IGN low for IGN_DLY starts a descent. -/
  | ignLowTimeout
/-- DESCENT_START (R430). Once the guards hold the map journal is requested. -/
  | descentStart
/-- PARK (R430). At the frame boundary P every stage is parked off and lanes stop. -/
  | park
/-- DIE_SUPPLY_OFF (R430). At P + 400 the output-stage dies lose their supply. -/
  | dieSupplyOff
/-- DESCENT_COMPLETE (R430). At P + 1,000 Ecnil stops and the main die enters the target state. -/
  | descentComplete
/-- WAKE (R428). A wake source returns the module to OPEN or resumes from LATCHED. `src` is 0 IGN, 1 CAN edge, 2
    CAN frame, 3 RTC alarm, 4 RESET_N. -/
  | wake (src : Fin 5) (port : Fin 6) (inp : WakeIn)
/-- LATCH_MAX_EXPIRE (R428). LATCH_MAX or low KAL moves LATCHED to SHUTTERED. `battery`: 60 s with KAL below
    BATT_LOW, not the time limit. -/
  | latchMaxExpire (battery : Bool)
/-- SHUT_MAX_EXPIRE (R428). SHUT_MAX or low KAL moves SHUTTERED to BOLTED. `battery`: as LATCH_MAX_EXPIRE. -/
  | shutMaxExpire (battery : Bool)
/-- PROVISION (R432). PROVISION moves BLANK or RETURNED to FIELD. `ids` are the identities of the key slots it
    fills. -/
  | provision (sigOk : Bool) (nonce : List Word) (ids : List (Fin 7 × Nat))
/-- RETURN (R432). RETURN destroys field keys and moves FIELD to RETURNED. -/
  | secReturn (sigOk : Bool) (nonce : List Word)
/-- NONCE_FETCH (R437). The Keyhole fetches a nonce from the security core. -/
  | nonceFetch
/-- TOKEN_PRESENT (R438). A token raises the Keyhole level or is refused. -/
  | tokenPresent (tok : TokenIn)
/-- TOKEN_EXPIRE (R438). 8 h after acceptance a PEEP level falls to SEALED. -/
  | tokenExpire
/-- HALT (R439). A FULL halt of a core is SERVED, DEFERRED or REFUSED. The bit of SEC_HALT. -/
  | secHalt (core : Fin 10)
/-- HALT_RELEASE (R439). A release restarts a halted lane's recovery from step 2. -/
  | haltRelease (core : Fin 10)
/-- DEBUG_ACCESS (R437). A Keyhole read or write of registers or memory at the allowed level. A read where
    `write` is none. -/
  | debugAccess (addr : Nat) (write : Option Word)
/-- INTERRUPT_RAISE (R447). A source is raised and becomes pending or active-and-pending. -/
  | interruptRaise (n : Fin 512)
/-- PIC_CLAIM (R448). A read of PIC_CLAIM[t] by core t claims the shown source. `rivals` are the other targets
    that read in the same TICK cycle. -/
  | picClaim (req : Req) (t : Fin 11) (rivals : List (Fin 11))
/-- PIC_COMPLETE (R449). A write to PIC_COMPLETE[t] ends service of a claimed source. -/
  | picComplete (req : Req) (t : Fin 11) (num : Fin 1024)
/-- PEND_SET (R451). A write to PIC_PEND_SET sets pending bits. -/
  | pendSet (req : Req) (m : Fin 16) (bits : Word)
/-- PEND_CLR (R451). A write to PIC_PEND_CLR clears pending bits. `raised` are the bits that a SET or a hardware
    raise sets in the same cycle (R451). -/
  | pendClr (req : Req) (m : Fin 16) (bits : Word) (raised : Word)
/-- EN_SET (R451). A write to PIC_EN_SET enables sources. -/
  | enSet (req : Req) (m : Fin 16) (bits : Word)
/-- EN_CLR (R451). A write to PIC_EN_CLR disables sources. `sets` are the bits that a SET sets in the same cycle
    (R451). -/
  | enClr (req : Req) (m : Fin 16) (bits : Word) (sets : Word)
/-- PIC_SRC_WRITE (R455). A write to PIC_SRC sets priority and mask unless locked. -/
  | picSrcWrite (req : Req) (n : Fin 512) (value : Word)
/-- EDGE_LATCH (R453). A latched edge source catches an edge while TICK is stopped. An edge at a source with a
    latch. -/
  | edgeLatch (n : Fin 512)
/-- EVENT_INTAKE (R461). The recorder takes an intake entry and records it by repeat counting or rate limit. -/
  | eventIntake
/-- SILL_CLR (R466). EVR_CTL.SILL_CLR clears the Sill and records 0x1070. -/
  | sillClr (req : Req)
/-- EVR_RD_SEL (R467). A write to EVR_RD_SEL latches a copy of the selected record. -/
  | evrRdSel (req : Req) (index : Word)
/-- EVR_RD_AREA (R467). A write to EVR_RD_AREA selects the area, 0b11 ignored. -/
  | evrRdArea (req : Req) (area : Fin 4)
/-- EVENT_FLASH_WRITE (R468). Opened and changed records are written to the event flash. -/
  | eventFlashWrite (failed : Bool)
/-- DRIVE_FRAME (R473). A panel drive frame drives the glass and checks frame-memory CRC and DC balance.
    `composing`: a composition is in progress; `flips` are bits of the active memory that changed by themselves.
    -/
  | driveFrame (composing : Bool) (flips : BitVec 192)
/-- DCB_HOLD_END (R477). After 1 s at level 0 the panel resumes driving. -/
  | dcbHoldEnd
/-- SUPPLY_LOSS (R489). VLOG below 6.0 V for 50 µs reports supply loss, discharges the panel, flushes events and
    ends in BROWNOUT. `flushed`: the flush ends with its closing marker. -/
  | supplyLoss (vlog : F32) (flushed : Bool)
/-- SUPPLY_LOW (R488). The supply below 9 V records 0x1082. -/
  | supplyLow (v : F32)
/-- SUPPLY_HIGH (R488). The supply above 36 V records 0x1084. -/
  | supplyHigh (v : F32)
/-- LOAD_SUPPLY_LOSS (R491). VBAT_OUT below 6.0 V stops all output current and boost. -/
  | loadSupplyLoss
/-- APP_CLOCK_CAP (R505). The case above +88 °C caps APP at 1.0 GHz and records 0x1080. -/
  | appClockCap
/-- APP_CLOCK_RESTORE (R505). 10 s at or below +85 °C restores APP to 1.6 GHz. -/
  | appClockRestore
/-- CASE_OVERTEMP (R505). The case above +108 °C records 0x1081. -/
  | caseOvertemp
/-- LOAD_SUPPLY_RETURN (R491). VBAT_OUT returns above 6.0 V (and 9 V for boost charging), the dies report the
    load supply present and boost rails recharge. -/
  | loadSupplyReturn
/-- BOOST_FAILURE_CLEARED (R187). After 0x4009 the bank's rail has been ready for 10 ms and its requests are no
    longer refused. -/
  | boostFailureCleared (bank : Fin 4)
/-- VLV_DIE_COOLED (R187). A valve die's junction falls below 150 °C after 0x400A, HOT clears and its converter
    and channels may restart. -/
  | vlvDieCooled (bank : Fin 4) (junction : F32)
/-- PEAK_REACHED_LATE (R181). In PEAK, after a BOOST that did not reach I_PEAK, the current reaches I_PEAK from
    VBAT_OUT and time to peak is recorded. -/
  | peakReachedLate (n : Fin 16) (us : Fin 50)
/-- PEAK_NOT_REACHED (R183). I_PEAK not reached within 2 × TPK_MAX records 0x4003 with flags 3 and counts a
    fault event. -/
  | peakNotReached (n : Fin 16) (us : Fin 50)
/-- ERROR_PASSIVE (R356). A CAN port's error counters cross the error-passive limit, it enters error passive and
    records 0x9203, or returns to error active. -/
  | errorPassive (port : Fin 6) (enter : Bool) (tec recv : Fin 256)
/-- NTRIP_DISCONNECT (R369). The caster or link closes the NTRIP connection, 0x9321 is recorded and the
    reconnect backoff starts. -/
  | ntripDisconnect (link : Bool)
/-- PDELAY_EXCHANGE (R359). Every 1 s the peer-delay measurement on a gPTP port completes and decides asCapable,
    recording 0x9304 when the delay exceeds 1 µs. `delay` is in units of 1/16 ns. -/
  | pdelayExchange (p : Fin 10) (delay : Nat)
/-- SECURITY_CORE_FATAL_FAULT (R436). A fatal fault of the running security core records 0xB00A and makes a WARM
    reset. -/
  | securityCoreFatalFault
/-- CLOCK_FAULT_RECOVERY (R57). After a TICK or REF monitor fault, REF becomes valid again and the module
    performs its WARM reset. -/
  | clockFaultRecovery
/-- ACTIVATION_RESTART_END (R404). After G the module finds both lanes on the new images, the application
    cluster running and GNSS restarted, and sends DONE, or FAILED. Whether the application cluster and GNSS run
    within their limits. -/
  | activationRestartEnd (appOk gnsOk : Bool)
/-- CONFIRM_COUNT_SAVE (R409). Every 60 s the harvesting-time confirmation count is saved to the eMMC. -/
  | confirmCountSave
/-- MA20_SHUNT_RECLOSE (R499). The MA20 shunt, opened above 25 mA, closes again after 1 s. -/
  | ma20ShuntReclose (n : Fin 48)
/-- BATTERY_LOW (R428). KAL falls below BATT_LOW, setting PWR_EVT.BATT_LOW, recording 0xC005 and starting the 60
    s count toward a deeper state. `kal` is in units of 10 mV. -/
  | batteryLow (kal : Fin 4096)
  deriving DecidableEq, Repr

end Sys2Proof
end

