-- ==== Sys2Proof/Decode.lean ====
section
/-!
DEFINITION. Words that spell commands. The commands of this block come from outside as events and accesses; its
opcode table gives none of them bits, so no word spells one.
-/
namespace Sys2Proof

/-- The command that a word spells by the table's bits; the table gives no row bits. -/
def decodeTableWord (_nbits _w : Nat) : Option Instr := none

end Sys2Proof
end

