-- ==== Sys2Proof/Config.lean ====
section
/-!
DEFINITION. What the spec leaves open. Every constant here is opaque: it has no value that a proof could use, so a
statement about it holds for every value. `freeValue` is applied to the counter `State.free`, which each use
advances; the others are functions of the operands that the spec names without giving the arithmetic.
-/
namespace Sys2Proof.Config

/-- The n-th value the spec leaves open (log entry 3). -/
opaque freeValue : Nat → BitVec 64
/-- A real function the spec names but whose rounding it does not give: `tag` says which one,
`args` are its operands as binary32 (log entry 4). -/
opaque realFn : (tag : Nat) → (args : List (BitVec 32)) → BitVec 32
/-- An estimator or an image computation whose arithmetic the spec does not give: `tag` says which one, `k` is the
component of the result, `args` are its inputs (log entry 4). -/
opaque estimator : (tag k : Nat) → (args : List (BitVec 32)) → BitVec 32
/-- A keyed cryptographic check or hash of the spec (signature, CMAC, SHA-256): its value on the bytes `args`
under key number `key` (log entry 5). -/
opaque digest : (key : Nat) → (args : List (BitVec 8)) → BitVec 256
/-- The fixed glyph table of the limp panel, which the spec does not print: the 14 segments of an ASCII code. -/
opaque glyph : (code : Nat) → BitVec 14

end Sys2Proof.Config
end

