-- ==== Sys2Proof/Machine/F32.lean ====
section
/-!
DEFINITION. The floating-point arithmetic of the module on bit patterns: binary32 with round-to-nearest-even,
subnormals flushed to zero of the same sign, nothing fused (R88, R124, R139); the IEEE 754-2019 minimum and maximum
(R88); binary16 with values beyond ±65,504 saturated (R459). Every operation is computed exactly on dyadic rationals
and rounded once.
-/
namespace Sys2Proof.Machine

/-- A dyadic rational `m · 2^e`. -/
structure Dyadic where
  m : Int
  e : Int
  deriving DecidableEq, Repr

def f32Exp (x : F32) : Nat := (x.toNat >>> 23) % 256
def f32Man (x : F32) : Nat := x.toNat % 8388608
def f32Neg (x : F32) : Bool := x.msb
def f32IsNaN (x : F32) : Bool := f32Exp x == 255 && f32Man x != 0
def f32IsInf (x : F32) : Bool := f32Exp x == 255 && f32Man x == 0
def f32IsFinite (x : F32) : Bool := f32Exp x != 255
/-- A zero, or a subnormal, which counts as a zero (R88). -/
def f32IsZero (x : F32) : Bool := f32Exp x == 0

/-- The quiet NaN every invalid operation answers (DESIGN CHOICE, log entry 6). -/
def f32NaN : F32 := 0x7FC00000#32
def f32Inf (neg : Bool) : F32 := if neg then 0xFF800000#32 else 0x7F800000#32
def f32Zero (neg : Bool) : F32 := if neg then 0x80000000#32 else 0#32
def f32One : F32 := 0x3F800000#32

/-- The value of a finite operand, subnormals flushed to zero (R88). -/
def f32Val (x : F32) : Dyadic :=
  if f32IsZero x then ⟨0, 0⟩
  else
    let m : Int := Int.ofNat (8388608 + f32Man x)
    ⟨if f32Neg x then -m else m, Int.ofNat (f32Exp x) - 150⟩

/-- `num / den` scaled by `2^k`, rounded to the nearest integer, ties to even. -/
def roundRatio (num den : Nat) (k : Int) : Nat :=
  let n := if k ≥ 0 then num * 2 ^ k.toNat else num
  let d := if k ≥ 0 then den else den * 2 ^ (-k).toNat
  let q := n / d
  let r := n % d
  if 2 * r > d then q + 1 else if 2 * r < d then q else if q % 2 = 0 then q else q + 1

/-- The exponent `e` with `2^e ≤ num / den < 2^(e+1)`; `num` and `den` are not 0. -/
def ratioExp (num den : Nat) : Int :=
  let e : Int := Int.ofNat num.log2 - Int.ofNat den.log2
  let below := if e ≥ 0 then num < den * 2 ^ e.toNat else num * 2 ^ (-e).toNat < den
  if below then e - 1 else e

/-- binary32 of `± num / den`, round-to-nearest-even, a subnormal result flushed to zero (R88). -/
def f32OfRatio (neg : Bool) (num den : Nat) : F32 :=
  if num = 0 ∨ den = 0 then f32Zero neg
  else
    let e := ratioExp num den
    let q := roundRatio num den (23 - e)
    let (q, e) := if q = 16777216 then (8388608, e + 1) else (q, e)
    if e > 127 then f32Inf neg
    else if e < -126 then f32Zero neg
    else BitVec.ofNat 32 ((if neg then 2147483648 else 0) + (e + 127).toNat * 8388608 + (q - 8388608))

def f32OfDyadic (zneg : Bool) (x : Dyadic) : F32 :=
  if x.m = 0 then f32Zero zneg
  else if x.e ≥ 0 then f32OfRatio (decide (x.m < 0)) (x.m.natAbs * 2 ^ x.e.toNat) 1
  else f32OfRatio (decide (x.m < 0)) x.m.natAbs (2 ^ (-x.e).toNat)

def f32OfInt (i : Int) : F32 := f32OfRatio (decide (i < 0)) i.natAbs 1
def f32OfNat (n : Nat) : F32 := f32OfRatio false n 1

def f32Neg' (x : F32) : F32 := x ^^^ 0x80000000#32
def f32Abs (x : F32) : F32 := x &&& 0x7FFFFFFF#32

def dyadicAdd (a b : Dyadic) : Dyadic :=
  let e := if a.e < b.e then a.e else b.e
  ⟨a.m * 2 ^ (a.e - e).toNat + b.m * 2 ^ (b.e - e).toNat, e⟩

/-- Addition (R88). -/
def f32Add (x y : F32) : F32 :=
  if f32IsNaN x || f32IsNaN y then f32NaN
  else if f32IsInf x then (if f32IsInf y && f32Neg x != f32Neg y then f32NaN else x)
  else if f32IsInf y then y
  else f32OfDyadic (f32Neg x && f32Neg y) (dyadicAdd (f32Val x) (f32Val y))

/-- Subtraction (R88). -/
def f32Sub (x y : F32) : F32 := if f32IsNaN y then f32NaN else f32Add x (f32Neg' y)

/-- Multiplication (R88). -/
def f32Mul (x y : F32) : F32 :=
  let neg := f32Neg x != f32Neg y
  if f32IsNaN x || f32IsNaN y then f32NaN
  else if f32IsInf x then (if f32IsZero y then f32NaN else f32Inf neg)
  else if f32IsInf y then (if f32IsZero x then f32NaN else f32Inf neg)
  else
    let a := f32Val x
    let b := f32Val y
    f32OfDyadic neg ⟨a.m * b.m, a.e + b.e⟩

/-- Division (R88). -/
def f32Div (x y : F32) : F32 :=
  let neg := f32Neg x != f32Neg y
  if f32IsNaN x || f32IsNaN y then f32NaN
  else if f32IsInf x then (if f32IsInf y then f32NaN else f32Inf neg)
  else if f32IsInf y then f32Zero neg
  else if f32IsZero y then (if f32IsZero x then f32NaN else f32Inf neg)
  else
    let a := f32Val x
    let b := f32Val y
    let k := a.e - b.e
    if k ≥ 0 then f32OfRatio neg (a.m.natAbs * 2 ^ k.toNat) b.m.natAbs
    else f32OfRatio neg a.m.natAbs (b.m.natAbs * 2 ^ (-k).toNat)

/-- The order of two operands that are not NaN: a key that rises with the value, −0 just below +0 (R88). -/
def f32Key (x : F32) : Int :=
  if f32IsZero x then (if f32Neg x then -1 else 0)
  else if f32Neg x then -1 - Int.ofNat (f32Abs x).toNat else Int.ofNat (f32Abs x).toNat

/-- The numeric order key: −0 and +0 compare equal. -/
def f32NumKey (x : F32) : Int := if f32IsZero x then 0 else f32Key x

/-- `x < y`; false when an operand is a NaN. -/
def f32Lt (x y : F32) : Bool := !(f32IsNaN x) && !(f32IsNaN y) && decide (f32NumKey x < f32NumKey y)
/-- `x ≤ y`; false when an operand is a NaN. -/
def f32Le (x y : F32) : Bool := !(f32IsNaN x) && !(f32IsNaN y) && decide (f32NumKey x ≤ f32NumKey y)
/-- `x = y` as numbers; false when an operand is a NaN. -/
def f32Eq (x y : F32) : Bool := !(f32IsNaN x) && !(f32IsNaN y) && decide (f32NumKey x = f32NumKey y)

/-- A subnormal becomes the zero of its sign (R88). -/
def f32Flush (x : F32) : F32 := if f32IsZero x then f32Zero (f32Neg x) else x

/-- IEEE 754-2019 minimum: −0 below +0, a NaN operand gives a NaN (R88). -/
def f32Min (x y : F32) : F32 :=
  if f32IsNaN x || f32IsNaN y then f32NaN else f32Flush (if f32Key x ≤ f32Key y then x else y)
/-- IEEE 754-2019 maximum: −0 below +0, a NaN operand gives a NaN (R88). -/
def f32Max (x y : F32) : F32 :=
  if f32IsNaN x || f32IsNaN y then f32NaN else f32Flush (if f32Key x ≤ f32Key y then y else x)

/-- `x` limited to `lo … hi`. -/
def f32Clamp (x lo hi : F32) : F32 := f32Min (f32Max x lo) hi

/-- The integer nearest below a finite value, and 0 for a NaN or an infinity (log entry 6). -/
def f32Floor (x : F32) : Int :=
  if !(f32IsFinite x) then 0
  else
    let v := f32Val x
    if v.e ≥ 0 then v.m * 2 ^ v.e.toNat else v.m.fdiv (2 ^ (-v.e).toNat)

/-- The nearest integer of a finite value, ties to even; 0 for a NaN or an infinity (log entry 6). -/
def f32Round (x : F32) : Int :=
  if !(f32IsFinite x) then 0
  else
    let v := f32Val x
    if v.e ≥ 0 then v.m * 2 ^ v.e.toNat
    else
      let n : Int := Int.ofNat (roundRatio v.m.natAbs (2 ^ (-v.e).toNat) 0)
      if v.m < 0 then -n else n

/-- The integer part of a finite value, toward zero; 0 for a NaN or an infinity (log entry 6). -/
def f32Trunc (x : F32) : Int :=
  if !(f32IsFinite x) then 0
  else
    let v := f32Val x
    if v.e ≥ 0 then v.m * 2 ^ v.e.toNat
    else
      let n : Int := Int.ofNat (v.m.natAbs / 2 ^ (-v.e).toNat)
      if v.m < 0 then -n else n

/-- ⌊x · k⌋ of a finite value that is not negative, without rounding. -/
def f32MulFloor (x : F32) (k : Nat) : Nat :=
  let v := f32Val x
  if v.e ≥ 0 then v.m.natAbs * 2 ^ v.e.toNat * k else v.m.natAbs * k / 2 ^ (-v.e).toNat

/-- x > n / d, without rounding. -/
def f32Above (x : F32) (n d : Nat) : Bool :=
  let v := f32Val x
  if f32IsNaN x || f32Neg x then false
  else if f32IsInf x then true
  else if v.e ≥ 0 then decide (n < v.m.natAbs * 2 ^ v.e.toNat * d)
  else decide (n * 2 ^ (-v.e).toNat < v.m.natAbs * d)

/-- The square root, rounded to nearest even; a NaN below zero. -/
def f32Sqrt (x : F32) : F32 :=
  if f32IsNaN x then f32NaN
  else if f32IsZero x then f32Zero (f32Neg x)
  else if f32Neg x then f32NaN
  else if f32IsInf x then x
  else
    let v := f32Val x
    let s : Nat := (v.e % 2).toNat
    let n := v.m.natAbs * 2 ^ s * 2 ^ 80
    let r := n.sqrt
    let sticky := if r * r = n then 0 else 1
    let e := (v.e - Int.ofNat s) / 2 - 41
    f32OfDyadic false ⟨Int.ofNat (2 * r + sticky), e⟩

/-! ## binary16 of the event recorder (R459) -/

/-- The quiet NaN of a field that the code's table does not name (R459). -/
def f16NaN : F16 := 0x7E00#16

/-- binary16 of `± num / den`, round-to-nearest-even, subnormals kept, values beyond ±65,504 limited (R459). -/
def f16OfRatio (neg : Bool) (num den : Nat) : F16 :=
  let sgn : Nat := if neg then 32768 else 0
  if num = 0 ∨ den = 0 then BitVec.ofNat 16 sgn
  else if num > 65504 * den then BitVec.ofNat 16 (sgn + 31743)
  else
    let e := ratioExp num den
    if e < -14 then BitVec.ofNat 16 (sgn + roundRatio num den 24)
    else
      let q := roundRatio num den (10 - e)
      BitVec.ofNat 16 (sgn + (e + 14).toNat * 1024 + q)

def f16OfInt (i : Int) : F16 := f16OfRatio (decide (i < 0)) i.natAbs 1
def f16OfNat (n : Nat) : F16 := f16OfRatio false n 1

/-- binary16 of a binary32 value: a NaN is the quiet NaN, an infinity the limit of its sign (R459). -/
def f16OfF32 (x : F32) : F16 :=
  if f32IsNaN x then f16NaN
  else if f32IsInf x then (if f32Neg x then 0xFBFF#16 else 0x7BFF#16)
  else
    let v := f32Val x
    if v.e ≥ 0 then f16OfRatio (f32Neg x) (v.m.natAbs * 2 ^ v.e.toNat) 1
    else f16OfRatio (f32Neg x) v.m.natAbs (2 ^ (-v.e).toNat)

def f16IsNaN (x : F16) : Bool := (x.toNat >>> 10) % 32 == 31 && x.toNat % 1024 != 0

/-- The order key of a binary16 value that is not a NaN. -/
def f16Key (x : F16) : Int :=
  if x.msb then -Int.ofNat (x.toNat % 32768) else Int.ofNat (x.toNat % 32768)

/-- The lower of two binary16 values, a NaN giving way to a number (R458, log entry 6). -/
def f16Min (x y : F16) : F16 :=
  if f16IsNaN x then y else if f16IsNaN y then x else if f16Key x ≤ f16Key y then x else y
/-- The higher of two binary16 values, a NaN giving way to a number (R458, log entry 6). -/
def f16Max (x y : F16) : F16 :=
  if f16IsNaN x then y else if f16IsNaN y then x else if f16Key x ≤ f16Key y then y else x

/-- The binary32 value of a binary16 pattern (exact). -/
def f32OfF16 (x : F16) : F32 :=
  let e := (x.toNat >>> 10) % 32
  let m := x.toNat % 1024
  if e = 31 then (if m = 0 then f32Inf x.msb else f32NaN)
  else if e = 0 then f32OfRatio x.msb m 16777216
  else f32OfRatio x.msb ((1024 + m) * 2 ^ e) 33554432

end Sys2Proof.Machine
end

