-- ==== Sys2Proof/Machine/Tab.lean ====
section
/-!
DEFINITION. Sparse tables in one canonical form: keys strictly rising, and no entry equal to what an unlisted key
reads as. The register words, the bytes of memory and the per-channel records of `State` are held so; two tables
with the same contents are the same list.
-/
namespace Sys2Proof.Machine

/-- The value a table holds at key `k`; `d k` where the table lists nothing. -/
def tabGet {α : Type} (d : Nat → α) : List (Nat × α) → Nat → α
  | [], k => d k
  | (j, v) :: t, k => if j = k then v else tabGet d t k

/-- The table without key `k`. -/
def tabErase {α : Type} : List (Nat × α) → Nat → List (Nat × α)
  | [], _ => []
  | (j, v) :: t, k => if j = k then tabErase t k else (j, v) :: tabErase t k

/-- The table with `(k, v)` placed before the first larger key. -/
def tabInsert {α : Type} : List (Nat × α) → Nat → α → List (Nat × α)
  | [], k, v => [(k, v)]
  | (j, w) :: t, k, v => if k < j then (k, v) :: (j, w) :: t else (j, w) :: tabInsert t k v

/-- Writes `v` at key `k`, keeping the canonical form: the value an unlisted key reads as removes the entry. -/
def tabSet {α : Type} [DecidableEq α] (d : Nat → α) (t : List (Nat × α)) (k : Nat) (v : α) : List (Nat × α) :=
  if v = d k then tabErase t k else tabInsert (tabErase t k) k v

/-- Every key of the table is above `lo`. -/
def tabAbove {α : Type} (lo : Nat) : List (Nat × α) → Bool
  | [] => true
  | (j, _) :: t => decide (lo < j) && tabAbove lo t

/-- The canonical form of a table. -/
def tabWf {α : Type} [DecidableEq α] (d : Nat → α) : List (Nat × α) → Bool
  | [] => true
  | (j, v) :: t => decide (v ≠ d j) && tabAbove j t && tabWf d t

end Sys2Proof.Machine
end

