-- ==== Sys2Proof/Machine/RegMap.lean ====
section
/-!
DEFINITION. The register map (R6, R482, R484): the fields of the registers, written from the register tables of every
chapter; the words that do not read 0 after reset; and the access codes of the bits that software may write (R8).
-/
namespace Sys2Proof.Machine

/-- A field of a register: the byte address of its word and its bits `hi … lo` (R6). -/
structure Fld where
  addr : Nat
  hi : Nat
  lo : Nat
  deriving DecidableEq, Repr

/-- The number of bits of a field. -/
def fldWidth (f : Fld) : Nat := f.hi + 1 - f.lo

/-! ## Fields, one per row of the chapters' register tables; an indexed register takes its index -/

abbrev fSYS_STATUS : Fld := ⟨0x40000000, 31, 0⟩
abbrev fSYS_STATUS_ORDER : Fld := ⟨0x40000000, 0, 0⟩
abbrev fSYS_STATUS_MANAGER : Fld := ⟨0x40000000, 1, 1⟩
abbrev fSYS_STATUS_OEM_CORES : Fld := ⟨0x40000000, 3, 2⟩
abbrev fSYS_EVT_ECC_SB : Fld := ⟨0x40000004, 0, 0⟩
abbrev fSYS_EVT_ECC_DB : Fld := ⟨0x40000004, 1, 1⟩
abbrev fSYS_EVT_BUS_ERR : Fld := ⟨0x40000004, 2, 2⟩
abbrev fSYS_ECC_SB : Fld := ⟨0x40000008, 15, 0⟩
abbrev fSYS_ECC_DB : Fld := ⟨0x40000008, 31, 16⟩
abbrev fRST_STATUS : Fld := ⟨0x40010000, 31, 0⟩
abbrev fRST_STATUS_STEP : Fld := ⟨0x40010000, 3, 0⟩
abbrev fRST_STATUS_CLAIMS : Fld := ⟨0x40010000, 4, 4⟩
abbrev fRST_STATUS_FULL : Fld := ⟨0x40010000, 5, 5⟩
abbrev fRST_STATUS_OPT_RESTARTS : Fld := ⟨0x40010000, 9, 6⟩
abbrev fRST_STATUS_FAIL : Fld := ⟨0x40010000, 13, 10⟩
abbrev fRST_EVT : Fld := ⟨0x40010004, 31, 0⟩
abbrev fRST_EVT_STEP : Fld := ⟨0x40010004, 0, 0⟩
abbrev fRST_EVT_CLAIMS : Fld := ⟨0x40010004, 1, 1⟩
abbrev fRST_EVT_FULL : Fld := ⟨0x40010004, 2, 2⟩
abbrev fRST_EVT_BLOCK : Fld := ⟨0x40010004, 3, 3⟩
abbrev fRST_CAUSE : Fld := ⟨0x40010008, 31, 0⟩
abbrev fRST_CAUSE_SRC : Fld := ⟨0x40010008, 7, 0⟩
abbrev fRST_CAUSE_WARM_WHY : Fld := ⟨0x40010008, 11, 8⟩
abbrev fRST_BLOCK_RES : Fld := ⟨0x40010010, 31, 0⟩
abbrev fRST_BLOCK_RES_OUTCOME : Fld := ⟨0x40010010, 1, 0⟩
abbrev fRST_BLOCK_RES_BUSY : Fld := ⟨0x40010010, 2, 2⟩
abbrev fRST_BLOCK_RES_BLOCK_ID : Fld := ⟨0x40010010, 7, 3⟩
abbrev fRST_BLOCK_RES_REASON : Fld := ⟨0x40010010, 9, 8⟩
abbrev fRST_IDLE : Fld := ⟨0x40010014, 31, 0⟩
abbrev fRST_T (i : Nat) : Fld := ⟨0x40010020 + 0x4 * i, 31, 0⟩
abbrev fRST_CNT : Fld := ⟨0x40010044, 31, 0⟩
abbrev fRST_CNT_WARM : Fld := ⟨0x40010044, 15, 0⟩
abbrev fRST_CNT_EXTERNAL : Fld := ⟨0x40010044, 31, 16⟩
abbrev fCLK_STATUS : Fld := ⟨0x40020000, 31, 0⟩
abbrev fCLK_STATUS_TIME_STAT : Fld := ⟨0x40020000, 1, 0⟩
abbrev fCLK_STATUS_ALIGN : Fld := ⟨0x40020000, 3, 2⟩
abbrev fCLK_STATUS_STEP_PEND : Fld := ⟨0x40020000, 5, 5⟩
abbrev fCLK_STATUS_RTC_ONLY : Fld := ⟨0x40020000, 6, 6⟩
abbrev fCLK_TICK_LO : Fld := ⟨0x40020004, 31, 0⟩
abbrev fCLK_TICK_HI : Fld := ⟨0x40020008, 31, 0⟩
abbrev fCLK_CYCLE : Fld := ⟨0x4002000C, 31, 0⟩
abbrev fCLK_TIME_LO : Fld := ⟨0x40020010, 31, 0⟩
abbrev fCLK_TIME_HI : Fld := ⟨0x40020014, 31, 0⟩
abbrev fCLK_TERR : Fld := ⟨0x40020018, 31, 0⟩
abbrev fCLK_TERR_BOUND : Fld := ⟨0x4002001C, 31, 0⟩
abbrev fCLK_SLEW_PS : Fld := ⟨0x40020020, 15, 0⟩
abbrev fCLK_ALIGN : Fld := ⟨0x40020024, 31, 0⟩
abbrev fCLK_HOLD_LIM_SEC : Fld := ⟨0x40020028, 15, 0⟩
abbrev fCLK_LEAP : Fld := ⟨0x4002002C, 31, 0⟩
abbrev fCLK_LEAP_GPS_UTC : Fld := ⟨0x4002002C, 7, 0⟩
abbrev fCLK_LEAP_PEND : Fld := ⟨0x4002002C, 8, 8⟩
abbrev fCLK_LEAP_NEG : Fld := ⟨0x4002002C, 9, 9⟩
abbrev fCLK_LEAP_VALID : Fld := ⟨0x4002002C, 10, 10⟩
abbrev fCLK_LEAP_AT_LO : Fld := ⟨0x40020030, 31, 0⟩
abbrev fCLK_LEAP_AT_HI : Fld := ⟨0x40020034, 31, 0⟩
abbrev fCLK_STEP_LO : Fld := ⟨0x40020038, 31, 0⟩
abbrev fCLK_DOM_LOCK : Fld := ⟨0x40020040, 31, 0⟩
abbrev fCLK_DOM_FAULT : Fld := ⟨0x40020044, 31, 0⟩
abbrev fCLK_EVT_STATUS_CHG : Fld := ⟨0x40020048, 0, 0⟩
abbrev fCLK_EVT_STEPPED : Fld := ⟨0x40020048, 1, 1⟩
abbrev fCLK_EVT_ALIGN_CHG : Fld := ⟨0x40020048, 2, 2⟩
abbrev fCLK_EVT_LEAP : Fld := ⟨0x40020048, 3, 3⟩
abbrev fPIC_STATUS : Fld := ⟨0x40030000, 31, 0⟩
abbrev fPIC_EVT_BAD_COMPLETE : Fld := ⟨0x40030004, 0, 0⟩
abbrev fPIC_EVT_MERGED : Fld := ⟨0x40030004, 1, 1⟩
abbrev fPIC_PEND (i : Nat) : Fld := ⟨0x40030100 + 0x4 * i, 31, 0⟩
abbrev fPIC_EN (i : Nat) : Fld := ⟨0x400301C0 + 0x4 * i, 31, 0⟩
abbrev fPIC_ACTIVE (i : Nat) : Fld := ⟨0x40030280 + 0x4 * i, 31, 0⟩
abbrev fPIC_MERGED (i : Nat) : Fld := ⟨0x400302C0 + 0x4 * i, 31, 0⟩
abbrev fPIC_SRC_PRIO (i : Nat) : Fld := ⟨0x40031000 + 0x4 * i, 3, 0⟩
abbrev fPIC_SRC_TMASK (i : Nat) : Fld := ⟨0x40031000 + 0x4 * i, 14, 4⟩
abbrev fPIC_SRC_LOCK (i : Nat) : Fld := ⟨0x40031000 + 0x4 * i, 15, 15⟩
abbrev fPIC_THR_THR (i : Nat) : Fld := ⟨0x40034000 + 0x10 * i, 3, 0⟩
abbrev fPIC_CNT_CLAIMS (i : Nat) : Fld := ⟨0x4003400C + 0x10 * i, 15, 0⟩
abbrev fPIC_CNT_SPURIOUS (i : Nat) : Fld := ⟨0x4003400C + 0x10 * i, 31, 16⟩
abbrev fLE_STATUS_CFG_OK (i : Nat) : Fld := ⟨0x40040000 + 0x10000 * i, 0, 0⟩
abbrev fLE_STATUS_RUN (i : Nat) : Fld := ⟨0x40040000 + 0x10000 * i, 1, 1⟩
abbrev fLE_STATUS_PROOF_OK (i : Nat) : Fld := ⟨0x40040000 + 0x10000 * i, 2, 2⟩
abbrev fLE_STATUS_NPANE (i : Nat) : Fld := ⟨0x40040000 + 0x10000 * i, 11, 3⟩
abbrev fLE_STATUS_NCH (i : Nat) : Fld := ⟨0x40040000 + 0x10000 * i, 18, 12⟩
abbrev fLE_EVT_DEADLINE (i : Nat) : Fld := ⟨0x40040004 + 0x10000 * i, 0, 0⟩
abbrev fLE_EVT_RESIDUE (i : Nat) : Fld := ⟨0x40040004 + 0x10000 * i, 1, 1⟩
abbrev fLE_EVT_NONFINITE (i : Nat) : Fld := ⟨0x40040004 + 0x10000 * i, 2, 2⟩
abbrev fLE_EVT_SP_HELD (i : Nat) : Fld := ⟨0x40040004 + 0x10000 * i, 3, 3⟩
abbrev fLE_EVT_COMMIT (i : Nat) : Fld := ⟨0x40040004 + 0x10000 * i, 4, 4⟩
abbrev fLE_EVT_SNAP_DONE (i : Nat) : Fld := ⟨0x40040004 + 0x10000 * i, 5, 5⟩
abbrev fLE_LOAD_LAST (i : Nat) : Fld := ⟨0x40040008 + 0x10000 * i, 15, 0⟩
abbrev fLE_LOAD_MAX (i : Nat) : Fld := ⟨0x40040008 + 0x10000 * i, 31, 16⟩
abbrev fLE_SCHED_PROVED (i : Nat) : Fld := ⟨0x40040010 + 0x10000 * i, 15, 0⟩
abbrev fLE_SCHED_RESIDUE (i : Nat) : Fld := ⟨0x40040010 + 0x10000 * i, 21, 16⟩
abbrev fLE_DL_CNT (i : Nat) : Fld := ⟨0x40040014 + 0x10000 * i, 31, 0⟩
abbrev fLE_RES_CNT (i : Nat) : Fld := ⟨0x40040018 + 0x10000 * i, 31, 0⟩
abbrev fLE_NF_CNT (i : Nat) : Fld := ⟨0x4004001C + 0x10000 * i, 31, 0⟩
abbrev fLE_SNAP_BUSY (i : Nat) : Fld := ⟨0x40040020 + 0x10000 * i, 0, 0⟩
abbrev fLE_SNAP_VALID (i : Nat) : Fld := ⟨0x40040020 + 0x10000 * i, 1, 1⟩
abbrev fLE_SNAP_TICK_LO (i : Nat) : Fld := ⟨0x40040024 + 0x10000 * i, 31, 0⟩
abbrev fLE_DEG (i j : Nat) : Fld := ⟨0x40040030 + 0x10000 * i + 0x4 * j, 31, 0⟩
abbrev fCLM_STATUS : Fld := ⟨0x40060000, 31, 0⟩
abbrev fCLM_STATUS_STATE_A : Fld := ⟨0x40060000, 1, 0⟩
abbrev fCLM_STATUS_STATE_B : Fld := ⟨0x40060000, 3, 2⟩
abbrev fCLM_STATUS_CLAIM_A : Fld := ⟨0x40060000, 7, 4⟩
abbrev fCLM_STATUS_CLAIM_B : Fld := ⟨0x40060000, 11, 8⟩
abbrev fCLM_STATUS_HOME : Fld := ⟨0x40060000, 12, 12⟩
abbrev fCLM_STATUS_LIMP : Fld := ⟨0x40060000, 13, 13⟩
abbrev fCLM_STATUS_HINGE_RUN : Fld := ⟨0x40060000, 14, 14⟩
abbrev fCLM_STATUS_NOCLAIM : Fld := ⟨0x40060000, 15, 15⟩
abbrev fCLM_EVT_GIVE_UP : Fld := ⟨0x40060004, 0, 0⟩
abbrev fCLM_EVT_STANDBY_UP : Fld := ⟨0x40060004, 1, 1⟩
abbrev fCLM_EVT_TAKE_BACK : Fld := ⟨0x40060004, 2, 2⟩
abbrev fCLM_EVT_BARRED : Fld := ⟨0x40060004, 3, 3⟩
abbrev fCLM_EVT_HINGE_DONE : Fld := ⟨0x40060004, 4, 4⟩
abbrev fCLM_EVT_LIMP : Fld := ⟨0x40060004, 5, 5⟩
abbrev fCLM_EVT_NOCLAIM : Fld := ⟨0x40060004, 6, 6⟩
abbrev fCLM_EVT_FRAME_ERR : Fld := ⟨0x40060004, 7, 7⟩
abbrev fCLM_EVT_MISMATCH : Fld := ⟨0x40060004, 8, 8⟩
abbrev fCLM_CFG_HOME : Fld := ⟨0x4006000C, 0, 0⟩
abbrev fCLM_CFG_HINGE_INT : Fld := ⟨0x4006000C, 16, 1⟩
abbrev fCLM_GU_A : Fld := ⟨0x40060010, 31, 0⟩
abbrev fCLM_GU_B : Fld := ⟨0x40060014, 31, 0⟩
abbrev fCLM_LAST_GU_LANE : Fld := ⟨0x40060018, 0, 0⟩
abbrev fCLM_LAST_GU_REASON : Fld := ⟨0x40060018, 4, 1⟩
abbrev fCLM_LAST_GU_COUNTED : Fld := ⟨0x40060018, 5, 5⟩
abbrev fCLM_SWITCH_TICK_LO : Fld := ⟨0x4006001C, 31, 0⟩
abbrev fCLM_HINGE_STAT_RES : Fld := ⟨0x40060024, 1, 0⟩
abbrev fCLM_HINGE_STAT_DEFERRED : Fld := ⟨0x40060024, 2, 2⟩
abbrev fCLM_HINGE_STAT_WHY : Fld := ⟨0x40060024, 5, 3⟩
abbrev fCLM_HINGE_NEXT_LO : Fld := ⟨0x40060028, 31, 0⟩
abbrev fCLM_FRAME_CNT : Fld := ⟨0x40060030, 31, 0⟩
abbrev fCLM_MISMATCH_CNT : Fld := ⟨0x40060034, 31, 0⟩
abbrev fCLM_TIE_CNT : Fld := ⟨0x40060038, 31, 0⟩
abbrev fCLM_DIE (i : Nat) : Fld := ⟨0x40060040 + 0x4 * i, 31, 0⟩
abbrev fCLM_DIE_LINK_A (i : Nat) : Fld := ⟨0x40060040 + 0x4 * i, 0, 0⟩
abbrev fCLM_DIE_LINK_B (i : Nat) : Fld := ⟨0x40060040 + 0x4 * i, 1, 1⟩
abbrev fCLM_DIE_NOCLAIM (i : Nat) : Fld := ⟨0x40060040 + 0x4 * i, 5, 2⟩
abbrev fCLM_DIE_SEL_B (i : Nat) : Fld := ⟨0x40060040 + 0x4 * i, 9, 6⟩
abbrev fCLM_POL (i : Nat) : Fld := ⟨0x40060100 + 0x4 * i, 31, 0⟩
abbrev fCLM_POL_POLICY (i : Nat) : Fld := ⟨0x40060100 + 0x4 * i, 1, 0⟩
abbrev fCLM_POL_HOLD_WIN (i : Nat) : Fld := ⟨0x40060100 + 0x4 * i, 15, 2⟩
abbrev fCLM_SAFE (i : Nat) : Fld := ⟨0x40060200 + 0x4 * i, 31, 0⟩
abbrev fVLV_STATUS_READY : Fld := ⟨0x40070000, 3, 0⟩
abbrev fVLV_STATUS_HOT : Fld := ⟨0x40070000, 7, 4⟩
abbrev fVLV_STATUS_LATCHED : Fld := ⟨0x40070000, 23, 8⟩
abbrev fVLV_EVT : Fld := ⟨0x40070004, 31, 0⟩
abbrev fVLV_EVT_REFUSED : Fld := ⟨0x40070004, 0, 0⟩
abbrev fVLV_EVT_FAULT : Fld := ⟨0x40070004, 1, 1⟩
abbrev fVLV_EVT_LASTING : Fld := ⟨0x40070004, 2, 2⟩
abbrev fVLV_EVT_TPK : Fld := ⟨0x40070004, 3, 3⟩
abbrev fVLV_BANK_CFG_V_BOOST (i : Nat) : Fld := ⟨0x40070010 + 0x10 * i, 6, 0⟩
abbrev fVLV_BANK_RAIL_V_RAIL (i : Nat) : Fld := ⟨0x40070014 + 0x10 * i, 15, 0⟩
abbrev fVLV_BANK_RAIL_E_FREE (i : Nat) : Fld := ⟨0x40070014 + 0x10 * i, 31, 16⟩
abbrev fVLV_BANK_CNT (i : Nat) : Fld := ⟨0x40070018 + 0x10 * i, 31, 0⟩
abbrev fVLV_BANK_CNT_DEFERRED (i : Nat) : Fld := ⟨0x40070018 + 0x10 * i, 11, 0⟩
abbrev fVLV_BANK_CNT_REFUSED (i : Nat) : Fld := ⟨0x40070018 + 0x10 * i, 23, 12⟩
abbrev fVLV_BANK_CNT_DIVERT (i : Nat) : Fld := ⟨0x40070018 + 0x10 * i, 31, 24⟩
abbrev fVLV_CH_MODE (i : Nat) : Fld := ⟨0x40070100 + 0x40 * i, 31, 0⟩
abbrev fVLV_CH_MODE_MODE (i : Nat) : Fld := ⟨0x40070100 + 0x40 * i, 1, 0⟩
abbrev fVLV_CH_MODE_PRIO (i : Nat) : Fld := ⟨0x40070100 + 0x40 * i, 3, 2⟩
abbrev fVLV_CH_MODE_OFF_BOOST (i : Nat) : Fld := ⟨0x40070100 + 0x40 * i, 5, 4⟩
abbrev fVLV_CH_MODE_OFF_PEAK (i : Nat) : Fld := ⟨0x40070100 + 0x40 * i, 7, 6⟩
abbrev fVLV_CH_MODE_OFF_HOLD (i : Nat) : Fld := ⟨0x40070100 + 0x40 * i, 9, 8⟩
abbrev fVLV_CH_MODE_MOT_EN (i : Nat) : Fld := ⟨0x40070100 + 0x40 * i, 10, 10⟩
abbrev fVLV_CH_MODE_OL_TEST (i : Nat) : Fld := ⟨0x40070100 + 0x40 * i, 11, 11⟩
abbrev fVLV_CH_PROF (i : Nat) : Fld := ⟨0x40070104 + 0x40 * i, 31, 0⟩
abbrev fVLV_CH_PROF_T_BOOST (i : Nat) : Fld := ⟨0x40070104 + 0x40 * i, 10, 0⟩
abbrev fVLV_CH_PROF_T_PEAK (i : Nat) : Fld := ⟨0x40070104 + 0x40 * i, 26, 11⟩
abbrev fVLV_CH_CUR (i : Nat) : Fld := ⟨0x40070108 + 0x40 * i, 31, 0⟩
abbrev fVLV_CH_CUR_I_PEAK (i : Nat) : Fld := ⟨0x40070108 + 0x40 * i, 7, 0⟩
abbrev fVLV_CH_CUR_I_HOLD (i : Nat) : Fld := ⟨0x40070108 + 0x40 * i, 15, 8⟩
abbrev fVLV_CH_CUR_DEFER_WIN (i : Nat) : Fld := ⟨0x40070108 + 0x40 * i, 23, 16⟩
abbrev fVLV_CH_DIAG (i : Nat) : Fld := ⟨0x4007010C + 0x40 * i, 31, 0⟩
abbrev fVLV_CH_DIAG_TPK_MIN (i : Nat) : Fld := ⟨0x4007010C + 0x40 * i, 10, 0⟩
abbrev fVLV_CH_DIAG_TPK_MAX (i : Nat) : Fld := ⟨0x4007010C + 0x40 * i, 21, 11⟩
abbrev fVLV_CH_DIAG_KCNT (i : Nat) : Fld := ⟨0x4007010C + 0x40 * i, 25, 22⟩
abbrev fVLV_CH_MOT_WIN (i : Nat) : Fld := ⟨0x40070110 + 0x40 * i, 31, 0⟩
abbrev fVLV_CH_MOT_WIN_MOT_MIN (i : Nat) : Fld := ⟨0x40070110 + 0x40 * i, 15, 0⟩
abbrev fVLV_CH_MOT_WIN_MOT_MAX (i : Nat) : Fld := ⟨0x40070110 + 0x40 * i, 31, 16⟩
abbrev fVLV_CH_PROP (i : Nat) : Fld := ⟨0x40070114 + 0x40 * i, 31, 0⟩
abbrev fVLV_CH_PROP_PWM_F (i : Nat) : Fld := ⟨0x40070114 + 0x40 * i, 7, 0⟩
abbrev fVLV_CH_PROP_DITH_F (i : Nat) : Fld := ⟨0x40070114 + 0x40 * i, 15, 8⟩
abbrev fVLV_CH_PROP_DITH_A (i : Nat) : Fld := ⟨0x40070114 + 0x40 * i, 23, 16⟩
abbrev fVLV_CH_PROP_W (i : Nat) : Fld := ⟨0x40070114 + 0x40 * i, 31, 24⟩
abbrev fVLV_CH_STAT (i : Nat) : Fld := ⟨0x40070120 + 0x40 * i, 31, 0⟩
abbrev fVLV_CH_STAT_PHASE (i : Nat) : Fld := ⟨0x40070120 + 0x40 * i, 2, 0⟩
abbrev fVLV_CH_STAT_OUTCOME (i : Nat) : Fld := ⟨0x40070120 + 0x40 * i, 4, 3⟩
abbrev fVLV_CH_STAT_FAULT (i : Nat) : Fld := ⟨0x40070120 + 0x40 * i, 8, 5⟩
abbrev fVLV_CH_STAT_CLASS (i : Nat) : Fld := ⟨0x40070120 + 0x40 * i, 9, 9⟩
abbrev fVLV_CH_TPK_TPK (i : Nat) : Fld := ⟨0x40070124 + 0x40 * i, 15, 0⟩
abbrev fVLV_CH_TPK_WAIT (i : Nat) : Fld := ⟨0x40070124 + 0x40 * i, 31, 16⟩
abbrev fVLV_CH_MOT (i : Nat) : Fld := ⟨0x40070128 + 0x40 * i, 31, 0⟩
abbrev fVLV_CH_I_I_MEAS (i : Nat) : Fld := ⟨0x4007012C + 0x40 * i, 15, 0⟩
abbrev fVLV_CH_CNT (i : Nat) : Fld := ⟨0x40070130 + 0x40 * i, 31, 0⟩
abbrev fPSW_STATUS : Fld := ⟨0x40080000, 31, 0⟩
abbrev fPSW_EVT : Fld := ⟨0x40080004, 31, 0⟩
abbrev fPSW_EVT_REFUSED : Fld := ⟨0x40080004, 0, 0⟩
abbrev fPSW_EVT_FAULT : Fld := ⟨0x40080004, 1, 1⟩
abbrev fPSW_EVT_LASTING : Fld := ⟨0x40080004, 2, 2⟩
abbrev fPSW_EVT_CLAMP_LOCK : Fld := ⟨0x40080004, 3, 3⟩
abbrev fPSW_EVT_CASE_RISE : Fld := ⟨0x40080004, 4, 4⟩
abbrev fPSW_EVT_OPEN : Fld := ⟨0x40080004, 5, 5⟩
abbrev fPSW_BUDGET_RESV : Fld := ⟨0x4008000C, 15, 0⟩
abbrev fPSW_BUDGET_LIMIT : Fld := ⟨0x4008000C, 23, 16⟩
abbrev fPSW_BUDGET_WAITING : Fld := ⟨0x4008000C, 29, 24⟩
abbrev fPSW_BUDGET_CNT : Fld := ⟨0x40080010, 31, 0⟩
abbrev fPSW_BUDGET_CNT_DEFERRED : Fld := ⟨0x40080010, 15, 0⟩
abbrev fPSW_BUDGET_CNT_REFUSED : Fld := ⟨0x40080010, 31, 16⟩
abbrev fPSW_LOCK : Fld := ⟨0x40080014, 31, 0⟩
abbrev fPSW_ARB_QUAD : Fld := ⟨0x40080018, 2, 0⟩
abbrev fPSW_ARB_VALID : Fld := ⟨0x40080018, 3, 3⟩
abbrev fPSW_DIE_CASE (i : Nat) : Fld := ⟨0x40080020 + 0x4 * i, 11, 0⟩
abbrev fPSW_DIE_RISE (i : Nat) : Fld := ⟨0x40080020 + 0x4 * i, 23, 12⟩
abbrev fPSW_DIE_HOT (i : Nat) : Fld := ⟨0x40080020 + 0x4 * i, 24, 24⟩
abbrev fPSW_DIE_ARB_HOT (i : Nat) : Fld := ⟨0x40080020 + 0x4 * i, 25, 25⟩
abbrev fPSW_CH_CFG_PER (i : Nat) : Fld := ⟨0x40080100 + 0x20 * i, 8, 0⟩
abbrev fPSW_CH_CFG_PRIO (i : Nat) : Fld := ⟨0x40080100 + 0x20 * i, 10, 9⟩
abbrev fPSW_CH_CFG_KCNT (i : Nat) : Fld := ⟨0x40080100 + 0x20 * i, 15, 12⟩
abbrev fPSW_CH_CFG_W (i : Nat) : Fld := ⟨0x40080100 + 0x20 * i, 25, 16⟩
abbrev fPSW_CH_CFG_OL_TEST (i : Nat) : Fld := ⟨0x40080100 + 0x20 * i, 26, 26⟩
abbrev fPSW_CH_CFG_ONOFF (i : Nat) : Fld := ⟨0x40080100 + 0x20 * i, 27, 27⟩
abbrev fPSW_CH_LIM_I_NOM (i : Nat) : Fld := ⟨0x40080104 + 0x20 * i, 7, 0⟩
abbrev fPSW_CH_LIM_INR_MULT (i : Nat) : Fld := ⟨0x40080104 + 0x20 * i, 11, 8⟩
abbrev fPSW_CH_LIM_INR_WIN (i : Nat) : Fld := ⟨0x40080104 + 0x20 * i, 19, 12⟩
abbrev fPSW_CH_LIM_DT_LIM (i : Nat) : Fld := ⟨0x40080104 + 0x20 * i, 26, 20⟩
abbrev fPSW_CH_IND_L_LOAD (i : Nat) : Fld := ⟨0x40080108 + 0x20 * i, 15, 0⟩
abbrev fPSW_CH_IND_RETRY (i : Nat) : Fld := ⟨0x40080108 + 0x20 * i, 23, 16⟩
abbrev fPSW_CH_IND_DEFER_WIN (i : Nat) : Fld := ⟨0x40080108 + 0x20 * i, 31, 24⟩
abbrev fPSW_CH_STAT (i : Nat) : Fld := ⟨0x40080110 + 0x20 * i, 31, 0⟩
abbrev fPSW_CH_STAT_STATE (i : Nat) : Fld := ⟨0x40080110 + 0x20 * i, 2, 0⟩
abbrev fPSW_CH_STAT_OUTCOME (i : Nat) : Fld := ⟨0x40080110 + 0x20 * i, 4, 3⟩
abbrev fPSW_CH_STAT_FAULT (i : Nat) : Fld := ⟨0x40080110 + 0x20 * i, 8, 5⟩
abbrev fPSW_CH_STAT_CLASS (i : Nat) : Fld := ⟨0x40080110 + 0x20 * i, 9, 9⟩
abbrev fPSW_CH_STAT_OPEN (i : Nat) : Fld := ⟨0x40080110 + 0x20 * i, 10, 10⟩
abbrev fPSW_CH_MEAS_I_MEAS (i : Nat) : Fld := ⟨0x40080114 + 0x20 * i, 15, 0⟩
abbrev fPSW_CH_MEAS_DT (i : Nat) : Fld := ⟨0x40080114 + 0x20 * i, 23, 16⟩
abbrev fPSW_CH_CLAMP_SUM (i : Nat) : Fld := ⟨0x40080118 + 0x20 * i, 15, 0⟩
abbrev fPSW_CH_CLAMP_LAST (i : Nat) : Fld := ⟨0x40080118 + 0x20 * i, 31, 16⟩
abbrev fPSW_CH_CNT (i : Nat) : Fld := ⟨0x4008011C + 0x20 * i, 31, 0⟩
abbrev fGNS_STATUS_START : Fld := ⟨0x40090000, 1, 0⟩
abbrev fGNS_STATUS_NTRK : Fld := ⟨0x40090000, 10, 2⟩
abbrev fGNS_STATUS_EXCL : Fld := ⟨0x40090000, 16, 11⟩
abbrev fGNS_EVT_SOL : Fld := ⟨0x40090004, 0, 0⟩
abbrev fGNS_EVT_FIX_CHG : Fld := ⟨0x40090004, 1, 1⟩
abbrev fGNS_EVT_ANT : Fld := ⟨0x40090004, 2, 2⟩
abbrev fGNS_EVT_JAM : Fld := ⟨0x40090004, 3, 3⟩
abbrev fGNS_EVT_CORR : Fld := ⟨0x40090004, 4, 4⟩
abbrev fGNS_CFG_SYS : Fld := ⟨0x4009000C, 4, 0⟩
abbrev fGNS_CFG_JAM_LIM : Fld := ⟨0x4009000C, 12, 5⟩
abbrev fGNS_CFG_NOTCH_THR : Fld := ⟨0x4009000C, 17, 13⟩
abbrev fGNS_CFG_ELEV : Fld := ⟨0x4009000C, 22, 18⟩
abbrev fGNS_ANT_EN (i : Nat) : Fld := ⟨0x40090010 + 0x4 * i, 0, 0⟩
abbrev fGNS_ANT_STATE (i : Nat) : Fld := ⟨0x40090010 + 0x4 * i, 3, 2⟩
abbrev fGNS_ANT_I_MA (i : Nat) : Fld := ⟨0x40090010 + 0x4 * i, 11, 4⟩
abbrev fGNS_TP0_CFG : Fld := ⟨0x40090018, 31, 0⟩
abbrev fGNS_TP0_CFG_RATE : Fld := ⟨0x40090018, 6, 0⟩
abbrev fGNS_TP0_CFG_POL : Fld := ⟨0x40090018, 7, 7⟩
abbrev fGNS_TP0_CFG_WIDTH : Fld := ⟨0x40090018, 15, 8⟩
abbrev fGNS_TP0_CFG_DELAY : Fld := ⟨0x40090018, 31, 16⟩
abbrev fGNS_TP0_STAT : Fld := ⟨0x4009001C, 31, 0⟩
abbrev fGNS_TP0_STAT_TSTAT : Fld := ⟨0x4009001C, 1, 0⟩
abbrev fGNS_TP0_STAT_EDGES : Fld := ⟨0x4009001C, 31, 2⟩
abbrev fGNS_HEAD_CFG_BASE : Fld := ⟨0x40090020, 12, 0⟩
abbrev fGNS_CORR_CFG_PREF : Fld := ⟨0x40090024, 0, 0⟩
abbrev fGNS_CORR_CFG_PORT : Fld := ⟨0x40090024, 3, 1⟩
abbrev fGNS_CORR_CFG_CORR_AGE_MAX : Fld := ⟨0x40090024, 8, 4⟩
abbrev fGNS_CORR_CFG_EXT : Fld := ⟨0x40090024, 9, 9⟩
abbrev fGNS_CORR_STAT_SRC : Fld := ⟨0x40090028, 0, 0⟩
abbrev fGNS_CORR_STAT_IN_USE : Fld := ⟨0x40090028, 1, 1⟩
abbrev fGNS_CORR_STAT_STATION : Fld := ⟨0x40090028, 13, 2⟩
abbrev fGNS_CORR_STAT_AGE : Fld := ⟨0x40090028, 23, 14⟩
abbrev fGNS_CORR_CNT_ACCEPTED : Fld := ⟨0x4009002C, 15, 0⟩
abbrev fGNS_CORR_CNT_REFUSED : Fld := ⟨0x4009002C, 31, 16⟩
abbrev fGNS_CORR_ID_CAN_ID : Fld := ⟨0x40090030, 28, 0⟩
abbrev fGNS_JAM_J (i j : Nat) : Fld := ⟨0x40090040 + 0xC * i + 0x4 * j, 7, 0⟩
abbrev fGNS_JAM_GAIN (i j : Nat) : Fld := ⟨0x40090040 + 0xC * i + 0x4 * j, 15, 8⟩
abbrev fGNS_JAM_NOTCHES (i j : Nat) : Fld := ⟨0x40090040 + 0xC * i + 0x4 * j, 19, 16⟩
abbrev fGNS_JAM_OVERFLOW (i j : Nat) : Fld := ⟨0x40090040 + 0xC * i + 0x4 * j, 27, 20⟩
abbrev fGNS_NOTCH_FREQ (i j k : Nat) : Fld := ⟨0x40090060 + 0x30 * i + 0x10 * j + 0x4 * k, 23, 0⟩
abbrev fGNS_NOTCH_LEVEL (i j k : Nat) : Fld := ⟨0x40090060 + 0x30 * i + 0x10 * j + 0x4 * k, 30, 24⟩
abbrev fGNS_NOTCH_ON (i j k : Nat) : Fld := ⟨0x40090060 + 0x30 * i + 0x10 * j + 0x4 * k, 31, 31⟩
abbrev fGNS_SOL_TICK_LO : Fld := ⟨0x40090100, 31, 0⟩
abbrev fGNS_SOL_STAT_FIX : Fld := ⟨0x40090108, 2, 0⟩
abbrev fGNS_SOL_STAT_NSAT : Fld := ⟨0x40090108, 8, 3⟩
abbrev fGNS_SOL_STAT_INTEG : Fld := ⟨0x40090108, 9, 9⟩
abbrev fGNS_SOL_STAT_HEAD_OK : Fld := ⟨0x40090108, 10, 10⟩
abbrev fGNS_SOL_STAT_SUBST : Fld := ⟨0x40090108, 11, 11⟩
abbrev fGNS_SOL_STAT_NEXCL : Fld := ⟨0x40090108, 13, 12⟩
abbrev fGNS_SOL_X_LO : Fld := ⟨0x4009010C, 31, 0⟩
abbrev fGNS_SOL_VX : Fld := ⟨0x40090124, 31, 0⟩
abbrev fGNS_SOL_SIG_H : Fld := ⟨0x40090130, 15, 0⟩
abbrev fGNS_SOL_SIG_V : Fld := ⟨0x40090130, 31, 16⟩
abbrev fGNS_SOL_HEAD_HEAD : Fld := ⟨0x40090134, 15, 0⟩
abbrev fGNS_SOL_HEAD_PITCH : Fld := ⟨0x40090134, 31, 16⟩
abbrev fGNS_SOL_HSIG_SIG : Fld := ⟨0x40090138, 15, 0⟩
abbrev fGNS_SOL_HSIG_LEN : Fld := ⟨0x40090138, 31, 16⟩
abbrev fGNS_ISO (i : Nat) : Fld := ⟨0x4009013C + 0x4 * i, 31, 0⟩
abbrev fGNS_TRK_CFG_EN (i : Nat) : Fld := ⟨0x40091000 + 0x40 * i, 0, 0⟩
abbrev fGNS_TRK_CFG_SIG (i : Nat) : Fld := ⟨0x40091000 + 0x40 * i, 5, 1⟩
abbrev fGNS_TRK_CFG_SV (i : Nat) : Fld := ⟨0x40091000 + 0x40 * i, 13, 6⟩
abbrev fGNS_TRK_CFG_INT (i : Nat) : Fld := ⟨0x40091000 + 0x40 * i, 18, 14⟩
abbrev fGNS_TRK_CFG_SP (i : Nat) : Fld := ⟨0x40091000 + 0x40 * i, 23, 19⟩
abbrev fGNS_TRK_CARR_F (i : Nat) : Fld := ⟨0x40091004 + 0x40 * i, 31, 0⟩
abbrev fGNS_TRK_CODE_F (i : Nat) : Fld := ⟨0x40091008 + 0x40 * i, 31, 0⟩
abbrev fGNS_TRK_CARR_CYC (i : Nat) : Fld := ⟨0x4009100C + 0x40 * i, 31, 0⟩
abbrev fGNS_TRK_CARR_FRAC (i : Nat) : Fld := ⟨0x40091010 + 0x40 * i, 31, 0⟩
abbrev fGNS_TRK_CODE_PH_PH (i : Nat) : Fld := ⟨0x40091014 + 0x40 * i, 29, 0⟩
abbrev fGNS_TRK_CODE_CNT (i : Nat) : Fld := ⟨0x40091018 + 0x40 * i, 31, 0⟩
abbrev fGNS_TRK_DUMP_DUMP_CNT (i : Nat) : Fld := ⟨0x4009101C + 0x40 * i, 15, 0⟩
abbrev fGNS_TRK_DUMP_DUMP_RDY (i : Nat) : Fld := ⟨0x4009101C + 0x40 * i, 16, 16⟩
abbrev fGNS_TRK_DUMP_OVERRUN (i : Nat) : Fld := ⟨0x4009101C + 0x40 * i, 23, 17⟩
abbrev fGNS_TRK_DUMP_NCO_SUPERSEDED (i : Nat) : Fld := ⟨0x4009101C + 0x40 * i, 31, 24⟩
abbrev fGNS_TRK_COR_I (i j : Nat) : Fld := ⟨0x40091020 + 0x40 * i + 0x4 * j, 15, 0⟩
abbrev fGNS_TRK_COR_Q (i j : Nat) : Fld := ⟨0x40091020 + 0x40 * i + 0x4 * j, 31, 16⟩
abbrev fGNS_TRK_LOCK (i : Nat) : Fld := ⟨0x4009103C + 0x40 * i, 31, 0⟩
abbrev fGNS_TRK_LOCK_CN0 (i : Nat) : Fld := ⟨0x4009103C + 0x40 * i, 7, 0⟩
abbrev fGNS_TRK_LOCK_LOCK (i : Nat) : Fld := ⟨0x4009103C + 0x40 * i, 8, 8⟩
abbrev fGNS_TRK_LOCK_COAST (i : Nat) : Fld := ⟨0x4009103C + 0x40 * i, 9, 9⟩
abbrev fISP_STATUS_PORT (i : Nat) : Fld := ⟨0x400A0000 + 0x1000 * i, 1, 0⟩
abbrev fISP_STATUS_GM (i : Nat) : Fld := ⟨0x400A0000 + 0x1000 * i, 2, 2⟩
abbrev fISP_EVT_STATS (i : Nat) : Fld := ⟨0x400A0004 + 0x1000 * i, 0, 0⟩
abbrev fISP_EVT_FRAME_ERR (i : Nat) : Fld := ⟨0x400A0004 + 0x1000 * i, 1, 1⟩
abbrev fISP_EVT_SKEW (i : Nat) : Fld := ⟨0x400A0004 + 0x1000 * i, 2, 2⟩
abbrev fISP_EVT_LINK (i : Nat) : Fld := ⟨0x400A0004 + 0x1000 * i, 3, 3⟩
abbrev fISP_PORT_CFG_EN (i : Nat) : Fld := ⟨0x400A0008 + 0x1000 * i, 0, 0⟩
abbrev fISP_PORT_CFG_ROLE (i : Nat) : Fld := ⟨0x400A0008 + 0x1000 * i, 3, 1⟩
abbrev fISP_PORT_CFG_EXP_DIV (i : Nat) : Fld := ⟨0x400A0008 + 0x1000 * i, 5, 4⟩
abbrev fISP_PORT_CFG_WIDTH (i : Nat) : Fld := ⟨0x400A0008 + 0x1000 * i, 12, 6⟩
abbrev fISP_PORT_CFG_HEIGHT (i : Nat) : Fld := ⟨0x400A0008 + 0x1000 * i, 19, 13⟩
abbrev fISP_PORT_CFG_GQ_MIN (i : Nat) : Fld := ⟨0x400A0008 + 0x1000 * i, 31, 20⟩
abbrev fISP_STREAM_ID_LO (i : Nat) : Fld := ⟨0x400A000C + 0x1000 * i, 31, 0⟩
abbrev fISP_STREAM_ID_HI (i : Nat) : Fld := ⟨0x400A0010 + 0x1000 * i, 31, 0⟩
abbrev fISP_FRAME (i : Nat) : Fld := ⟨0x400A0014 + 0x1000 * i, 31, 0⟩
abbrev fISP_CNT_DROP (i : Nat) : Fld := ⟨0x400A0018 + 0x1000 * i, 15, 0⟩
abbrev fISP_CNT_LATE (i : Nat) : Fld := ⟨0x400A0018 + 0x1000 * i, 31, 16⟩
abbrev fISP_SUPERSEDED (i : Nat) : Fld := ⟨0x400A001C + 0x1000 * i, 31, 0⟩
abbrev fISP_GEN (i : Nat) : Fld := ⟨0x400A0020 + 0x1000 * i, 31, 0⟩
abbrev fISP_SH_EXP (i : Nat) : Fld := ⟨0x400A0100 + 0x1000 * i, 31, 0⟩
abbrev fISP_SH_EXP_EXP (i : Nat) : Fld := ⟨0x400A0100 + 0x1000 * i, 13, 0⟩
abbrev fISP_SH_EXP_GAIN (i : Nat) : Fld := ⟨0x400A0100 + 0x1000 * i, 21, 14⟩
abbrev fISP_SH_BLACK_LEVEL (i j : Nat) : Fld := ⟨0x400A0104 + 0x1000 * i + 0x4 * j, 11, 0⟩
abbrev fISP_SH_DPC_EN (i : Nat) : Fld := ⟨0x400A0114 + 0x1000 * i, 0, 0⟩
abbrev fISP_SH_DPC_THR (i : Nat) : Fld := ⟨0x400A0114 + 0x1000 * i, 12, 1⟩
abbrev fISP_SH_LSC_EN (i : Nat) : Fld := ⟨0x400A0118 + 0x1000 * i, 0, 0⟩
abbrev fISP_SH_NR_STR (i : Nat) : Fld := ⟨0x400A011C + 0x1000 * i, 3, 0⟩
abbrev fISP_SH_TONE_CURVE (i : Nat) : Fld := ⟨0x400A0120 + 0x1000 * i, 1, 0⟩
abbrev fISP_SH_GEO_EN (i : Nat) : Fld := ⟨0x400A0124 + 0x1000 * i, 0, 0⟩
abbrev fISP_SH_ROI_X0 (i : Nat) : Fld := ⟨0x400A0128 + 0x1000 * i, 6, 0⟩
abbrev fISP_SH_ROI_Y0 (i : Nat) : Fld := ⟨0x400A0128 + 0x1000 * i, 14, 8⟩
abbrev fISP_SH_ROI_W (i : Nat) : Fld := ⟨0x400A0128 + 0x1000 * i, 22, 16⟩
abbrev fISP_SH_ROI_H (i : Nat) : Fld := ⟨0x400A0128 + 0x1000 * i, 30, 24⟩
abbrev fISP_GQ_CNT1_WHOLE (i : Nat) : Fld := ⟨0x400A0200 + 0x1000 * i, 15, 0⟩
abbrev fISP_GQ_CNT1_BROKEN (i : Nat) : Fld := ⟨0x400A0200 + 0x1000 * i, 31, 16⟩
abbrev fISP_GQ_CNT2_MOG (i : Nat) : Fld := ⟨0x400A0204 + 0x1000 * i, 15, 0⟩
abbrev fISP_GQ_CNT2_EMPTY (i : Nat) : Fld := ⟨0x400A0204 + 0x1000 * i, 31, 16⟩
abbrev fISP_SKEW_MAX_NS : Fld := ⟨0x400A6000, 15, 0⟩
abbrev fFUS_STATUS_RUN : Fld := ⟨0x400B0000, 0, 0⟩
abbrev fFUS_STATUS_EGO_OK : Fld := ⟨0x400B0000, 1, 1⟩
abbrev fFUS_STATUS_NTRK : Fld := ⟨0x400B0000, 10, 2⟩
abbrev fFUS_EVT_RESULT : Fld := ⟨0x400B0004, 0, 0⟩
abbrev fFUS_EVT_SHED : Fld := ⟨0x400B0004, 1, 1⟩
abbrev fFUS_EVT_CONTESTED : Fld := ⟨0x400B0004, 2, 2⟩
abbrev fFUS_EVT_LATE : Fld := ⟨0x400B0004, 3, 3⟩
abbrev fFUS_EVT_GUID_CHG : Fld := ⟨0x400B0004, 4, 4⟩
abbrev fFUS_EVT_OBSTACLE : Fld := ⟨0x400B0004, 5, 5⟩
abbrev fFUS_EVT_UNL_CHG : Fld := ⟨0x400B0004, 6, 6⟩
abbrev fFUS_CFG_LIDAR_DIV : Fld := ⟨0x400B000C, 2, 0⟩
abbrev fFUS_CFG_DENY_N : Fld := ⟨0x400B000C, 5, 3⟩
abbrev fFUS_CFG_HEADER_KIND : Fld := ⟨0x400B000C, 6, 6⟩
abbrev fFUS_CFG_UNL_AUTO : Fld := ⟨0x400B000C, 7, 7⟩
abbrev fFUS_CFG_GUID_AGE_MAX : Fld := ⟨0x400B000C, 19, 8⟩
abbrev fFUS_CFG_UNL_CLEAR : Fld := ⟨0x400B000C, 25, 20⟩
abbrev fFUS_GUID_CFG_PREF : Fld := ⟨0x400B0010, 0, 0⟩
abbrev fFUS_GUID_CFG_CORR_MARGIN : Fld := ⟨0x400B0010, 8, 1⟩
abbrev fFUS_GUID_CFG_STOP_MARGIN : Fld := ⟨0x400B0010, 16, 9⟩
abbrev fFUS_GUID_CFG_STOP_REACT : Fld := ⟨0x400B0010, 24, 17⟩
abbrev fFUS_GUID_CFG_EDGE_MAP_TOL : Fld := ⟨0x400B0010, 31, 25⟩
abbrev fFUS_CNT_SHED_SHED : Fld := ⟨0x400B0014, 15, 0⟩
abbrev fFUS_CNT_SHED_REFUSED : Fld := ⟨0x400B0014, 31, 16⟩
abbrev fFUS_CNT_LATE_OOS : Fld := ⟨0x400B0018, 15, 0⟩
abbrev fFUS_CNT_LATE_LATE_DROP : Fld := ⟨0x400B0018, 31, 16⟩
abbrev fFUS_CNT_CONTEST_NOW : Fld := ⟨0x400B001C, 15, 0⟩
abbrev fFUS_CNT_CONTEST_TOTAL : Fld := ⟨0x400B001C, 31, 16⟩
abbrev fFUS_RES_FRAME_LO : Fld := ⟨0x400B0020, 31, 0⟩
abbrev fFUS_RES_STAT_NTRK : Fld := ⟨0x400B0028, 8, 0⟩
abbrev fFUS_RES_STAT_REVISED : Fld := ⟨0x400B0028, 9, 9⟩
abbrev fFUS_RES_STAT_LATE_DROP : Fld := ⟨0x400B0028, 10, 10⟩
abbrev fFUS_RES_STAT_MISSING : Fld := ⟨0x400B0028, 11, 11⟩
abbrev fFUS_RES_STAT_EGO_VALID : Fld := ⟨0x400B0028, 12, 12⟩
abbrev fFUS_RES_AGE_OLDEST : Fld := ⟨0x400B002C, 15, 0⟩
abbrev fFUS_EGO_X : Fld := ⟨0x400B0030, 31, 0⟩
abbrev fFUS_EGO_Y : Fld := ⟨0x400B0034, 31, 0⟩
abbrev fFUS_EGO_YAW : Fld := ⟨0x400B003C, 31, 0⟩
abbrev fFUS_EGO_VFWD : Fld := ⟨0x400B0048, 31, 0⟩
abbrev fFUS_EGO_SIG : Fld := ⟨0x400B0054, 31, 0⟩
abbrev fFUS_EGO_STAT_USED : Fld := ⟨0x400B0058, 4, 0⟩
abbrev fFUS_EGO_STAT_FIX : Fld := ⟨0x400B0058, 7, 5⟩
abbrev fFUS_GUID_STAT_STATE : Fld := ⟨0x400B0060, 1, 0⟩
abbrev fFUS_GUID_STAT_SRC : Fld := ⟨0x400B0060, 3, 2⟩
abbrev fFUS_GUID_STAT_WHY : Fld := ⟨0x400B0060, 7, 4⟩
abbrev fFUS_GUID_ERR_LAT : Fld := ⟨0x400B0064, 15, 0⟩
abbrev fFUS_GUID_ERR_HEAD : Fld := ⟨0x400B0064, 31, 16⟩
abbrev fFUS_CORRIDOR_LEN : Fld := ⟨0x400B0068, 15, 0⟩
abbrev fFUS_CORRIDOR_WID : Fld := ⟨0x400B0068, 31, 16⟩
abbrev fFUS_UNL_STAT_STATE : Fld := ⟨0x400B0070, 2, 0⟩
abbrev fFUS_UNL_STAT_WHY : Fld := ⟨0x400B0070, 6, 3⟩
abbrev fFUS_UNL_STAT_TRAILER : Fld := ⟨0x400B0070, 15, 8⟩
abbrev fFUS_UNL_STAT_SPOUT : Fld := ⟨0x400B0070, 23, 16⟩
abbrev fFUS_UNL_CART : Fld := ⟨0x400B0074, 31, 0⟩
abbrev fFUS_SRC_STATE (i : Nat) : Fld := ⟨0x400B0080 + 0x4 * i, 1, 0⟩
abbrev fFUS_SRC_AGE (i : Nat) : Fld := ⟨0x400B0080 + 0x4 * i, 17, 2⟩
abbrev fFUS_TRK (i j : Nat) : Fld := ⟨0x400B8000 + 0x80 * i + 0x4 * j, 31, 0⟩
abbrev fMAP_STATUS : Fld := ⟨0x400C0000, 31, 0⟩
abbrev fMAP_STATUS_RUN : Fld := ⟨0x400C0000, 0, 0⟩
abbrev fMAP_STATUS_FIELD_OK : Fld := ⟨0x400C0000, 1, 1⟩
abbrev fMAP_STATUS_POS_SRC : Fld := ⟨0x400C0000, 3, 2⟩
abbrev fMAP_STATUS_RECOVERED : Fld := ⟨0x400C0000, 4, 4⟩
abbrev fMAP_STATUS_STORE_FULL : Fld := ⟨0x400C0000, 5, 5⟩
abbrev fMAP_EVT : Fld := ⟨0x400C0004, 31, 0⟩
abbrev fMAP_EVT_UPDATE : Fld := ⟨0x400C0004, 0, 0⟩
abbrev fMAP_EVT_SEALED : Fld := ⟨0x400C0004, 1, 1⟩
abbrev fMAP_EVT_JOURNAL : Fld := ⟨0x400C0004, 2, 2⟩
abbrev fMAP_EVT_KERNEL : Fld := ⟨0x400C0004, 3, 3⟩
abbrev fMAP_EVT_REFUSED : Fld := ⟨0x400C0004, 4, 4⟩
abbrev fMAP_EVT_UNATTR : Fld := ⟨0x400C0004, 5, 5⟩
abbrev fMAP_EVT_STORE_ERR : Fld := ⟨0x400C0004, 6, 6⟩
abbrev fMAP_CFG_CELL : Fld := ⟨0x400C000C, 1, 0⟩
abbrev fMAP_CFG_SETTLE : Fld := ⟨0x400C000C, 7, 2⟩
abbrev fMAP_CFG_REATTR : Fld := ⟨0x400C000C, 14, 8⟩
abbrev fMAP_CFG_BETA : Fld := ⟨0x400C000C, 18, 15⟩
abbrev fMAP_CFG_HIST_W : Fld := ⟨0x400C000C, 26, 19⟩
abbrev fMAP_FIELD_ID : Fld := ⟨0x400C0010, 15, 0⟩
abbrev fMAP_ORG_LAT : Fld := ⟨0x400C0014, 31, 0⟩
abbrev fMAP_ORG_LON : Fld := ⟨0x400C0018, 31, 0⟩
abbrev fMAP_ORG_H : Fld := ⟨0x400C001C, 31, 0⟩
abbrev fMAP_STAT_DRAM_DEFERRED : Fld := ⟨0x400C0020, 23, 0⟩
abbrev fMAP_STAT_BACKLOG : Fld := ⟨0x400C0020, 27, 24⟩
abbrev fMAP_TILES_RESIDENT : Fld := ⟨0x400C0024, 9, 0⟩
abbrev fMAP_TILES_OPEN : Fld := ⟨0x400C0024, 19, 10⟩
abbrev fMAP_TILES_LOADING : Fld := ⟨0x400C0024, 25, 20⟩
abbrev fMAP_KERNEL_CENTROID : Fld := ⟨0x400C0028, 7, 0⟩
abbrev fMAP_KERNEL_SPREAD : Fld := ⟨0x400C0028, 15, 8⟩
abbrev fMAP_KERNEL_EVENTS : Fld := ⟨0x400C0028, 31, 16⟩
abbrev fMAP_LAST_TICK_LO : Fld := ⟨0x400C002C, 31, 0⟩
abbrev fMAP_UNATTR : Fld := ⟨0x400C0034, 31, 0⟩
abbrev fMAP_CORR_MERGED : Fld := ⟨0x400C0038, 15, 0⟩
abbrev fMAP_CORR_REFUSED : Fld := ⟨0x400C0038, 31, 16⟩
abbrev fMAP_PEND_QUEUED : Fld := ⟨0x400C003C, 16, 0⟩
abbrev fMAP_PEND_REFUSED : Fld := ⟨0x400C003C, 31, 17⟩
abbrev fMAP_JOURNAL_BLOCKS : Fld := ⟨0x400C0040, 15, 0⟩
abbrev fMAP_JOURNAL_FAIL : Fld := ⟨0x400C0040, 23, 16⟩
abbrev fMAP_SEASON_LO : Fld := ⟨0x400C0044, 31, 0⟩
abbrev fMAP_SEASON_HI : Fld := ⟨0x400C0048, 31, 0⟩
abbrev fMAP_CUTBAR_FWD : Fld := ⟨0x400C004C, 15, 0⟩
abbrev fMAP_CUTBAR_LAT : Fld := ⟨0x400C004C, 31, 16⟩
abbrev fMAP_MASS_TOTAL : Fld := ⟨0x400C0050, 31, 0⟩
abbrev fMAP_KER_TAP_LO (i : Nat) : Fld := ⟨0x400C0400 + 0x4 * i, 15, 0⟩
abbrev fMAP_KER_TAP_HI (i : Nat) : Fld := ⟨0x400C0400 + 0x4 * i, 31, 16⟩
abbrev fMAP_DIR_KEY_TX (i : Nat) : Fld := ⟨0x400C1000 + 0x8 * i, 15, 0⟩
abbrev fMAP_DIR_KEY_TY (i : Nat) : Fld := ⟨0x400C1000 + 0x8 * i, 31, 16⟩
abbrev fMAP_DIR_STAT (i : Nat) : Fld := ⟨0x400C1004 + 0x8 * i, 31, 0⟩
abbrev fMAP_DIR_STAT_FIELD (i : Nat) : Fld := ⟨0x400C1004 + 0x8 * i, 15, 0⟩
abbrev fMAP_DIR_STAT_VALID (i : Nat) : Fld := ⟨0x400C1004 + 0x8 * i, 16, 16⟩
abbrev fMAP_DIR_STAT_OPEN (i : Nat) : Fld := ⟨0x400C1004 + 0x8 * i, 17, 17⟩
abbrev fMAP_DIR_STAT_DIRTY (i : Nat) : Fld := ⟨0x400C1004 + 0x8 * i, 18, 18⟩
abbrev fMAP_DIR_STAT_LOADING (i : Nat) : Fld := ⟨0x400C1004 + 0x8 * i, 19, 19⟩
abbrev fCAN_STATUS_BUSOFF : Fld := ⟨0x400D0000, 5, 0⟩
abbrev fCAN_STATUS_ERRP : Fld := ⟨0x400D0000, 11, 6⟩
abbrev fCAN_STATUS_SLEEP : Fld := ⟨0x400D0000, 17, 12⟩
abbrev fCAN_EVT_BUSOFF : Fld := ⟨0x400D0004, 0, 0⟩
abbrev fCAN_EVT_REFUSED : Fld := ⟨0x400D0004, 1, 1⟩
abbrev fCAN_EVT_TIMEOUT : Fld := ⟨0x400D0004, 2, 2⟩
abbrev fCAN_EVT_ADDR : Fld := ⟨0x400D0004, 3, 3⟩
abbrev fCAN_EVT_HOQ : Fld := ⟨0x400D0004, 4, 4⟩
abbrev fCAN_EVT_NOCLAIM : Fld := ⟨0x400D0004, 5, 5⟩
abbrev fCAN_EVT_PROTO_EXC : Fld := ⟨0x400D0004, 6, 6⟩
abbrev fCAN_PORT_CFG_EN (i : Nat) : Fld := ⟨0x400D0100 + 0x40 * i, 0, 0⟩
abbrev fCAN_PORT_CFG_LISTEN (i : Nat) : Fld := ⟨0x400D0100 + 0x40 * i, 1, 1⟩
abbrev fCAN_PORT_CFG_RATE (i : Nat) : Fld := ⟨0x400D0100 + 0x40 * i, 3, 2⟩
abbrev fCAN_PORT_CFG_DRATE (i : Nat) : Fld := ⟨0x400D0100 + 0x40 * i, 6, 4⟩
abbrev fCAN_PORT_CFG_TRIPLE (i : Nat) : Fld := ⟨0x400D0100 + 0x40 * i, 7, 7⟩
abbrev fCAN_PORT_CFG_TSEG2 (i : Nat) : Fld := ⟨0x400D0100 + 0x40 * i, 12, 8⟩
abbrev fCAN_PORT_CFG_SJW (i : Nat) : Fld := ⟨0x400D0100 + 0x40 * i, 17, 13⟩
abbrev fCAN_PORT_CFG_DTSEG2 (i : Nat) : Fld := ⟨0x400D0100 + 0x40 * i, 22, 18⟩
abbrev fCAN_PORT_CFG_RETRY (i : Nat) : Fld := ⟨0x400D0100 + 0x40 * i, 27, 23⟩
abbrev fCAN_PORT_CFG_PROTO (i : Nat) : Fld := ⟨0x400D0100 + 0x40 * i, 28, 28⟩
abbrev fCAN_PORT_CFG_WAKE (i : Nat) : Fld := ⟨0x400D0100 + 0x40 * i, 30, 29⟩
abbrev fCAN_PORT_LIM_HOQ_LIM (i : Nat) : Fld := ⟨0x400D0104 + 0x40 * i, 7, 0⟩
abbrev fCAN_PORT_LIM_BOFF_HOLD (i : Nat) : Fld := ⟨0x400D0104 + 0x40 * i, 15, 8⟩
abbrev fCAN_PORT_LIM_PREF_ADDR (i : Nat) : Fld := ⟨0x400D0104 + 0x40 * i, 23, 16⟩
abbrev fCAN_PORT_LIM_SELF_CFG (i : Nat) : Fld := ⟨0x400D0104 + 0x40 * i, 24, 24⟩
abbrev fCAN_WAKE_ID_ID (i : Nat) : Fld := ⟨0x400D0108 + 0x40 * i, 28, 0⟩
abbrev fCAN_WAKE_ID_IDE (i : Nat) : Fld := ⟨0x400D0108 + 0x40 * i, 29, 29⟩
abbrev fCAN_WAKE_MASK_MASK (i : Nat) : Fld := ⟨0x400D010C + 0x40 * i, 28, 0⟩
abbrev fCAN_PORT_STAT (i : Nat) : Fld := ⟨0x400D0110 + 0x40 * i, 31, 0⟩
abbrev fCAN_PORT_STAT_STATE (i : Nat) : Fld := ⟨0x400D0110 + 0x40 * i, 1, 0⟩
abbrev fCAN_PORT_STAT_TEC (i : Nat) : Fld := ⟨0x400D0110 + 0x40 * i, 9, 2⟩
abbrev fCAN_PORT_STAT_REC (i : Nat) : Fld := ⟨0x400D0110 + 0x40 * i, 17, 10⟩
abbrev fCAN_PORT_STAT_ADDR (i : Nat) : Fld := ⟨0x400D0110 + 0x40 * i, 25, 18⟩
abbrev fCAN_PORT_STAT_ACL (i : Nat) : Fld := ⟨0x400D0110 + 0x40 * i, 27, 26⟩
abbrev fCAN_FIFO (i : Nat) : Fld := ⟨0x400D0114 + 0x40 * i, 31, 0⟩
abbrev fCAN_FIFO_DEPTH (i : Nat) : Fld := ⟨0x400D0114 + 0x40 * i, 5, 0⟩
abbrev fCAN_FIFO_BLOCKED (i : Nat) : Fld := ⟨0x400D0114 + 0x40 * i, 11, 6⟩
abbrev fCAN_FIFO_EXPRESS (i : Nat) : Fld := ⟨0x400D0114 + 0x40 * i, 12, 12⟩
abbrev fCAN_HOQ (i : Nat) : Fld := ⟨0x400D0118 + 0x40 * i, 31, 0⟩
abbrev fCAN_INV_CNT (i : Nat) : Fld := ⟨0x400D011C + 0x40 * i, 31, 0⟩
abbrev fCAN_CNT_TX (i : Nat) : Fld := ⟨0x400D0120 + 0x40 * i, 31, 0⟩
abbrev fCAN_CNT_RX (i : Nat) : Fld := ⟨0x400D0124 + 0x40 * i, 31, 0⟩
abbrev fCAN_CNT_REF_FULL (i : Nat) : Fld := ⟨0x400D0128 + 0x40 * i, 15, 0⟩
abbrev fCAN_CNT_REF_RETRY (i : Nat) : Fld := ⟨0x400D0128 + 0x40 * i, 31, 16⟩
abbrev fCAN_CNT_ERR_BUSOFF (i : Nat) : Fld := ⟨0x400D012C + 0x40 * i, 15, 0⟩
abbrev fCAN_CNT_ERR_PROTO_EXC (i : Nat) : Fld := ⟨0x400D012C + 0x40 * i, 31, 16⟩
abbrev fCAN_CNT_SUP (i : Nat) : Fld := ⟨0x400D0130 + 0x40 * i, 31, 0⟩
abbrev fCAN_TXS_CFG_MSG (i : Nat) : Fld := ⟨0x400D0400 + 0x10 * i, 4, 0⟩
abbrev fCAN_TXS_CFG_POLICY (i : Nat) : Fld := ⟨0x400D0400 + 0x10 * i, 6, 5⟩
abbrev fCAN_TXS_CFG_HOLD_WIN (i : Nat) : Fld := ⟨0x400D0400 + 0x10 * i, 20, 7⟩
abbrev fCAN_TXS_SAFE (i : Nat) : Fld := ⟨0x400D0404 + 0x10 * i, 31, 0⟩
abbrev fCAN_TXS_VAL (i : Nat) : Fld := ⟨0x400D0408 + 0x10 * i, 31, 0⟩
abbrev fCAN_TXS_STAT_SEL (i : Nat) : Fld := ⟨0x400D040C + 0x10 * i, 1, 0⟩
abbrev fCAN_TXS_STAT_NOCLAIM (i : Nat) : Fld := ⟨0x400D040C + 0x10 * i, 2, 2⟩
abbrev fETH_STATUS_LINK : Fld := ⟨0x400E0000, 9, 0⟩
abbrev fETH_STATUS_FLEET : Fld := ⟨0x400E0000, 11, 10⟩
abbrev fETH_STATUS_NTRIP : Fld := ⟨0x400E0000, 13, 12⟩
abbrev fETH_STATUS_NO_CRED : Fld := ⟨0x400E0000, 14, 14⟩
abbrev fETH_EVT_LINK : Fld := ⟨0x400E0004, 0, 0⟩
abbrev fETH_EVT_FLEET : Fld := ⟨0x400E0004, 1, 1⟩
abbrev fETH_EVT_NTRIP : Fld := ⟨0x400E0004, 2, 2⟩
abbrev fETH_EVT_REFUSED : Fld := ⟨0x400E0004, 3, 3⟩
abbrev fETH_EVT_TILE_ACK : Fld := ⟨0x400E0004, 4, 4⟩
abbrev fETH_EVT_CFG_IN : Fld := ⟨0x400E0004, 5, 5⟩
abbrev fETH_SVC_PORT_TCP : Fld := ⟨0x400E000C, 15, 0⟩
abbrev fETH_SVC_PORT_TILE_INT : Fld := ⟨0x400E000C, 31, 16⟩
abbrev fETH_FLEET_Q_ALERTS : Fld := ⟨0x400E0010, 8, 0⟩
abbrev fETH_FLEET_Q_TILES : Fld := ⟨0x400E0010, 18, 9⟩
abbrev fETH_FLEET_REF : Fld := ⟨0x400E0014, 31, 0⟩
abbrev fETH_NTRIP_STAT_AGE : Fld := ⟨0x400E0018, 15, 0⟩
abbrev fETH_NTRIP_STAT_RATE : Fld := ⟨0x400E0018, 31, 16⟩
abbrev fETH_NTRIP_CNT_CONNECTS : Fld := ⟨0x400E001C, 15, 0⟩
abbrev fETH_NTRIP_CNT_FAILS : Fld := ⟨0x400E001C, 31, 16⟩
abbrev fETH_PORT_CFG_EN (i : Nat) : Fld := ⟨0x400E0100 + 0x40 * i, 0, 0⟩
abbrev fETH_PORT_CFG_ROLE (i : Nat) : Fld := ⟨0x400E0100 + 0x40 * i, 2, 1⟩
abbrev fETH_PORT_CFG_IP4_MODE (i : Nat) : Fld := ⟨0x400E0100 + 0x40 * i, 5, 4⟩
abbrev fETH_PORT_STAT_LINK (i : Nat) : Fld := ⟨0x400E0104 + 0x40 * i, 1, 0⟩
abbrev fETH_PORT_STAT_SQI (i : Nat) : Fld := ⟨0x400E0104 + 0x40 * i, 4, 2⟩
abbrev fETH_PORT_STAT_AS_CAPABLE (i : Nat) : Fld := ⟨0x400E0104 + 0x40 * i, 5, 5⟩
abbrev fETH_PTP_DELAY (i : Nat) : Fld := ⟨0x400E0108 + 0x40 * i, 31, 0⟩
abbrev fETH_IP4 (i : Nat) : Fld := ⟨0x400E010C + 0x40 * i, 31, 0⟩
abbrev fETH_CNT_TX (i : Nat) : Fld := ⟨0x400E0114 + 0x40 * i, 31, 0⟩
abbrev fETH_CNT_ERR_PTP (i : Nat) : Fld := ⟨0x400E0118 + 0x40 * i, 31, 16⟩
abbrev fECN_STATUS : Fld := ⟨0x400F0000, 31, 0⟩
abbrev fECN_STATUS_MANAGER : Fld := ⟨0x400F0000, 0, 0⟩
abbrev fECN_STATUS_POS : Fld := ⟨0x400F0000, 3, 1⟩
abbrev fECN_STATUS_MODE : Fld := ⟨0x400F0000, 5, 4⟩
abbrev fECN_STATUS_JOIN : Fld := ⟨0x400F0000, 8, 6⟩
abbrev fECN_STATUS_IN_UP : Fld := ⟨0x400F0000, 9, 9⟩
abbrev fECN_STATUS_OUT_UP : Fld := ⟨0x400F0000, 10, 10⟩
abbrev fECN_STATUS_REASON : Fld := ⟨0x400F0000, 13, 11⟩
abbrev fECN_STATUS_FOREIGN : Fld := ⟨0x400F0000, 14, 14⟩
abbrev fECN_EVT_MEMBER : Fld := ⟨0x400F0004, 0, 0⟩
abbrev fECN_EVT_MODE : Fld := ⟨0x400F0004, 1, 1⟩
abbrev fECN_EVT_PORT : Fld := ⟨0x400F0004, 2, 2⟩
abbrev fECN_EVT_ABORT : Fld := ⟨0x400F0004, 3, 3⟩
abbrev fECN_EVT_GEN : Fld := ⟨0x400F0004, 4, 4⟩
abbrev fECN_CFG_EXPECT : Fld := ⟨0x400F000C, 7, 0⟩
abbrev fECN_CFG_JOIN_WAIT : Fld := ⟨0x400F000C, 15, 8⟩
abbrev fECN_MEMBERS_JOINED : Fld := ⟨0x400F0010, 7, 0⟩
abbrev fECN_MEMBERS_ALIGNED : Fld := ⟨0x400F0010, 15, 8⟩
abbrev fECN_MEMBERS_LIMP : Fld := ⟨0x400F0010, 23, 16⟩
abbrev fECN_MEMBERS_NOCLAIM : Fld := ⟨0x400F0010, 31, 24⟩
abbrev fECN_HOP_IN_DLY : Fld := ⟨0x400F0014, 23, 0⟩
abbrev fECN_HOP_OUT_DLY : Fld := ⟨0x400F0018, 23, 0⟩
abbrev fECN_ACC_TOTAL : Fld := ⟨0x400F001C, 23, 0⟩
abbrev fECN_ACC_HOPS : Fld := ⟨0x400F001C, 27, 24⟩
abbrev fECN_CNT_HDR : Fld := ⟨0x400F0020, 15, 0⟩
abbrev fECN_CNT_WIN : Fld := ⟨0x400F0020, 31, 16⟩
abbrev fCFG_STATUS_SLOT : Fld := ⟨0x40100000, 0, 0⟩
abbrev fCFG_STATUS_DERIVED : Fld := ⟨0x40100000, 1, 1⟩
abbrev fCFG_STATUS_LOADED : Fld := ⟨0x40100000, 2, 2⟩
abbrev fCFG_STATUS_PERSIST_BUSY : Fld := ⟨0x40100000, 3, 3⟩
abbrev fCFG_STATUS_PERSIST_FAIL : Fld := ⟨0x40100000, 4, 4⟩
abbrev fCFG_STATUS_FAIL_CHK : Fld := ⟨0x40100000, 7, 5⟩
abbrev fCFG_EVT_APPLIED : Fld := ⟨0x40100004, 0, 0⟩
abbrev fCFG_EVT_REFUSED : Fld := ⟨0x40100004, 1, 1⟩
abbrev fCFG_EVT_ABORTED : Fld := ⟨0x40100004, 2, 2⟩
abbrev fCFG_EVT_PERSIST : Fld := ⟨0x40100004, 3, 3⟩
abbrev fCFG_REGION : Fld := ⟨0x40100008, 31, 0⟩
abbrev fCFG_TX : Fld := ⟨0x4010000C, 31, 0⟩
abbrev fCFG_TX_HANDLE : Fld := ⟨0x4010000C, 15, 0⟩
abbrev fCFG_TX_OWNER : Fld := ⟨0x4010000C, 17, 16⟩
abbrev fCFG_TX_MASK : Fld := ⟨0x4010000C, 26, 18⟩
abbrev fCFG_RESULT_OUTCOME : Fld := ⟨0x40100010, 1, 0⟩
abbrev fCFG_RESULT_REASON : Fld := ⟨0x40100010, 5, 2⟩
abbrev fCFG_RESULT_ITEM : Fld := ⟨0x40100010, 15, 6⟩
abbrev fCFG_GEN : Fld := ⟨0x40100014, 31, 0⟩
abbrev fCFG_APPLY_TICK_LO : Fld := ⟨0x40100018, 31, 0⟩
abbrev fCFG_IMG_SEQ : Fld := ⟨0x40100020, 31, 0⟩
abbrev fCFG_PERSIST_GEN : Fld := ⟨0x40100024, 31, 0⟩
abbrev fCFG_SYS_ID_LO : Fld := ⟨0x40100028, 31, 0⟩
abbrev fCFG_CNT_APPLIED : Fld := ⟨0x40100030, 15, 0⟩
abbrev fCFG_CNT_REFUSED : Fld := ⟨0x40100030, 31, 16⟩
abbrev fUPD_STATUS : Fld := ⟨0x40110000, 31, 0⟩
abbrev fUPD_STATUS_STATE : Fld := ⟨0x40110000, 2, 0⟩
abbrev fUPD_STATUS_SLOT : Fld := ⟨0x40110000, 3, 3⟩
abbrev fUPD_STATUS_DUAL : Fld := ⟨0x40110000, 4, 4⟩
abbrev fUPD_EVT_STAGED : Fld := ⟨0x40110004, 0, 0⟩
abbrev fUPD_EVT_REFUSED : Fld := ⟨0x40110004, 1, 1⟩
abbrev fUPD_EVT_STATE_CHG : Fld := ⟨0x40110004, 2, 2⟩
abbrev fUPD_RESULT : Fld := ⟨0x40110008, 31, 0⟩
abbrev fUPD_RESULT_OUTCOME : Fld := ⟨0x40110008, 1, 0⟩
abbrev fUPD_RESULT_REASON : Fld := ⟨0x40110008, 5, 2⟩
abbrev fUPD_RESULT_ENTRY : Fld := ⟨0x40110008, 11, 6⟩
abbrev fUPD_INTERLOCK_FAIL : Fld := ⟨0x4011000C, 7, 0⟩
abbrev fUPD_POS : Fld := ⟨0x40110010, 31, 0⟩
abbrev fUPD_POS_STAGED : Fld := ⟨0x40110010, 7, 0⟩
abbrev fUPD_POS_READY : Fld := ⟨0x40110010, 15, 8⟩
abbrev fUPD_POS_DONE : Fld := ⟨0x40110010, 23, 16⟩
abbrev fUPD_POS_FAILED : Fld := ⟨0x40110010, 31, 24⟩
abbrev fUPD_PROGRESS : Fld := ⟨0x40110014, 31, 0⟩
abbrev fUPD_PROGRESS_ENTRY : Fld := ⟨0x40110014, 5, 0⟩
abbrev fUPD_PROGRESS_KIB : Fld := ⟨0x40110014, 31, 6⟩
abbrev fUPD_GO_TICK_LO : Fld := ⟨0x40110018, 31, 0⟩
abbrev fUPD_GO_TICK_HI : Fld := ⟨0x4011001C, 31, 0⟩
abbrev fUPD_RUN_VER : Fld := ⟨0x40110020, 31, 0⟩
abbrev fUPD_STAGED_VER : Fld := ⟨0x40110024, 31, 0⟩
abbrev fUPD_FLOOR : Fld := ⟨0x40110028, 31, 0⟩
abbrev fUPD_CONFIRM : Fld := ⟨0x4011002C, 31, 0⟩
abbrev fUPD_CONFIRM_HARVEST_S : Fld := ⟨0x4011002C, 10, 0⟩
abbrev fUPD_HANDOVER_MISMATCH : Fld := ⟨0x40110030, 15, 0⟩
abbrev fUPD_HANDOVER_TICKS : Fld := ⟨0x40110030, 31, 16⟩
abbrev fUPD_CNT : Fld := ⟨0x40110034, 31, 0⟩
abbrev fUPD_CNT_UPDATES : Fld := ⟨0x40110034, 15, 0⟩
abbrev fUPD_CNT_FALLBACKS : Fld := ⟨0x40110034, 31, 16⟩
abbrev fSEC_STATUS : Fld := ⟨0x40120000, 31, 0⟩
abbrev fSEC_STATUS_LC : Fld := ⟨0x40120000, 1, 0⟩
abbrev fSEC_STATUS_LEVEL : Fld := ⟨0x40120000, 3, 2⟩
abbrev fSEC_STATUS_BOOT_OK : Fld := ⟨0x40120000, 4, 4⟩
abbrev fSEC_STATUS_MAPKEY : Fld := ⟨0x40120000, 5, 5⟩
abbrev fSEC_STATUS_RETURNS : Fld := ⟨0x40120000, 7, 6⟩
abbrev fSEC_STATUS_BOOT_FAIL : Fld := ⟨0x40120000, 14, 8⟩
abbrev fSEC_EVT : Fld := ⟨0x40120004, 31, 0⟩
abbrev fSEC_EVT_LEVEL_CHG : Fld := ⟨0x40120004, 0, 0⟩
abbrev fSEC_EVT_AUTH_FAIL : Fld := ⟨0x40120004, 1, 1⟩
abbrev fSEC_EVT_HALT : Fld := ⟨0x40120004, 2, 2⟩
abbrev fSEC_EVT_LC_CHG : Fld := ⟨0x40120004, 3, 3⟩
abbrev fSEC_TOKEN_MIN_LEFT : Fld := ⟨0x40120008, 8, 0⟩
abbrev fSEC_HALT_CORES : Fld := ⟨0x4012000C, 9, 0⟩
abbrev fSEC_HALT_RES_OUTCOME : Fld := ⟨0x40120010, 1, 0⟩
abbrev fSEC_HALT_RES_CORE : Fld := ⟨0x40120010, 5, 2⟩
abbrev fSEC_HALT_RES_REASON : Fld := ⟨0x40120010, 9, 6⟩
abbrev fSEC_KEYS : Fld := ⟨0x40120014, 31, 0⟩
abbrev fSEC_KEYS_VALID : Fld := ⟨0x40120014, 6, 0⟩
abbrev fSEC_SERIAL_LO : Fld := ⟨0x40120018, 31, 0⟩
abbrev fSEC_SERIAL_HI : Fld := ⟨0x4012001C, 31, 0⟩
abbrev fSEC_CNT_AUTH_FAIL : Fld := ⟨0x40120020, 15, 0⟩
abbrev fSEC_CNT_HALTS : Fld := ⟨0x40120020, 31, 16⟩
abbrev fSEC_KEYID_LO (i : Nat) : Fld := ⟨0x40120100 + 0x8 * i, 31, 0⟩
abbrev fSEC_KEYID_HI (i : Nat) : Fld := ⟨0x40120104 + 0x8 * i, 31, 0⟩
abbrev fPWR_STATUS : Fld := ⟨0x40130000, 31, 0⟩
abbrev fPWR_STATUS_STATE : Fld := ⟨0x40130000, 2, 0⟩
abbrev fPWR_STATUS_DESCENT : Fld := ⟨0x40130000, 3, 3⟩
abbrev fPWR_STATUS_IGN : Fld := ⟨0x40130000, 4, 4⟩
abbrev fPWR_STATUS_LIMP_HOLD : Fld := ⟨0x40130000, 5, 5⟩
abbrev fPWR_EVT_STATE_CHG : Fld := ⟨0x40130004, 0, 0⟩
abbrev fPWR_EVT_WAKE : Fld := ⟨0x40130004, 1, 1⟩
abbrev fPWR_EVT_DESC_ABORT : Fld := ⟨0x40130004, 2, 2⟩
abbrev fPWR_EVT_BATT_LOW : Fld := ⟨0x40130004, 3, 3⟩
abbrev fPWR_CFG_OFF_STATE : Fld := ⟨0x4013000C, 1, 0⟩
abbrev fPWR_CFG_IGN_DLY : Fld := ⟨0x4013000C, 9, 2⟩
abbrev fPWR_CFG_LATCH_MAX : Fld := ⟨0x4013000C, 17, 10⟩
abbrev fPWR_CFG_SHUT_MAX : Fld := ⟨0x4013000C, 25, 18⟩
abbrev fPWR_CFG_BATT_LOW : Fld := ⟨0x4013000C, 31, 26⟩
abbrev fPWR_WAKE : Fld := ⟨0x40130010, 31, 0⟩
abbrev fPWR_WAKE_SRC : Fld := ⟨0x40130010, 4, 0⟩
abbrev fPWR_WAKE_PORT : Fld := ⟨0x40130010, 10, 5⟩
abbrev fPWR_RTC : Fld := ⟨0x40130014, 31, 0⟩
abbrev fPWR_ALARM : Fld := ⟨0x40130018, 31, 0⟩
abbrev fPWR_KAL_MV10 : Fld := ⟨0x4013001C, 11, 0⟩
abbrev fPWR_CNT_WAKES : Fld := ⟨0x40130020, 15, 0⟩
abbrev fPWR_CNT_ABORTS : Fld := ⟨0x40130020, 31, 16⟩
abbrev fEVR_STATUS : Fld := ⟨0x40140000, 31, 0⟩
abbrev fEVR_STATUS_FLASH_ERR : Fld := ⟨0x40140000, 13, 13⟩
abbrev fEVR_EVT_LOST : Fld := ⟨0x40140004, 0, 0⟩
abbrev fEVR_EVT_CLEARED : Fld := ⟨0x40140004, 1, 1⟩
abbrev fEVR_EVT_FLASH_ERR : Fld := ⟨0x40140004, 2, 2⟩
abbrev fEVR_EVT_LINTEL_FULL : Fld := ⟨0x40140004, 3, 3⟩
abbrev fEVR_SILL_HEAD : Fld := ⟨0x4014000C, 31, 0⟩
abbrev fEVR_SILL_TAIL : Fld := ⟨0x40140010, 31, 0⟩
abbrev fEVR_SUPPR : Fld := ⟨0x40140014, 31, 0⟩
abbrev fEVR_LOST : Fld := ⟨0x40140018, 31, 0⟩
abbrev fEVR_CLR_CNT : Fld := ⟨0x4014001C, 31, 0⟩
abbrev fEVR_RD_AREA : Fld := ⟨0x40140040, 31, 0⟩
abbrev fEVR_RD_SEL : Fld := ⟨0x40140044, 31, 0⟩
abbrev fEVR_RD_STAT : Fld := ⟨0x40140048, 31, 0⟩
abbrev fEVR_RD_DATA (i : Nat) : Fld := ⟨0x40140060 + 0x4 * i, 31, 0⟩
abbrev fPNL_STATUS : Fld := ⟨0x40150000, 31, 0⟩
abbrev fPNL_STATUS_SRC : Fld := ⟨0x40150000, 2, 0⟩
abbrev fPNL_STATUS_KA_TIMING : Fld := ⟨0x40150000, 3, 3⟩
abbrev fPNL_STATUS_FAULT : Fld := ⟨0x40150000, 4, 4⟩
abbrev fPNL_STATUS_REVERSED : Fld := ⟨0x40150000, 5, 5⟩
abbrev fPNL_EVT_CRC : Fld := ⟨0x40150004, 0, 0⟩
abbrev fPNL_EVT_FAULT : Fld := ⟨0x40150004, 1, 1⟩
abbrev fPNL_EVT_DCB : Fld := ⟨0x40150004, 2, 2⟩
abbrev fPNL_CTL_MSG_EN : Fld := ⟨0x40150008, 0, 0⟩
abbrev fPNL_CFG : Fld := ⟨0x4015000C, 31, 0⟩
abbrev fPNL_CFG_VLCD : Fld := ⟨0x4015000C, 5, 0⟩
abbrev fPNL_CFG_LATCH_SHOW : Fld := ⟨0x4015000C, 6, 6⟩
abbrev fPNL_CFG_DCB_LIM : Fld := ⟨0x4015000C, 11, 7⟩
abbrev fPNL_TEXT0 : Fld := ⟨0x40150010, 31, 0⟩
abbrev fPNL_TEXT1 : Fld := ⟨0x40150014, 31, 0⟩
abbrev fPNL_CRC : Fld := ⟨0x40150018, 31, 0⟩
abbrev fPNL_CRC_REF : Fld := ⟨0x40150018, 15, 0⟩
abbrev fPNL_CRC_LAST : Fld := ⟨0x40150018, 31, 16⟩
abbrev fPNL_CNT_MISMATCH : Fld := ⟨0x4015001C, 15, 0⟩
abbrev fPNL_CNT_REVERSALS : Fld := ⟨0x4015001C, 31, 16⟩
abbrev fPNL_DCB_MAX : Fld := ⟨0x40150020, 15, 0⟩
abbrev fPNL_DCB_SEG : Fld := ⟨0x40150020, 23, 16⟩
abbrev fPNL_FRAME (i : Nat) : Fld := ⟨0x40150040 + 0x4 * i, 31, 0⟩
abbrev fATT_STATUS_PRESENT : Fld := ⟨0x40160000, 3, 0⟩
abbrev fATT_STATUS_AUTH_OK : Fld := ⟨0x40160000, 7, 4⟩
abbrev fATT_STATUS_EOL : Fld := ⟨0x40160000, 11, 8⟩
abbrev fATT_EVT : Fld := ⟨0x40160004, 31, 0⟩
abbrev fATT_EVT_PRESENCE : Fld := ⟨0x40160004, 0, 0⟩
abbrev fATT_EVT_AUTH : Fld := ⟨0x40160004, 1, 1⟩
abbrev fATT_EVT_CAL : Fld := ⟨0x40160004, 2, 2⟩
abbrev fATT_EVT_EOL : Fld := ⟨0x40160004, 3, 3⟩
abbrev fATT_EVT_WRITE_ERR : Fld := ⟨0x40160004, 4, 4⟩
abbrev fATT_PORT_CFG_EN (i : Nat) : Fld := ⟨0x40160100 + 0x40 * i, 0, 0⟩
abbrev fATT_PORT_CFG_KIND (i : Nat) : Fld := ⟨0x40160100 + 0x40 * i, 3, 1⟩
abbrev fATT_PORT_CFG_POLICY (i : Nat) : Fld := ⟨0x40160100 + 0x40 * i, 4, 4⟩
abbrev fATT_PORT_CFG_IMP_SIG (i : Nat) : Fld := ⟨0x40160100 + 0x40 * i, 14, 5⟩
abbrev fATT_PORT_FMASK_FMASK (i : Nat) : Fld := ⟨0x40160104 + 0x40 * i, 29, 0⟩
abbrev fATT_PORT_IMP_THR (i : Nat) : Fld := ⟨0x40160108 + 0x40 * i, 31, 0⟩
abbrev fATT_PORT_STAT_STATE (i : Nat) : Fld := ⟨0x4016010C + 0x40 * i, 2, 0⟩
abbrev fATT_PORT_STAT_REASON (i : Nat) : Fld := ⟨0x4016010C + 0x40 * i, 5, 3⟩
abbrev fATT_PORT_STAT_ELEM_KIND (i : Nat) : Fld := ⟨0x4016010C + 0x40 * i, 8, 6⟩
abbrev fATT_PORT_STAT_CAL_PEND (i : Nat) : Fld := ⟨0x4016010C + 0x40 * i, 9, 9⟩
abbrev fATT_PORT_STAT_LOCKED (i : Nat) : Fld := ⟨0x4016010C + 0x40 * i, 10, 10⟩
abbrev fATT_PORT_STAT_EOL (i : Nat) : Fld := ⟨0x4016010C + 0x40 * i, 14, 11⟩
abbrev fATT_ID_LO (i : Nat) : Fld := ⟨0x40160110 + 0x40 * i, 31, 0⟩
abbrev fATT_LIFE (i j : Nat) : Fld := ⟨0x40160118 + 0x40 * i + 0x4 * j, 31, 0⟩
abbrev fATT_LIM (i j : Nat) : Fld := ⟨0x40160128 + 0x40 * i + 0x4 * j, 31, 0⟩
abbrev fSWG_STATUS_STATE : Fld := ⟨0x40170000, 2, 0⟩
abbrev fSWG_STATUS_STEADY : Fld := ⟨0x40170000, 3, 3⟩
abbrev fSWG_STATUS_MOVED : Fld := ⟨0x40170000, 4, 4⟩
abbrev fSWG_STATUS_LEASE : Fld := ⟨0x40170000, 5, 5⟩
abbrev fSWG_STATUS_ACTIVE : Fld := ⟨0x40170000, 15, 8⟩
abbrev fSWG_EVT_UPDATE : Fld := ⟨0x40170004, 0, 0⟩
abbrev fSWG_EVT_SET_APPLIED : Fld := ⟨0x40170004, 1, 1⟩
abbrev fSWG_EVT_SET_MISSED : Fld := ⟨0x40170004, 2, 2⟩
abbrev fSWG_EVT_STATE_CHG : Fld := ⟨0x40170004, 3, 3⟩
abbrev fSWG_EVT_TRACK_FAIL : Fld := ⟨0x40170004, 4, 4⟩
abbrev fSWG_EVT_EXCLUDED : Fld := ⟨0x40170004, 5, 5⟩
abbrev fSWG_STEADY_FRAMES : Fld := ⟨0x4017000C, 15, 0⟩
abbrev fSWG_UPD_CNT : Fld := ⟨0x40170010, 31, 0⟩
abbrev fSWG_MISS_CNT : Fld := ⟨0x40170014, 31, 0⟩
abbrev fSWG_SET_STAT : Fld := ⟨0x40170018, 31, 0⟩
abbrev fSWG_SET_TICK_LO : Fld := ⟨0x4017001C, 31, 0⟩
abbrev fSWG_COST : Fld := ⟨0x40170024, 31, 0⟩
abbrev fSWG_COST_WIN : Fld := ⟨0x40170028, 31, 0⟩
abbrev fSWG_FLOW_MIN : Fld := ⟨0x4017002C, 31, 0⟩
abbrev fSWG_W (i : Nat) : Fld := ⟨0x40170030 + 0x4 * i, 31, 0⟩
abbrev fSWG_ENG_LIM : Fld := ⟨0x4017004C, 31, 0⟩
abbrev fSWG_CROP_CROP : Fld := ⟨0x40170050, 3, 0⟩
abbrev fSWG_FN_CFG_EN (i : Nat) : Fld := ⟨0x40170100 + 0x40 * i, 0, 0⟩
abbrev fSWG_FN_CFG_K (i : Nat) : Fld := ⟨0x40170100 + 0x40 * i, 4, 1⟩
abbrev fSWG_FN_CFG_TAU (i : Nat) : Fld := ⟨0x40170100 + 0x40 * i, 15, 8⟩
abbrev fSWG_FN_AMP (i : Nat) : Fld := ⟨0x40170104 + 0x40 * i, 31, 0⟩
abbrev fSWG_FN_STEP (i : Nat) : Fld := ⟨0x40170108 + 0x40 * i, 31, 0⟩
abbrev fSWG_FN_DMAX (i : Nat) : Fld := ⟨0x4017010C + 0x40 * i, 31, 0⟩
abbrev fSWG_FN_BASE (i : Nat) : Fld := ⟨0x40170110 + 0x40 * i, 31, 0⟩
abbrev fSWG_FN_GRAD (i : Nat) : Fld := ⟨0x40170114 + 0x40 * i, 31, 0⟩
abbrev fSWG_FN_QUAD (i : Nat) : Fld := ⟨0x40170118 + 0x40 * i, 31, 0⟩
abbrev fSWG_FN_TRK (i : Nat) : Fld := ⟨0x4017011C + 0x40 * i, 31, 0⟩
abbrev fSWG_FN_STAT_COND (i : Nat) : Fld := ⟨0x40170120 + 0x40 * i, 2, 0⟩
abbrev fSWG_FN_STAT_TRACK_FAILS (i : Nat) : Fld := ⟨0x40170120 + 0x40 * i, 4, 3⟩
abbrev fFUN_STATUS_CFG_OK : Fld := ⟨0x40180000, 0, 0⟩
abbrev fFUN_STATUS_ZERO_BUSY : Fld := ⟨0x40180000, 1, 1⟩
abbrev fFUN_STATUS_ZERO_RES : Fld := ⟨0x40180000, 3, 2⟩
abbrev fFUN_EVT_UIN_FLT : Fld := ⟨0x40180004, 0, 0⟩
abbrev fFUN_EVT_LOSS_FLT : Fld := ⟨0x40180004, 1, 1⟩
abbrev fFUN_EVT_LOCK_CHG : Fld := ⟨0x40180004, 2, 2⟩
abbrev fFUN_EVT_CLAMP : Fld := ⟨0x40180004, 3, 3⟩
abbrev fFUN_EVT_ZERO_DONE : Fld := ⟨0x40180004, 4, 4⟩
abbrev fFUN_LOCK : Fld := ⟨0x40180008, 31, 0⟩
abbrev fFUN_LOCK_LOCK : Fld := ⟨0x40180008, 29, 0⟩
abbrev fFUN_UIN_FLT_LO : Fld := ⟨0x40180014, 31, 0⟩
abbrev fFUN_UIN_FLT_HI : Fld := ⟨0x40180018, 31, 0⟩
abbrev fFUN_LOSS_FLT_FLT : Fld := ⟨0x4018001C, 15, 0⟩
abbrev fFUN_CROP_SRC_FLOW : Fld := ⟨0x40180024, 5, 0⟩
abbrev fFUN_CROP_SRC_MOIST : Fld := ⟨0x40180024, 13, 8⟩
abbrev fFUN_CROP_SRC_TORQ : Fld := ⟨0x40180024, 21, 16⟩
abbrev fFUN_CROP_SRC_TAIL : Fld := ⟨0x40180024, 29, 24⟩
abbrev fFUN_FLOW_K : Fld := ⟨0x40180028, 31, 0⟩
abbrev fFUN_FLOW_ZERO : Fld := ⟨0x4018002C, 31, 0⟩
abbrev fFUN_CUT_W : Fld := ⟨0x40180030, 31, 0⟩
abbrev fFUN_FLOW_FS : Fld := ⟨0x40180034, 31, 0⟩
abbrev fFUN_UIN_CFG_MODE (i : Nat) : Fld := ⟨0x40180100 + 0x4 * i, 3, 0⟩
abbrev fFUN_UIN_CFG_TAU (i : Nat) : Fld := ⟨0x40180100 + 0x4 * i, 7, 4⟩
abbrev fFUN_UIN_CFG_THR (i : Nat) : Fld := ⟨0x40180100 + 0x4 * i, 15, 8⟩
abbrev fFUN_UIN_CFG_PULLUP (i : Nat) : Fld := ⟨0x40180100 + 0x4 * i, 16, 16⟩
abbrev fFUN_UIN_CFG_TOUT (i : Nat) : Fld := ⟨0x40180100 + 0x4 * i, 23, 17⟩
abbrev fFUN_UIN_VAL (i : Nat) : Fld := ⟨0x40180200 + 0x4 * i, 31, 0⟩
abbrev fFUN_LOSS_CFG_EN (i : Nat) : Fld := ⟨0x40180300 + 0x4 * i, 0, 0⟩
abbrev fFUN_LOSS_CFG_GROUP (i : Nat) : Fld := ⟨0x40180300 + 0x4 * i, 2, 1⟩
abbrev fFUN_LOSS_CFG_IN_GRP (i : Nat) : Fld := ⟨0x40180300 + 0x4 * i, 3, 3⟩
abbrev fFUN_LOSS_CFG_A_MIN (i : Nat) : Fld := ⟨0x40180300 + 0x4 * i, 11, 4⟩
abbrev fFUN_LOSS_CFG_A_MAX (i : Nat) : Fld := ⟨0x40180300 + 0x4 * i, 19, 12⟩
abbrev fFUN_LOSS_CFG_RISE_MAX (i : Nat) : Fld := ⟨0x40180300 + 0x4 * i, 25, 20⟩
abbrev fFUN_LOSS_CFG_DEAD (i : Nat) : Fld := ⟨0x40180300 + 0x4 * i, 31, 26⟩
abbrev fFUN_LOSS_RATE (i : Nat) : Fld := ⟨0x40180380 + 0x4 * i, 31, 0⟩
abbrev fFUN_LOSS_TOTAL (i : Nat) : Fld := ⟨0x401803C0 + 0x4 * i, 31, 0⟩
abbrev fFUN_LOSS_OTHER (i : Nat) : Fld := ⟨0x40180400 + 0x4 * i, 31, 0⟩
abbrev fFUN_GRP_EN (i : Nat) : Fld := ⟨0x40180500 + 0x4 * i, 0, 0⟩
abbrev fFUN_GRP_TAU (i : Nat) : Fld := ⟨0x40180500 + 0x4 * i, 4, 1⟩
abbrev fFUN_GRP_KMASS (i : Nat) : Fld := ⟨0x40180510 + 0x4 * i, 31, 0⟩
abbrev fFUN_GRP_COVER (i : Nat) : Fld := ⟨0x40180520 + 0x4 * i, 31, 0⟩
abbrev fFUN_GRP_IDX (i : Nat) : Fld := ⟨0x40180530 + 0x4 * i, 31, 0⟩
abbrev fFUN_ANG_PAIR (i : Nat) : Fld := ⟨0x40180540 + 0x4 * i, 4, 0⟩
abbrev fFUN_ANG_EN (i : Nat) : Fld := ⟨0x40180540 + 0x4 * i, 5, 5⟩
abbrev fFUN_ANG_KIND (i : Nat) : Fld := ⟨0x40180540 + 0x4 * i, 6, 6⟩
abbrev fFUN_ANG_PPR (i : Nat) : Fld := ⟨0x40180540 + 0x4 * i, 22, 8⟩
abbrev fFUN_ANG_W_MAX (i : Nat) : Fld := ⟨0x40180540 + 0x4 * i, 31, 23⟩
abbrev fFUN_REC_CTL (i : Nat) : Fld := ⟨0x40181000 + 0x40 * i, 31, 0⟩
abbrev fFUN_REC_CTL_EN (i : Nat) : Fld := ⟨0x40181000 + 0x40 * i, 0, 0⟩
abbrev fFUN_REC_CTL_HOME (i : Nat) : Fld := ⟨0x40181000 + 0x40 * i, 3, 1⟩
abbrev fFUN_REC_CTL_SWG (i : Nat) : Fld := ⟨0x40181000 + 0x40 * i, 4, 4⟩
abbrev fFUN_REC_CTL_LOCK (i : Nat) : Fld := ⟨0x40181000 + 0x40 * i, 5, 5⟩
abbrev fFUN_REC_CTL_SP_SRC (i : Nat) : Fld := ⟨0x40181000 + 0x40 * i, 7, 6⟩
abbrev fFUN_REC_CTL_STATE (i : Nat) : Fld := ⟨0x40181000 + 0x40 * i, 9, 8⟩
abbrev fFUN_REC_CTL_CLAMPED (i : Nat) : Fld := ⟨0x40181000 + 0x40 * i, 10, 10⟩
abbrev fFUN_REC_CH_CH0 (i : Nat) : Fld := ⟨0x40181004 + 0x40 * i, 7, 0⟩
abbrev fFUN_REC_CH_CH1 (i : Nat) : Fld := ⟨0x40181004 + 0x40 * i, 15, 8⟩
abbrev fFUN_REC_CH_CH2 (i : Nat) : Fld := ⟨0x40181004 + 0x40 * i, 23, 16⟩
abbrev fFUN_REC_CH_CH3 (i : Nat) : Fld := ⟨0x40181004 + 0x40 * i, 31, 24⟩
abbrev fFUN_REC_OUT_OUT0 (i : Nat) : Fld := ⟨0x40181008 + 0x40 * i, 7, 0⟩
abbrev fFUN_REC_OUT_OUT1 (i : Nat) : Fld := ⟨0x40181008 + 0x40 * i, 15, 8⟩
abbrev fFUN_REC_OUT_OUT2 (i : Nat) : Fld := ⟨0x40181008 + 0x40 * i, 23, 16⟩
abbrev fFUN_REC_OUT_OUT3 (i : Nat) : Fld := ⟨0x40181008 + 0x40 * i, 31, 24⟩
abbrev fFUN_REC_MEAS (i : Nat) : Fld := ⟨0x4018100C + 0x40 * i, 31, 0⟩
abbrev fFUN_REC_MEAS_SIG (i : Nat) : Fld := ⟨0x4018100C + 0x40 * i, 9, 0⟩
abbrev fFUN_REC_MK_MIN (i : Nat) : Fld := ⟨0x40181010 + 0x40 * i, 31, 0⟩
abbrev fFUN_REC_MK_MAX (i : Nat) : Fld := ⟨0x40181014 + 0x40 * i, 31, 0⟩
abbrev fFUN_REC_OP_MIN (i : Nat) : Fld := ⟨0x40181018 + 0x40 * i, 31, 0⟩
abbrev fFUN_REC_OP_MAX (i : Nat) : Fld := ⟨0x4018101C + 0x40 * i, 31, 0⟩
abbrev fFUN_REC_RATE (i : Nat) : Fld := ⟨0x40181020 + 0x40 * i, 31, 0⟩
abbrev fFUN_REC_PRESET (i : Nat) : Fld := ⟨0x40181024 + 0x40 * i, 31, 0⟩
abbrev fFUN_REC_SP_TGT (i : Nat) : Fld := ⟨0x40181028 + 0x40 * i, 31, 0⟩
abbrev fFUN_REC_SP_ACT (i : Nat) : Fld := ⟨0x4018102C + 0x40 * i, 31, 0⟩

/-! ## Words that do not read 0 after reset, and the bits that software may write -/

/-- The interrupt sources of type edge (R446). -/
def picEdge (n : Nat) : Bool :=
  (decide (1 ≤ n) && decide (n ≤ 5)) || (decide (97 ≤ n) && decide (n ≤ 101)) || n == 193 || n == 194
    || (decide (288 ≤ n) && decide (n ≤ 295))

/-- A register address lies in the array `base + Σ stride·index` with every index below its count. -/
def inDims (base : Nat) : List (Nat × Nat) → Nat → Bool
  | [], a => decide (a = base)
  | (st, n) :: ds, a =>
    decide (base ≤ a) && decide ((a - base) / st < n) && inDims (base + st * ((a - base) / st)) ds a

/-- The word a register holds after reset where it is not 0: the Reset columns of the register tables, the values of
a manager where the ROLE strap selects one. A register whose reset is "From image", fuses, flash or RTC reads 0
(DESIGN CHOICE, log entry 2). -/
def resetWord (a : Nat) : Word :=
  if a = 0x40000000 then 2#32                                     -- SYS_STATUS (R483): FYH7-A, ROLE selects manager
  else if a = 0x40020000 then 0x56#32                                  -- CLK_STATUS (R58)
  else if a = 0x4002001C then 0xFFFFFFFF#32                       -- CLK_TERR_BOUND
  else if a = 0x40020028 then 0xE10#32                            -- CLK_HOLD_LIM
  else if inDims 0x40031000 [(4, 512)] a then                     -- PIC_SRC.TYPE (R446, R456)
    (if picEdge ((a - 0x40031000) / 4) then 0x10000#32 else 0#32)
  else if a = 0x40060000 then 0xA#32                              -- CLM_STATUS
  else if inDims 0x40070124 [(0x40, 16), (4, 2)] a then 0xFFFF#32 -- VLV_CH_TPK, VLV_CH_MOT
  else if a = 0x4008000C then 0x5A0000#32                         -- PSW_BUDGET
  else if inDims 0x40080400 [(0x20, 8)] a then 0x800#32           -- PSW_CH_CFG[24–31].CLASS (R206)
  else if a = 0x4009001C then 2#32                                -- GNS_TP0_STAT
  else if inDims 0x40091000 [(0x40, 384)] a then 0x4000#32        -- GNS_TRK_CFG
  else if a = 0x400B0070 then 0xFFFF00#32                         -- FUS_UNL_STAT
  else if a = 0x400E0018 then 0xFFFF#32                           -- ETH_NTRIP_STAT
  else if a = 0x400F0014 then 0xFFFFFF#32                         -- ECN_HOP_IN
  else if a = 0x400F0018 then 0xFFFFFF#32                         -- ECN_HOP_OUT
  else if a = 0x40010008 then 1#32                                -- RST_CAUSE after POWER_ON
  else if a = 0x40140048 then 2#32                                -- EVR_RD_STAT
  else if a = 0x4015000C then 0x21E#32                            -- PNL_CFG
  else if a = 0x40150010 then 0x20202020#32                       -- PNL_TEXT0
  else if a = 0x40150014 then 0x20202020#32                       -- PNL_TEXT1
  else if a = 0x40170018 then 0xFFFF#32                           -- SWG_SET_STAT
  else if inDims 0x40170120 [(0x40, 8)] a then 6#32               -- SWG_FN_STAT
  else 0#32

/-- The bits of a register that software may change, by access code (R8): the first address of the register, the
strides and counts of its indices, and the masks of its RW, W1C, W1S and RC bits. Every other bit is RO, WO or
reserved and keeps its value under a plain write. -/
structure RegDesc where
  base : Nat
  dims : List (Nat × Nat)
  rw : Nat
  w1c : Nat
  w1s : Nat
  rc : Nat
  deriving DecidableEq, Repr

def writableBits0 : List RegDesc := [
⟨0x40000004, [], 0x0, 0x7, 0x0, 0x0⟩, -- SYS_EVT
  ⟨0x40010004, [], 0x0, 0xF, 0x0, 0x0⟩, -- RST_EVT
  ⟨0x40010008, [], 0x0, 0xFF, 0x0, 0x0⟩, -- RST_CAUSE
  ⟨0x40020044, [], 0x0, 0x1FFF, 0x0, 0x0⟩, -- CLK_DOM_FAULT
  ⟨0x40020048, [], 0x0, 0xF, 0x0, 0x0⟩, -- CLK_EVT
  ⟨0x40030004, [], 0x0, 0x3, 0x0, 0x0⟩, -- PIC_EVT
  ⟨0x400302C0, [(0x4, 16)], 0x0, 0xFFFFFFFF, 0x0, 0x0⟩, -- PIC_MERGED
  ⟨0x40031000, [(0x4, 512)], 0x7FFF, 0x0, 0x8000, 0x0⟩, -- PIC_SRC
  ⟨0x40034000, [(0x10, 11)], 0xF, 0x0, 0x0, 0x0⟩, -- PIC_THR
  ⟨0x40040004, [], 0x0, 0x3F, 0x0, 0x0⟩, -- LEA_EVT
  ⟨0x40050004, [], 0x0, 0x3F, 0x0, 0x0⟩, -- LEB_EVT
  ⟨0x40060004, [], 0x0, 0x1FF, 0x0, 0x0⟩, -- CLM_EVT
  ⟨0x40070004, [], 0x0, 0xF, 0x0, 0x0⟩, -- VLV_EVT
  ⟨0x40080004, [], 0x0, 0x3F, 0x0, 0x0⟩, -- PSW_EVT
  ⟨0x40090004, [], 0x0, 0x1F, 0x0, 0x0⟩, -- GNS_EVT
  ⟨0x40091000, [(0x40, 384)], 0xFFFFFF, 0x0, 0x0, 0x0⟩, -- GNS_TRK_CFG
  ⟨0x40091004, [(0x40, 384)], 0xFFFFFFFF, 0x0, 0x0, 0x0⟩, -- GNS_TRK_CARR_F
  ⟨0x40091008, [(0x40, 384)], 0xFFFFFFFF, 0x0, 0x0, 0x0⟩, -- GNS_TRK_CODE_F
  ⟨0x4009101C, [(0x40, 384)], 0x0, 0x0, 0x0, 0x10000⟩, -- GNS_TRK_DUMP
  ⟨0x400A0004, [(0x1000, 6)], 0x0, 0xF, 0x0, 0x0⟩, -- ISP_EVT
  ⟨0x400A0100, [(0x1000, 6)], 0x3FFFFF, 0x0, 0x0, 0x0⟩, -- ISP_SH_EXP
  ⟨0x400A0104, [(0x1000, 6), (0x4, 4)], 0xFFF, 0x0, 0x0, 0x0⟩, -- ISP_SH_BLACK
  ⟨0x400A0114, [(0x1000, 6)], 0x1FFF, 0x0, 0x0, 0x0⟩, -- ISP_SH_DPC
  ⟨0x400A0118, [(0x1000, 6)], 0x1, 0x0, 0x0, 0x0⟩, -- ISP_SH_LSC
  ⟨0x400A011C, [(0x1000, 6)], 0xF, 0x0, 0x0, 0x0⟩, -- ISP_SH_NR
  ⟨0x400A0120, [(0x1000, 6)], 0x3, 0x0, 0x0, 0x0⟩  -- ISP_SH_TONE
  ]

def writableBits1 : List RegDesc := [
  ⟨0x400A0124, [(0x1000, 6)], 0x1, 0x0, 0x0, 0x0⟩, -- ISP_SH_GEO
  ⟨0x400A0128, [(0x1000, 6)], 0x7F7F7F7F, 0x0, 0x0, 0x0⟩, -- ISP_SH_ROI
  ⟨0x400B0004, [], 0x0, 0x7F, 0x0, 0x0⟩, -- FUS_EVT
  ⟨0x400C0004, [], 0x0, 0x7F, 0x0, 0x0⟩, -- MAP_EVT
  ⟨0x400D0004, [], 0x0, 0x7F, 0x0, 0x0⟩, -- CAN_EVT
  ⟨0x400E0004, [], 0x0, 0x3F, 0x0, 0x0⟩, -- ETH_EVT
  ⟨0x400F0004, [], 0x0, 0x1F, 0x0, 0x0⟩, -- ECN_EVT
  ⟨0x40100004, [], 0x0, 0xF, 0x0, 0x0⟩, -- CFG_EVT
  ⟨0x40110004, [], 0x0, 0x7, 0x0, 0x0⟩, -- UPD_EVT
  ⟨0x40120004, [], 0x0, 0xF, 0x0, 0x0⟩, -- SEC_EVT
  ⟨0x40130004, [], 0x0, 0xF, 0x0, 0x0⟩, -- PWR_EVT
  ⟨0x40130018, [], 0xFFFFFFFF, 0x0, 0x0, 0x0⟩, -- PWR_ALARM
  ⟨0x40140004, [], 0x0, 0xF, 0x0, 0x0⟩, -- EVR_EVT
  ⟨0x40140040, [], 0x3, 0x0, 0x0, 0x0⟩, -- EVR_RD_AREA
  ⟨0x40140044, [], 0xFFFFFFFF, 0x0, 0x0, 0x0⟩, -- EVR_RD_SEL
  ⟨0x40150004, [], 0x0, 0x7, 0x0, 0x0⟩, -- PNL_EVT
  ⟨0x40150008, [], 0x1, 0x0, 0x0, 0x0⟩, -- PNL_CTL
  ⟨0x4015000C, [], 0xFFF, 0x0, 0x0, 0x0⟩, -- PNL_CFG
  ⟨0x40150010, [], 0xFFFFFFFF, 0x0, 0x0, 0x0⟩, -- PNL_TEXT0
  ⟨0x40150014, [], 0xFFFFFFFF, 0x0, 0x0, 0x0⟩, -- PNL_TEXT1
  ⟨0x40160004, [], 0x0, 0x1F, 0x0, 0x0⟩, -- ATT_EVT
  ⟨0x40170004, [], 0x0, 0x3F, 0x0, 0x0⟩, -- SWG_EVT
  ⟨0x40180004, [], 0x0, 0x1F, 0x0, 0x0⟩, -- FUN_EVT
  ⟨0x40180014, [], 0x0, 0xFFFFFFFF, 0x0, 0x0⟩, -- FUN_UIN_FLT_LO
  ⟨0x40180018, [], 0x0, 0xFFFF, 0x0, 0x0⟩, -- FUN_UIN_FLT_HI
  ⟨0x4018001C, [], 0x0, 0xFFFF, 0x0, 0x0⟩  -- FUN_LOSS_FLT
  ]

/-- The descriptor of a register without writable bits. -/
def noDesc (a : Nat) : RegDesc := ⟨a, [], 0, 0, 0, 0⟩

/-- The writable bits of the register at address `a`. -/
def descOf (a : Nat) : RegDesc :=
  match (writableBits0 ++ writableBits1).find? (fun r => inDims r.base r.dims a) with
  | some r => r
  | none => noDesc a

/-- The number of assigned register blocks (R482). -/
def blockCount : Nat := 25

/-- The address lies inside an assigned register block, and is a multiple of 4 (R7). -/
def regAddrOk (a : Nat) : Bool :=
  decide (0x40000000 ≤ a) && decide (a < 0x40000000 + 0x10000 * blockCount) && a % 4 == 0

end Sys2Proof.Machine
end

