-- ==== Sys2Proof/Machine/State.lean ====
section
/-!
DEFINITION. The state of one module, as plain data. Every register word of the map lives in `regs` and every byte of
SRAM and DRAM in `mem`; the structures below hold what the chapters describe and no register shows: counts of ticks,
latched copies, queues, and what a block has under way.
-/
namespace Sys2Proof.Machine

/-- What stops the machine. No command of the table is stopped by the spec, so nothing raises it in a run; it stands
for the arm of an outcome the interface asks for (safe). -/
inductive Fault where
  /-- Raised by no meaning. -/
  | none
  deriving DecidableEq, Repr

/-- Why a command has no meaning. -/
inductive Refusal where
  /-- Raised by the dispatch for a command that has no meaning yet (safe). -/
  | notModelled (mnemonic : String)
  deriving DecidableEq, Repr

/-- The straps and fuses that say which module this is (R3, R4, R328). -/
structure Straps where
  manager : Bool      -- ROLE selects manager
  orderB : Bool       -- FYH7-B
  pos : Nat           -- POS0–POS2; 0 on the manager
  deriving DecidableEq, Repr

/-- The answer to the last access: its data, and whether it ended in a bus error (R7). -/
structure BusAnswer where
  data : Word
  err : Bool
  deriving DecidableEq, Repr

/-! ## Clock and tick generator (R38–R59) -/

/-- One core's latch set (R47). -/
structure ClkLatch where
  tick : Nat
  cycle : Nat
  time : Nat
  deriving DecidableEq, Repr

/-- The clock and tick generator. -/
structure Clk where
  tick : Nat                     -- the tick counter (R43)
  cycle : Nat                    -- TICK cycle in the tick (R38)
  tbase : Int                    -- tbase_ns (R46)
  latch : List (Nat × ClkLatch)  -- the latch set of each core (R47)
  noSol : Nat                    -- consecutive epochs without a valid solution (R51)
  holdAt : Nat                   -- tick of the entry to HOLDOVER (R51)
  stepAt : Nat                   -- tick at which the last step was applied (R51)
  err : Int                      -- latest measured module time minus GNSS time, ns (R51, R52)
  resid : Int                    -- error still to be removed by slew, ps (R509)
  bound0 : Nat                   -- b0 of R231, ns
  measured : Bool                -- an error was measured in STEP after the step (R51)
  alignRun : Nat                 -- consecutive ticks within 12 ns (R55)
  lostAt : Nat                   -- tick at which alignment was lost (R51, R55)
  slewPs : Int                   -- the correction of the present tick, ps (R509)
  stopped : Bool                 -- a TICK or REF monitor fault stopped both lanes' commands (R57)
  steps : List (Int × Nat)       -- steps that STEP messages announced: amount and boundary (R44, R325)
  caseAt : F32                   -- case temperature at the entry to HOLDOVER (R231)
  edgeAt : Nat                   -- worker: tick of the last tick edge on an Ecnil port (R55)
  deriving DecidableEq, Repr

/-! ## Event recorder (R458–R471) -/

/-- An event on its way to the recorder: code, source, flags, minimum, maximum, tick and module time. -/
structure Ev where
  code : Nat
  src : Nat
  flags : Nat
  mn : F16
  mx : F16
  tick : Nat
  time : Int
  deriving DecidableEq, Repr

/-- A record (R458), with the tick counts its intervals are measured by (R459) and its Sill sequence number (R464). -/
structure EvRec where
  code : Nat
  src : Nat
  flags : Nat
  count : Nat
  first : Int
  firstTick : Nat
  lastTick : Nat
  mn : F16
  mx : F16
  hist : List Nat
  seq : Nat
  deriving DecidableEq, Repr

/-- One core's read port (R467). -/
structure EvrPort where
  area : Nat
  sel : Nat
  res : Nat
  data : List Word
  deriving DecidableEq, Repr

/-- What the event flash holds (R468). -/
structure EvrFlash where
  sill : List EvRec
  lintel : List EvRec
  dbl : Option EvRec
  head : Nat
  tail : Nat
  clears : Nat
  closed : Bool         -- false: a loss of supply that the recorder saw left no closing marker (R469)
  deriving DecidableEq, Repr

/-- The event recorder. -/
structure Evr where
  intake : List Ev                -- the intake queue, oldest first (R461)
  lostNow : Nat                   -- events lost since 0x1074 was last recorded (R461)
  sill : List EvRec               -- newest first, at most 4,096 (R464)
  head : Nat                      -- the sequence number of the next record (R464)
  tail : Nat                      -- the first record after the last clear (R470)
  lintel : List EvRec             -- oldest first, at most 512 (R464)
  dbl : Option EvRec              -- the DOUBLE record (R465)
  opens : List (Nat × Nat)        -- code and tick of the records opened in the last 20,000 ticks (R463)
  clearing : Bool                 -- EVR_STATUS.CLEARING
  unwritten : List Nat            -- sequence numbers waiting for the event flash (R468)
  ports : List (Nat × EvrPort)    -- the read port of each core (R467)
  flash : EvrFlash
  deriving DecidableEq, Repr

/-! ## Interrupt controller (R445–R457) -/

/-- The interrupt controller beside its registers. -/
structure Pic where
  claimed : List (Nat × Nat)      -- source and the target that claimed it (R448, R449)
  latches : List Nat              -- the asynchronous latches that hold an edge (R453)
  deriving DecidableEq, Repr

/-! ## Input front end and function table (R60–R86) -/

/-- A universal input (R68, R72, R73). -/
structure Uin where
  y : F32            -- the value after the filter
  seeded : Bool      -- the filter holds a value of the present mode
  age : Nat          -- ticks since the last valid sample
  fault : Bool       -- an input fault holds VALID at 0
  good : Nat         -- consecutive ticks in range since the fault
  blind : Bool       -- VALID = 0 at the next T only
  chg : Nat          -- a mode or filter change: 1 at its boundary, 2 in the tick after it (R73)
  noEdge : Bool      -- no edge for TOUT × 0.1 s (R69)
  edge : Option Nat  -- the last edge of FREQ and PULSE_IDX, in TICK cycles since the count began (R69)
  per : Nat          -- the length of the last complete period, TICK cycles; 0 before one (R69)
  old : Nat × Nat    -- MODE and TAU before a change, until its second tick (R73)
  deriving DecidableEq, Repr

/-- A pair of inputs in QUAD or PULSE_IDX (R70, R71). -/
structure UinPair where
  count : Int        -- QUAD: counts since start
  zero : Option Int  -- QUAD: the count at the first edge
  pulses : Nat       -- PULSE_IDX: pulses since the last index edge
  idx : Nat          -- PULSE_IDX: index edges
  between : Nat      -- PULSE_IDX: pulses between the last two index edges
  pre : Nat          -- PULSE_IDX: pulses of the present tick that came before its last index edge
  first : Bool       -- a zero was set or reset since the last T
  deriving DecidableEq, Repr

/-- A loss input (R74–R76). -/
structure LossIn where
  kern : Nat         -- KERNEL impacts of the present tick
  rate : F32         -- filtered rate
  seeded : Bool
  quiet : Nat        -- ticks without a KERNEL impact while the grain flow is above 2 kg/s
  silent : Bool
  deriving DecidableEq, Repr

/-- A function beside its record: the requested setpoint, the tick of the last change of its target, and the
operator's last request (R63, R82, R274). -/
structure FnState where
  req : F32
  tgtTick : Nat
  opReq : Option F32
  deriving DecidableEq, Repr

structure Fun where
  uins : List (Nat × Uin)
  pairs : List (Nat × UinPair)
  loss : List (Nat × LossIn)
  fns : List (Nat × FnState)
  cal : CropCal
  lockSet : Nat              -- lock requests waiting for the frame boundary (R66)
  lockClr : Nat
  opLocks : Nat              -- functions whose last request was a lock of the service firmware's (R309)
  zeroTicks : Nat            -- ticks of the running zero capture (R79)
  zeroSum : F32
  zeroBad : Bool             -- a sample of the capture was not valid
  guid : List (Nat × Nat)    -- SIG entry that carries a function's GUIDANCE target (R65, R272)
  shuntOpen : List (Nat × Nat) -- MA20 inputs whose shunt is open, with the tick at which it opened (R499)
  deriving DecidableEq, Repr

/-! ## Loop engine of one lane (R87–R131), beside its SRAM -/

structure Loop where
  seed : List Nat                      -- channels that the next computation seeds (R98)
  bump : List Nat                      -- channels whose integrator the next computation adjusts (R111)
  lastFlt : List (Nat × Nat)           -- tick of a channel's last fault event while DEGRADED (R126)
  otherGood : List (Nat × Nat)         -- ticks for which the other source has been OK (R126)
  started : List Nat                   -- channels computed since module start or a model commit (R125)
  snapAt : Nat                         -- the tick after a snapshot request (R113)
  snapNew : Option (List Host.Cell × Nat) -- the copy taken at cycle 17,600 and its tick (R113)
  snap : List Host.Cell                -- the snapshot windows, at lane addresses (R113)
  paneCycles : Nat                     -- pane cycles of the present tick (R108)
  held : List Nat                      -- CMD entries that hold their stage's readback until first written (R104)
  seen : Nat                           -- a bit per SIG entry that has carried a value since start (R80)
  deriving DecidableEq, Repr

/-! ## Lane mailboxes (R17, R18) -/

/-- A mailbox value: the value, its VALID bit and the tick it was produced in (R19). -/
structure MailVal where
  val : F32
  valid : Bool
  tick : Nat
  deriving DecidableEq, Repr

/-- The mailbox of both lanes: the inactive buffer with its ready flag, and the copy a lane made at the last swap. -/
structure Mail where
  dests : List Nat                     -- SIG entries that the configuration assigns to the mailbox (R81)
  buf : List (Nat × MailVal)
  ready : Bool
  copy : List (Nat × MailVal)
  deriving DecidableEq, Repr

/-! ## Output-stage dies and Jambs (R153–R167, R174–R206); the CAN block's Jambs are among them -/

/-- A command frame as a Jamb holds it (R153). -/
structure Frame where
  val : F32
  claim : Nat
  valid : Bool
  degraded : Bool
  resume : Bool
  deriving DecidableEq, Repr

/-- The Jamb of one channel: the frames held for the current and the next tick, the lane selected for each (0 none, 1
lane A, 2 lane B), and the no-claim policy (R156, R157, R165–R167). -/
structure Jamb where
  curA : Option Frame
  curB : Option Frame
  nextA : Option Frame
  nextB : Option Frame
  sel : Nat
  nextSel : Nat
  val : F32              -- the applied VALUE
  ever : Bool            -- a claim has been in force since the die's own power-on
  timer : Option Nat     -- tick at which the 100 µs timer started
  pol : Bool             -- under its no-claim policy
  polAt : Nat            -- tick at which the policy was applied
  off : Bool             -- the policy acts as OFF
  mism : Nat             -- consecutive ticks with a mismatch (R159)
  deriving DecidableEq, Repr

/-- A valve channel in its die (R174–R187). Times inside a profile are µs since tick 0. -/
structure VlvCh where
  cmd : F32              -- the value applied at the last T
  on : Bool              -- PROFILE: that value was 0.5 or more
  wait : Option Nat      -- a request waits; the T from which DEFER_WIN counts, in µs
  reqAt : Nat            -- the T of the request that waits, in µs
  chop : Nat             -- while a request waits: 0 off, 1 chopped at I_PEAK, 2 chopped at I_HOLD
  eRes : F32             -- reservation entered, J
  prof : List Word       -- MODE, PROF, CUR, DIAG, MOT_WIN and PROP of the running profile (R176)
  boostAt : Nat
  boostEnd : Nat
  peaked : Bool          -- time to peak has been recorded in this profile
  late : Bool            -- I_PEAK was not reached within 2 × TPK_MAX (R183)
  motWait : Bool         -- the motion time of this profile is still open
  offCmd : Bool          -- off until its next new command
  modeChg : Bool         -- the next T is that of a change of MODE (R176)
  chgAt : Nat            -- tick of the last change of a PROP command by more than 0.1 A
  released : Bool        -- released by a commit at this T: the next T acts on its command (R187)
  tgt : F32              -- PROP: the dithered target at the last T (R185)
  outTicks : Nat         -- ticks in a row with the mean current out of tolerance (R185)
  lowTicks : Nat         -- ticks in a row with the current in HOLD below 0.9 × I_HOLD (R187)
  faults : List Nat      -- fault window, × 0.1 s, newest first, at most 8 (R127)
  deriving DecidableEq, Repr

/-- The boost rail of a bank (R177): the energy of its reservoir at the last T in units of 5 nJ, the ticks in a row for which it
has been ready, and those for which it has been below 0.5 × V_BOOST with no reservation, each at most 200. -/
structure Rail where
  e : Nat
  ready : Nat
  low : Nat
  deriving DecidableEq, Repr

/-- A switch channel in its die (R190–R204). -/
structure PswCh where
  cmd : F32              -- the value applied at the last T
  duty : F32             -- the duty of that value under R191
  act : F32              -- the duty of the running period (R193)
  wait : Option Nat      -- a request waits since this tick
  resv : Bool            -- a reservation of I_NOM is held
  inrAt : Option Nat     -- tick of the rising edge that opened the inrush window
  retryAt : Nat          -- first tick at which a retry may fall
  hot : Bool             -- off under 0x5006
  again : Nat            -- released: 2 the next T takes a duty above 0 as a request, 1 the T after the next (R200)
  ovr : Nat              -- overload time, cycles (R198)
  lowTicks : Nat         -- ticks in a row, continuously on, with the current below 50 mA (R198)
  faults : List Nat      -- fault window, × 0.1 s, newest first, at most 8
  pulses : List (Nat × Nat) -- tick and energy, × 0.1 mJ, of the clamp pulses of the last 10 s
  lockAt : Nat           -- tick at which the clamp lock was set
  deriving DecidableEq, Repr

/-- What the dies hold. No reset of the main die reaches it (R414). -/
structure Dies where
  jambs : List (Nat × Jamb)
  vlv : List (Nat × VlvCh)
  psw : List (Nat × PswCh)
  rails : List (Nat × Rail)
  charge : Nat           -- the power of the converters for VBAT_OUT, 5 nJ each µs (R177)
  failed : List Nat      -- banks whose requests are REFUSED under 0x4009
  loadOff : Bool         -- VBAT_OUT is below 6.0 V (R491)
  hs : List Nat          -- dies that completed the output-stage handshake of this start (R421)
  live : List Nat        -- dies that hold their configuration since a handshake after their own power-on (R166)
  dieOff : Bool          -- the dies have no supply (R430)
  arbAt : Option Nat     -- tick of the last change of the acting arbiter (R196)
  deriving DecidableEq, Repr

/-! ## Lanes and the claim controller (R151–R173) -/

/-- A lane, beside its registers, its loop engine and its SRAM. -/
structure LaneSt where
  step : Nat             -- step of R161 under way, 0 none
  since : Nat            -- tick at which that step began
  recAt : Nat            -- tick at which the recovery began
  stateAt : Nat          -- tick at which the lane's present state began
  giveUps : List Nat     -- ticks of the counted give-ups of the last 200,000 ticks, newest first
  lastGu : Option Nat    -- tick of the last give-up
  lastReason : Nat
  guFrom : Nat           -- its state when it last gave up: 0 ACTIVE, 1 STANDBY, 2 RECOVERING
  passed : Bool          -- the bring-up self-test passed
  bootReason : Nat       -- a lane fault between the self-test and the enabling of claims (R160)
  halted : Bool
  resume : List Nat      -- stages whose frames carry RESUME = 1 (R167)
  mism : Bool            -- a die has reported a mismatch in the lane's compare frame (R161)
  deriving DecidableEq, Repr

/-- A frame a lane has sent: the lane, and the three words of R153. -/
structure Sent where
  lane : Nat
  w0 : Word
  w1 : Word
  w2 : Word
  deriving DecidableEq, Repr

structure Clm where
  laneA : LaneSt
  laneB : LaneSt
  sent : List Sent       -- the frames sent in the present tick
  disturb : Nat          -- tick of the last give-up or mismatch
  takeBack : Bool        -- a take-back waits for its switch tick
  hinge : Bool           -- a Hinge swap is due
  announced : Bool       -- the frames for the coming switch tick carry the exchanged claims
  hingeAt : Nat          -- the switch tick S of the running swap
  hingeFail : Nat        -- the condition it has failed, as the flags of 0x2021; 0 none
  haltNext : Option Nat  -- a DEFERRED halt of this core (R439)
  haltAt : Option Nat    -- tick at which a halt that exchanged the claims takes effect
  deriving DecidableEq, Repr

/-! ## GNSS baseband (R208–R236), beside its registers -/

/-- How a signal is searched: cold; aided within ±20 chips at a HOT start; aided over the full code; or in a handover
from a channel that tracks the same satellite (R215, R216). -/
inductive SearchKind where
  | cold
  | near
  | aided
  | handover
  deriving DecidableEq, Repr

/-- A search of a satellite's signal on an antenna (R214). -/
structure Search where
  sig : Nat
  sv : Nat
  ant : Nat
  kind : SearchKind
  deriving DecidableEq, Repr

/-- Navigation data: the module time, in seconds, of the newest ephemeris and almanac, the last position and the
inter-system offsets (R216). -/
structure NavData where
  eph : Option Int
  alm : Option Int
  pos : List Int
  iso : List Int
  deriving DecidableEq, Repr

/-- A tracking channel beside its record: the NCO words in force, the shadow words written since the last interval
boundary, when it began to coast, since when it has been locked, and since when its lock indicator or C/N0 has been low
(R219, R220, R222). -/
structure Trk where
  carr : Word
  code : Word
  newCarr : Bool
  newCode : Bool
  coastAt : Nat
  overAt : Option Nat   -- tick of the last 0x6050 of the channel (R218)
  lockAt : Option Nat
  lowAt : Option Nat
  deriving DecidableEq, Repr

structure Gns where
  latch : List (Nat × List Word)     -- solution record latched by each core (R233)
  shortAt : List (Nat × Nat)         -- tick at which an antenna's bias went off (R210)
  trial : List (Nat × Nat)           -- antennas on trial after a short, with the tick at which the trial began
  exclUsed : Nat                     -- the excluded bands before the last epoch boundary, which its solution leaves out (R213)
  epoch : Option Nat                 -- latched epoch that awaits its solution (R221, R222)
  sols : List (Nat × Nat × Bool)     -- the last solutions: epoch tick, fix type, integrity (R258, R269)
  subFrom : Option Nat               -- since when ANT0 has yielded fewer than four satellites and ANT1 four or more (R211)
  backFrom : Option Nat              -- since when ANT0 has yielded four or more
  good : List (Nat × Nat)            -- epochs at or below JAM_LIM − 16 of an excluded band (R213)
  trk : List (Nat × Trk)
  queue : List Search                -- searches GN1 has queued (R214)
  running : List (Search × Nat)      -- searches in the acquisition bank, each with the tick at which it ends
  obsAt : List (Nat × Nat)           -- tick of the last observation message of source 0 or 1 (R226)
  source : Option Nat                -- correction source in use
  station : Option Nat               -- reference station of the messages
  stPos : Option (List Int)          -- its position, × 0.1 mm
  floatOnly : Bool                   -- ambiguities were reset to float (R226)
  refusedAt : List (Nat × Nat)       -- message type and tick of its last 0x6032 (R224)
  seq : Option Nat                   -- sequence number of the last RTCM CAN frame (R225)
  buf : List Byte                    -- bytes of the RTCM frame being assembled
  frames : List (List Byte)          -- RTCM frames assembled from CAN
  nav : Option NavData               -- navigation data on the eMMC (R216)
  cur : NavData                      -- navigation data as it stands
  chgAt : Option Nat                 -- tick of the first change since it was saved
  tpAt : Option (Nat × Nat)          -- tick and cycle of the last TP0 edge (R230)
  tpK : Option Int                   -- number of the last pulse instant that module time has passed (R229)
  deriving DecidableEq, Repr

/-! ## Camera pipelines (R237–R251), beside their registers -/

/-- A frame between its exposure and its statistics: its number, flags, the parameter generation, module time and
parameters of its boundary, and its lines. -/
structure CamFrame where
  frame : Nat
  arrived : Bool
  incomplete : Bool
  skew : Bool
  gen : Nat
  time : Int
  sh : List Word              -- the active words, colour matrix and class table of its boundary (R245)
  mat : List Word
  cls : List Word
  raw : List (List Nat)       -- its lines once it has arrived
  deriving DecidableEq, Repr

structure Pipe where
  cal : CamCal                -- the tables that only the image holds (R243)
  img : List Word             -- the CAMERAS region's shadow set, ISP_SH_EXP to ISP_SH_ROI
  shadow : List Word          -- the shadow copies of the same words (R245)
  written : List Nat          -- words written since the last transfer
  cmd : Option (Nat × Word)   -- the last exposure message: frame number and exposure word (R241, R246)
  frames : List CamFrame      -- frames under way, oldest first
  drop : Option Nat           -- tick of the last 0x7005 (R238)
  deriving DecidableEq, Repr

structure Isp where
  on : Bool                   -- the ISP domain runs (R249)
  tbase0 : Int                -- tbase_ns when the ISP started (R240)
  pipes : List (Nat × Pipe)
  deriving DecidableEq, Repr

/-! ## Fusion and guidance (R253–R277), beside their registers -/

/-- A track between results (R262–R265). -/
structure Track where
  id : Nat
  cls : Nat
  confirmed : Bool
  contested : Bool
  revised : Option Nat          -- earliest frame revised since the last result
  pex : F32
  held : F32                    -- PEX when it became CONTESTED
  est : List F32                -- X, Y, Z, VX, VY, LEN, WID, HGT, HEAD, SX, SY, RANGE
  hist : Nat                    -- association in the last 5 frames, bit 0 newest
  frames : Nat                  -- frames since it began
  classP : Nat
  age : Nat
  first : Nat
  last : Nat
  inCorr : Bool
  seen : List (Nat × List Bool) -- association in each sensor's last 5 own observations, newest first
  denies : List (Nat × Nat)     -- denials in a row of each sensor
  deriving DecidableEq, Repr

structure Fus where
  tracks : List (Nat × Track)   -- by record index
  nextId : Nat
  last : Option Nat             -- frame of the last issued result
  latch : List (Nat × List (Nat × Word)) -- the result set each core has latched (R261)
  lateDrop : Bool               -- a sample was dropped since the last result
  past : List (Nat × List (Nat × Track)) -- the tracks of the last 3 frames (R266)
  fell : Bool                   -- a lane has applied R274 and guidance is still to be shown IDLE (R273)
  mapOk : Bool                  -- the reference sources available in the last result (R270)
  edgeOk : Bool
  edge : Option Nat             -- the track that serves EDGE
  forceEdge : Bool              -- the sources disagreed for 50 frames
  apart : Nat                   -- frames in a row that they disagreed
  agree : Nat                   -- and agreed
  noRef : Nat                   -- results in a row without a reference (R273)
  clear : Nat                   -- results since the last obstacle
  bigErr : Nat                  -- results in a row with an error above 0.10 m
  unlItem : List Word           -- item 0x0502: fill path and flow
  mounts : List (Nat × List Word) -- item 0x0500: sensor mounts
  trailer : Option Nat          -- the RENDEZVOUS trailer and its SPOUT_STREAM
  spout : Option Nat
  reach : Nat                   -- results in a row with the trailer opening in reach
  lost : Nat                    -- results in a row without a CONFIRMED trailer
  outside : Nat                 -- results in a row with the landing point outside
  cartAt : Nat                  -- tick of the last fleet message from the cart
  clearAt : Option Nat          -- tick at which F19 stops after an abort (UNL_CLEAR)
  zeroAt : Option Nat           -- tick at which F21 reached 0 % in ENDING
  deriving DecidableEq, Repr

/-! ## Ecnil (R316–R335), beside its registers -/

/-- A port: the tick of its last valid header, valid headers and probes in a row, probe results in a row, and the last
16 hop delays, newest first. -/
structure EcnPort where
  last : Option Nat
  run : Nat
  probes : Nat
  hops : List Nat
  broken : Bool                   -- the port went DOWN and has not come UP again: frames are turned back (R332)
  deriving DecidableEq, Repr

/-- A message this module has sent: its type and what it says. -/
structure EcnMsg where
  type : Nat
  args : List Int
  deriving DecidableEq, Repr

/-- A message of the manager's that waits for its apply tick (R324): type, generation, apply tick, the workers whose ACK
it needs, those that sent it, and whether ABORT was set. A worker keeps one too, without the ACKs. -/
structure EcnWait where
  type : Nat
  gen : Nat
  apply : Nat
  need : List Nat
  acked : List Nat
  halt : Bool
  deriving DecidableEq, Repr

structure Ecn where
  rx : List (Nat × Nat × Nat)     -- entries this module consumes: SIG entry, sender, record (R321)
  plan : List EcnWin
  ports : List (Nat × EcnPort)    -- 0 ring in, 1 ring out
  got : List (Nat × List (Word × Word)) -- windows used in the present tick
  win : List (Word × Word)        -- the records this module sends in the present tick
  rep : List (Nat × Nat × Nat)    -- port, ACC and HOPS of the header repeated last
  slots : List (Nat × Word)       -- the last valid status word of each position
  hdrs : List (Nat × Bool)        -- ticks of the last valid headers with their ABORT bit, newest first
  best : Nat × Nat                -- tick and HOPS of the marker in use
  diff : Int                      -- COUNT of the last valid header less the count of the nearest local edge
  firstHdr : Option Nat           -- tick of the first valid header
  late : Bool                     -- 0x9107 was recorded
  since : Nat                     -- tick of the present join state
  wasJoined : Bool                -- joined since the last reset of reach EXTERNAL or wider
  joinFor : Option (Nat × Int)    -- the join tick and tbase_ns of an ADMIT
  joinedAt : Nat                  -- join tick
  replay : Bool                   -- a replay commit is still due (R389)
  listenAt : Nat                  -- tick at which the manager began to listen
  firstAt : Option Nat            -- tick of its first frame
  members : List (Nat × Nat)      -- positions admitted, with their serial numbers
  orders : List (Nat × Bool)      -- positions whose module is an FYH7-B
  waits : List EcnWait
  gen : Nat                       -- generation of the last applied message
  nextGen : Nat
  sent : List EcnMsg              -- newest first
  slotFree : Nat                  -- first tick in which the message slot is free
  haltAt : Option Nat             -- an activation's ABORT by an interlock: its apply tick (R403)
  resetAt : Option Nat            -- tick of an ECNIL reset that RESET has ordered
  genAt : Option Nat              -- apply tick of the last message of R324, for the check at A + 1
  deriving DecidableEq, Repr

/-! ## CAN ports (R336–R356), beside their registers -/

/-- What a signal map entry holds: its last value, the tick its last frame was stamped in, whether that frame read "not
available" or "error", and whether it timed out. -/
structure CanVal where
  val : F32
  tick : Nat
  na : Bool
  out : Bool
  deriving DecidableEq, Repr

/-- A frame in a FIFO or an express slot: identifier, data, the transmit message it is an instance of or the request
of the service firmware, whether it waited behind another entry, its failed attempts, and whether it was counted in
BLOCKED (R346–R349). -/
structure TxFrame where
  id : Nat
  ide : Bool
  data : List Byte
  msg : Option Nat
  waited : Bool
  tries : Nat
  blocked : Bool
  deriving DecidableEq, Repr

/-- The outcome of a frame (R346): 0 SERVED, 1 DEFERRED, 2 REFUSED, and the reason of a refusal: 1 FULL, 2 RETRY,
3 NO_ADDRESS, 4 SLEEP, 5 FLUSH. -/
structure TxOutcome where
  port : Nat
  id : Nat
  outcome : Nat
  reason : Nat
  deriving DecidableEq, Repr

/-- A raw frame for the service firmware: port, time stamp in tick and cycle, identifier and data (R343). -/
structure RawFrame where
  port : Nat
  tick : Nat
  cycle : Nat
  id : Nat
  ide : Bool
  data : List Byte
  deriving DecidableEq, Repr

/-- A J1939 transport session of a port: the sender, the size and the PGN (R352). -/
structure TpSession where
  src : Nat
  size : Nat
  pgn : Nat
  bam : Bool
  deriving DecidableEq, Repr

/-- A port beside its registers. -/
structure CanPort where
  fifo : List TxFrame          -- the head first
  headAt : Nat                 -- tick at which the head became head
  hoqDone : Bool               -- 0x920D was recorded since the FIFO was last empty
  express : Option TxFrame
  flight : Bool                -- the head's attempt may have begun before the express slot was filled (R350)
  boffAt : Nat
  recovering : Bool
  protoAt : Option Nat         -- tick of the last 0x920A
  name : Nat                   -- the NAME of R353
  claimAt : Nat                -- tick of the last address claimed
  cannotAt : Nat               -- tick of the entry to CANNOT_CLAIM
  cannotSent : Bool
  used : List Nat              -- addresses that other nodes have claimed
  sessions : List TpSession
  dm1 : List Byte
  dm1At : Nat
  rawSel : Bool                -- the COMMS region passes raw frames of the port
  deriving DecidableEq, Repr

structure Can where
  maps : List (Nat × SigMap)   -- by SIG index
  vals : List (Nat × CanVal)
  msgs : List (Nat × TxMsg)
  ports : List (Nat × CanPort)
  outcomes : List TxOutcome    -- newest first
  raw : List RawFrame          -- for the service firmware, newest first
  tp : List (Nat × Nat × List Byte) -- reassembled messages: port, PGN and bytes, newest first

  deriving DecidableEq, Repr

/-! ## Yield map (R279–R304), beside its registers -/

/-- A map sample: SIG[128..149] with VALID, the grain-quality statistics and the Swing search state (R284). -/
structure MapSample where
  u : Nat
  sig : List (F32 × Bool)
  broken : F32
  mog : F32
  gq : Bool                    -- the statistics are valid and at most 800 ticks old
  swing : Nat
  deriving DecidableEq, Repr

/-- The pose of a fused result (R285): frame, east, north, heading, speed, and whether GNSS was used. -/
structure MapPose where
  frame : Nat
  ok : Bool
  e : F32
  n : F32
  yaw : F32
  fwd : F32
  gnss : Bool
  deriving DecidableEq, Repr

/-- A cell of an interval: its new fraction, the grams written so far, and the cell's PASS when it was cut. -/
structure MapCut where
  i : Int
  j : Int
  frac : Nat                   -- × 1/65,535
  written : Int
  pass : Nat
  out : Bool                   -- outside the field
  deriving DecidableEq, Repr

/-- An interval of the path ring (R285, R286). -/
structure MapIv where
  cut : Bool
  pos : Bool
  odo : Bool
  a : F32
  m : F32
  hseen : F32
  time : Nat                   -- seconds since the season start
  field : Nat
  cells : List MapCut
  deriving DecidableEq, Repr

/-- What is kept of an attributed sample for re-attribution (R291). -/
structure MapShare where
  samp : MapSample
  kg : F32
  shares : List (Nat × F32)
  deriving DecidableEq, Repr

/-- A cell by its field and place. -/
structure MapKey where
  field : Nat
  i : Int
  j : Int
  deriving DecidableEq, Repr

/-- An increment to a cell: grams, area and the interval's and sample's values (R287). -/
structure MapInc where
  key : MapKey
  grams : Int
  area : Nat
  time : Nat
  odo : Bool
  samp : MapSample
  bin : Option Nat              -- a histogram count (R288)
  deriving DecidableEq, Repr

/-- A tile: its field and coordinates. -/
structure MapTile where
  field : Nat
  tx : Int
  ty : Int
  deriving DecidableEq, Repr

structure MapEng where
  queue : List MapSample                   -- samples waiting, oldest first
  poses : List MapPose                     -- poses of the results at map updates, newest first
  last : Option (Nat × F32 × F32 × F32)    -- update, east, north and heading of the last placed cutter bar
  ring : List (Nat × MapIv)                -- the path ring, newest first
  ker : List F32                           -- the kernel in force
  nom : List F32                           -- the nominal kernel of the MAP region
  shares : List MapShare                   -- newest first
  flows : List (Nat × Option F32 × Option F32) -- SIG[148] and SIG[144] of each update, newest first
  wasCut : Bool                            -- the last interval was cut
  runSealed : List MapKey                  -- cells sealed in the present run of cut intervals
  opens : List (MapKey × Nat)              -- OPEN cells, each with its newest interval
  touched : List Nat                       -- tile slots, most recently touched first
  incs : List MapInc                       -- DEFERRED increments
  fresh : List (MapKey)                    -- cells sealed since the last journal
  unsent : List MapKey                     -- cells sealed since the last acknowledged delta of their tile (R367)
  writing : Option (List (MapKey × List Byte)) -- the sealed cells of the journal being written
  blocks : Nat                             -- its number of 16 × 16-cell blocks
  store : List (MapKey × List Byte)        -- the map store on the eMMC
  newField : Option (Nat × Nat)            -- a MAP commit named this field, at this tick
  close : Option Nat                       -- the ticks at which FIELD_CLOSE, JOURNAL_NOW and KER_RESET were asked for
  journalNow : Option Nat
  kerReset : Option Nat
  exported : List Byte                     -- the last exported tile
  posted : Nat                             -- bytes in the posted write buffer of 64 KiB (R28)
  deriving DecidableEq, Repr

/-! ## Attachments (R305–R315), beside their registers -/

/-- An attachment port: polls in a row without an element, the tick of its last authentication, the accumulated
binary32 counters not yet written, with the serial number they belong to, the impact detector, the calibration that
waits, and the counters for which 0xD007 was recorded. -/
structure AttPort where
  missed : Nat
  pendAt : Nat                 -- tick at which the authentication under way began
  authAt : Nat                 -- tick of the last authentication
  acc : List F32
  serial : Nat
  armed : Bool
  cal : List (Nat × F32)       -- entries of the element, to be applied at AUTH_OK
  busy : Bool                  -- 0xD006 with flags 2 was recorded for this wait
  near : List Nat
  imps : Nat                   -- impact events of the present map-update period (R311)
  deriving DecidableEq, Repr

structure Att where
  ports : List (Nat × AttPort)
  seen : List (Nat × List Nat) -- last-seen counters of the 64 most recent serial numbers, most recent first (R307)
  slots : List CalSlot
  revoked : List Nat           -- the region's revocation list
  polledAt : Option Nat        -- tick of the last presence poll (R308)
  wroteAt : Nat                -- tick of the last counter write (R312)
  deriving DecidableEq, Repr

/-! ## Ethernet and the fleet service (R357–R372), beside their registers -/

/-- A publication: its type, its payload and the tick of its request (R364, R368). -/
structure Pub where
  type : Nat
  payload : List Byte
  tick : Nat
  deriving DecidableEq, Repr

/-- A tile delta that has been published and is not yet acknowledged (R367). -/
structure TileDelta where
  tile : MapTile
  cells : List MapKey
  seq : Nat
  chunks : Nat
  acked : List Nat
  deriving DecidableEq, Repr

structure Eth where
  fleetWait : Nat              -- backoff of the fleet connection and of NTRIP, s
  fleetAt : Nat                -- tick at which it began
  fleetTls : Bool              -- the TLS handshake of the attempt has completed
  ntripWait : Nat
  ntripAt : Nat
  services : Nat               -- service connections that completed their handshake
  queue : List Pub             -- publications waiting, oldest first
  sent : List Pub              -- publications sent, newest first
  alertList : List Nat         -- event codes of the region's alert list
  refAt : Option Nat           -- tick of the last 0x9313, 0x9314
  inAt : Option Nat
  ptpAt : List (Nat × Nat)     -- tick of the last 0x9303 of each port
  posAt : Nat                  -- tick of the last pos, tank
  tankAt : Nat
  fill : Nat                   -- the fill of the last tank, × 0.1 %
  reqAt : Option Nat           -- tick of the ureq that waits for an offer
  cart : Option Nat            -- the accepted cart, to whose pos the module subscribes
  cartPos : List Int           -- its last position: time, latitude, longitude, height, heading, speed
  roster : List Nat
  fleetId : Nat
  cfgIn : Option (List Byte)   -- an in/cfg request that waits for its signature check
  deltas : List TileDelta
  seq : Nat                    -- delta sequence
  syncAt : Nat                 -- tick of the last tile sync
  byteAt : Option Nat          -- tick of the last byte from the caster
  rx : List (Nat × Nat)        -- bytes received in the last 10 s, with their ticks
  gga : Bool                   -- the region sets GGA, and TLS for the NTRIP connection
  tls : Bool
  ntripTls : Bool              -- the TLS handshake of the NTRIP attempt has completed
  ggaAt : Nat
  ggaSol : List Word           -- the solution of the last GGA sentence
  syncs : List (Nat × Nat)     -- tick of the last Sync of each gPTP port
  deriving DecidableEq, Repr

/-! ## Swing search (R132–R150), beside its registers -/

/-- A signal at a frame boundary: its value, and whether it is VALID with an AGE of at most 800 ticks. -/
abbrev SwgSig := F32 × Bool

/-- What Swing search takes at a frame boundary: the frame, flow, cut rate, and the signals of R139 and the measured
values of the eight functions. -/
structure SwgSample where
  frame : Nat
  flow : SwgSig
  cut : SwgSig
  terms : List SwgSig            -- SIG[128], SIG[129], SIG[147], engine load
  meas : List SwgSig
  deriving DecidableEq, Repr

/-- A frame of the demodulation window: its cost where it is valid, and the measured values. -/
structure SwgFrame where
  frame : Nat
  cost : Option F32
  meas : List F32
  deriving DecidableEq, Repr

/-- A setpoint set: its apply tick, its eight functions, and whether it is in the mailbox. -/
structure SwgSet where
  apply : Nat
  items : List (Option SwgItem)
  posted : Bool
  deriving DecidableEq, Repr

structure Swg where
  sigs : List Nat              -- SIG entries of broken_pct, mog_pct, engine load and the lease (R138, R139)
  crops : List (List F32)      -- sixteen crop entries of eight presets (R146)
  samples : List SwgSample     -- boundary samples waiting for their statistics, newest first
  steady : List (F32 × Bool)   -- the last 1,000 frames: flow, and whether R136 holds for it alone, newest first
  window : List SwgFrame       -- the last 3,002 frames read, newest first
  setAt : Option Nat           -- apply tick of the last set applied in the window
  t0 : Nat
  set : Option SwgSet          -- the pending set
  dith : List (Nat × SwgItem)  -- the dither in force of each function (R138)
  ending : List Nat            -- functions whose dither ends at its next zero crossing
  used : List Nat              -- functions that were active at the last judgement (R134)
  upd : Option Nat             -- the update boundary in SEEK whose update is due 400 ticks later (R143, R144)
  deriving DecidableEq, Repr

/-! ## Configuration (R373–R393), beside its registers -/

/-- The transaction in STAGING (R382): handle, owner (1 service port, 2 cab terminal, 3 fleet), regions and items in
staging order, the tick of its last request, and the PERSIST bit of a COMMIT whose validation runs. -/
structure CfgTx where
  handle : Nat
  owner : Nat
  mask : Nat
  items : List CfgItem
  reqAt : Nat
  validating : Option Bool
  deriving DecidableEq, Repr

/-- A commit in APPLYING: the handle and owner of its transaction (0 on a worker, and of a replay), its regions, items,
apply tick, generation, PERSIST, and whether it is carried on the ring. -/
structure CfgCommit where
  handle : Nat
  owner : Nat
  mask : Nat
  items : List CfgItem
  apply : Nat
  gen : Nat
  persist : Bool
  ring : Bool
  replay : Option Nat          -- the position a replay commit is for
  deriving DecidableEq, Repr

structure Cfg where
  nor : List (Nat × ImageIn)   -- the slots of the configuration NOR that hold an image
  image : Option ImageIn       -- the image in force, as the retained copy holds it (R420)
  own : List CfgItem           -- items committed to this position since that image was read, in commit order
  others : List CfgItem        -- manager: items committed for workers and not persisted (R389)
  tx : Option CfgTx
  applying : List CfgCommit
  parts : List CommitPart      -- worker: parts of a COMMIT message that is not complete
  out : List CommitPart        -- manager: the parts of the COMMIT messages it has sent and that wait for their apply tick
  nextHandle : Nat
  writing : Option Nat         -- the persist generation of the PERSIST write in progress
  raw : List (Nat × Word)      -- words of the items 0x0402 and 0x0403, which no register shows (R243, R247)
  fields : List (Nat × List Word) -- cell size and origin of the fields opened (R279)
  deriving DecidableEq, Repr

/-! ## Power states (R428–R431), beside their registers -/

structure Pwr where
  target : Nat                 -- the state a descent leads to, 2 LATCHED, 3 SHUTTERED or 4 BOLTED
  ignAt : Nat                  -- tick at which IGN last fell
  journalAt : Option Nat       -- tick D of the descent (R430)
  parkAt : Option Nat          -- the frame boundary P of the descent
  told : Bool                  -- 0xC004 was recorded for this descent
  held : Option (Fin 5 × Fin 6 × WakeIn) -- a wake at or after P (R430)
  enteredAt : Nat              -- RTC seconds at the entry to LATCHED, SHUTTERED or BOLTED
  deriving DecidableEq, Repr

/-! ## Reset and start-up (R414–R426), beside their registers -/

structure Rst where
  next : Nat             -- the bring-up step under way, 1–9; 10 once claims are enabled
  busy : Nat             -- reach of the reset in progress: 1 WARM, ECNIL; 2 EXTERNAL; 3 POWER_ON, BROWNOUT; 0 none (R417)
  stuck : Bool           -- the bring-up stopped at a failed step (R418)
  us0 : Nat              -- µs from the supply reaching 9 V at the end of the last step,
  ticks : Nat            -- and the ticks since then
  appUp : Bool           -- the application cluster runs
  kept : Bool            -- this start loads the retained copy of the configuration (R420)
  modes : List Nat       -- valve channels whose MODE the load changed (R421)
  block : Option Nat     -- the block whose BLOCK reset is in progress (R422)
  ready : List (Nat × Nat) -- services ready since the start, each with its µs from 9 V: 1 GNSS, 2 ISP, 3 fusion, 4 map (R423)
  deriving DecidableEq, Repr

/-! ## Firmware update (R394–R413), beside its registers; all of it but the run of the handover lies on the eMMC -/

structure Upd where
  man : Option ManifestIn
  part : Option (Nat × Nat)    -- the entry whose payload is due, and the SHA-384 of its header
  good : List Nat              -- entries verified on their modules
  held : List Nat              -- entries of workers that the manager holds, to be sent as DATA
  sent : List (Nat × Nat)      -- bytes of each sent so far
  fails : List (Nat × Nat)     -- failed transfers of each
  rx : List (Nat × Nat)        -- worker: bytes received of each entry
  reqAt : Nat                  -- tick of the last update request
  slot : Nat                   -- the slot that runs from G on
  back : Bool                  -- the activation under way is a fall-back
  phase : Nat                  -- handover of R405: 0 none, 1 first lane, 2 waits for the switch tick, 3 second lane, 4 ended
  newA : Bool                  -- lane A runs the images of `slot`
  newB : Bool
  gnsUp : Bool                 -- GN0 and GN1 run
  answered : Bool              -- this module's DONE or FAILED has been sent
  fellBack : Bool              -- the WARM reset of R410 has been made
  slow : Nat                   -- consecutive ticks in which the SPEED condition held
  harvest : Nat                -- ticks counted under R409 beyond the whole seconds in UPD_CONFIRM
  saved : Nat                  -- the count on the eMMC, s
  savedAt : Nat                -- tick of its last save
  oldVer : Nat                 -- the release in the slot that does not run, 0 for none
  deriving DecidableEq, Repr

/-! ## Security core (R432–R441), beside its registers -/

structure Sec where
  nonce : List Word            -- the latest nonce, empty for none
  tokenEnd : Nat               -- RTC second at which a PEEP token ends (R438)
  ids : List (Nat × Nat)       -- the identity of each key slot that is or was held (R433)
  bootFail : Nat               -- images that failed their check, as in SEC_STATUS.BOOT_FAIL
  deriving DecidableEq, Repr

/-! ## Limp panel (R472–R480), beside its registers -/

structure Pnl where
  shadow : BitVec 192          -- the shadow frame memory
  ref : BitVec 16              -- the CRC its composition computed
  bad : Nat                    -- consecutive mismatches
  retry : Bool                 -- a frame boundary has come since the last check under FAULT
  acc : List (Nat × Int)       -- the accumulators of R477
  phase : Nat                  -- place in the pattern of KA slot lengths, 0–4
  rev : Bool                   -- the next frame runs negative first
  holdAt : Option Nat          -- tick from which all lines are held at level 0 under 0xE003
  dark : Bool                  -- discharged at a loss of supply (R479)
  deriving DecidableEq, Repr

/-! ## Supply and temperature (R488–R506) -/

structure Sup where
  low : Bool                   -- the supply is below 9 V
  high : Bool                  -- the supply is above 36 V
  lost : Bool                  -- a loss of supply has been reported
  cap : Bool                   -- the APP clock is capped at 1.0 GHz
  coolAt : Option Nat          -- tick since which the case has stayed at or below +85 °C
  svc : Bool                   -- the service plug is in: SVC_DET is tied to ground (R498)
  hot : Bool                   -- 0x1081 was recorded and the case has not fallen to +105 °C since
  deriving DecidableEq, Repr


/-! ## The module -/

/-- The state of the module. -/
structure State where
  regs : List (Nat × Word)
  mem : List Host.Cell
  straps : Straps
  bus : BusAnswer
  free : Nat                      -- the model's own: how many free values have been used (log entry 3)
  clk : Clk
  evr : Evr
  pic : Pic
  fn : Fun
  loopA : Loop
  loopB : Loop
  mail : Mail
  dies : Dies
  clm : Clm
  gns : Gns
  isp : Isp
  fus : Fus
  ecn : Ecn
  can : Can
  map : MapEng
  att : Att
  eth : Eth
  swg : Swg
  cfg : Cfg
  pwr : Pwr
  rst : Rst
  upd : Upd
  sec : Sec
  pnl : Pnl
  sup : Sup
  pending : List Instr            -- the commands that are waiting, first in, first out
  deriving DecidableEq, Repr

def Clk.init : Clk :=
  ⟨0, 0, 0, [], 0, 0, 0, 0, 0, 0, false, 0, 0, 0, false, [], 0#32, 0⟩
def EvrFlash.init : EvrFlash := ⟨[], [], none, 0, 0, 0, true⟩
def Evr.init : Evr := ⟨[], 0, [], 0, 0, [], none, [], false, [], [], EvrFlash.init⟩
def Pic.init : Pic := ⟨[], []⟩
def Uin.init : Uin := ⟨0#32, false, 0, false, 0, false, 0, false, none, 0, (0, 0)⟩
def UinPair.init : UinPair := ⟨0, none, 0, 0, 0, 0, false⟩
def LossIn.init : LossIn := ⟨0, 0#32, false, 0, false⟩
def FnState.init : FnState := ⟨0#32, 0, none⟩
def Fun.init : Fun := ⟨[], [], [], [], ⟨[], 0#32, 0#32, 0#32, 0#32⟩, 0, 0, 0, 0, 0#32, false, [], []⟩
def Loop.init : Loop := ⟨[], [], [], [], [], 0, none, [], 0, [], 0⟩
def MailVal.init : MailVal := ⟨0#32, false, 0⟩
def Mail.init : Mail := ⟨[], [], false, []⟩
def Jamb.init : Jamb := ⟨none, none, none, none, 0, 0, 0#32, false, none, false, 0, false, 0⟩
def VlvCh.init : VlvCh :=
  ⟨0#32, false, none, 0, 0, 0#32, [], 0, 0, false, false, false, false, false, 0, false, 0#32, 0, 0, []⟩
def Rail.init : Rail := ⟨0, 0, 0⟩
def PswCh.init : PswCh := ⟨0#32, 0#32, 0#32, none, false, none, 0, false, 0, 0, 0, [], [], 0⟩
def Dies.init : Dies := ⟨[], [], [], [], 0, [], false, [], [], false, none⟩
def LaneSt.init : LaneSt := ⟨0, 0, 0, 0, [], none, 0, 2, false, 0, false, [], false⟩
def Clm.init : Clm := ⟨LaneSt.init, LaneSt.init, [], 0, false, false, false, 0, 0, none, none⟩
def Trk.init : Trk := ⟨0#32, 0#32, false, false, 0, none, none, none⟩
def NavData.none : NavData := ⟨.none, .none, [], []⟩
def Gns.init : Gns := {
  latch := [], shortAt := [], trial := [], exclUsed := 0, epoch := none, sols := [], subFrom := none, backFrom := none
  good := [], trk := [], queue := [], running := [], obsAt := [], source := none, station := none, stPos := none
  floatOnly := false, refusedAt := [], seq := none, buf := [], frames := [], nav := none, cur := NavData.none
  chgAt := none, tpAt := none, tpK := none }
def CamCal.none : CamCal := ⟨[], [], [], []⟩
def Pipe.init : Pipe := ⟨CamCal.none, [], [], [], none, [], none⟩
def Isp.init : Isp := ⟨false, 0, []⟩
def Fus.init : Fus :=
  ⟨[], 1, none, [], false, [], false, false, false, none, false, 0, 0, 0, 50, 0, [], [], none, none, 0, 0, 0, 0, none, none⟩
def EcnPort.init : EcnPort := ⟨none, 0, 0, [], false⟩
def Ecn.init : Ecn :=
  ⟨[], [], [], [], [], [], [], [], (0, 0), 0, none, false, 0, false, none, 0, false, 0, none, [], [], [], 0, 1, [], 0, none, none, none⟩
def CanPort.init : CanPort := ⟨[], 0, false, none, false, 0, false, none, 0, 0, 0, false, [], [], [], 0, false⟩
def CanVal.init : CanVal := ⟨0#32, 0, false, false⟩
def Can.init : Can := ⟨[], [], [], [], [], [], []⟩
def MapEng.init : MapEng :=
  ⟨[], [], none, [], [], [], [], [], false, [], [], [], [], [], [], none, 0, [], none, none, none, none, [], 0⟩
def AttPort.init : AttPort := ⟨0, 0, 0, [0#32, 0#32, 0#32, 0#32], 0, true, [], false, [], 0⟩
def Att.init : Att := ⟨[], [], [], [], none, 0⟩
def Eth.init : Eth :=
  ⟨1, 0, false, 1, 0, 0, [], [], [], none, none, [], 0, 0, 0, none, none, [], [], 0, none, [], 0, 0, none, [], false, false, false, 0, [], []⟩
def Swg.init : Swg := ⟨[], [], [], [], [], none, 0, none, [], [], [], none⟩
def Cfg.init : Cfg := ⟨[], none, [], [], none, [], [], [], 1, none, [], []⟩
def Pwr.init : Pwr := ⟨0, 0, none, none, false, none, 0⟩
def Rst.init : Rst := ⟨1, 3, false, 0, 0, false, false, [], none, []⟩
def Upd.init : Upd :=
  ⟨none, none, [], [], [], [], [], 0, 0, false, 0, false, false, true, false, false, 0, 0, 0, 0, 0⟩
def Sec.init : Sec := ⟨[], 0, [], 0⟩
def Pnl.init : Pnl := ⟨0#192, 0#16, 0, false, [], 0, false, none, false⟩
def Sup.init : Sup := ⟨false, false, false, false, none, false, false⟩

/-- The module right after POWER_ON, before the first step of the bring-up sequence (R417, R418). -/
def State.reset : State where
  regs := []
  mem := []
  straps := ⟨true, false, 0⟩
  bus := ⟨0#32, false⟩
  free := 0
  clk := Clk.init
  evr := Evr.init
  pic := Pic.init
  fn := Fun.init
  loopA := Loop.init
  loopB := Loop.init
  mail := Mail.init
  dies := Dies.init
  clm := Clm.init
  gns := Gns.init
  isp := Isp.init
  fus := Fus.init
  ecn := Ecn.init
  can := Can.init
  map := MapEng.init
  att := Att.init
  eth := Eth.init
  swg := Swg.init
  cfg := Cfg.init
  pwr := Pwr.init
  rst := Rst.init
  upd := Upd.init
  sec := Sec.init
  pnl := Pnl.init
  sup := Sup.init
  pending := []

end Sys2Proof.Machine
end

