-- ==== Sys2Proof/Machine/Ops.lean ====
section
/-!
DEFINITION. The named operations over registers, memory, time and events that every command's meaning is built from.
Nothing else reads or writes the register words or the bytes of memory.
-/
namespace Sys2Proof.Machine

/-! ## Registers -/

/-- The word of a register (R6); an unlisted word reads its reset value. -/
def State.rd (s : State) (a : Nat) : Word := tabGet resetWord s.regs a

/-- Writes the word of a register. -/
def State.wr (s : State) (a : Nat) (w : Word) : State := { s with regs := tabSet resetWord s.regs a w }

/-- The mask of the bits of a field. -/
def fldMask (f : Fld) : Word := BitVec.ofNat 32 ((2 ^ fldWidth f - 1) * 2 ^ f.lo)

/-- The value of a field inside a word. -/
def fldOf (f : Fld) (w : Word) : Nat := (w.toNat / 2 ^ f.lo) % 2 ^ fldWidth f

/-- A word with a field replaced; bits of `v` above the field's width are dropped. -/
def fldPut (f : Fld) (w : Word) (v : Nat) : Word :=
  (w &&& ~~~(fldMask f)) ||| (BitVec.ofNat 32 (v % 2 ^ fldWidth f * 2 ^ f.lo))

/-- Reads a field of a register. -/
def State.get (s : State) (f : Fld) : Nat := fldOf f (s.rd f.addr)

/-- Writes a field of a register. -/
def State.put (s : State) (f : Fld) (v : Nat) : State := s.wr f.addr (fldPut f (s.rd f.addr) v)

/-- A field that is one bit, as a Bool. -/
def State.bit (s : State) (f : Fld) : Bool := s.get f != 0

/-- Writes a one-bit field. -/
def State.putBit (s : State) (f : Fld) (b : Bool) : State := s.put f (if b then 1 else 0)

/-- Adds to a counter field that stays at its all-ones value once reached. -/
def State.add (s : State) (f : Fld) (n : Nat) : State := s.put f (min (s.get f + n) (2 ^ fldWidth f - 1))

/-- Adds 1 to a counter field that stays at its all-ones value once reached. -/
def State.inc (s : State) (f : Fld) : State := s.add f 1

/-- A whole register word as a field. -/
def wordAt (a : Nat) : Fld := ⟨a, 31, 0⟩

/-- Sets bit `n` of a field that is an array of bits. -/
def State.setBitAt (s : State) (f : Fld) (n : Nat) (b : Bool) : State := s.putBit ⟨f.addr, f.lo + n, f.lo + n⟩ b

/-- Bit `n` of a field that is an array of bits. -/
def State.bitAt (s : State) (f : Fld) (n : Nat) : Bool := s.bit ⟨f.addr, f.lo + n, f.lo + n⟩

/-- A 64-bit value held in two registers, LO then HI at the next word. -/
def State.put64 (s : State) (a : Nat) (v : Nat) : State :=
  (s.put (wordAt a) v).put (wordAt (a + 4)) (v / 4294967296)

def State.get64 (s : State) (a : Nat) : Nat := s.get (wordAt a) + 4294967296 * s.get (wordAt (a + 4))

/-- A signed 32-bit register value, saturating at ±2,147,483,647. -/
def sat32 (i : Int) : Nat :=
  let j := max (-2147483647) (min 2147483647 i)
  (j % 4294967296).toNat

/-- A signed value in a field of `w` bits. -/
def toField (w : Nat) (i : Int) : Nat := (i % 2 ^ w).toNat

/-- The signed value of a field of `w` bits. -/
def ofField (w : Nat) (n : Nat) : Int := if n < 2 ^ (w - 1) then n else Int.ofNat n - 2 ^ w

/-! ## Memory -/

/-- What a byte of memory that nothing has written reads as (DESIGN CHOICE, log entry 1). -/
def memDefault (_ : Nat) : Byte := 0#8

def State.rd8 (s : State) (a : Nat) : Byte := tabGet memDefault s.mem a
def State.wr8 (s : State) (a : Nat) (b : Byte) : State := { s with mem := tabSet memDefault s.mem a b }

/-- The little-endian word at byte address `a` (R6). -/
def State.rd32 (s : State) (a : Nat) : Word :=
  s.rd8 (a + 3) ++ (s.rd8 (a + 2) ++ (s.rd8 (a + 1) ++ s.rd8 a : BitVec 16) : BitVec 24)

/-- Writes a little-endian word at byte address `a` (R6). -/
def State.wr32 (s : State) (a : Nat) (w : Word) : State :=
  (((s.wr8 a (w.extractLsb' 0 8)).wr8 (a + 1) (w.extractLsb' 8 8)).wr8 (a + 2) (w.extractLsb' 16 8)).wr8 (a + 3)
    (w.extractLsb' 24 8)

/-- The bytes from `a` on. -/
def State.rdBytes (s : State) (a : Nat) : Nat → List Byte
  | 0 => []
  | n + 1 => s.rd8 a :: s.rdBytes (a + 1) n

/-- Writes a run of bytes from `a` on. -/
def State.wrBytes (s : State) (a : Nat) : List Byte → State
  | [] => s
  | b :: bs => (s.wr8 a b).wrBytes (a + 1) bs

/-- Copies `n` bytes from `a` to `b`, from the lowest address up. -/
def State.copyMem (s : State) (a b n : Nat) : State := s.wrBytes b (s.rdBytes a n)

/-- Writes 0 to `n` bytes from `a` on. -/
def State.clearMem (s : State) (a n : Nat) : State := s.wrBytes a (List.replicate n 0#8)

/-- A field inside a word of memory; the same shape as a register field. -/
def State.mget (s : State) (f : Fld) : Nat := fldOf f (s.rd32 f.addr)
def State.mput (s : State) (f : Fld) (v : Nat) : State := s.wr32 f.addr (fldPut f (s.rd32 f.addr) v)

/-! ## Free values (Config) -/

/-- A value the spec leaves open, and the state with the counter advanced (log entry 3). -/
def State.fresh (s : State) : Word × State :=
  ((Config.freeValue s.free).extractLsb' 0 32, { s with free := s.free + 1 })

/-! ## Time (R43, R46) -/

/-- Module time in ns: `tbase_ns + tick_count · 50000 + cycle · 2.5`, rounded down (R46). -/
def State.now (s : State) : Int := s.clk.tbase + s.clk.tick * 50000 + s.clk.cycle * 5 / 2

def State.tick (s : State) : Nat := s.clk.tick

def pwrState (s : State) : Nat := s.get fPWR_STATUS_STATE

/-- Tick edges fall: REF and TICK run, which the power state, a clock fault and the steps of a start decide (R33, R45,
R57, R418). -/
def tickRuns (s : State) : Bool :=
  decide (pwrState s < 2) && !s.clk.stopped && (decide (3 ≤ s.rst.next) || (s.rst.next == 2 && s.rst.busy == 1))

/-- The time since the supply reached 9 V, in µs (R423, R425). -/
def State.since9V (s : State) : Nat := s.rst.us0 + 50 * s.rst.ticks

/-- Service k is ready for the first time since the start: 1 GNSS, 2 ISP, 3 fusion, 4 map engine (R423). -/
def State.svcReady (s : State) (k : Nat) : State :=
  if s.rst.ready.any fun x => x.1 == k then s
  else { s with rst := { s.rst with ready := s.rst.ready ++ [(k, s.since9V)] } }

/-- Ticks since tick `t`. -/
def State.since (s : State) (t : Nat) : Nat := s.clk.tick - t

/-! ## Events (R461) -/

/-- The recorder accepts events from step 2 of the bring-up sequence on (R461). -/
def State.evrOn (s : State) : Bool := decide (2 ≤ s.rst.next)

/-- Passes an event to the recorder's intake queue of 256 entries; a full queue loses it and counts it (R461). -/
def State.push (s : State) (e : Ev) : State :=
  if !s.evrOn then s
  else if s.evr.intake.length < 256 then { s with evr := { s.evr with intake := s.evr.intake ++ [e] } }
  else
    let s := { s with evr := { s.evr with lostNow := s.evr.lostNow + 1 } }
    (s.inc fEVR_LOST).putBit fEVR_EVT_LOST true

/-- An event with every field of its record named. -/
def State.evx (s : State) (code src flags : Nat) (mn mx : F16) : State :=
  s.push ⟨code, src, flags, mn, mx, s.clk.tick, s.now⟩

/-- An event whose table names no minimum and no maximum (R459). -/
def State.ev (s : State) (code : Nat) (src : Nat := 0) (flags : Nat := 0) : State :=
  s.evx code src flags f16NaN f16NaN

/-- An event whose table names a maximum only. -/
def State.evMax (s : State) (code src flags : Nat) (mx : F16) : State := s.evx code src flags f16NaN mx

/-- A LASTING fault while an update is UNCONFIRMED: the manager starts its count again and records 0xA10F, a worker sends
the operation LASTING (R409). -/
def noteLasting (code : Nat) (s : State) : State :=
  if s.get fUPD_STATUS_STATE ≠ 5 then s
  else if s.straps.manager then
    { (s.put fUPD_CONFIRM_HARVEST_S 0).evMax 0xA10F 0 0 (f16OfNat code) with upd := { s.upd with harvest := 0 } }
  else { s with ecn := { s.ecn with sent := (⟨0x0B, [7, (s.straps.pos : Int), (code : Int)]⟩ :: s.ecn.sent).take 64 } }

/-! ## Bus answers -/

/-- The answer to the last register or memory access. -/
def State.answer (s : State) (w : Word) : State := { s with bus := ⟨w, false⟩ }
/-- The last access ended in a bus error (R7, R27, R30). -/
def State.busError (s : State) : State := { s with bus := ⟨0#32, true⟩ }

/-! ## Roles (R3, R14) -/

/-- The machine-wide blocks GNS, ISP, FUS and MAP are out of reset: an FYH7-A that is the manager (R3, R14). -/
def State.wide (s : State) : Bool := s.straps.manager && !s.straps.orderB

/-! ## Requesters -/

/-- The number of a requester's banked copies (R467, R485); the OEM partition runs on one of APP0–APP3. -/
def reqBank : Req → Nat
  | .core c => c
  | .oem c => c
  | .dma d => 11 + d
  | .keyhole => 15

/-- The core that a requester is, for the rules that name a core (R448, R449); the OEM partition runs on its core. -/
def reqCore : Req → Option Nat
  | .core c => some c
  | .oem c => some c
  | _ => none

/-- The OEM partition makes the access; most blocks ignore its writes (R2, R58, R455). -/
def reqIsOem : Req → Bool
  | .oem _ => true
  | _ => false

/-- One of the four cores of the application cluster makes the access. -/
def reqIsApp : Req → Bool
  | .core c => decide (c.val < 4)
  | _ => false

/-- The application cluster runs: it does in OPEN, while no update pauses it (R33, R405). -/
def appOn (s : State) : Bool := s.get fPWR_STATUS_STATE == 0 && s.rst.appUp

/-- Applies `f` for every index below `n`, from 0 up. -/
def forUp (n : Nat) (f : Nat → State → State) (s : State) : State := (List.range n).foldl (fun t i => f i t) s

/-- Applies `f` for every element of a list, in order. -/
def forAll {α : Type} (l : List α) (f : α → State → State) (s : State) : State := l.foldl (fun t x => f x t) s

/-- The step's answer for a command that has taken effect. -/
abbrev Out := Host.Outcome State Fault Refusal

end Sys2Proof.Machine
end

