-- ==== Sys2Proof/Machine/Recorder.lean ====
section
/-!
DEFINITION. The event recorder (R458–R471): intake, repeat counting and rate limit, the Sill, the Lintel and the
DOUBLE record, the read ports, and the event flash.
-/
namespace Sys2Proof.Machine

/-- The event codes the chapters assign; every other code is reserved and discarded (R460, R461). -/
def evAssigned : List (Nat × Nat) := [
  (0x1010, 0x1011), (0x1020, 0x1023), (0x1030, 0x1030), (0x1040, 0x1043), (0x1050, 0x1052), (0x1060, 0x1061),
  (0x1070, 0x1074), (0x1080, 0x1084), (0x2001, 0x2005), (0x2010, 0x2012), (0x2020, 0x2023), (0x2030, 0x2032),
  (0x3001, 0x3006), (0x3101, 0x3107), (0x3800, 0x3802), (0x3810, 0x3811), (0x3820, 0x3823), (0x3901, 0x3907),
  (0x4001, 0x4007), (0x4009, 0x400D), (0x5001, 0x500E), (0x6001, 0x6004), (0x6010, 0x6012), (0x6020, 0x6022),
  (0x6030, 0x6033), (0x6040, 0x6042), (0x6050, 0x6050), (0x7001, 0x7006), (0x7101, 0x7109), (0x7110, 0x7114),
  (0x7120, 0x7121), (0x8001, 0x8007), (0x8009, 0x800C), (0x800E, 0x800E), (0x9101, 0x910D), (0x9201, 0x920E),
  (0x9301, 0x9304), (0x9310, 0x9315), (0x9320, 0x9322), (0xA001, 0xA00A), (0xA101, 0xA105), (0xA107, 0xA10F),
  (0xB001, 0xB00A), (0xC001, 0xC006), (0xC101, 0xC109), (0xD001, 0xD00A), (0xE001, 0xE004)]

def evIsAssigned (code : Nat) : Bool := evAssigned.any fun r => decide (r.1 ≤ code) && decide (code ≤ r.2)

/-- The ranges recorded under the rate limit: 0x2xxx, 0xBxxx and 0xCxxx (R460). -/
def evRateLimited (code : Nat) : Bool := code / 4096 == 2 || code / 4096 == 11 || code / 4096 == 12

/-- The HIST bin of an interval in ticks: <1 ms, 1–10 ms, 10–100 ms, 0.1–1 s, 1–10 s, 10–100 s, 100–1,000 s and
≥1,000 s (R459). -/
def histBin (dt : Nat) : Nat :=
  if dt < 20 then 0 else if dt < 200 then 1 else if dt < 2000 then 2 else if dt < 20000 then 3
  else if dt < 200000 then 4 else if dt < 2000000 then 5 else if dt < 20000000 then 6 else 7

/-- The record an event opens (R458, R459). -/
def evOpenRec (e : Ev) (seq : Nat) : EvRec :=
  ⟨e.code, e.src, e.flags, 1, e.time, e.tick, e.tick, e.mn, e.mx, [0, 0, 0, 0, 0, 0, 0, 0], seq⟩

/-- A record with one more event added: COUNT + 1, FLAGS replaced, MIN, MAX, LAST_DT and HIST updated (R459, R462). -/
def evAdd (r : EvRec) (e : Ev) : EvRec :=
  let b := histBin (e.tick - r.lastTick)
  { r with
    count := min (r.count + 1) 0xFFFFFFFF, flags := e.flags, lastTick := e.tick,
    mn := f16Min r.mn e.mn, mx := f16Max r.mx e.mx,
    hist := r.hist.set b (min (r.hist.getD b 0 + 1) 255) }

/-- Replaces the first record of a list that satisfies `p` by its image. -/
def updFirst (p : EvRec → Bool) (f : EvRec → EvRec) : List EvRec → List EvRec
  | [] => []
  | r :: rs => if p r then f r :: rs else r :: updFirst p f rs

/-- Opens a record in the Sill, and copies it to the Lintel while that holds fewer than 512; the 512th Lintel record
records 0x1073 (R464). -/
def evOpen (e : Ev) (s : State) : State :=
  let v := s.evr
  let r := evOpenRec e v.head
  let room := decide (v.lintel.length < 512)
  let v := { v with
    sill := (r :: v.sill).take 4096, head := (v.head + 1) % 4294967296,
    lintel := if room then v.lintel ++ [r] else v.lintel,
    opens := (e.code, e.tick) :: v.opens,
    unwritten := r.seq :: v.unwritten }
  let s := { s with evr := v }
  if room && v.lintel.length == 512 then (s.putBit fEVR_EVT_LINTEL_FULL true).ev 0x1073 else s

/-- Adds an event to the newest Sill record that satisfies `p`. -/
def evCount (p : EvRec → Bool) (e : Ev) (s : State) : State :=
  let v := s.evr
  let seqs := ((v.sill.find? p).elim [] fun r => [r.seq]).filter fun q => !v.unwritten.contains q
  { s with evr := { v with sill := updFirst p (fun r => evAdd r e) v.sill, unwritten := seqs ++ v.unwritten } }

/-- Repeat counting (R462). -/
def evRepeat (e : Ev) (s : State) : State :=
  let same (r : EvRec) : Bool := r.code == e.code && r.src == e.src
  match s.evr.sill.find? same with
  | some r => if e.tick - r.firstTick < 72000000 ∧ r.count < 0xFFFFFFFF then evCount same e s else evOpen e s
  | none => evOpen e s

/-- The rate limit (R463). -/
def evLimited (e : Ev) (s : State) : State :=
  let recent := s.evr.opens.filter fun o => o.1 == e.code && decide (s.clk.tick < o.2 + 20000)
  if recent.length < 4 then evOpen e s
  else
    let s := s.inc fEVR_SUPPR
    let same (r : EvRec) : Bool := r.code == e.code
    match s.evr.sill.find? same with
    | some _ => evCount same e s
    | none => s

/-- The DOUBLE record beside the Lintel (R465). -/
def evDouble (e : Ev) (s : State) : State :=
  match s.evr.dbl with
  | none => { s with evr := { s.evr with dbl := some (evOpenRec e 0) } }
  | some r => { s with evr := { s.evr with dbl := some (evAdd r e) } }

/-- Records one event (R460–R465). -/
def evRecord (e : Ev) (s : State) : State :=
  if !evIsAssigned e.code then s
  else
    let s := { s with evr := { s.evr with opens := s.evr.opens.filter fun o => decide (s.clk.tick < o.2 + 20000) } }
    let s := if e.code == 0x2030 then evDouble e s else s
    if evRateLimited e.code then evLimited e s else evRepeat e s

/-- The source field of 0x1070 (R471). -/
def sillClrSrc : Req → Nat
  | .oem _ => 1
  | .keyhole => 2
  | _ => 0

/-- EVR_CTL.SILL_CLR, which any requester may write: the records opened before can no longer be read, and the first
record after the clear is 0x1070 with the number discarded (R466). -/
def execSillClr (req : Req) (s : State) : Out :=
  if s.evr.clearing then .next s
  else
    let n := s.evr.sill.length
    let s := { s with evr := { s.evr with sill := [], tail := s.evr.head } }
    let s := (s.inc fEVR_CLR_CNT).putBit fEVR_EVT_CLEARED true
    .next (evRecord ⟨0x1070, sillClrSrc req, 0, f16NaN, f16OfNat n, s.clk.tick, s.now⟩ s)

/-- A read port after reset (R470). -/
def evrPort0 : EvrPort := ⟨0, 0, 2, [0#32, 0#32, 0#32, 0#32, 0#32, 0#32, 0#32, 0#32]⟩

def State.evrPort (s : State) (b : Nat) : EvrPort := tabGet (fun _ => evrPort0) s.evr.ports b
def State.setEvrPort (s : State) (b : Nat) (p : EvrPort) : State :=
  { s with evr := { s.evr with ports := tabSet (fun _ => evrPort0) s.evr.ports b p } }

/-- The eight words of a record (R458). -/
def evWords (r : EvRec) : List Word :=
  let t : Nat := (r.first % 18446744073709551616).toNat
  [BitVec.ofNat 32 (r.code + 0x10000 * (r.flags % 256) + 0x1000000 * (r.src % 256)), BitVec.ofNat 32 r.count,
   BitVec.ofNat 32 t, BitVec.ofNat 32 (t / 4294967296), BitVec.ofNat 32 ((r.lastTick - r.firstTick) / 20),
   BitVec.ofNat 32 (r.mn.toNat + 0x10000 * r.mx.toNat),
   BitVec.ofNat 32 (r.hist.getD 0 0 + 256 * (r.hist.getD 1 0 + 256 * (r.hist.getD 2 0 + 256 * r.hist.getD 3 0))),
   BitVec.ofNat 32 (r.hist.getD 4 0 + 256 * (r.hist.getD 5 0 + 256 * (r.hist.getD 6 0 + 256 * r.hist.getD 7 0)))]

/-- The oldest sequence number held: the greater of HEAD − 4,096 and the first record after the last clear (R470). -/
def evrTail (v : Evr) : Nat := max (v.head - 4096) v.tail

/-- The record an index selects, or the reason it is not held: 1 no longer held, 2 not yet written (R467, R470). -/
def evrSelect (v : Evr) (area index : Nat) : Except Nat EvRec :=
  if area = 0 then
    if index ≥ v.head then .error 2
    else if index < evrTail v then .error 1
    else match v.sill.find? fun r => r.seq == index with
      | some r => .ok r
      | none => .error 1
  else if area = 1 then
    match v.lintel[index]? with
    | some r => .ok r
    | none => .error 2
  else match v.dbl with
    | some r => .ok r
    | none => .error 2

/-- The words of `n` free values. -/
def freshWords : Nat → State → List Word × State
  | 0, s => ([], s)
  | n + 1, s =>
    let (w, s) := s.fresh
    let (ws, s) := freshWords n s
    (w :: ws, s)

/-- EVR_RD_SEL latches a whole copy of the selected record into the core's read port; of a record that is not held
the spec gives RD_STAT and leaves RD_DATA open (R467, log entry 3). -/
def execEvrRdSel (req : Req) (index : Word) (s : State) : Out :=
  let b := reqBank req
  let p := s.evrPort b
  match evrSelect s.evr p.area index.toNat with
  | .ok r => .next (s.setEvrPort b ⟨p.area, index.toNat, 0, evWords r⟩)
  | .error e =>
    let (ws, s) := freshWords 8 s
    .next (s.setEvrPort b ⟨p.area, index.toNat, e, ws⟩)

/-- EVR_RD_AREA selects the area; the reserved value 0b11 leaves it unchanged (R467). -/
def execEvrRdArea (req : Req) (area : Fin 4) (s : State) : Out :=
  let b := reqBank req
  if area.val = 3 then .next s else .next (s.setEvrPort b { s.evrPort b with area := area })

/-- Writes every unwritten record to the event flash (R468). -/
def evrFlush (s : State) : State :=
  let v := s.evr
  { s with evr := { v with
      unwritten := [], flash := ⟨v.sill, v.lintel, v.dbl, v.head, v.tail, s.get fEVR_CLR_CNT, v.flash.closed⟩ } }

/-- A write of opened and changed records to the event flash; a failed one records 0x1072 with the number of records
unwritten, which are written again at the next write (R468, R469). -/
def execEventFlashWrite (failed : Bool) (s : State) : Out :=
  if failed then
    let n := s.evr.unwritten.length
    .next (((s.putBit fEVR_STATUS_FLASH_ERR true).putBit fEVR_EVT_FLASH_ERR true).evMax 0x1072 0 0 (f16OfNat n))
  else .next (evrFlush (s.putBit fEVR_STATUS_FLASH_ERR false))

/-- The recorder rebuilds the Sill, the Lintel and the DOUBLE record from the log at the next start (R469). -/
def evrRebuild (s : State) : State :=
  let f := s.evr.flash
  let s := { s with evr := { s.evr with
    sill := f.sill, lintel := f.lintel, dbl := f.dbl, head := f.head, tail := f.tail, unwritten := [] } }
  s.put fEVR_CLR_CNT f.clears

/-- EVR_STATUS, EVR_SILL_HEAD and EVR_SILL_TAIL as they read (R470). -/
def evrStatusWord (s : State) : Word :=
  let v := s.evr
  BitVec.ofNat 32 (v.lintel.length + (if v.dbl.isSome then 1024 else 0) + (if v.clearing then 2048 else 0)
    + (if v.unwritten.isEmpty then 0 else 4096) + 8192 * s.get fEVR_STATUS_FLASH_ERR + 16384 * v.intake.length)

end Sys2Proof.Machine
end

