-- ==== Sys2Proof/Machine/Interrupts.lean ====
section
/-!
DEFINITION. The interrupt controller (R445–R457): raising, presentation, claim and completion, and the latches of the
keep-alive island.
-/
namespace Sys2Proof.Machine

/-- The targets a source may be masked to, as a mask over t; 0 for a reserved number (R446). -/
def picAllowed (n : Nat) : Nat :=
  if 1 ≤ n ∧ n ≤ 7 then 0x030
  else if 97 ≤ n ∧ n ≤ 103 then 0x0C0
  else if n = 193 then 0x300
  else if n = 194 then 0x30F
  else if 256 ≤ n ∧ n ≤ 280 then 0x40F
  else if 288 ≤ n ∧ n ≤ 295 then 0x40F
  else 0

/-- The source numbers that are not reserved (R446). -/
def picAssigned (n : Nat) : Bool := picAllowed n != 0

/-- The sources with an asynchronous latch in the keep-alive island (R446, R453). -/
def picLatched (n : Nat) : Bool := decide (288 ≤ n) && decide (n ≤ 295)

/-- A bit of one of the 512-bit register arrays: PEND, EN, ACTIVE or MERGED, by the field of its word 0 (R456). -/
def picBit (arr : Nat → Fld) (n : Nat) : Fld := ⟨(arr (n / 32)).addr, n % 32, n % 32⟩

def State.pend (s : State) (n : Nat) : Bool := s.bit (picBit fPIC_PEND n)
def State.setPend (s : State) (n : Nat) (b : Bool) : State := s.putBit (picBit fPIC_PEND n) b
def State.active (s : State) (n : Nat) : Bool := s.bit (picBit fPIC_ACTIVE n)
def State.setActive (s : State) (n : Nat) (b : Bool) : State := s.putBit (picBit fPIC_ACTIVE n) b

/-- The address of the event register of block `b`: its second word, and `CLK_EVT` in the CLK block (R58, R446, R482). -/
def evtAddr (b : Nat) : Nat := if b = 2 then fCLK_EVT_LEAP.addr else 0x40000000 + 0x10000 * b + 4

/-- The condition of a level source (R446): `CLM_EVT`, a lane's `LEA_EVT` or `LEB_EVT`, or the `_EVT` register of a
block is not zero. The event bits of the six camera pages make up the one of the ISP block. -/
def picLevel (s : State) (n : Nat) : Bool :=
  let nz (a : Nat) : Bool := s.rd a != 0#32
  if n = 6 ∨ n = 102 then nz (evtAddr 6)
  else if n = 7 then nz (evtAddr 4)
  else if n = 103 then nz (evtAddr 5)
  else if n = 266 then (List.range 6).any fun p => nz (0x400A0004 + 0x1000 * p)
  else nz (evtAddr (n - 256))

/-- A source is raised: a level source while its condition holds, an edge source at its edge. An active source
becomes active-and-pending (R447, R450). -/
def raise (n : Nat) (s : State) : State :=
  if !picAssigned n then s
  else if picEdge n || picLevel s n then s.setPend n true
  else s

/-- The same source of the other lane, for a lane's source; it is raised in the same cycle (R446). -/
def raisePartner (n : Nat) : Nat := if 1 ≤ n ∧ n ≤ 7 then n + 96 else if 97 ≤ n ∧ n ≤ 103 then n - 96 else n

/-- A source is raised and becomes pending, or active-and-pending; a lane's source is raised for both lanes (R446). -/
def execInterruptRaise (n : Fin 512) (s : State) : Out := .next (raise (raisePartner n) (raise n s))

/-- A source is eligible for target t (R447). -/
def picEligible (s : State) (t n : Nat) : Bool :=
  s.pend n && s.bit (picBit fPIC_EN n) && !s.active n && s.bitAt (fPIC_SRC_TMASK n) t
    && decide (s.get (fPIC_THR_THR t) < s.get (fPIC_SRC_PRIO n)) && s.get (fPIC_SRC_PRIO n) != 0

/-- The better of two sources: higher priority, the lower number among equals; 0 stands for none (R447). -/
def picBetter (s : State) (a b : Nat) : Nat :=
  if a = 0 then b else if s.get (fPIC_SRC_PRIO a) < s.get (fPIC_SRC_PRIO b) then b else a

/-- What PIC_CLAIM[t] shows: the eligible source of highest priority, or 0 (R447). -/
def picBest (s : State) (t : Nat) : Nat :=
  ((List.range 511).filter fun n => picEligible s t n).foldl (picBetter s) 0

/-- PIC_STATUS: one bit for each target whose line is asserted (R447, R456). -/
def picStatusWord (s : State) : Word :=
  BitVec.ofNat 32 (((List.range 11).map fun t => if picBest s t != 0 then 2 ^ t else 0).sum)

/-- A read of PIC_CLAIM[t]: core t claims the source shown, unless a lower target reads the same source in the same
cycle, which makes it read 511; a read by any other core returns 0 (R448, R456). -/
def execPicClaim (req : Req) (t : Fin 11) (rivals : List (Fin 11)) (s : State) : Out :=
  if reqCore req ≠ some t.val then .next (s.answer 0#32)
  else
    let n := picBest s t
    if n = 0 then .next (s.answer 0#32)
    else if rivals.any fun r => decide (r.val < t.val) && picBest s r == n then
      .next ((s.inc (fPIC_CNT_SPURIOUS t)).answer 511#32)
    else
      let s := ((s.setActive n true).setPend n false).inc (fPIC_CNT_CLAIMS t)
      .next (({ s with pic := { s.pic with claimed := (n, t.val) :: s.pic.claimed } }).answer (BitVec.ofNat 32 n))

/-- A write to PIC_COMPLETE[t]: core t ends service of a source it claimed, and a level source whose condition still
holds is pending again in the same cycle; a number t has not claimed sets BAD_COMPLETE and records 0x1060; a write by
another core is ignored (R449, R450, R456). -/
def execPicComplete (req : Req) (t : Fin 11) (num : Fin 1024) (s : State) : Out :=
  if reqCore req ≠ some t.val then .next s
  else if s.pic.claimed.contains (num.val, t.val) then
    let s := { s with pic := { s.pic with claimed := s.pic.claimed.filter fun c => c != (num.val, t.val) } }
    let s := s.setActive num false
    .next (if !picEdge num && picLevel s num then s.setPend num true else s)
  else .next ((s.putBit fPIC_EVT_BAD_COMPLETE true).evMax 0x1060 t 0 (f16OfNat num))

/-- The bits of word m that stand for assigned sources; the others read 0 and ignore writes (R446). -/
def picWordMask (m : Nat) : Word :=
  BitVec.ofNat 32 (((List.range 32).map fun k => if picAssigned (32 * m + k) then 2 ^ k else 0).sum)

/-- The one operation that changes a word of pending or enable bits (R451). -/
def picBits (req : Req) (arr : Nat → Fld) (m : Nat) (set clr : Word) (s : State) : State :=
  if reqIsOem req then s
  else
    let a := (arr m).addr
    let mk := picWordMask m
    s.wr a ((s.rd a &&& ~~~(clr &&& mk)) ||| (set &&& mk))

/-- PIC_PEND_SET: a 1 sets the pending bit (R451). -/
def execPendSet (req : Req) (m : Fin 16) (bits : Word) (s : State) : Out := .next (picBits req fPIC_PEND m bits 0#32 s)

/-- PIC_PEND_CLR: a 1 clears the pending bit; a bit set or raised in the same cycle ends set (R451). -/
def execPendClr (req : Req) (m : Fin 16) (bits raised : Word) (s : State) : Out :=
  .next (picBits (.core 0) fPIC_PEND m raised 0#32 (picBits req fPIC_PEND m 0#32 bits s))

/-- PIC_EN_SET: a 1 enables the source (R451). -/
def execEnSet (req : Req) (m : Fin 16) (bits : Word) (s : State) : Out := .next (picBits req fPIC_EN m bits 0#32 s)

/-- PIC_EN_CLR: a 1 disables the source, which stays active or pending if it was (R451). -/
def execEnClr (req : Req) (m : Fin 16) (bits sets : Word) (s : State) : Out :=
  .next (picBits (.core 0) fPIC_EN m sets 0#32 (picBits req fPIC_EN m 0#32 bits s))

/-- A requester may write the entry of source n: entries 1–192 belong to the lane's own cores, and the OEM partition
writes none (R455). -/
def picSrcMay (req : Req) (n : Nat) : Bool :=
  match req with
  | .oem _ => false
  | .core c =>
    if 1 ≤ n ∧ n ≤ 96 then c == 4 || c == 5 else if 97 ≤ n ∧ n ≤ 192 then c == 6 || c == 7 else true
  | _ => !(decide (1 ≤ n) && decide (n ≤ 192))

/-- A write to PIC_SRC[n]: priority and mask, a mask bit outside the allowed targets left 0, LOCK set by a 1; a locked
entry ignores every write (R446, R455, R456). -/
def execPicSrcWrite (req : Req) (n : Fin 512) (value : Word) (s : State) : Out :=
  if !picAssigned n || s.bit (fPIC_SRC_LOCK n) || !picSrcMay req n then .next s
  else
    let s := s.put (fPIC_SRC_PRIO n) (fldOf (fPIC_SRC_PRIO n) value)
    let s := s.put (fPIC_SRC_TMASK n) (fldOf (fPIC_SRC_TMASK n) value &&& picAllowed n)
    .next (if fldOf (fPIC_SRC_LOCK n) value = 1 then s.putBit (fPIC_SRC_LOCK n) true else s)

/-- An edge at a source with a latch: while TICK runs it is raised; while TICK is stopped the latch catches one edge, and a
further one sets the bit in PIC_MERGED and records 0x1061. When TICK runs again, the latch sets the pending bit and
clears (R453). -/
def execEdgeLatch (n : Fin 512) (s : State) : Out :=
  if !picLatched n then .next s
  else if tickRuns s then .next (raise n s)
  else if s.pic.latches.contains n.val then
    let s := (s.putBit (picBit fPIC_MERGED n) true).putBit fPIC_EVT_MERGED true
    .next (s.ev 0x1061 (n.val % 256) (n.val / 256))
  else .next { s with pic := { s.pic with latches := n.val :: s.pic.latches } }

end Sys2Proof.Machine
end

