-- ==== Sys2Proof/Machine/Signals.lean ====
section
/-!
DEFINITION. The signal table and the command table in lane SRAM (R80–R82, R90, R102), and the function table's
setpoints (R63, R64). A lane is 0 for A and 1 for B.
-/
namespace Sys2Proof.Machine

def laneIx : Lane → Nat
  | .A => 0
  | .B => 1

/-- The first byte of a lane's SRAM (R26, R90). -/
def laneBase (l : Nat) : Nat := 0x100000 * l

/-! ## SIG entries (R80) -/

def sigAddr (l i : Nat) : Nat := laneBase l + 8 * i
def fSigAge (l i : Nat) : Fld := ⟨sigAddr l i + 4, 15, 0⟩
def fSigValid (l i : Nat) : Fld := ⟨sigAddr l i + 4, 16, 16⟩
def fSigFirst (l i : Nat) : Fld := ⟨sigAddr l i + 4, 18, 18⟩

/-- A signal: value, AGE, VALID, CLAMPED and FIRST (R80). -/
structure Sig where
  val : F32
  age : Nat
  valid : Bool
  clamped : Bool := false
  first : Bool := false
  deriving DecidableEq, Repr

/-- The status word of a signal, AGE saturating at 65,535 (R80). -/
def sigStatus (g : Sig) : Word :=
  BitVec.ofNat 32 (min g.age 65535 + (if g.valid then 0x10000 else 0) + (if g.clamped then 0x20000 else 0)
    + (if g.first then 0x40000 else 0))

def State.putSig (s : State) (l i : Nat) (g : Sig) : State :=
  (s.wr32 (sigAddr l i) g.val).wr32 (sigAddr l i + 4) (sigStatus g)

def State.sig (s : State) (l i : Nat) : Sig :=
  let w := (s.rd32 (sigAddr l i + 4)).toNat
  ⟨s.rd32 (sigAddr l i), w % 65536, w / 0x10000 % 2 == 1, w / 0x20000 % 2 == 1, w / 0x40000 % 2 == 1⟩

/-- The same entry in both lanes' signal tables (R20). -/
def State.putSigs (s : State) (i : Nat) (g : Sig) : State := (s.putSig 0 i g).putSig 1 i g

def State.loop (s : State) (l : Nat) : Loop := if l = 0 then s.loopA else s.loopB
def State.setLoop (s : State) (l : Nat) (x : Loop) : State :=
  if l = 0 then { s with loopA := x } else { s with loopB := x }

/-- An entry of a lane's fill: the first value it carries since start has FIRST (R80). -/
def State.putNew (s : State) (l i : Nat) (g : Sig) : State :=
  if g.valid && !(s.loop l).seen.testBit i then
    (s.setLoop l { s.loop l with seen := (s.loop l).seen + 2 ^ i }).putSig l i { g with first := true }
  else s.putSig l i g

/-- The same in both lanes. -/
def State.putNews (s : State) (i : Nat) (g : Sig) : State := (s.putNew 0 i g).putNew 1 i g

/-- An entry that nothing writes reads VALID = 0 (R81). -/
def State.noSig (s : State) (l i : Nat) : State :=
  if (s.sig l i).valid then s.putSig l i ⟨0#32, 0, false, false, false⟩ else s

/-- An entry is usable when it is VALID and not older than `ageMax` ticks (R95). -/
def sigUsable (g : Sig) (ageMax : Nat) : Bool := g.valid && decide (g.age ≤ ageMax)

/-! ## CMD entries (R102) -/

def cmdAddr (l i : Nat) : Nat := laneBase l + 0x2000 + 8 * i

/-- A command: value, writer, VALID, DEGRADED, SAT, and the tick of the last write (R102). -/
structure Cmd where
  val : F32
  writer : Nat
  valid : Bool
  degraded : Bool
  sat : Bool
  tick16 : Nat
  deriving DecidableEq, Repr

def State.putCmd (s : State) (l i : Nat) (c : Cmd) : State :=
  (s.wr32 (cmdAddr l i) c.val).wr32 (cmdAddr l i + 4)
    (BitVec.ofNat 32 (c.writer % 256 + (if c.valid then 0x100 else 0) + (if c.degraded then 0x200 else 0)
      + (if c.sat then 0x400 else 0) + 0x10000 * (c.tick16 % 65536)))

def State.cmd (s : State) (l i : Nat) : Cmd :=
  let w := (s.rd32 (cmdAddr l i + 4)).toNat
  ⟨s.rd32 (cmdAddr l i), w % 256, w / 256 % 2 == 1, w / 512 % 2 == 1, w / 1024 % 2 == 1, w / 65536⟩

/-! ## Claims, as far as recording needs them (R114) -/

def claimFld (l : Nat) : Fld := if l = 0 then fCLM_STATUS_CLAIM_A else fCLM_STATUS_CLAIM_B

/-- The lane that holds the higher claim, lane A while no claim is in force (R84, R114). -/
def topLane (s : State) : Nat := if s.get fCLM_STATUS_CLAIM_A < s.get fCLM_STATUS_CLAIM_B then 1 else 0

/-- An event that both lanes compute identically, recorded once for the module (R114); its one value stands in both
fields (log entry 7). -/
def State.ev1 (s : State) (l code src flags : Nat) (v : F16) : State :=
  if l = topLane s then s.evx code src flags v v else s

/-! ## Functions and their setpoints (R63–R67) -/

def State.fnSt (s : State) (f : Nat) : FnState := tabGet (fun _ => FnState.init) s.fn.fns f
def State.setFnSt (s : State) (f : Nat) (x : FnState) : State :=
  { s with fn := { s.fn with fns := tabSet (fun _ => FnState.init) s.fn.fns f x } }

/-- A binary32 register word. -/
def State.getF (s : State) (f : Fld) : F32 := s.rd f.addr

def State.putF (s : State) (f : Fld) (v : F32) : State := s.wr f.addr v

/-- The band of a function: max(MK_MIN, OP_MIN) to min(MK_MAX, OP_MAX) (R63). -/
def fnLo (s : State) (f : Nat) : F32 := f32Max (s.getF (fFUN_REC_MK_MIN f)) (s.getF (fFUN_REC_OP_MIN f))
def fnHi (s : State) (f : Nat) : F32 := f32Min (s.getF (fFUN_REC_MK_MAX f)) (s.getF (fFUN_REC_OP_MAX f))

/-- The requested setpoint clamped to the band (R63). -/
def fnClamp (s : State) (f : Nat) (req : F32) : F32 := f32Clamp req (fnLo s f) (fnHi s f)

/-- A new target: the request clamped to the band; a clamped one sets CLAMPED, `FUN_EVT.CLAMP` and records 0x3821
with the request, once for each new pair of request and target (R63, R86, log entry 8). -/
def setTarget (f : Nat) (req : F32) (s : State) : State :=
  let t := fnClamp s f req
  let old := s.getF (fFUN_REC_SP_TGT f)
  let clamped := t != f32Flush req
  let newPair := (s.fnSt f).req != req || old != t
  let s := s.setFnSt f { s.fnSt f with req := req, tgtTick := if old = t then (s.fnSt f).tgtTick else s.clk.tick }
  let s := (s.putF (fFUN_REC_SP_TGT f) t).putBit (fFUN_REC_CTL_CLAMPED f) clamped
  if clamped && newPair then (s.putBit fFUN_EVT_CLAMP true).evx 0x3821 (f + 1) 0 (f16OfF32 req) (f16OfF32 req) else s

/-- A request from a source, which becomes the function's setpoint source (R65). -/
def request (f src : Nat) (req : F32) (s : State) : State := setTarget f req (s.put (fFUN_REC_CTL_SP_SRC f) src)

/-- The function is enabled and its home is this module (R61, R64). -/
def fnHome (s : State) (f : Nat) : Bool :=
  s.bit (fFUN_REC_CTL_EN f) && s.get (fFUN_REC_CTL_HOME f) == s.straps.pos

/-- 50 µs as binary32 (R64, R94). -/
def f32Tick : F32 := 0x3851B717#32

/-- One tick of the ramp: the setpoint in force moves toward the target by at most RATE × 50 µs; a RATE of 0 is a
step; for F19 and F29 RATE is ignored and 0.5 or more counts as 1 (R64). -/
def rampStep (f : Nat) (rate cur tgt : F32) : F32 :=
  if f = 18 ∨ f = 28 then (if f32Le 0x3F000000#32 tgt then f32One else 0#32)
  else if f32IsZero rate then tgt
  else
    let d := f32Mul rate f32Tick
    if f32Le (f32Abs (f32Sub tgt cur)) d then tgt
    else if f32Lt cur tgt then f32Add cur d else f32Sub cur d

/-- Lane l moves the setpoint in force of a function at home here and writes it to SIG[768 + f]; the entry of any other
function has no writer (R64, R81, R82). -/
def rampFn (l f : Nat) (s : State) : State :=
  if !fnHome s f then s.noSig l (768 + f)
  else
    let tgt := s.getF (fFUN_REC_SP_TGT f)
    let v := rampStep f (s.getF (fFUN_REC_RATE f)) (s.sig l (768 + f)).val tgt
    let s := s.putNew l (768 + f)
      ⟨v, s.clk.tick - (s.fnSt f).tgtTick, true, s.bit (fFUN_REC_CTL_CLAMPED f), false⟩
    if l = topLane s then s.putF (fFUN_REC_SP_ACT f) v else s

end Sys2Proof.Machine
end

