-- ==== Sys2Proof/Machine/Inputs.lean ====
section
/-!
DEFINITION. The input front end (R68–R79): universal inputs, pairs, angle sources, loss inputs, crop-flow values and
the zero capture.
-/
namespace Sys2Proof.Machine

def State.uin (s : State) (n : Nat) : Uin := tabGet (fun _ => Uin.init) s.fn.uins n
def State.setUin (s : State) (n : Nat) (u : Uin) : State :=
  { s with fn := { s.fn with uins := tabSet (fun _ => Uin.init) s.fn.uins n u } }
def State.pair (s : State) (p : Nat) : UinPair := tabGet (fun _ => UinPair.init) s.fn.pairs p
def State.setPair (s : State) (p : Nat) (x : UinPair) : State :=
  { s with fn := { s.fn with pairs := tabSet (fun _ => UinPair.init) s.fn.pairs p x } }
def State.lossIn (s : State) (n : Nat) : LossIn := tabGet (fun _ => LossIn.init) s.fn.loss n
def State.setLossIn (s : State) (n : Nat) (x : LossIn) : State :=
  { s with fn := { s.fn with loss := tabSet (fun _ => LossIn.init) s.fn.loss n x } }

/-- 2^−k as binary32 (R68). -/
def pow2Neg (k : Nat) : F32 := BitVec.ofNat 32 ((127 - k) * 8388608)

/-- The first-order filter of an input: y + (x − y)·2^−k; with TAU = 0, y = x (R68). -/
def uinFilter (k : Nat) (y x : F32) : F32 := if k = 0 then x else f32Add y (f32Mul (f32Sub x y) (pow2Neg k))

/-- A value is out of the range of its mode (R68). -/
def uinOut (mode : Nat) (x : F32) : Bool :=
  if mode = 1 then f32Lt 0x40A80000#32 x                                -- V5: above 5.25 V
  else if mode = 2 then f32Lt 0x41280000#32 x                           -- V10: above 10.5 V
  else if mode = 3 then f32Lt x 0x40666666#32 || f32Lt 0x41A80000#32 x  -- MA20: below 3.6 mA, above 21.0 mA
  else if mode = 4 then f32Lt 0x463B8000#32 x || f32Lt x 0x40A00000#32  -- RES: above 12 kΩ, below 5 Ω
  else false

def uinMode (s : State) (n : Nat) : Nat := s.get (fFUN_UIN_CFG_MODE n)

/-- The latched fault bit of an input (R72). -/
def fUinFlt (n : Nat) : Fld := ⟨(if n < 32 then fFUN_UIN_FLT_LO else fFUN_UIN_FLT_HI).addr, n % 32, n % 32⟩

/-- An input fault: VALID = 0, the fault bit latched, 0x3800 recorded (R72). -/
def uinFail (n : Nat) (mn mx : F16) (s : State) : State :=
  let s := s.setUin n { s.uin n with fault := true, good := 0 }
  ((s.putBit (fUinFlt n) true).putBit fFUN_EVT_UIN_FLT true).evx 0x3800 n 0 mn mx

def isShuntOpen (s : State) (n : Nat) : Bool := s.fn.shuntOpen.any fun x => x.1 == n

/-- Above 25 mA the shunt of an MA20 input opens (R499). -/
def openShunt (n : Nat) (x : F32) (s : State) : State :=
  if uinMode s n = 3 ∧ f32Lt 0x41C80000#32 x = true ∧ isShuntOpen s n = false then
    { s with fn := { s.fn with shuntOpen := (n, s.clk.tick) :: s.fn.shuntOpen } }
  else s

/-- An input out of range fails (R72, R499). -/
def uinRange (n : Nat) (x : F32) (s : State) : State := uinFail n (f16OfF32 x) (f16OfF32 x) (openShunt n x s)

/-- An input out of range. -/
def execUinFault (n : Fin 48) (value : F32) (s : State) : Out :=
  if !uinOut (uinMode s n) value || (s.uin n).fault then .next s else .next (uinRange n value s)

/-- 400 consecutive ticks in range return VALID and record 0x3801; the latched bit stays set (R72). -/
def execUinFaultCleared (n : Fin 48) (s : State) : Out :=
  let u := s.uin n
  if u.fault && decide (400 ≤ u.good) then .next ((s.setUin n { u with fault := false, good := 0 }).ev 0x3801 n)
  else .next s

/-- The edges of input n are time-stamped: FREQ, and the pulse line of PULSE_IDX (R69). -/
def isPulse (m n : Nat) : Bool := m == 5 || (m == 7 && n % 2 == 0)

/-- No edge for TOUT × 0.1 s, that is TOUT × 2,000 ticks: the frequency is 0 Hz and VALID stays 1 (R69). -/
def execEdgeTimeout (n : Fin 48) (s : State) : Out :=
  let quiet := s.clk.tick * 20000 - ((s.uin n).edge.getD 0)
  if isPulse (uinMode s n) n && decide (40000000 * s.get (fFUN_UIN_CFG_TOUT n) ≤ quiet) then
    .next (s.setUin n { s.uin n with noEdge := true })
  else .next s

/-- Both lines change in one sample: VALID = 0 on both entries for that tick only, both fault bits latched, 0x3802
recorded; it is no input fault of R72 (R70). -/
def execQuadIllegalTransition (p : Fin 24) (s : State) : Out :=
  let a := 2 * p.val
  if uinMode s a ≠ 6 then .next s
  else
    let s := (s.setUin a { s.uin a with blind := true }).setUin (a + 1) { s.uin (a + 1) with blind := true }
    .next ((((s.putBit (fUinFlt a) true).putBit (fUinFlt (a + 1)) true).putBit fFUN_EVT_UIN_FLT true).ev 0x3802 p)

/-- The enabled angle source that names a pair (R70). -/
def angleOf (s : State) (p : Nat) : Option Nat :=
  (List.range 4).find? fun a => s.bit (fFUN_ANG_EN a) && s.get (fFUN_ANG_PAIR a) == p

/-- The number N of pulses between index edges that a pair expects (R70). -/
def indexN (s : State) (p : Nat) : Nat :=
  match angleOf s p with
  | some a => s.get (fFUN_ANG_PPR a)
  | none => if (s.pair p).idx < 2 then 32767 else (s.pair p).between

/-- The pair has counted 2 × N pulses without an index edge (R70). -/
def noIndex (s : State) (p : Nat) : Bool := decide (2 * indexN s p ≤ (s.pair p).pulses)

/-- 2 × N pulses without an index edge: an input fault on both entries of the pair; no value is out of range, and the
record carries none (R70, R72, R86, DESIGN CHOICE, log entry 121). -/
def execIndexMissing (p : Fin 24) (s : State) : Out :=
  let a := 2 * p.val
  if uinMode s a ≠ 7 ∨ noIndex s p = false ∨ ((s.uin a).fault ∧ (s.uin (a + 1)).fault) then .next s
  else .next (uinFail (a + 1) f16NaN f16NaN (uinFail a f16NaN f16NaN s))

/-- An index edge resets the zero of the angle; the entry of that tick carries FIRST (R71). -/
def execIndexEdge (p : Fin 24) (pulses : Nat) (s : State) : Out :=
  if uinMode s (2 * p.val) ≠ 7 then .next s
  else
    let x := s.pair p
    .next (s.setPair p { x with
      idx := x.idx + 1, between := x.pulses + (pulses - x.pre), pulses := 0, pre := pulses, first := true })

/-- The shunt of an MA20 input closes again 1 s after it opened (R499). -/
def execMa20ShuntReclose (n : Fin 48) (s : State) : Out :=
  let due (x : Nat × Nat) : Bool := x.1 == n.val && decide (x.2 + 20000 ≤ s.clk.tick)
  .next { s with fn := { s.fn with shuntOpen := s.fn.shuntOpen.filter fun x => !due x } }

/-- What input n presents at T. -/
def uinIn (inp : TickIn) (n : Nat) : UinSample := inp.uin.getD n ⟨[], [], 0⟩

/-- The mode and filter of input n at T: at the boundary of a change still the old ones (R73). -/
def uinNow (s : State) (n : Nat) : Nat × Nat :=
  if (s.uin n).chg = 1 then (s.uin n).old else (uinMode s n, s.get (fFUN_UIN_CFG_TAU n))

/-- The pair's counts and pulses of the past tick are added; a change of mode starts the pair again with the first tick
of the new mode (R70, R71, R73). -/
def latchPair (inp : TickIn) (p : Nat) (s : State) : State :=
  let u := s.uin (2 * p)
  let m := (uinNow s (2 * p)).1
  let d := uinIn inp (2 * p)
  let x := if u.chg = 2 ∧ u.old.1 ≠ m then UinPair.init else s.pair p
  if m = 6 then
    let newZero := x.zero.isNone && d.delta != 0
    s.setPair p { x with
      count := x.count + d.delta, first := x.first || newZero
      zero := if newZero then some (if d.delta > 0 then 1 else -1) else x.zero }
  else if m = 7 then s.setPair p { x with pulses := x.pulses + (d.edges.length - x.pre), pre := 0 }
  else s.setPair p UinPair.init

/-- The count entry of the odd member of a pair: the QUAD count or the index pulses, modulo 2^24 (R70). -/
def pairEntry (s : State) (m n : Nat) : F32 :=
  let x := s.pair (n / 2)
  if m = 6 then f32OfNat (x.count % 16777216).toNat else f32OfNat (x.idx % 16777216)

/-- The odd member of a pair in QUAD or PULSE_IDX carries a count, which the filter never acts on (R68, R70). -/
def isCount (m n : Nat) : Bool := n % 2 == 1 && (m == 6 || m == 7)

/-- The mean of the eight samples of a tick, added in their order (R68, DESIGN CHOICE, log entry 117). -/
def meanOf8 (l : List F32) : F32 := f32Mul (((List.range 8).map fun k => l.getD k 0#32).foldl f32Add 0#32) 0x3E000000#32

/-- The edges of the past tick: the last one, and the length of the last complete period (R69). -/
def edgeState (t : Nat) (l : List (Fin 20000)) (u : Uin) : Uin :=
  l.foldl (fun x c =>
    let a := 20000 * (t - 1) + c.val
    { x with edge := some a, per := match x.edge with | some e => a - e | none => x.per }) u

/-- The frequency over the n complete periods that ended in the past tick, in Hz: n over their time. Without one it is
that of the last complete period, and 0 Hz before the first and while no edge arrives (R69, DESIGN CHOICE, log entry 117). -/
def edgeFreq (u v : Uin) (l : List (Fin 20000)) (t : Nat) : F32 :=
  let n := if u.edge.isSome then l.length else l.length - 1
  let from0 := match u.edge, l with
    | some e, _ => e
    | none, c :: _ => 20000 * (t - 1) + c.val
    | none, [] => 0
  let dur := v.edge.getD 0 - from0
  if u.noEdge && l.isEmpty then 0#32
  else if n ≠ 0 ∧ dur ≠ 0 then f32OfRatio false (n * 400000000) dur
  else if v.per = 0 then 0#32
  else f32OfRatio false 400000000 v.per

/-- The unfiltered value of input n in mode m at T, and the input with its edges taken (R68–R70). QUAD gives the counts
of the past tick as counts per second. -/
def uinRaw (inp : TickIn) (m n : Nat) (s : State) : F32 × Uin :=
  let u := s.uin n
  let d := uinIn inp n
  if isCount m n then (pairEntry s m n, u)
  else if isPulse m n then
    let v := { edgeState s.clk.tick d.edges u with noEdge := u.noEdge && d.edges.isEmpty }
    (edgeFreq u v d.edges s.clk.tick, v)
  else if m = 6 then (f32OfInt (20000 * d.delta), u)
  else (meanOf8 d.adc, u)

/-- An input that is OFF: 0, not VALID (R68). -/
def latchOff (n : Nat) (s : State) : State :=
  let u := s.uin n
  let s := (s.putSigs n ⟨0#32, 0, false, false, false⟩).setUin n { Uin.init with
    chg := if u.chg = 1 then 2 else 0, old := u.old }
  s.putF (fFUN_UIN_VAL n) 0#32

/-- The boundary of a mode or filter change: the value is the old mode's and is not VALID (R73). -/
def latchChanged (inp : TickIn) (n : Nat) (s : State) : State :=
  let u := s.uin n
  let (x, _) := uinRaw inp u.old.1 n s
  let y := if isCount u.old.1 n || !u.seeded then x else uinFilter u.old.2 u.y x
  let s := (s.putSigs n ⟨y, u.age + 1, false, false, false⟩).setUin n { Uin.init with chg := 2, old := u.old }
  s.putF (fFUN_UIN_VAL n) y

/-- Input n in a mode at T: the value of the past tick through the filter; the first value of a mode carries FIRST and
seeds the filter; a faulty input holds its last valid sample and its age (R68, R72, R73). The limits are tested on the
unfiltered value (DESIGN CHOICE, log entry 118). -/
def latchRunning (inp : TickIn) (n : Nat) (s : State) : State :=
  let m := uinMode s n
  let (x, v) := uinRaw inp m n s
  let s := s.setUin n v
  let s := if uinOut m x then (if v.fault then openShunt n x s else uinRange n x s) else s
  let u := s.uin n
  let bad := uinOut m x || (m == 3 && isShuntOpen s n) || (m == 7 && noIndex s (n / 2))
  let first := u.chg == 2 || !u.seeded
  let y := if first || isCount m n then x else uinFilter (s.get (fFUN_UIN_CFG_TAU n)) u.y x
  let s :=
    if u.fault then
      let y := if first then x else u.y
      (s.putSigs n ⟨y, u.age + 1, false, false, first⟩).setUin n
        { u with y := y, seeded := true, chg := 0, age := u.age + 1, good := if bad then 0 else u.good + 1, blind := false }
    else
      (s.putSigs n ⟨y, 0, !u.blind, false, first⟩).setUin n
        { u with y := y, seeded := true, age := 0, blind := false, chg := 0 }
  s.putF (fFUN_UIN_VAL n) (s.uin n).y

/-- Input n at T; FUN_UIN_VAL shows the value of its entry (R68–R73, R83). -/
def latchUin (inp : TickIn) (n : Nat) (s : State) : State :=
  let m := (uinNow s n).1
  if m = 0 ∨ 8 ≤ m then latchOff n s
  else if (s.uin n).chg = 1 then latchChanged inp n s
  else latchRunning inp n s

/-- The angle of a source from its pair, and whether it has a zero (R71). -/
def angleVal (kind ppr : Nat) (x : UinPair) : F32 × Bool :=
  if kind = 0 then
    match x.zero with
    | some z => (f32Div (f32OfNat ((x.count - z) % (4 * ppr)).toNat) (f32OfNat (4 * ppr)), true)
    | none => (0#32, false)
  else if x.idx = 0 then (0#32, false)
  else (f32Div (f32OfNat (min x.pulses (ppr - 1))) (f32OfNat ppr), true)

/-- The angle entry SIG[48 + a] (R71). While the pair's input is faulty or its entry is not VALID the angle holds its
last value and is not VALID (DESIGN CHOICE, log entry 119). -/
def latchAngle (a : Nat) (s : State) : State :=
  let p := s.get (fFUN_ANG_PAIR a)
  let x := s.pair p
  let ppr := s.get (fFUN_ANG_PPR a)
  let ok := !(s.uin (2 * p)).fault && (s.sig 0 (2 * p)).valid && ppr != 0
  if !s.bit (fFUN_ANG_EN a) then s.putSigs (48 + a) ⟨0#32, 0, false, false, false⟩
  else
    let v := angleVal (s.get (fFUN_ANG_KIND a)) ppr x
    let w := if v.2 && !ok then (s.sig (topLane s) (48 + a)).val else v.1
    s.putSigs (48 + a) ⟨w, 0, v.2 && ok, false, x.first⟩

/-- The mark of a set or reset zero stands for one T (R71). -/
def clearFirst (p : Nat) (s : State) : State := s.setPair p { s.pair p with first := false }

/-- SIG[144], the grain mass flow, above 2 kg/s (R76). -/
def flowHigh (s : State) : Bool := let g := s.sig (topLane s) 144; g.valid && f32Lt 0x40000000#32 g.val

/-- A loss input at T: the KERNEL count of the past tick and the filtered rate; a silent sensor is not VALID (R75,
R76). -/
def latchLoss (n : Nat) (s : State) : State :=
  let x := s.lossIn n
  if !s.bit (fFUN_LOSS_CFG_EN n) then
    (s.putSigs (96 + n) ⟨0#32, 0, false, false, false⟩).putSigs (112 + n) ⟨0#32, 0, false, false, false⟩
  else
    let r := f32OfNat (x.kern * 20000)
    let k := s.get (fFUN_GRP_TAU (s.get (fFUN_LOSS_CFG_GROUP n)))
    let y := if x.seeded then uinFilter k x.rate r else r
    let quiet := if x.kern = 0 && flowHigh s then x.quiet + 1 else 0
    let s := s.setLossIn n ⟨0, y, true, quiet, x.silent⟩
    let s := s.putNews (96 + n) ⟨y, 0, !x.silent, false, false⟩
    (s.putNews (112 + n) ⟨f32OfNat x.kern, 0, !x.silent, false, false⟩).putF (fFUN_LOSS_RATE n) y

/-- A loss input sees an impact: classed KERNEL, OTHER or SATURATED and counted in the tick of its peak; a start
inside the dead time is ignored (R74, R75). -/
def execLossImpact (n : Fin 16) (peak rise gap : Nat) (s : State) : Out :=
  let aMin := 128 * s.get (fFUN_LOSS_CFG_A_MIN n)
  let aMax := 128 * s.get (fFUN_LOSS_CFG_A_MAX n)
  if !s.bit (fFUN_LOSS_CFG_EN n) ∨ gap < s.get (fFUN_LOSS_CFG_DEAD n) ∨ 2 * peak ≤ aMin then .next s
  else if 32768 ≤ peak then
    let v := f16OfRatio false peak 32768
    .next ((s.inc (fFUN_LOSS_OTHER n)).evx 0x3810 n 0 v v)
  else if aMin ≤ peak ∧ peak ≤ aMax ∧ rise ≤ s.get (fFUN_LOSS_CFG_RISE_MAX n) then
    let x := s.lossIn n
    .next ((s.setLossIn n { x with kern := x.kern + 1, quiet := 0, silent := false }).inc (fFUN_LOSS_TOTAL n))
  else .next (s.inc (fFUN_LOSS_OTHER n))

/-- 60 s without a KERNEL impact at a grain flow above 2 kg/s: the sensor is silent (R76). -/
def execLossSilent (n : Fin 16) (s : State) : Out :=
  let x := s.lossIn n
  if !s.bit (fFUN_LOSS_CFG_EN n) ∨ x.quiet < 1200000 ∨ x.silent then .next s
  else
    let v := f16OfF32 (s.sig (topLane s) 144).val
    let s := s.setLossIn n { x with silent := true }
    let off (i : Nat) (l : Nat) (t : State) : State := t.putSig l i { t.sig l i with valid := false }
    let s := forUp 2 (off (112 + n)) (forUp 2 (off (96 + n)) s)
    .next ((((s.setBitAt fFUN_LOSS_FLT_FLT n true).putBit fFUN_EVT_LOSS_FLT true)).evx 0x3811 n 0 v v)

/-! ## Derived entries (R77, R78) -/

/-- The enabled members of a loss group (R77). -/
def grpMembers (s : State) (g : Nat) : List Nat :=
  (List.range 16).filter fun n =>
    s.bit (fFUN_LOSS_CFG_EN n) && s.bit (fFUN_LOSS_CFG_IN_GRP n) && s.get (fFUN_LOSS_CFG_GROUP n) == g

/-- The group rate SIG[132 + g] and the loss index SIG[128 + g] in lane l (R77). -/
def deriveGroup (l g : Nat) (s : State) : State :=
  if !s.bit (fFUN_GRP_EN g) then
    (s.putSig l (128 + g) ⟨0#32, 0, false, false, false⟩).putSig l (132 + g) ⟨0#32, 0, false, false, false⟩
  else
    let ms := grpMembers s g
    let sigs := ms.map fun n => s.sig l (96 + n)
    let flow := s.sig l 144
    let rate := sigs.foldl (fun a x => f32Add a x.val) 0#32
    let valid := sigs.all fun x => x.valid
    let age := sigs.foldl (fun a x => max a x.age) 0
    let mass := f32Div (f32Mul (f32Mul rate (s.getF (fFUN_GRP_COVER g))) (s.getF (fFUN_GRP_KMASS g))) 0x447A0000#32
    let gps := f32Mul flow.val 0x447A0000#32
    let s := s.putNew l (132 + g) ⟨rate, age, valid, false, false⟩
    if f32Lt gps 0x43FA0000#32 || !valid || !flow.valid then
      s.putSig l (128 + g) { s.sig l (128 + g) with age := max age flow.age, valid := false }
    else
      let idx := f32Mul (f32Div mass gps) 0x461C4000#32
      let s := s.putNew l (128 + g) ⟨idx, max age flow.age, true, false, false⟩
      if l = topLane s then s.putF (fFUN_GRP_IDX g) idx else s

/-- A crop-flow source input of `FUN_CROP_SRC`; 0x3F names none (R78). -/
def cropSrc (s : State) (l : Nat) (f : Fld) : Option Sig := if s.get f < 48 then some (s.sig l (s.get f)) else none

/-- SIG[144]: `FUN_FLOW_K` × (elevator input − `FUN_FLOW_ZERO`), floored at 0 (R78). -/
def grainFlow (s : State) (x : F32) : F32 :=
  f32Max (f32Mul (s.getF fFUN_FLOW_K) (f32Sub x (s.getF fFUN_FLOW_ZERO))) 0#32

/-- The calibration curve of the moisture input; the spec gives its 8 points and no interpolation (R78, log entry
4). -/
def moisture (s : State) (x : F32) : F32 :=
  Config.realFn 1 (x :: s.fn.cal.moist.flatMap fun p => [p.1, p.2])

/-- One derived crop-flow entry, left alone where Ecnil wrote it because its source lies on another module (R82). -/
def deriveOne (l e : Nat) (v : Option Sig) (s : State) : State :=
  if (s.ecn.rx.any fun r => r.1 == e) then s
  else match v with
    | some g => s.putNew l e g
    | none => s.putSig l e ⟨0#32, 0, false, false, false⟩

/-- SIG[144..149] in lane l (R78). The measured value of F26 stands for SIG[148] while F26 is enabled and its home is
this module; otherwise the entry has no source here (DESIGN CHOICE, log entry 120). -/
def deriveCrop (raised : Bool) (l : Nat) (s : State) : State :=
  let c := s.fn.cal
  let lin (k o : F32) (x : Sig) : Sig := { x with val := f32Add (f32Mul k x.val) o, clamped := false, first := false }
  let s := deriveOne l 144 ((cropSrc s l fFUN_CROP_SRC_FLOW).map fun x =>
    { x with val := grainFlow s x.val, clamped := false, first := false }) s
  let s := deriveOne l 145 ((cropSrc s l fFUN_CROP_SRC_MOIST).map fun x =>
    { x with val := moisture s x.val, clamped := false, first := false }) s
  let s := deriveOne l 146 ((cropSrc s l fFUN_CROP_SRC_TORQ).map (lin c.torqK c.torqOfs)) s
  let s := deriveOne l 147 ((cropSrc s l fFUN_CROP_SRC_TAIL).map (lin c.tailK c.tailOfs)) s
  let v26 := s.sig l (s.get (fFUN_REC_MEAS_SIG 25))
  let s := deriveOne l 148 (if !fnHome s 25 then none
    else some ⟨if raised then 0#32 else f32Mul v26.val (s.getF fFUN_CUT_W), v26.age, v26.valid, false, false⟩) s
  let m := s.sig l 144
  let a := s.sig l 148
  let ok := m.valid && a.valid && f32Le f32One a.val
  deriveOne l 149 (some ⟨if ok then f32Div (f32Mul 0x41200000#32 m.val) a.val else (s.sig l 149).val,
    max m.age a.age, ok, false, false⟩) s

/-! ## Zero capture (R79) and locks (R66) -/

/-- FUN_CTL.FLOW_ZERO starts a zero capture of 400 ticks; a write during one is ignored (R79). -/
def execFlowZero (req : Req) (s : State) : Out :=
  if reqIsOem req || s.bit fFUN_STATUS_ZERO_BUSY then .next s
  else .next { s.putBit fFUN_STATUS_ZERO_BUSY true with fn := { s.fn with zeroTicks := 0, zeroSum := 0#32, zeroBad := false } }

/-- One tick of a running capture (R79). -/
def zeroTick (s : State) : State :=
  if !s.bit fFUN_STATUS_ZERO_BUSY || decide (400 ≤ s.fn.zeroTicks) then s
  else
    let g := (cropSrc s (topLane s) fFUN_CROP_SRC_FLOW).getD ⟨0#32, 0, false, false, false⟩
    { s with fn := { s.fn with zeroTicks := s.fn.zeroTicks + 1, zeroSum := f32Add s.fn.zeroSum g.val,
                               zeroBad := s.fn.zeroBad || !g.valid } }

/-- The capture ends: SERVED, with the average as the new zero, when the flow over it is below 10 % of full scale;
REFUSED otherwise, the zero unchanged (R79). -/
def execFlowZeroDone (s : State) : Out :=
  if !s.bit fFUN_STATUS_ZERO_BUSY ∨ s.fn.zeroTicks < 400 then .next s
  else
    let avg := f32Div s.fn.zeroSum (f32OfNat 400)
    let flow := grainFlow s avg
    let s := (s.putBit fFUN_STATUS_ZERO_BUSY false).putBit fFUN_EVT_ZERO_DONE true
    if !s.fn.zeroBad && f32Lt flow (f32Mul 0x3DCCCCCD#32 (s.getF fFUN_FLOW_FS)) then
      .next (((s.put fFUN_STATUS_ZERO_RES 1).putF fFUN_FLOW_ZERO avg).evx 0x3823 0 0 (f16OfF32 avg) (f16OfF32 avg))
    else .next ((s.put fFUN_STATUS_ZERO_RES 2).evx 0x3822 0 0 (f16OfF32 flow) (f16OfF32 flow))

def lockBits (b : Nat) (s : State) : State :=
  { s with fn := { s.fn with lockSet := s.fn.lockSet ||| b, lockClr := s.fn.lockClr &&& (b ^^^ (2 ^ 30 - 1)) } }
def unlockBits (b : Nat) (s : State) : State :=
  { s with fn := { s.fn with lockClr := s.fn.lockClr ||| b, lockSet := s.fn.lockSet &&& (b ^^^ (2 ^ 30 - 1)) } }

/-- FUN_LOCK_SET: a 1 requests the lock at the next frame boundary; the later of two writes wins (R66). -/
def execLockRequest (req : Req) (bits : Word) (s : State) : Out :=
  if reqIsOem req then .next s
  else
    let b := bits.toNat % 2 ^ 30
    let s := lockBits b s
    .next { s with fn := { s.fn with opLocks := s.fn.opLocks ||| b } }

/-- FUN_LOCK_CLR: a 1 requests the unlock at the next frame boundary; the later of two writes wins (R66). -/
def execUnlockRequest (req : Req) (bits : Word) (s : State) : Out :=
  if reqIsOem req then .next s
  else
    let b := bits.toNat % 2 ^ 30
    let s := unlockBits b s
    .next { s with fn := { s.fn with opLocks := s.fn.opLocks &&& (b ^^^ (2 ^ 30 - 1)) } }

/-- The lock of one function changes at a frame boundary and records 0x3820 (R66, R84). -/
def applyLock (f : Nat) (s : State) : State :=
  let want := if s.fn.lockSet.testBit f then some true else if s.fn.lockClr.testBit f then some false else none
  match want with
  | none => s
  | some b =>
    if s.bitAt fFUN_LOCK_LOCK f = b then s
    else
      let s := ((s.setBitAt fFUN_LOCK_LOCK f b).putBit (fFUN_REC_CTL_LOCK f) b).putBit fFUN_EVT_LOCK_CHG true
      s.ev 0x3820 (f + 1) (if b then 1 else 0)

/-- Requested locks and unlocks take effect with the first action of R23 (R66). -/
def applyLocks (s : State) : State :=
  let s := forUp 30 applyLock s
  { s with fn := { s.fn with lockSet := 0, lockClr := 0 } }

end Sys2Proof.Machine
end

