-- ==== Sys2Proof/Machine/Mailbox.lean ====
section
/-!
DEFINITION. The lane mailboxes (R17–R19): the application cluster fills the inactive buffer, and the lanes swap at T.
-/
namespace Sys2Proof.Machine

def mailVal0 (_ : Nat) : MailVal := MailVal.init

/-- A value placed in the inactive buffer; an entry that the configuration does not assign to the mailbox stays as it
is (R17, R81). -/
def mailPut (e : Nat) (v : F32) (valid : Bool) (tick : Nat) (s : State) : State :=
  if !s.mail.dests.contains e then s
  else { s with mail := { s.mail with buf := tabSet mailVal0 s.mail.buf e ⟨v, valid, tick⟩, ready := true } }

/-- The application cluster, where it runs, fills the inactive buffer and then sets its ready flag (R18, R33). -/
def execMailboxPost (values : List (Nat × F32 × Bool × Nat)) (s : State) : Out :=
  if !appOn s then .next s else .next (forAll values (fun x t => mailPut x.1 x.2.1 x.2.2.1 x.2.2.2 t) s)

/-- At T the lanes swap a ready buffer and copy its contents (R18). -/
def mailSwap (s : State) : State :=
  if !s.mail.ready then s
  else
    let copy := s.mail.buf.foldl (fun c x => tabSet mailVal0 c x.1 x.2) s.mail.copy
    { s with mail := { s.mail with buf := [], ready := false, copy := copy } }

/-- The mailbox entries of lane l's signal table, each with its age (R19, R82). -/
def fillMail (l : Nat) (s : State) : State :=
  forAll s.mail.copy (fun x t => t.putNew l x.1 ⟨x.2.val, s.clk.tick - x.2.tick, x.2.valid, false, false⟩) s

end Sys2Proof.Machine
end

