-- ==== Sys2Proof/Machine/Isp.lean ====
section
/-!
DEFINITION. The stages of a camera pipeline (R243, R244, R247): from a raw Bayer frame to the processed image, the
histogram, the zone sums and the classed blocks. Where the spec names a computation without its arithmetic (an
interpolation, a rounding, a filter), its value is the opaque `Config.estimator` applied to exactly the pixels and
parameters that it may depend on (log entry 137).
-/
namespace Sys2Proof.Machine

/-- A plane of pixels, line by line. -/
abbrev Plane := List (List Nat)

def px (p : Plane) (y x : Nat) : Nat := (p.getD y []).getD x 0

/-- Each pixel of a plane from its line, its column and its value. -/
def mapPx (p : Plane) (f : Nat → Nat → Nat → Nat) : Plane :=
  (List.range p.length).map fun y => (List.range (p.getD y []).length).map fun x => f y x (px p y x)

/-- An image computation whose arithmetic the spec leaves open. -/
def ispFn (tag : Nat) (args : List Nat) : Nat := (Config.estimator tag 0 (args.map (BitVec.ofNat 32))).toNat

/-- The Bayer channel of a pixel: R, Gr, Gb, B (PRESUMED: R at the origin, log entry 137). -/
def bayer (y x : Nat) : Nat := 2 * (y % 2) + x % 2

/-- The 5 × 5 neighbourhood of a pixel, each value + 1, 0 where it lies outside the frame. -/
def around (p : Plane) (y x : Nat) : List Nat :=
  (List.range 5).flatMap fun i => (List.range 5).map fun j =>
    if 2 ≤ y + i ∧ 2 ≤ x + j ∧ y + i - 2 < p.length ∧ x + j - 2 < (p.getD (y + i - 2) []).length then
      px p (y + i - 2) (x + j - 2) + 1 else 0

/-- The parameters in force for a frame (R245): the active words ISP_SH_EXP to ISP_SH_ROI, the colour matrix and the
grain class table, and the tables that only the image holds. -/
structure IspPar where
  sh : List Word
  mat : List Word
  cls : List Word
  cal : CamCal
  deriving DecidableEq, Repr

def IspPar.word (p : IspPar) (k : Nat) : Word := p.sh.getD k 0#32

/-- Stage 1: the level of the channel is subtracted, and the result clamped at 0. -/
def ispBlack (p : IspPar) (i : Plane) : Plane := mapPx i fun y x v => v - (p.word (1 + bayer y x)).toNat % 4096

/-- The four nearest pixels of the same colour; none at the border of the frame. -/
def sameColour (i : Plane) (y x : Nat) : Option (List Nat) :=
  if 2 ≤ y ∧ 2 ≤ x ∧ y + 2 < i.length ∧ x + 2 < (i.getD y []).length then
    some [px i (y - 2) x, px i (y + 2) x, px i y (x - 2), px i y (x + 2)]
  else none

/-- The mean of four neighbours; its rounding is open. -/
def mean4 (l : List Nat) : Nat := if l.sum % 4 = 0 then l.sum / 4 else ispFn 40 [l.sum]

/-- Stage 2: a pixel of the static map, and one that differs from all four neighbours by more than THR, takes their mean;
a THR of 0 leaves the static map only. What the border takes, where neighbours are missing, is open. -/
def ispDefect (p : IspPar) (i : Plane) : Plane :=
  let w := (p.word 5).toNat
  let thr := w / 2 % 4096
  if w % 2 = 0 then i
  else mapPx i fun y x v =>
    let fixed := p.cal.dpc.contains (x, y)
    match sameColour i y x with
    | some l =>
      let far := thr != 0 && l.all fun u => decide (thr < (Int.ofNat v - Int.ofNat u).natAbs)
      if fixed || far then mean4 l else v
    | none => if fixed || thr != 0 then ispFn 41 ([if fixed then 1 else 0, thr, v] ++ around i y x) else v

/-- Stage 3: the gain of a grid of 33 × 21 points of the channel, interpolated bilinearly; the arithmetic is open. -/
def ispShading (p : IspPar) (i : Plane) : Plane :=
  if (p.word 6).toNat % 2 = 0 then i
  else mapPx i fun y x v =>
    let h := i.length
    let w := (i.getD y []).length
    let g (r c : Nat) : Nat := p.cal.lsc.getD (693 * bayer y x + 33 * r + c) 0
    let r := 20 * y / h
    let c := 32 * x / w
    ispFn 42 [v, g r c, g r (c + 1), g (r + 1) c, g (r + 1) (c + 1), 20 * y % h, h, 32 * x % w, w]

/-- The raw frame after corrections 1 to 3, where tap A stands. -/
def ispTapA (p : IspPar) (i : Plane) : Plane := ispShading p (ispDefect p (ispBlack p i))

/-- Tap A: the luminance of the cell of four Bayer pixels that a pixel stands in decides its bin; how luminance is formed
is open. -/
def ispHist (i : Plane) : List Nat :=
  let bins := ((List.range i.length).flatMap fun y => (List.range (i.getD y []).length).map fun x =>
    let a := y - y % 2
    let b := x - x % 2
    ispFn 43 [px i a b, px i a (b + 1), px i (a + 1) b, px i (a + 1) (b + 1)] % 256)
  (List.range 256).map fun k => (bins.filter fun b => b == k).length

/-- Tap A: the sums of R, G and B in 16 × 10 zones, zone by zone in lines (their order is the model's, log entry 137). -/
def ispZones (i : Plane) : List Nat :=
  (List.range 160).flatMap fun z => (List.range 3).map fun c =>
    let rows := (List.range i.length).filter fun y => 10 * y / i.length == z / 16
    (rows.flatMap fun y =>
      let w := (i.getD y []).length
      ((List.range w).filter fun x => 16 * x / w == z % 16 && (bayer y x + 1) / 2 == c).map fun x => px i y x).sum

/-- Stage 4: full RGB, of which the pixel's own colour stays, and the 3 × 3 colour matrix; the interpolation and the
rounding of the products are open. -/
def ispDemosaic (p : IspPar) (i : Plane) : List Plane :=
  let full : List Plane := (List.range 3).map fun c => mapPx i fun y x v =>
    if (bayer y x + 1) / 2 = c then v else ispFn 44 ([c, bayer y x] ++ around i y x)
  (List.range 3).map fun c => mapPx i fun y x _ =>
    ispFn 45 (((List.range 3).map fun k => (p.mat.getD (3 * c + k) 0#32).toNat) ++ full.map fun q => px q y x)

/-- Stage 5: the edge-preserving 5 × 5 filter; strength 0 is off. -/
def ispNoise (p : IspPar) (c : List Plane) : List Plane :=
  let str := (p.word 7).toNat % 16
  if str = 0 then c else c.map fun q => mapPx q fun y x _ => ispFn 46 (str :: around q y x)

/-- Stage 6: one of four curves, into 8 bits; the form of a curve is open. -/
def ispTone (p : IspPar) (c : List Plane) : List Plane :=
  let curve := p.cal.curves.getD ((p.word 8).toNat % 4) []
  c.map fun q => mapPx q fun _ _ v => ispFn 47 (v :: curve) % 256

/-- Stage 7: the remap table names for each pixel the place it comes from, in units of 1/16 pixel; the interpolation is
open. -/
def ispRemap (p : IspPar) (c : List Plane) : List Plane :=
  if (p.word 9).toNat % 2 = 0 then c
  else c.map fun q => mapPx q fun y x _ =>
    let m := p.cal.remap.getD (y * (q.getD y []).length + x) (16 * x, 16 * y)
    let a := m.2 / 16
    let b := m.1 / 16
    ispFn 48 [m.1 % 16, m.2 % 16, px q a b, px q a (b + 1), px q (a + 1) b, px q (a + 1) (b + 1)] % 256

/-- Stages 4 and 5, where tap B stands. -/
def ispTapB (p : IspPar) (i : Plane) : List Plane := ispNoise p (ispDemosaic p (ispTapA p i))

/-- The processed image in YUV 4:2:0, 8 bits per sample: the plane Y, then U and V with a sample for each 2 × 2 pixels
(the conversion is open, the order of the planes the model's, log entry 137). -/
def ispImage (p : IspPar) (i : Plane) : List Byte :=
  let c := ispRemap p (ispTone p (ispTapB p i))
  let rgb (y x : Nat) : List Nat := c.map fun q => px q y x
  let h := i.length
  let w := (i.getD 0 []).length
  let luma := (List.range h).flatMap fun y => (List.range w).map fun x => BitVec.ofNat 8 (ispFn 49 (0 :: rgb y x))
  let chroma (k : Nat) : List Byte := (List.range (h / 2)).flatMap fun y => (List.range (w / 2)).map fun x =>
    BitVec.ofNat 8 (ispFn 49 (k :: rgb (2 * y) (2 * x) ++ rgb (2 * y) (2 * x + 1) ++ rgb (2 * y + 1) (2 * x)
      ++ rgb (2 * y + 1) (2 * x + 1)))
  luma ++ chroma 1 ++ chroma 2

/-- Tap B: the class of a block of 16 × 16 pixels, 0 WHOLE, 1 BROKEN, 2 MOG, 3 EMPTY, from its mean colour and edge density
by the class table; edge density and the form of the table are open (R247). -/
def blockClass (p : IspPar) (c : List Plane) (y0 x0 : Nat) : Nat :=
  let cells (q : Plane) : List Nat := (List.range 16).flatMap fun y => (List.range 16).map fun x => px q (16 * y0 + y) (16 * x0 + x)
  let edge := ispFn 50 (c.flatMap cells)
  ispFn 51 (edge :: (c.map fun q => (cells q).sum) ++ p.cls.map BitVec.toNat) % 4

/-- The blocks of ISP_SH_ROI that fall into a class (R247). -/
def ispBlocks (p : IspPar) (i : Plane) (k : Nat) : Nat :=
  let r := (p.word 10).toNat
  let c := ispTapB p i
  (((List.range (r / 2 ^ 24 % 128)).flatMap fun y => (List.range (r / 2 ^ 16 % 128)).map fun x =>
    blockClass p c (r / 2 ^ 8 % 128 + y) (r % 128 + x)).filter fun v => v == k).length

end Sys2Proof.Machine
end

