-- ==== Sys2Proof/Machine/Camera.lean ====
section
/-!
DEFINITION. The camera pipelines (R237–R252). They run on an FYH7-A that is the manager, in OPEN (R14, R249);
elsewhere their commands do nothing. The place of a pipeline's ring inside its DRAM range is the model's (log entry
11).
-/
namespace Sys2Proof.Machine

def State.pipe (s : State) (n : Nat) : Pipe := tabGet (fun _ => Pipe.init) s.isp.pipes n
def State.setPipe (s : State) (n : Nat) (x : Pipe) : State :=
  { s with isp := { s.isp with pipes := tabSet (fun _ => Pipe.init) s.isp.pipes n x } }

/-- The ISP domain runs. -/
def ispOn (s : State) : Bool := s.wide && s.isp.on

/-- The pipeline is in use. -/
def pipeOn (s : State) (n : Nat) : Bool := ispOn s && s.bit (fISP_PORT_CFG_EN n)

/-- gPTP time at a cycle of a tick, ns: tick time on the PTP epoch (R240). -/
def gptpNs (s : State) (tick cycle : Nat) : Int :=
  315964819 * 1000000000 + s.isp.tbase0 + tick * 50000 + (cycle * 5 / 2 : Nat)

/-- The exposure of a frame less the gPTP time of its boundary, ns (R242). -/
def frameSkew (s : State) (i : StreamIn) : Int := i.ts - i.readout - gptpNs s (400 * i.frame) 0

/-- EXP_DIV of a pipeline: 1, 2 or 5 (R241). -/
def expDiv (s : State) (n : Nat) : Nat :=
  match s.get (fISP_PORT_CFG_EXP_DIV n) with
  | 0 => 1
  | 1 => 2
  | _ => 5

def setPort (n p : Nat) (s : State) : State :=
  if s.get (fISP_STATUS_PORT n) = p then s
  else (s.put (fISP_STATUS_PORT n) p).putBit (fISP_EVT_LINK n) true

/-! ## The ring in DRAM (R244, log entry 11) -/

def ringBase (n : Nat) : Nat := 0x140000000 + 0x4000000 * n
def imageAddr (n frame : Nat) : Nat := ringBase n + 0x400000 * (frame % 8)
def statsAddr (n frame : Nat) : Nat := ringBase n + 0x2000000 + 0x1000 * (frame % 8)

def State.wr64 (s : State) (a v : Nat) : State :=
  (s.wr32 a (BitVec.ofNat 32 v)).wr32 (a + 4) (BitVec.ofNat 32 (v / 4294967296))

/-- The head of a statistics record. -/
def statsHead (n frame flags gen : Nat) (time : Int) (s : State) : State :=
  let a := statsAddr n frame
  let s := ((s.wr64 a frame).wr64 (a + 8) (400 * frame)).wr64 (a + 0x10) ((time % 18446744073709551616).toNat)
  (s.wr32 (a + 0x18) (BitVec.ofNat 32 gen)).wr32 (a + 0x1C) (BitVec.ofNat 32 flags)

/-- A frame that is dropped or never arrives leaves a record with VALID = 0 (R244). -/
def statsInvalid (n : Nat) (f : CamFrame) (s : State) : State := statsHead n f.frame 0 f.gen f.time s

/-- Frames that never arrived before frame `n0`: their records are written and they leave the list. -/
def flushFrames (n n0 : Nat) (s : State) : State :=
  let p := s.pipe n
  let gone := p.frames.filter fun f => !f.arrived && decide (f.frame < n0)
  let s := forAll gone (statsInvalid n) s
  s.setPipe n { p with frames := p.frames.filter fun f => f.arrived || decide (n0 ≤ f.frame) }

/-! ## Frames (R238, R239, R242) -/

/-- The first test of R238 that a stream frame fails, 0 when it is accepted. -/
def streamFault (s : State) (n : Nat) (i : StreamIn) : Nat :=
  if !i.rvf then 1
  else if i.stream != s.get (fISP_STREAM_ID_LO n) + 4294967296 * s.get (fISP_STREAM_ID_HI n) then 2
  else if !i.bayer12 then 3
  else if i.width != 16 * s.get (fISP_PORT_CFG_WIDTH n) || i.height != 16 * s.get (fISP_PORT_CFG_HEIGHT n) then 4
  else if !i.tsValid then 5
  else 0

/-- A stream frame is refused: counted, and recorded at most once per second. -/
def dropStream (n f : Nat) (s : State) : State :=
  let p := s.pipe n
  let tell := match p.drop with
    | some t => decide (t + 20000 ≤ s.clk.tick)
    | none => true
  let s := (s.inc (fISP_CNT_DROP n)).putBit (fISP_EVT_FRAME_ERR n) true
  if tell then (s.setPipe n { p with drop := some s.clk.tick }).ev 0x7005 n f else s

/-- The lines of a frame, a missing one filled by the last received; what fills lines missing before any was received is
open (R239). -/
def fillLines (frame w : Nat) (l : List (Option (List Nat))) : List (List Nat) :=
  (l.foldl (fun (acc : List (List Nat) × Option (List Nat)) x => match x, acc.2 with
    | some r, _ => (acc.1 ++ [r], some r)
    | none, some r => (acc.1 ++ [r], some r)
    | none, none => (acc.1 ++ [(List.range w).map fun c => ispFn 52 [frame, acc.1.length, c] % 4096], none)) ([], none)).1

/-- An accepted frame: a gap makes it INCOMPLETE, a difference above 1 µs sets SKEW; it is processed all the same. -/
def takeFrame (n : Nat) (i : StreamIn) (s : State) : State :=
  let missing := (i.lines.filter fun l => l.isNone).length
  let inc := missing != 0
  let d := (frameSkew s i).natAbs
  let skew := decide (1000 < d)
  let s := flushFrames n i.frame (setPort n 2 s)
  let p := s.pipe n
  let s := s.setPipe n { p with frames := p.frames.map fun f =>
    if f.frame = i.frame then 
      { f with arrived := true, incomplete := inc, skew := skew, raw := fillLines i.frame i.width i.lines } else f }
  let s := if inc then (s.putBit (fISP_EVT_FRAME_ERR n) true).evMax 0x7003 n 0 (f16OfNat missing) else s
  let s := s.put fISP_SKEW_MAX_NS (max (s.get fISP_SKEW_MAX_NS) (min 65535 d))
  if skew then (s.putBit (fISP_EVT_SKEW n) true).evMax 0x7006 n 0 (f16OfRatio false d 1000) else s

/-- More than 20 ms have passed since the boundary that began the frame. -/
def frameLate (s : State) (frame : Nat) : Bool := decide (400 * frame + 400 < s.clk.tick)

/-- A frame whose last line arrives after 20 ms is dropped (R239). -/
def dropLate (n frame : Nat) (s : State) : State :=
  let p := s.pipe n
  let s := forAll (p.frames.filter fun f => f.frame == frame) (statsInvalid n) s
  let s := s.setPipe n { p with frames := p.frames.filter fun f => f.frame != frame }
  ((s.inc (fISP_CNT_LATE n)).putBit (fISP_EVT_FRAME_ERR n) true).evMax 0x7004 n 0
    (f16OfRatio false (s.clk.tick - (400 * frame + 400)) 20)

/-- A stream frame at the arrival of its last line: refused, late, or accepted. -/
def execStreamFrame (n : Fin 6) (inp : StreamIn) (s : State) : Out :=
  if !pipeOn s n then .next s
  else
    let f := streamFault s n inp
    if f ≠ 0 then .next (dropStream n f s)
    else if frameLate s inp.frame then .next (dropLate n inp.frame s) else .next (takeFrame n inp s)

def execFrameLate (n : Fin 6) (frame : Nat) (s : State) : Out :=
  if !pipeOn s n || !frameLate s frame then .next s else .next (dropLate n frame s)

/-- Exposures whose 20 ms have passed without a frame. -/
def missedFrames (s : State) (n : Nat) : Nat :=
  ((s.pipe n).frames.filter fun f => !f.arrived && decide (400 * f.frame + 400 < s.clk.tick)).length

/-- Three consecutive expected exposures without a frame (R239). -/
def execPortAbsent (n : Fin 6) (s : State) : Out :=
  if pipeOn s n = true ∧ s.get (fISP_STATUS_PORT n) ≠ 1 ∧ 3 ≤ missedFrames s n then
    .next ((setPort n 1 (flushFrames n (s.clk.tick / 400) s)).ev 0x7002 n)
  else .next s

/-- The camera link goes down (R239). -/
def execCamLinkDown (n : Fin 6) (s : State) : Out :=
  if ispOn s = true ∧ s.get (fISP_STATUS_PORT n) ≠ 0 then .next ((setPort n 0 s).ev 0x7001 n) else .next s

/-! ## Exposure (R241, R246) -/

/-- The boundary of tick B is one at which the pipeline exposes. -/
def exposes (s : State) (n b : Nat) : Bool := b % 400 == 0 && b / 400 % expDiv s n == 0

/-- At B − 300 the exposure message for boundary B goes out with the active exposure and gain. -/
def execExposureCommand (n : Fin 6) (s : State) : Out :=
  let b := s.clk.tick + 300
  if pipeOn s n && exposes s n b then
    .next (s.setPipe n { s.pipe n with cmd := some (b / 400, s.rd (fISP_SH_EXP n).addr) })
  else .next s

/-- The key of a word of an item that no register shows. -/
def rawKey (code i k : Nat) : Nat := 0x100000 * code + 0x1000 * i + k

/-- `n` words of such an item. -/
def State.rawWords (s : State) (code i n : Nat) : List Word :=
  (List.range n).map fun k => tabGet (fun _ => 0#32) s.cfg.raw (rawKey code i k)

/-- The frame that a boundary begins, with the parameters in force for it (R241, R245). -/
def newFrame (n f : Nat) (s : State) : CamFrame :=
  { frame := f, arrived := false, incomplete := false, skew := false, gen := s.get (fISP_GEN n), time := s.now
    sh := (List.range 11).map fun k => s.rd ((fISP_SH_EXP n).addr + 4 * k)
    mat := s.rawWords 0x0402 n 9, cls := s.rawWords 0x0403 0 64, raw := [] }

/-- Exposures that were commanded for this boundary start (step 4 of R23). -/
def exposureStart (s : State) : State :=
  if !ispOn s then s
  else forUp 6 (fun n t =>
    let p := t.pipe n
    match p.cmd with
    | some (f, _) =>
      if f * 400 = t.clk.tick then
        t.setPipe n { p with cmd := none, frames := p.frames ++ [newFrame n f t] }
      else t
    | none => t) s

/-! ## Shadow registers (R245, R250, R251) -/

/-- Offset of shadow word r in a page, from ISP_SH_EXP. -/
def shadowAddr (n r : Nat) : Nat := (fISP_SH_EXP n).addr + 4 * r

/-- A field of a new value in a shadow word, unless `ok` says it is reserved. -/
def shadowFld (f : Fld) (ok : Nat → Bool) (v old : Word) : Word := if ok (fldOf f v) then fldPut f old (fldOf f v) else old

/-- The shadow word after a write of `v`: a reserved value leaves its field unchanged. -/
def shadowMerge (s : State) (n r : Nat) (v old : Word) : Word :=
  let all : Nat → Bool := fun _ => true
  if r = 0 then
    shadowFld (fISP_SH_EXP_GAIN n) (fun x => decide (16 ≤ x)) v
      (shadowFld (fISP_SH_EXP_EXP n) (fun x => decide (10 ≤ x) && decide (x ≤ 15000)) v old)
  else if r < 5 then shadowFld (fISP_SH_BLACK_LEVEL n 0) all v old
  else if r = 5 then shadowFld (fISP_SH_DPC_THR n) all v (shadowFld (fISP_SH_DPC_EN n) all v old)
  else if r = 6 then shadowFld (fISP_SH_LSC_EN n) all v old
  else if r = 7 then shadowFld (fISP_SH_NR_STR n) all v old
  else if r = 8 then shadowFld (fISP_SH_TONE_CURVE n) all v old
  else if r = 9 then shadowFld (fISP_SH_GEO_EN n) all v old
  else
    let inW := decide (fldOf (fISP_SH_ROI_X0 n) v + fldOf (fISP_SH_ROI_W n) v ≤ s.get (fISP_PORT_CFG_WIDTH n))
    let inH := decide (fldOf (fISP_SH_ROI_Y0 n) v + fldOf (fISP_SH_ROI_H n) v ≤ s.get (fISP_PORT_CFG_HEIGHT n))
    if inW && inH then v &&& 0x7F7F7F7F#32 else old

/-- A write to a shadow register: the latest before a boundary counts, an earlier one is lost and counted. -/
def execIspShadowWrite (req : Req) (n : Fin 6) (r : Fin 11) (value : Word) (s : State) : Out :=
  if reqIsOem req || !s.wide then .next s
  else
    let p := s.pipe n
    let old := p.shadow.getD r (s.rd (shadowAddr n r))
    let sh := ((List.range 11).map fun k => p.shadow.getD k (s.rd (shadowAddr n k))).set r (shadowMerge s n r value old)
    let s := if p.written.contains r.val then s.inc (fISP_SUPERSEDED n) else s
    .next (s.setPipe n { p with shadow := sh, written := if p.written.contains r.val then p.written else r.val :: p.written })

/-- Step 3 of R23: each pipeline copies all its shadows to the active set and counts the generation. -/
def shadowTransfer (s : State) : State :=
  if !ispOn s then s
  else forUp 6 (fun n t =>
    let p := t.pipe n
    let t := forUp 11 (fun k u => u.wr (shadowAddr n k) (p.shadow.getD k (u.rd (shadowAddr n k)))) t
    (t.put (fISP_GEN n) (t.get (fISP_GEN n) + 1)).setPipe n { p with written := [] }) s

/-! ## Statistics (R244, R247) -/

/-- The blocks of a frame that tap B classes. -/
structure Blocks where
  whole : Nat
  broken : Nat
  mog : Nat
  empty : Nat
  deriving DecidableEq, Repr

/-- The parameters of a frame (R245). -/
def framePar (s : State) (n : Nat) (f : CamFrame) : IspPar := ⟨f.sh, f.mat, f.cls, (s.pipe n).cal⟩

def frameBlocks (s : State) (n : Nat) (f : CamFrame) : Blocks :=
  let k := ispBlocks (framePar s n f) f.raw
  ⟨k 0, k 1, k 2, k 3⟩

/-- Fractions of R247: broken-kernel and MOG, %, and whether they are valid. -/
def grainQuality (s : State) (n : Nat) (i : Blocks) : F32 × F32 × Bool :=
  let occ := i.whole + i.broken + i.mog
  let pct (a b : Nat) : F32 := f32Div (f32Mul (f32OfNat 100) (f32OfNat a)) (f32OfNat b)
  (pct i.broken (i.whole + i.broken), pct i.mog occ,
    decide (s.get (fISP_PORT_CFG_GQ_MIN n) ≤ occ) && decide (0 < i.whole + i.broken))

def isCleanGrain (s : State) (n : Nat) : Bool := s.get (fISP_PORT_CFG_ROLE n) == 4

/-- The words of a list from an address on. -/
def wrWords (a : Nat) (ws : List Word) (s : State) : State := forAll ((List.range ws.length).zip ws) (fun x t => t.wr32 (a + 4 * x.1) x.2) s

/-- Tap B of a CLEAN_GRAIN pipeline (R247). -/
def grainStats (n : Nat) (f : CamFrame) (i : Blocks) (s : State) : State :=
  let a := statsAddr n f.frame
  let q := grainQuality s n i
  let s := wrWords (a + 0xBA0) ([i.whole, i.broken, i.mog, i.empty].map (BitVec.ofNat 32)) s
  let s := wrWords (a + 0xBB0) [q.1, q.2.1] s
  let s := (s.put (fISP_GQ_CNT1_WHOLE n) (min i.whole 65535)).put (fISP_GQ_CNT1_BROKEN n) (min i.broken 65535)
  (s.put (fISP_GQ_CNT2_MOG n) (min i.mog 65535)).put (fISP_GQ_CNT2_EMPTY n) (min i.empty 65535)

/-- The application cluster places both fractions of a frame in the lane mailbox, at the entries assigned to them (R248). -/
def postGrain (frame : Nat) (q : F32 × F32 × Bool) (s : State) : State :=
  if !appOn s then s
  else mailPut (s.swg.sigs.getD 1 0) q.2.1 q.2.2 (400 * frame) (mailPut (s.swg.sigs.getD 0 0) q.1 q.2.2 (400 * frame) s)

/-- The pipeline writes frame n's image and statistics record to its ring, and the cluster posts the grain figures (R244,
R247, R248). -/
def execStatsWritten (n : Fin 6) (frame : Nat) (s : State) : Out :=
  if !pipeOn s n then .next s
  else match (s.pipe n).frames.find? fun f => f.frame == frame && f.arrived with
    | none => .next s
    | some f =>
      let a := statsAddr n frame
      let cg := isCleanGrain s n
      let par := framePar s n f
      let tap := ispTapA par f.raw
      let blocks := frameBlocks s n f
      let gq := cg && (grainQuality s n blocks).2.2
      let flags := 1 + (if f.incomplete then 2 else 0) + (if f.skew then 4 else 0) + (if gq then 8 else 0)
      let s := statsHead n frame flags f.gen f.time (s.wrBytes (imageAddr n frame) (ispImage par f.raw))
      let s := wrWords (a + 0x20) ((List.range 256).map fun k => BitVec.ofNat 32 ((ispHist tap).getD k 0)) s
      let s := wrWords (a + 0x420) ((List.range 480).map fun k => BitVec.ofNat 32 ((ispZones tap).getD k 0)) s
      let s := if cg then postGrain frame (grainQuality s n blocks) (grainStats n f blocks s) else wrWords (a + 0xBA0) [0#32, 0#32, 0#32, 0#32, 0#32, 0#32] s
      let s := ((s.put (fISP_FRAME n) frame).putBit (fISP_EVT_STATS n) true).svcReady 2
      .next (s.setPipe n { s.pipe n with frames := (s.pipe n).frames.filter fun g => g.frame != frame })

/-! ## Stopping and starting (R249) -/

/-- LOUVRED, LIMP or a BLOCK reset: no exposure is commanded and no statistics are written. -/
def ispStop (s : State) : State :=
  let s := { s with isp := { s.isp with on := false } }
  forUp 6 (fun n t => t.setPipe n { t.pipe n with cmd := none, frames := [] }) s

/-- The ISP starts: shadows from the CAMERAS region, and gPTP time from the time base of this moment (R240, R249). -/
def ispStart (s : State) : State :=
  if !s.wide then s
  else
    let s := { s with isp := { s.isp with on := true, tbase0 := s.clk.tbase } }
    forUp 6 (fun n t =>
      let p := t.pipe n
      (t.putBit (fISP_STATUS_GM n) true).setPipe n { p with shadow := p.img, written := [], cmd := none, frames := [] }) s

end Sys2Proof.Machine
end

