-- ==== Sys2Proof/Machine/Fleet.lean ====
section
/-!
DEFINITION. The fleet queue (R364, R368): publications as any block makes them, and the alerts that recorded events
raise. With it the recorder's intake of events, from which the alerts come.
-/
namespace Sys2Proof.Machine

def fleetState (s : State) : Nat := s.get fETH_STATUS_FLEET

def leByteList : Nat → Nat → List Byte
  | 0, _ => []
  | k + 1, n => BitVec.ofNat 8 n :: leByteList k (n / 256)

/-- The 16-byte header of a fleet payload (R364). -/
def fleetHeader (s : State) (type : Nat) : List Byte :=
  [1#8, BitVec.ofNat 8 type, 0#8, 0#8] ++ leByteList 4 s.eth.fleetId ++ leByteList 8 (s.now % 18446744073709551616).toNat

/-- A publication REFUSED: counted, and recorded at most once per minute (R368). -/
def refusePub (type : Nat) (s : State) : State :=
  let s := (s.inc ⟨fETH_FLEET_REF.addr, 15, 0⟩).putBit fETH_EVT_REFUSED true
  let quiet := match s.eth.refAt with
    | some t => decide (s.clk.tick < t + 1200000)
    | none => false
  if quiet then s else ({ s with eth := { s.eth with refAt := some s.clk.tick } }).ev 0x9313 0 type

/-- ETH_FLEET_Q.ALERTS as the queue stands. -/
def showAlerts (s : State) : State := s.put fETH_FLEET_Q_ALERTS (s.eth.queue.filter fun p => p.type == 9).length

/-- The types that a queue of 16 holds for 60 s: ureq, uacc, uend and cfgr (R368). -/
def isUrgent (t : Nat) : Bool := t == 3 || t == 5 || t == 6 || t == 0xB

/-- A publication while the fleet is not connected (R368). -/
def queuePub (p : Pub) (s : State) : State :=
  let q := s.eth.queue
  let set (q : List Pub) (s : State) : State := showAlerts { s with eth := { s.eth with queue := q } }
  if p.type = 1 ∨ p.type = 2 then
    let s := if q.any fun x => x.type == p.type then refusePub p.type s else s
    set (q.filter (fun x => x.type != p.type) ++ [p]) s
  else if p.type = 9 then
    if (q.filter fun x => x.type == 9).length < 256 then set (q ++ [p]) s
    else set (q.eraseP (fun x => x.type == 9) ++ [p]) (refusePub 9 s)
  else if isUrgent p.type then
    if (q.filter fun x => isUrgent x.type).length < 16 then set (q ++ [p]) s else refusePub p.type s
  else s

/-- A publication of the manager's fleet service: SERVED at once while connected (R368). -/
def publish (type : Nat) (body : List Byte) (s : State) : State :=
  if !s.wide || fleetState s == 0 then s
  else
    let p : Pub := ⟨type, fleetHeader s type ++ body, s.clk.tick⟩
    if fleetState s = 2 then { s with eth := { s.eth with sent := p :: s.eth.sent } } else queuePub p s

/-- The module leaves the cart's pos (R366). -/
def unsubscribe (s : State) : State :=
  { s.put (wordAt fFUS_UNL_CART.addr) 0 with eth := { s.eth with cart := none, reqAt := none } }

/-- An alert: the event record of a code of the region's alert list (R364). -/
def alertOf (e : Ev) (s : State) : State :=
  if !s.eth.alertList.contains e.code then s
  else match s.evr.sill.find? fun r => r.code == e.code && r.src == e.src with
    | some r => publish 9 ((evWords r).flatMap fun w => leByteList 4 w.toNat) s
    | none => s

/-- The recorder takes the oldest intake entry; once the queue has room again it records 0x1074 with the number of
events lost (R461). An event of the alert list goes to the fleet (R364). -/
def execEventIntake (s : State) : Out :=
  match s.evr.intake with
  | [] => .next s
  | e :: rest =>
    let s := alertOf e (evRecord e { s with evr := { s.evr with intake := rest } })
    if s.evr.lostNow = 0 then .next s
    else
      let n := s.evr.lostNow
      .next (({ s with evr := { s.evr with lostNow := 0 } }).evMax 0x1074 0 0 (f16OfNat n))

end Sys2Proof.Machine
end

