-- ==== Sys2Proof/Machine/Fusion.lean ====
section
/-!
DEFINITION. Fusion and guidance (R253–R278), on an FYH7-A that is the manager. What the estimators compute (positions,
existence probabilities, association, ego-motion, targets) is an operand; the rules that decide from it are here. A
function Fnn is number nn − 1.
-/
namespace Sys2Proof.Machine

def track0 : Track := ⟨0, 0, false, false, none, 0#32, 0#32, [], 0, 0, 0, 0, 0, 0, false, [], []⟩

def State.ftrack (s : State) (t : Nat) : Option Track := (s.fus.tracks.find? fun x => x.1 == t).map Prod.snd
def State.setTrack (s : State) (t : Nat) (x : Option Track) : State :=
  let l := s.fus.tracks.filter fun y => y.1 != t
  { s with fus := { s.fus with tracks := match x with
    | some y => (t, y) :: l
    | none => l } }

def est (x : Track) (k : Nat) : F32 := x.est.getD k 0#32

/-! ## Sensors (R255, R256) -/

/-- A sensor's state, with 0x7108 on a change (R256, R278). -/
def setSrc (i st : Nat) (s : State) : State :=
  if s.get (fFUS_SRC_STATE i) = st then s else (s.put (fFUS_SRC_STATE i) st).ev 0x7108 i st

/-- A LiDAR sweep: an azimuth-0 time more than 100 µs off its boundary makes it ABSENT (R256). -/
def execLidarSweep (u : Fin 2) (offset : Int) (s : State) : Out :=
  let i := 6 + u.val
  if !s.wide || s.get (fFUS_SRC_STATE i) == 0 then .next s
  else .next (setSrc i (if offset.natAbs ≤ 100000 then 1 else 2) s)

/-- The sensor is configured: a pipeline in use, a LiDAR unit with a mount, an antenna with bias, wheel speed, and the
fleet (R254, R255; log entry 138). -/
def srcOn (s : State) (k : Nat) : Bool :=
  if k < 6 then s.bit (fISP_PORT_CFG_EN k)
  else if k < 8 then s.fus.mounts.any fun m => m.1 == k
  else if k = 8 then s.bit (fGNS_ANT_EN 0) || s.bit (fGNS_ANT_EN 1)
  else k == 9 || s.eth.fleetId != 0

/-- The latest GNSS solution whose epoch is at or before a boundary (R258). -/
def gnssSample (s : State) (n : Nat) : Option (Nat × Nat × Bool) := s.gns.sols.find? fun x => decide (x.1 ≤ 400 * n)

/-- The tick of the cart's last fleet message, by its time stamp (R255). -/
def fleetTick (s : State) : Option Nat :=
  if s.eth.cart.isNone || s.eth.cartPos.isEmpty then none else some ((s.eth.cartPos.getD 0 0 - s.clk.tbase) / 50000).toNat

/-- The age of a source's contribution to a result: 0 for a sensor-level sample, the time since a track-level one, which
waits while its time lies after the boundary (R258). -/
def sampleAge (s : State) (i : ResultIn) (k : Nat) : Option Nat :=
  let at0 : Option Nat := if k = 8 then (gnssSample s i.frame).map Prod.fst else if k = 10 then fleetTick s
    else (i.samples.find? fun x => x.1.val == k).map Prod.snd
  match at0 with
  | some t => if 400 * i.frame < t then none else some (if k < 8 then 0 else 400 * i.frame - t)
  | none => none

/-- The contribution of a sensor-level source is expected for a frame (R241, R256, R259). -/
def expects (s : State) (n k : Nat) : Bool :=
  if k < 6 then pipeOn s k && s.get (fISP_STATUS_PORT k) == 2 && n % expDiv s k == 0
  else decide (k < 8) && s.get (fFUS_SRC_STATE k) == 1 && n % s.get fFUS_CFG_LIDAR_DIV == 0

/-- The expected contributions that a result is issued without. -/
def missingOf (s : State) (i : ResultIn) : List (Fin 11) := i.missing.filter fun k => expects s i.frame k

/-- A pipeline of the role has a valid statistics record of the frame, with neither INCOMPLETE nor SKEW. -/
def goodImage (s : State) (role n : Nat) : Bool :=
  (List.range 6).any fun p => s.bit (fISP_PORT_CFG_EN p) && s.get (fISP_PORT_CFG_ROLE p) == role
    && s.rd32 (statsAddr p n) == BitVec.ofNat 32 n && (s.rd32 (statsAddr p n + 0x1C)).toNat % 8 == 1

/-- The stereo pair gives depth and visual odometry for a frame (R257). -/
def stereoOk (s : State) (n : Nat) : Bool := goodImage s 0 n && goodImage s 1 n

/-! ## Tracks (R262–R265) -/

def bits5 (b : Bool) (h : Nat) : Nat := (2 * h + (if b then 1 else 0)) % 32

/-- The sensor confirms: a detection in at least 3 of its last 5 own observations (R264). -/
def confirms (h : List Bool) : Bool := decide (3 ≤ (h.filter id).length)

def confBy (x : Track) : List Nat := (x.seen.filter fun p => confirms p.2).map Prod.fst
def denyBy (s : State) (x : Track) : List Nat :=
  (x.denies.filter fun p => decide (s.get fFUS_CFG_DENY_N ≤ p.2)).map Prod.fst

/-- One own observation of sensor `i`: an association, or a denial when its conditions hold (R264, R265). -/
def observe (i : Nat) (hit deny : Bool) (x : Track) : Track :=
  let h := (hit :: ((x.seen.find? fun p => p.1 == i).map Prod.snd).getD []).take 5
  let d := if deny then ((x.denies.find? fun p => p.1 == i).map Prod.snd).getD 0 + 1 else 0
  { x with seen := (i, h) :: x.seen.filter fun p => p.1 != i
           denies := (i, d) :: x.denies.filter fun p => p.1 != i }

def isPoint (c : Nat) : Bool := decide (c ≤ 5)
def isLiving (c : Nat) : Bool := decide (c ≤ 2)

/-- PEX after a frame: a denial does not lower it while the track is CONTESTED (R265). -/
def heldPex (x : Track) (p : F32) : F32 := if x.contested then f32Max p x.held else p

/-- A track after its observations: confirmation in 3 of its first 5 frames, and CONTESTED (R264, R265). -/
def judgeTrack (t : Nat) (x : Track) (s : State) : State :=
  let conf := x.confirmed || (decide (x.frames ≤ 5) && decide (3 ≤ (((List.range 5).map fun k => x.hist / 2 ^ k % 2)).sum))
  let c := confBy x
  let d := denyBy s x
  let both := c.any fun i => d.any fun j => i != j
  let x := { x with confirmed := conf }
  if both && !x.contested then
    let s := s.setTrack t (some { x with contested := true, held := x.pex })
    let s := (s.putBit fFUS_EVT_CONTESTED true).inc fFUS_CNT_CONTEST_TOTAL
    s.evMax 0x7103 t x.cls (f16OfF32 (est x 11))
  else if x.contested && (d.isEmpty || c.isEmpty) then
    (s.setTrack t (some { x with contested := false })).ev 0x7104 t (if d.isEmpty then 1 else 2)
  else s.setTrack t (some x)

/-- A record becomes free; an unloading index that names it returns to 0xFF (R277). -/
def dropTrack (t : Nat) (s : State) : State :=
  let s := s.setTrack t none
  let s := if s.fus.trailer = some t then
      { s.put fFUS_UNL_STAT_TRAILER 0xFF with fus := { s.fus with trailer := none } } else s
  if s.fus.spout = some t then { s.put fFUS_UNL_STAT_SPOUT 0xFF with fus := { s.fus with spout := none } } else s

/-- The track is freed: unconfirmed at its fifth frame, or confirmed with PEX below 0.1 (R264). -/
def freeTrack (t : Nat) (s : State) : State :=
  match s.ftrack t with
  | none => s
  | some x =>
    if (!x.confirmed && decide (5 ≤ x.frames)) || (x.confirmed && f32Lt x.pex 0x3DCCCCCD#32) then dropTrack t s else s

/-- The corridor of R271: length and width in m. -/
def corridorLen (s : State) (v : F32) : F32 :=
  let react := f32OfRatio false (s.get fFUS_GUID_CFG_STOP_REACT) 100
  let tr := f32Add 0x3DCCCCCD#32 react
  let rate := s.getF (fFUN_REC_RATE 25)
  f32Add (f32Add (f32Mul v tr) (f32Div (f32Mul v v) (f32Mul 0x40000000#32 rate)))
    (f32OfRatio false (s.get fFUS_GUID_CFG_STOP_MARGIN) 10)

def corridorWid (s : State) : F32 :=
  f32Add (s.getF fFUN_CUT_W) (f32Mul 0x40000000#32 (f32OfRatio false (s.get fFUS_GUID_CFG_CORR_MARGIN) 100))

/-- The nearest part of an extent lies inside the rectangle before the header front (R271). -/
def inRect (s : State) (v front lat : F32) : Bool :=
  f32Le 0#32 front && f32Le front (corridorLen s v)
    && f32Le (f32Abs lat) (f32Div (corridorWid s) 0x40000000#32)

/-- The age of the oldest of the samples that entered a track; without one the track's figure stays (log entry 138). -/
def trackAge (s : State) (i : ResultIn) (old : Nat) (by' : List (Fin 11)) : Nat :=
  if by'.isEmpty then old else (by'.map fun k => (sampleAge s i k.val).getD 0).foldl max 0

/-- One track of a frame: each source with a sample makes an observation of it, which denies it only while the sensor is
HEALTHY (R257, R264, R265). -/
def trackFrame (v : F32) (i : ResultIn) (o : TrackObs) (s : State) : State :=
  match s.ftrack o.t with
  | none => s
  | some x =>
    let hit := !o.assoc.isEmpty
    let has (l : List (Fin 11)) (k : Nat) : Bool := l.any fun j => j.val == k
    let x := { x with
      est := if stereoOk s i.frame then o.est else o.estNo
      classP := o.classP, age := trackAge s i x.age o.assoc, frames := x.frames + 1, hist := bits5 hit x.hist
      pex := heldPex x o.pex, last := if hit then 400 * i.frame else x.last
      inCorr := isPoint x.cls && inRect s v o.front o.lat }
    let own := (List.range 11).filter fun k => (sampleAge s i k).isSome || has o.assoc k
    let x := own.foldl (fun y k =>
      observe k (has o.assoc k) (has o.deny k && !has o.assoc k && s.get (fFUS_SRC_STATE k) == 1) y) x
    freeTrack o.t (judgeTrack o.t x s)

/-! ## Capacity (R267) -/

/-- The track is PROTECTED. -/
def isProtected (s : State) (t : Nat) (x : Track) : Bool :=
  (x.inCorr && ((x.confirmed && isLiving x.cls) || x.contested))
    || s.fus.trailer == some t || s.fus.spout == some t
    || (s.get fFUS_GUID_STAT_SRC == 2 && s.fus.edge == some t)

/-- (p, r) ranks before (q, u): lower PEX, or equal PEX and greater RANGE. -/
def ranksFirst (p r q u : F32) : Bool := f32Lt p q || (f32Eq p q && f32Lt u r)

/-- The unprotected track that ranks first. -/
def weakest (s : State) : Option (Nat × Track) :=
  (s.fus.tracks.filter fun x => !isProtected s x.1 x.2).foldl (fun b x => match b with
    | none => some x
    | some y => if ranksFirst x.2.pex (est x.2 11) y.2.pex (est y.2 11) then some x else some y) none

def pexNew : F32 := 0x3E4CCCCD#32

/-- A new track in record t, with the next identity (R263, R264). -/
def beginTrack (t : Nat) (v : F32) (i : ResultIn) (c : NewTrack) (s : State) : State :=
  let id := if s.fus.nextId = 0 ∨ 65535 < s.fus.nextId then 1 else s.fus.nextId
  let x : Track := { track0 with
    id := id, cls := c.cls, pex := pexNew, est := c.est, classP := c.classP, age := trackAge s i 0 c.by', hist := 1, frames := 1
    first := 400 * i.frame, last := 400 * i.frame, inCorr := isPoint c.cls && inRect s v c.front c.lat }
  let x := c.by'.foldl (fun y i => observe i.val true false y) x
  let s := { s with fus := { s.fus with nextId := id % 65535 + 1 } }
  s.setTrack t (some x)

/-- The candidate as a result takes it: without stereo depth it needs a range from a LiDAR return (R257). -/
def candidate (s : State) (n : Nat) (c : NewTrack) : Option NewTrack :=
  if stereoOk s n then some c else c.estNo.map fun e => { c with est := e }

/-- A detection that needs a new track. -/
def newTrack (v : F32) (i : ResultIn) (c : NewTrack) (s : State) : State :=
  match (List.range 256).find? fun t => (s.ftrack t).isNone with
  | some t => beginTrack t v i c s
  | none =>
    let refuse := ((s.inc fFUS_CNT_SHED_REFUSED).putBit fFUS_EVT_SHED true).ev 0x7102 0 c.cls
    match weakest s with
    | none => refuse
    | some (t, y) =>
      if ranksFirst y.pex (est y 11) pexNew (c.est.getD 11 0#32) then
        let s := ((s.inc fFUS_CNT_SHED_SHED).putBit fFUS_EVT_SHED true).evx 0x7101 t y.cls (f16OfF32 y.pex)
          (f16OfF32 (est y 11))
        beginTrack t v i c (dropTrack t s)
      else refuse

/-! ## Posting to the lanes (R260, R272) -/

/-- A guidance value of result n for function f goes to the lane mailbox; its age counts from 400 × n. -/
def guidPost (f n : Nat) (v : F32) (s : State) : State :=
  match s.fn.guid.find? fun x => x.1 == f with
  | some (_, e) => mailPut e v true (400 * n) s
  | none => s

/-- The function's source becomes GUIDANCE with a value. -/
def guidTake (f n : Nat) (v : F32) (s : State) : State := guidPost f n v (s.put (fFUN_REC_CTL_SP_SRC f) 3)

/-! ## Guidance states (R273, R274) -/

def guidState (s : State) : Nat := s.get fFUS_GUID_STAT_STATE
def setGuid (st : Nat) (s : State) : State := (s.put fFUS_GUID_STAT_STATE st).putBit fFUS_EVT_GUID_CHG true
def setWhy (w : Nat) (s : State) : State := s.put fFUS_GUID_STAT_WHY w

def fnLocked (s : State) (f : Nat) : Bool := s.bitAt fFUN_LOCK f

/-- The measured value of a function in lane A's signal table (R274). -/
def fnMeasured (s : State) (f : Nat) : F32 := (s.sig (topLane s) (s.get (fFUN_REC_MEAS_SIG f))).val

/-- The fallback of a function whose source is GUIDANCE (R274). -/
def fallback (f : Nat) (s : State) : State :=
  if s.get (fFUN_REC_CTL_SP_SRC f) ≠ 3 then s
  else
    let last := s.getF (fFUN_REC_SP_TGT f)
    let v :=
      if f = 25 then f32Min ((s.fnSt f).opReq.getD last) last
      else if f = 18 ∨ f = 20 then 0#32
      else fnMeasured s f
    request f 2 v s

/-- The functions that guidance serves: F18–F21, F26, F27 (R65). -/
def guidFns : List Nat := [17, 18, 19, 20, 25, 26]

/-- Guidance goes to IDLE with the fallbacks, and the event 0x7111 (R273). -/
def guidIdle (why : Nat) (s : State) : State :=
  let s := forAll guidFns fallback s
  ((setWhy why (setGuid 0 s)).put fFUS_GUID_STAT_SRC 0).ev 0x7111 0 why

/-- Guidance that a lane's fallback has ended is shown IDLE when the application cluster next runs (R273). -/
def showFell (s : State) : State :=
  if s.fus.fell && appOn s then
    let s := { s with fus := { s.fus with fell := false } }
    if guidState s = 0 then s else ((setWhy 6 (setGuid 0 s)).put fFUS_GUID_STAT_SRC 0).ev 0x7111 0 6
  else s

/-- A lane applies the fallback of a function whose GUIDANCE target is not usable or too old; guidance that was active
goes to IDLE (R274). -/
def execGuidanceFallback (f : Fin 30) (s : State) : Out :=
  let e := (s.fn.guid.find? fun x => x.1 == f.val).map Prod.snd
  let stale := match e with
    | some i => !sigUsable (s.sig (topLane s) i) (s.get fFUS_CFG_GUID_AGE_MAX)
    | none => true
  if s.get (fFUN_REC_CTL_SP_SRC f) = 3 ∧ fnHome s f = true ∧ stale = true then
    let s := fallback f s
    .next (showFell { s with fus := { s.fus with fell := s.fus.fell || (s.wide && guidState s != 0) } })
  else .next s

/-- The reference guidance would follow: 1 MAP, 2 EDGE, 0 none (R270). -/
def reference (s : State) : Nat :=
  let m := s.fus.mapOk && !(s.fus.forceEdge && s.fus.edgeOk)
  if s.bit fFUS_GUID_CFG_PREF then (if s.fus.edgeOk then 2 else if m then 1 else 0)
  else (if m then 1 else if s.fus.edgeOk then 2 else 0)

/-- FUS_CTL.DISENGAGE. -/
def execDisengage (req : Req) (s : State) : Out :=
  if reqIsOem req || !s.wide || guidState s == 0 then .next s else .next (guidIdle 5 s)

/-- FUS_CTL.ENGAGE: engages, or is REFUSED with WHY (R273); DISENGAGE in the same write wins (R277). The application
cluster serves it (R33). -/
def execEngage (req : Req) (disengage : Bool) (s : State) : Out :=
  if disengage then execDisengage req s
  else if reqIsOem req || !s.wide || !appOn s || guidState s != 0 then .next s
  else
    let r := reference s
    if !s.bit (fFUN_REC_CTL_EN 26) || fnLocked s 26 || s.get (fFUN_REC_CTL_STATE 26) != 1 then .next (setWhy 1 s)
    else if r = 0 then .next (setWhy 2 s)
    else if !s.bit fFUS_RES_STAT_EGO_VALID then .next (setWhy 3 s)
    else
      let s := (setGuid 1 s).put fFUS_GUID_STAT_SRC r
      let s := (s.put (fFUN_REC_CTL_SP_SRC 26) 3).ev 0x7110 0 r
      .next { s with fus := { s.fus with noRef := 0, bigErr := 0 } }

/-- FUS_CTL.RESUME: back to ENGAGED when no obstacle was seen in the last 50 results, otherwise REFUSED. -/
def execResume (req : Req) (s : State) : Out :=
  if reqIsOem req || !s.wide || !appOn s || guidState s != 2 then .next s
  else if s.fus.clear < 50 then .next (setWhy 4 s)
  else
    let v := (s.fnSt 25).opReq.getD (s.getF (fFUN_REC_SP_TGT 25))
    .next (request 25 2 v (setGuid 1 s))

/-- F27 locked at a frame boundary ends guidance (R66, R273). -/
def guidLockCheck (s : State) : State :=
  let s := showFell s
  if s.wide && guidState s != 0 && fnLocked s 26 then guidIdle 1 s else s

/-! ## Unloading on the go (R275, R276) -/

def unlState (s : State) : Nat := s.get fFUS_UNL_STAT_STATE

/-- A change of the unloading state; IDLE frees the track indices (R275, R277). -/
def setUnl (st : Nat) (s : State) : State :=
  let s := ((s.put fFUS_UNL_STAT_STATE st).putBit fFUS_EVT_UNL_CHG true).ev 0x7120 0 st
  let s := if st = 4 then publish 6 [0#8] s else s
  if st = 0 then
    let s := unsubscribe s
    { (s.put fFUS_UNL_STAT_TRAILER 0xFF).put fFUS_UNL_STAT_SPOUT 0xFF with fus := { s.fus with trailer := none, spout := none } }
  else s

/-- F18 swung out, and the F21 target, as the unloading item of the FUSION region gives them; its layout is open (log
entry 4). -/
def swungOut (s : State) : F32 := Config.realFn 5 s.fus.unlItem
def unlFlow (s : State) : F32 := Config.realFn 6 s.fus.unlItem

/-- The frame whose result was issued last. -/
def lastFrame (s : State) : Nat := s.fus.last.getD (s.clk.tick / 400)

/-- A cart is announced, and F18–F21 are enabled and not locked (R275). -/
def unlReady (s : State) : Bool :=
  s.get fFUS_UNL_CART != 0 && [17, 18, 19, 20].all fun f => s.bit (fFUN_REC_CTL_EN f) && !fnLocked s f

/-- Unloading begins toward the cart: F18 swings out. -/
def unlBegin (s : State) : State :=
  if unlState s ≠ 0 ∨ unlReady s = false then s
  else
    let s := { s with fus := { s.fus with reach := 0, lost := 0, outside := 0, cartAt := s.clk.tick, clearAt := none, zeroAt := none } }
    guidTake 17 (lastFrame s) (swungOut s) (setUnl 1 s)

/-- Abort (R275, R276): F21 to 0 at once, F19 after UNL_CLEAR, the other functions fall back. -/
def unlAbort (why : Nat) (s : State) : State :=
  let busy := unlState s == 3
  let s := publish 6 [1#8] ((s.put fFUS_UNL_STAT_WHY why).ev 0x7121 0 why)
  let s := if busy then guidPost 20 (lastFrame s) 0#32 (request 20 3 0#32 s) else s
  let s := { s with fus := { s.fus with clearAt := if busy then some (s.clk.tick + 2000 * s.get fFUS_CFG_UNL_CLEAR) else none } }
  setUnl 0 (forAll [17, 19, 25] fallback s)

/-- ALIGNED → UNLOADING. -/
def unlStart (s : State) : State :=
  let n := lastFrame s
  (guidTake 20 n (unlFlow s) (guidTake 18 n f32One (setUnl 3 s))).put (fFUN_REC_CTL_SP_SRC 25) 3

/-- UNL_STOP, or its equivalent from the cart: UNLOADING ends, ALIGNED and RENDEZVOUS abort (R275, R276). -/
def unlStopOp (s : State) : State :=
  if unlState s = 3 then guidPost 20 (lastFrame s) 0#32 (request 20 3 0#32 (setUnl 4 s))
  else if unlState s = 1 ∨ unlState s = 2 then unlAbort 5 s
  else s

/-- FUS_CTL.UNL_CONFIRM; UNL_STOP in the same write wins (R277). -/
def execUnlConfirm (req : Req) (stop : Bool) (s : State) : Out :=
  if reqIsOem req || !s.wide then .next s
  else if stop then .next (unlStopOp s)
  else if !appOn s || unlState s != 2 then .next s else .next (unlStart s)

/-- The trailer track that a result names is CONFIRMED and of class 4 (R275). -/
def trailerOk (u : UnlIn) (s : State) : Bool :=
  match u.trailer with
  | some t => (s.ftrack t).any fun x => x.confirmed && x.cls == 4
  | none => false

/-- What a result finds of the trailer, the spout and the landing point, and for how many results in a row (R275). -/
def unlSeen (u : UnlIn) (s : State) : State :=
  if unlState s = 0 then s
  else
    let conf := trailerOk u s
    let named (o : Option (Fin 256)) (c : Nat) : Option Nat :=
      (o.map Fin.val).filter fun t => (s.ftrack t).any fun x => x.cls == c
    let tr := named u.trailer 4
    let sp := named u.spout 5
    let t := (s.put fFUS_UNL_STAT_TRAILER (tr.getD 0xFF)).put fFUS_UNL_STAT_SPOUT (sp.getD 0xFF)
    { t with fus := { t.fus with
      trailer := tr, spout := sp
      reach := if conf && u.inReach then t.fus.reach + 1 else 0
      lost := if conf then 0 else t.fus.lost + 1
      outside := if u.outside then t.fus.outside + 1 else 0 } }

/-- The transitions of the unloading sequence at a result (R275). -/
def unlMove (conf : Bool) (u : UnlIn) (s : State) : State :=
  let st := unlState s
  if st = 0 then s
  else if st ≤ 3 ∧ guidState s = 2 then unlAbort 4 s
  else if (st = 2 ∨ st = 3) ∧ 10 ≤ s.fus.lost then unlAbort 1 s
  else if st = 3 ∧ 5 ≤ s.fus.outside then unlAbort 2 s
  else if st ≤ 3 ∧ conf = false ∧ s.fus.cartAt + 40000 ≤ s.clk.tick then unlAbort 3 s
  else if st = 1 ∧ 100 ≤ s.fus.reach then
    let s := setUnl 2 s
    if s.bit fFUS_CFG_UNL_AUTO then unlStart s else s
  else if st = 3 ∧ u.tankLow = true then unlStopOp s
  else s

/-- The targets that unloading sends in its states 1 to 4 (R276). -/
def unlTargets (n : Nat) (u : UnlIn) (s : State) : State :=
  let st := unlState s
  if st = 1 ∨ st = 2 then guidPost 17 n (swungOut s) s
  else if st = 3 then
    let op := (s.fnSt 25).opReq.getD u.f26
    guidPost 25 n (f32Clamp u.f26 (f32Sub op 0x3E99999A#32) (f32Add op 0x3E99999A#32))
      (guidPost 20 n (unlFlow s) (guidPost 18 n f32One (guidPost 19 n u.f20 (guidPost 17 n u.f18
        (s.put (fFUN_REC_CTL_SP_SRC 19) 3)))))
  else if st = 4 then
    let z := if f32IsZero (s.getF (fFUN_REC_SP_ACT 20)) then some (s.fus.zeroAt.getD s.clk.tick) else none
    guidPost 20 n 0#32 (guidPost 18 n f32One { s with fus := { s.fus with zeroAt := z } })
  else s

/-- After an abort F19 runs on until its clearing time ends (R275). -/
def unlClearing (n : Nat) (s : State) : State :=
  match s.fus.clearAt with
  | some t =>
    if t ≤ s.clk.tick then guidPost 18 n 0#32 (request 18 2 0#32 { s with fus := { s.fus with clearAt := none } })
    else guidPost 18 n f32One s
  | none => s

/-- The unloading of one result: alignment, the end level, and the abort conditions of R276. -/
def unlResult (n : Nat) (u : UnlIn) (s : State) : State :=
  unlClearing n (unlTargets n u (unlMove (trailerOk u s) u (unlSeen u s)))

/-! ## Ego-motion (R268, R269) -/

/-- The inputs that enter ego-motion: visual odometry only with a good stereo pair, LiDAR odometry with a HEALTHY unit,
and a GNSS solution of fix type 1 or higher with its integrity passed and not beyond 5σ (R257, R268, R269). -/
def egoUsed (n : Nat) (e : EgoIn) (s : State) : Nat :=
  let g := match gnssSample s n with
    | some (_, fix, integ) => decide (1 ≤ fix) && integ && e.rejected.isNone
    | none => false
  let bit (k : Nat) (ok : Bool) : Nat := if e.used.testBit k && ok then 2 ^ k else 0
  bit 0 (stereoOk s n) + bit 1 (s.get (fFUS_SRC_STATE 6) == 1 || s.get (fFUS_SRC_STATE 7) == 1) + bit 2 true + bit 3 g + bit 4 true

/-- The ego-motion record of frame n; it is valid while at least two of visual odometry, LiDAR odometry and wheel speed are
in use (R268). -/
def writeEgo (n : Nat) (e : EgoIn) (s : State) : State :=
  let used := egoUsed n e s
  let vals := if stereoOk s n then e.vals else e.valsNo
  let s := forUp 9 (fun i t => t.wr (fFUS_EGO_X.addr + 4 * i) (vals.getD i 0#32)) s
  let s := (s.wr fFUS_EGO_SIG.addr e.sigLat).put fFUS_EGO_STAT_USED used
  let s := s.put fFUS_EGO_STAT_FIX (if used / 8 % 2 = 1 then ((gnssSample s n).map fun x => x.2.1).getD 0 else 0)
  let ok := decide (2 ≤ used % 2 + used / 2 % 2 + used / 4 % 2)
  let s := (s.putBit fFUS_RES_STAT_EGO_VALID ok).putBit fFUS_STATUS_EGO_OK ok
  match e.rejected with
  | some d => s.evMax 0x7109 0 0 (f16OfF32 d)
  | none => s

/-! ## The result (R259–R261, R270–R273) -/

/-- The pose of a result at a map update is kept for the yield map (R285). -/
def keepPose (n : Nat) (s : State) : State :=
  if n % 5 ≠ 0 then s
  else
    let p : MapPose := ⟨n, s.bit fFUS_RES_STAT_EGO_VALID, s.rd fFUS_EGO_X.addr, s.rd fFUS_EGO_Y.addr, s.rd fFUS_EGO_YAW.addr,
      s.rd fFUS_EGO_VFWD.addr, decide (s.get fFUS_EGO_STAT_USED / 8 % 2 = 1)⟩
    { s with map := { s.map with poses := (p :: s.map.poses).take 10 } }

/-- The words of a track record (R263); CONF_BY and DENY_BY hold one bit per sensor. -/
def trackWords (s : State) (t : Nat) (x : Track) : List Word :=
  let n (v : Nat) : Word := BitVec.ofNat 32 v
  let mask (l : List Nat) : Nat := ((List.range 11).map fun i => if l.contains i then 2 ^ i else 0).sum
  let b (v : Bool) (k : Nat) : Nat := if v then k else 0
  let flags := b x.confirmed 1 + b x.contested 2 + b x.revised.isSome 4 + b x.inCorr 8 + b (isProtected s t x) 16
    + b (s.fus.trailer == some t) 32
  [n (x.id + 0x10000 * x.cls + 0x1000000 * flags), x.pex, n (mask (confBy x) + 0x10000 * mask (denyBy s x)),
    n (x.hist + 0x100 * (x.classP % 256) + 0x10000 * min x.age 65535)]
  ++ ((List.range 12).map fun k => est x k)
  ++ [n x.first, n (x.first / 4294967296), n x.last, n (x.last / 4294967296),
    n (if s.fus.trailer = some t then s.get fFUS_UNL_CART else 0), n (x.revised.getD 0)]

/-- The record of track t in the result set; a free record reads 0. -/
def writeTrack (t : Nat) (s : State) : State :=
  let ws := match s.ftrack t with
    | some x => trackWords s t x
    | none => []
  forUp 32 (fun k u => u.wr (fFUS_TRK t k).addr (ws.getD k 0#32)) s

/-- A source at a result: a pipeline is HEALTHY while its port streams, a LiDAR unit by its sweeps, a track-level source
while it has a sample (R239, R256, R277). -/
def srcState (s : State) (i : ResultIn) (k : Nat) : Nat :=
  if !srcOn s k then 0
  else if k < 6 then (if s.get (fISP_STATUS_PORT k) = 2 then 1 else 2)
  else if k < 8 then (if (i.absent.any fun u => u.val + 6 == k) || s.get (fFUS_SRC_STATE k) == 0 then 2 else s.get (fFUS_SRC_STATE k))
  else if (sampleAge s i k).isSome then 1 else 2

/-- Sources and ages of a result (R255, R258, R259). -/
def resultSources (i : ResultIn) (s : State) : State :=
  let miss := missingOf s i
  let s := forUp 11 (fun k t => setSrc k (srcState t i k) t) s
  let s := forUp 11 (fun k t => match sampleAge s i k with
    | some a => t.put (fFUS_SRC_AGE k) (min 65535 a)
    | none => t) s
  let s := s.putBit fFUS_RES_STAT_MISSING (!miss.isEmpty)
  forAll miss (fun k t => t.ev 0x7107 0 k) s

/-- The age of the oldest contribution; a GNSS solution that ego-motion did not use has not entered the result (R260). -/
def resultAge (i : ResultIn) (s : State) : State :=
  let ages := (List.range 11).map fun k => if k = 8 ∧ s.get fFUS_EGO_STAT_USED / 8 % 2 = 0 then 0 else (sampleAge s i k).getD 0
  s.put fFUS_RES_AGE_OLDEST (min 65535 (ages.foldl max 0))

/-- The reference sources of a frame, and how long they have differed or agreed (R270). -/
def resultReference (i : ResultIn) (s : State) : State :=
  let g := i.guid
  let mapOk := s.get fFUS_EGO_STAT_FIX == 4 && f32Le (s.rd fFUS_EGO_SIG.addr) 0x3CA3D70A#32
    && f32Le 0x41A00000#32 g.mapAhead
  let want := if s.bit fFUS_CFG_HEADER_KIND then 7 else 6
  let edgeOk := (match g.edge with
    | some t => (s.ftrack t).any fun x => x.confirmed && x.cls == want
    | none => false) && f32Le 0x41200000#32 g.edgeAhead
  let far := f32Lt (f32OfRatio false (s.get fFUS_GUID_CFG_EDGE_MAP_TOL) 100) (f32Abs (f32Sub g.edgeLat g.mapLat))
  let both := mapOk && edgeOk
  let apart := if both && far then s.fus.apart + 1 else 0
  let agree := if both && !far then s.fus.agree + 1 else 0
  { s with fus := { s.fus with
    mapOk := mapOk, edgeOk := edgeOk, edge := g.edge.map Fin.val, apart := apart, agree := agree
    forceEdge := if 50 ≤ apart then true else if 50 ≤ agree then false else s.fus.forceEdge } }

/-- The reference in force follows what is available; every change is recorded (R270). -/
def resultSwitch (i : ResultIn) (s : State) : State :=
  let r := reference s
  if guidState s = 0 ∨ r = 0 ∨ s.get fFUS_GUID_STAT_SRC = r then s
  else
    let d := f32Abs (f32Sub i.guid.edgeLat i.guid.mapLat)
    ((s.put fFUS_GUID_STAT_SRC r).putBit fFUS_EVT_GUID_CHG true).evMax 0x7112 0 r (f16OfF32 d)

/-- An obstacle: a CONFIRMED or CONTESTED track of class PERSON to TRAILER in the corridor, other than the RENDEZVOUS
trailer (R273). -/
def isObstacle (s : State) (x : Nat × Track) : Bool :=
  (x.2.confirmed || x.2.contested) && x.2.inCorr && decide (x.2.cls ≤ 4) && s.fus.trailer != some x.1

/-- The obstacle with the lowest record index. -/
def obstacle (s : State) : Option (Nat × Track) :=
  ((List.range 256).findSome? fun t => s.fus.tracks.find? fun x => x.1 == t && isObstacle s x)

/-- An obstacle stops the machine: F26 to 0 m/s, and F19 and F21 to 0 while unloading (R273). -/
def obstacleStop (n : Nat) (front : F32) (x : Nat × Track) (s : State) : State :=
  let s := ((setGuid 2 s).putBit fFUS_EVT_OBSTACLE true).evx 0x7113 x.1 x.2.cls (f16OfF32 front) f16NaN
  let s := guidTake 25 n 0#32 s
  if unlState s = 3 then guidPost 20 n 0#32 (guidPost 18 n 0#32 s) else s

/-- The guidance of one result (R272, R273). -/
def resultGuidance (i : ResultIn) (s : State) : State :=
  let n := i.frame
  let s := resultSwitch i (resultReference i s)
  let ob := obstacle s
  let s := { s with fus := { s.fus with clear := if ob.isSome then 0 else s.fus.clear + 1
                                        noRef := if reference s = 0 then s.fus.noRef + 1 else 0 } }
  let s := match ob with
    | some x =>
      if guidState s = 1 then
        obstacleStop n (((i.tracks.find? fun o => o.t.val == x.1).map fun o => o.front).getD 0#32) x s
      else s
    | none => s
  let s := if guidState s ≠ 0 ∧ 25 ≤ s.fus.noRef then guidIdle 2 s else s
  if guidState s = 0 then s
  else
    let s := guidPost 26 n i.guid.f27 (s.put fFUS_GUID_ERR_LAT (toField 16 i.guid.errLat))
    let s := s.put fFUS_GUID_ERR_HEAD (toField 16 i.guid.errHead)
    let s := if guidState s = 2 then guidPost 25 n 0#32 s else s
    let big := if 100 < i.guid.errLat.natAbs then s.fus.bigErr + 1 else 0
    let s := { s with fus := { s.fus with bigErr := big } }
    if big = 25 then s.evMax 0x7114 0 0 (f16OfRatio false i.guid.errLat.natAbs 1000) else s

/-- The corridor of the result, × 1 cm (R271, R277). -/
def resultCorridor (v : F32) (s : State) : State :=
  let cm (x : F32) : Nat := min 65535 (f32Round (f32Mul x 0x42C80000#32)).toNat
  (s.put fFUS_CORRIDOR_LEN (cm (corridorLen s v))).put fFUS_CORRIDOR_WID (cm (corridorWid s))

/-- Result n may be issued: the next in order, from its boundary on; with a contribution missing only at 400 n + 800
(R259). -/
def resultDue (s : State) (i : ResultIn) : Bool :=
  s.wide && s.bit fFUS_STATUS_RUN && decide (400 * i.frame ≤ s.clk.tick)
    && ((missingOf s i).isEmpty || decide (400 * i.frame + 800 ≤ s.clk.tick))
    && (match s.fus.last with
      | some n => i.frame == n + 1
      | none => true)

def execResultIssue (inp : ResultIn) (s : State) : Out :=
  if !resultDue s inp then .next s
  else
    let n := inp.frame
    let s := resultAge inp (writeEgo n inp.ego (resultSources inp s))
    let v := s.rd fFUS_EGO_VFWD.addr
    let s := resultCorridor v s
    let s := forAll (inp.fresh.filterMap (candidate s n)) (newTrack v inp) (forAll inp.tracks (trackFrame v inp) s)
    let s := { s with fus := { s.fus with last := some n } }
    let s := unlResult n inp.unl (resultGuidance inp s)
    let s := forUp 256 writeTrack s
    let s := (s.put fFUS_RES_STAT_NTRK s.fus.tracks.length).put fFUS_STATUS_NTRK s.fus.tracks.length
    let s := s.put fFUS_CNT_CONTEST_NOW ((s.fus.tracks.filter fun x => x.2.contested).length)
    let s := (s.putBit fFUS_RES_STAT_REVISED (s.fus.tracks.any fun x => x.2.revised.isSome)).putBit fFUS_RES_STAT_LATE_DROP
      s.fus.lateDrop
    let s := (s.put64 fFUS_RES_FRAME_LO.addr n).putBit fFUS_EVT_RESULT true
    let s := keepPose n s
    let s := if s.bit fFUS_RES_STAT_EGO_VALID then s.svcReady 3 else s
    .next { s with fus := { s.fus with lateDrop := false
                                       past := ((n, s.fus.tracks) :: s.fus.past).take 3
                                       tracks := s.fus.tracks.map fun x => (x.1, { x.2 with revised := none }) } }

/-- A sensor-level sample of an issued result, while fusion runs: an out-of-sequence update within 1,200 ticks, otherwise it is dropped
(R266). -/
def execLateSample (t : Nat) (obs : List TrackObs) (s : State) : Out :=
  let issued := match s.fus.last with
    | some n => decide (t ≤ 400 * n)
    | none => false
  if !s.wide || !s.bit fFUS_STATUS_RUN || !issued || decide (s.clk.tick < t) then .next s
  else
    let d := s.clk.tick - t
    let s := s.putBit fFUS_EVT_LATE true
    if d ≤ 1200 then
      let s := forAll obs (fun o u => match u.ftrack o.t with
        | some x =>
          let k := lastFrame u - t / 400
          let hit := !o.assoc.isEmpty && decide (k < 5) && !x.hist.testBit k
          let x := { x with est := if stereoOk u (t / 400) then o.est else o.estNo
                            classP := o.classP, pex := heldPex x o.pex
                            hist := if hit then x.hist + 2 ^ k else x.hist
                            last := if o.assoc.isEmpty then x.last else max x.last t
                            revised := some (min (x.revised.getD (t / 400)) (t / 400)) }
          judgeTrack o.t (o.assoc.foldl (fun y i => observe i.val true false y) x) u
        | none => u) s
      .next ((s.inc fFUS_CNT_LATE_OOS).evMax 0x7105 0 0 (f16OfNat d))
    else
      let s := { s with fus := { s.fus with lateDrop := true } }
      .next ((s.inc fFUS_CNT_LATE_LATE_DROP).evMax 0x7106 0 0 (f16OfNat d))

/-- The words a read of FUS_RES_FRAME_LO latches: header, ego-motion and tracks (R261). -/
def fusLatched (a : Nat) : Bool :=
  (decide (0x400B0020 ≤ a) && decide (a < 0x400B005C)) || (decide (0x400B8000 ≤ a) && decide (a < 0x400C0000))

/-- The result set is latched for bank b (R261). -/
def latchRes (b : Nat) (s : State) : State :=
  { s with fus := { s.fus with latch := tabSet (fun _ => []) s.fus.latch b (s.regs.filter fun x => fusLatched x.1) } }

/-- A read of FUS_RES_FRAME_LO latches the result set for the reading core (R261). -/
def execFusResRead (req : Req) (s : State) : Out :=
  if !s.wide then .next (s.answer 0#32)
  else .next ((latchRes (reqBank req) s).answer (s.rd fFUS_RES_FRAME_LO.addr))

/-! ## Stopping and starting (R33, R37, R422) -/

/-- The FUSE domain stops: no result is issued; the lanes' fallbacks act when the targets age out. -/
def fusStop (s : State) : State := s.putBit fFUS_STATUS_RUN false

/-- Fusion starts without tracks; its first result is that of the next frame boundary, and a configured source is ABSENT
until it has given a sample (log entry 138). -/
def fusStart (s : State) : State :=
  if !s.wide then s
  else
    let s := forUp 11 (fun k t => setSrc k (if srcOn t k then 2 else 0) t) (s.putBit fFUS_STATUS_RUN true)
    let s := { s with fus := { s.fus with tracks := [], past := [], last := some (s.clk.tick / 400), lateDrop := false } }
    { (s.put fFUS_UNL_STAT_TRAILER 0xFF).put fFUS_UNL_STAT_SPOUT 0xFF with fus := { s.fus with trailer := none, spout := none } }

end Sys2Proof.Machine
end

