-- ==== Sys2Proof/Machine/Clock.lean ====
section
/-!
DEFINITION. The clock and tick generator (R43–R59, R231, R509): the latch set, time status, steps, slew, the error
bound, leap seconds and a worker's alignment.
-/
namespace Sys2Proof.Machine

/-! ## Reads (R46, R47) -/

def clkLatch0 : ClkLatch := ⟨0, 0, 0⟩

def State.clkLatch (s : State) (b : Nat) : ClkLatch := tabGet (fun _ => clkLatch0) s.clk.latch b

/-- A signed 64-bit value as a register pair holds it. -/
def u64 (i : Int) : Nat := (i % 18446744073709551616).toNat

/-- The latch set of bank b as time stands (R47). -/
def latchClk (b : Nat) (s : State) : State :=
  let x : ClkLatch := ⟨s.clk.tick, s.clk.cycle, u64 s.now⟩
  { s with clk := { s.clk with latch := tabSet (fun _ => clkLatch0) s.clk.latch b x } }

/-- A read of CLK_TICK_LO latches the set for its requester and answers the low word of the tick count (R47). -/
def execClkTickRead (req : Req) (cycle : Fin 20000) (s : State) : Out :=
  let s := latchClk (reqBank req) { s with clk := { s.clk with cycle := cycle } }
  .next (s.answer (BitVec.ofNat 32 s.clk.tick))

/-! ## Time status (R51) -/

def timeStat (s : State) : Nat := s.get fCLK_STATUS_TIME_STAT

/-- A change of time status: EVT.STATUS_CHG and 0x1050 with the new status; the tick of the entry to HOLDOVER and to
STEP is kept, on a worker that copies the manager's status too (R51, R59). -/
def setTimeStat (v : Nat) (s : State) : State :=
  if timeStat s = v then s
  else
    let s := { s with clk := { s.clk with
      holdAt := if v = 1 then s.clk.tick else s.clk.holdAt
      stepAt := if v = 3 then s.clk.tick else s.clk.stepAt } }
    ((s.put fCLK_STATUS_TIME_STAT v).putBit fCLK_EVT_STATUS_CHG true).ev 0x1050 0 v

def isManager (s : State) : Bool := s.straps.manager

/-- 1 ms in ns. -/
def msNs : Nat := 1000000

/-- A valid time solution with error `e`, module time minus GNSS time in ns, on the manager (R51, R509). -/
def timeSolution (e : Int) (s : State) : State :=
  let s := { s with clk := { s.clk with noSol := 0, err := e, resid := e * 1000 } }
  let s := (s.put fCLK_TERR (sat32 e)).putBit fCLK_STATUS_RTC_ONLY false
  if timeStat s = 3 then
    if s.bit fCLK_STATUS_STEP_PEND then s else { s with clk := { s.clk with measured := true } }
  else if e.natAbs ≤ msNs then setTimeStat 0 s
  else (setTimeStat 3 s).putBit fCLK_STATUS_STEP_PEND true

/-- The growth of the error bound t ticks after the entry to HOLDOVER, ns, rounded up (R231). -/
def boundGrowth (t : Nat) : Nat :=
  if t ≤ 1200000 then (1900 * t + 1199999) / 1200000
  else if t ≤ 12000000 then 1900 + (8100 * (t - 1200000) + 10799999) / 10800000
  else if t ≤ 72000000 then 10000 + (39900 * (t - 12000000) + 59999999) / 60000000
  else (49900 * t * t + 5183999999999999) / 5184000000000000

/-- The case stands within ±2 K of its value at the entry to HOLDOVER (R231). -/
def steadyCase (s : State) : Bool := f32Le (f32Abs (f32Sub (s.sig (topLane s) 161).val s.clk.caseAt)) 0x40000000#32

/-- The error bound of this tick, ns (R509). -/
def terrBound (s : State) : Nat :=
  if !isManager s || s.bit fCLK_STATUS_RTC_ONLY then 0xFFFFFFFF
  else if timeStat s = 0 ∨ timeStat s = 3 then min 0xFFFFFFFF ((s.clk.resid.natAbs + 999) / 1000 + 20)
  else min 0xFFFFFFFF
    (s.clk.bound0 + boundGrowth (s.clk.tick - s.clk.holdAt) * (if steadyCase s then 1 else 4))

def showBound (s : State) : State := s.put fCLK_TERR_BOUND (terrBound s)

/-- The correction of one tick, ps: at most 50 ps toward 0 on the manager, at most 2,500 ps on a worker (R50). -/
def clampSlew (lim x : Int) : Int := max (-lim) (min lim x)

/-- A worker's alignment offset, ps. -/
def alignOffset (s : State) : Int := ofField 32 (s.get fCLK_ALIGN)

def setAlign (v : Nat) (s : State) : State :=
  if s.get fCLK_STATUS_ALIGN = v then s else (s.put fCLK_STATUS_ALIGN v).putBit fCLK_EVT_ALIGN_CHG true

/-- Discipline at a tick edge: the manager slews in LOCKED while at most 1 ms remains; a worker slews out its offset,
counts the ticks within 12 ns, and leaves ALIGNED above them (R50, R51, R55, R509). -/
def slewTick (s : State) : State :=
  if isManager s then
    let corr := if timeStat s = 0 ∧ s.clk.resid.natAbs ≤ 1000 * msNs then clampSlew 50 s.clk.resid else 0
    let s := { s with clk := { s.clk with resid := s.clk.resid - corr, slewPs := corr } }
    showBound (s.put fCLK_SLEW_PS (toField 16 corr))
  else
    let al := s.get fCLK_STATUS_ALIGN
    let off := alignOffset s
    let corr := if al = 2 then 0 else clampSlew 2500 (-off)
    let inside := decide (off.natAbs ≤ 12000)
    let s := { s with clk := { s.clk with slewPs := corr, alignRun := if al != 2 && inside then s.clk.alignRun + 1 else 0 } }
    let s := s.put fCLK_SLEW_PS (toField 16 corr)
    let s := if al = 1 ∧ inside = false then (setAlign 0 s).ev 0x1040 else s
    showBound s

/-- Ten consecutive epochs without a valid solution; on a LOST worker, 500 ms without alignment (R51). -/
def execHoldoverEntry (s : State) : Out :=
  let due := if isManager s then decide (10 ≤ s.clk.noSol)
    else s.get fCLK_STATUS_ALIGN == 2 && decide (s.clk.lostAt + 10000 ≤ s.clk.tick)
  if timeStat s = 0 ∧ due = true then
    let b0 := terrBound s
    let s := { s with clk := { s.clk with bound0 := b0, caseAt := (s.sig (topLane s) 161).val } }
    .next (setTimeStat 1 s)
  else .next s

/-- The module runs its own time status machine: the manager, or a worker that is LOST (R51). -/
def ownTime (s : State) : Bool := isManager s || s.get fCLK_STATUS_ALIGN == 2

/-- The time in HOLDOVER reaches CLK_HOLD_LIM (R51). -/
def execHoldoverLimit (s : State) : Out :=
  if ownTime s = true ∧ timeStat s = 1 ∧ s.clk.holdAt + 20000 * s.get fCLK_HOLD_LIM_SEC ≤ s.clk.tick then .next (setTimeStat 2 s)
  else .next s

/-- 400 ticks after the step was applied STEP returns to LOCKED; an error measured meanwhile is slewed when it is at
most 1 ms (R51). -/
def execStepSettle (s : State) : Out :=
  if ownTime s = true ∧ timeStat s = 3 ∧ s.bit fCLK_STATUS_STEP_PEND = false ∧ s.clk.stepAt + 400 ≤ s.clk.tick then
    .next (setTimeStat 0 { s with clk := { s.clk with resid := if s.clk.measured then s.clk.resid else 0, measured := false } })
  else .next s

/-- A step of `d` ns at T of a frame boundary (R52). -/
def applyStep (d : Int) (s : State) : State :=
  let s := { s with clk := { s.clk with tbase := s.clk.tbase + d, stepAt := s.clk.tick, measured := false } }
  let s := (s.put64 fCLK_STEP_LO.addr (u64 d)).putBit fCLK_EVT_STEPPED true
  s.evMax 0x1051 0 0 (f16OfInt (Int.tdiv d 1000))

/-- The system's count at the local tick: a worker that has not joined reads it from the headers (R44). -/
def sysTick (s : State) : Int :=
  if isManager s || s.ecn.wasJoined then s.clk.tick else s.clk.tick + s.ecn.diff

/-- Keeps the announced steps for which `ok` holds; STEP_PEND shows that one waits, on a worker as on the manager (R58,
R325). -/
def keepSteps (ok : Int × Nat → Bool) (s : State) : State :=
  let l := s.clk.steps.filter ok
  let s := { s with clk := { s.clk with steps := l } }
  if isManager s then s else s.putBit fCLK_STATUS_STEP_PEND (!l.isEmpty)

/-- The step that falls at this frame boundary: the manager's pending one, or those that STEP messages announced (R52,
R325). A worker that has not joined yet has no time base of the system's: the steps that fall between its ADMIT and
its join tick go into the `tbase_ns` it will load (R44). -/
def frameStep (s : State) : State :=
  let s := if s.bit fCLK_STATUS_STEP_PEND && isManager s then
      let d := -s.clk.err
      applyStep d ({ s with clk := { s.clk with resid := 0, err := 0 } }.putBit fCLK_STATUS_STEP_PEND false)
    else s
  let due := s.clk.steps.filter fun x => decide ((x.2 : Int) ≤ sysTick s)
  if due.isEmpty then s
  else
    let tot := (due.map Prod.fst).sum
    let s := keepSteps (fun x => decide (sysTick s < (x.2 : Int))) s
    let s := { s with ecn := { s.ecn with joinFor := s.ecn.joinFor.map fun j => (j.1, j.2 + tot) } }
    if s.ecn.wasJoined then applyStep tot s else s

/-! ## Leap seconds (R49) -/

/-- UTC as the module reports it: whole seconds of UTC since 1980-01-06, the nanoseconds of the second, and whether the
second is the 60th of the last minute before a positive leap. -/
structure Utc where
  sec : Int
  ns : Nat
  sixty : Bool
  deriving DecidableEq, Repr

/-- UTC is module time less TAI − UTC − 19 s. A positive leap is reported as second 60 of the last UTC minute: it is the
last second before the leap time, whose second number is the one before it (R49; DEDUCED, log entry 164). -/
def State.utc (s : State) : Utc :=
  let t := s.now - 1000000000 * (s.get fCLK_LEAP_GPS_UTC : Int)
  let at0 : Int := s.get64 fCLK_LEAP_AT_LO.addr
  let ins := s.bit fCLK_LEAP_PEND && !s.bit fCLK_LEAP_NEG && decide (at0 - 1000000000 ≤ s.now) && decide (s.now < at0)
  ⟨t / 1000000000 - (if ins then 1 else 0), (t % 1000000000).toNat, ins⟩

/-- A leap-second table from the navigation message or a LEAP message. One that still shows a leap pending after its
time does not set PEND again, and leaves a table already held as it is. -/
def setLeap (t : LeapTable) (s : State) : State :=
  let held := s.bit fCLK_LEAP_VALID
  let s := s.putBit fCLK_LEAP_VALID true
  match t.pend with
  | none => ((s.put fCLK_LEAP_GPS_UTC t.gpsUtc).putBit fCLK_LEAP_PEND false).putBit fCLK_LEAP_NEG false
  | some (neg, at0) =>
    if (at0 : Int) ≤ s.now then (if held then s else s.put fCLK_LEAP_GPS_UTC t.gpsUtc)
    else (((s.put fCLK_LEAP_GPS_UTC t.gpsUtc).putBit fCLK_LEAP_PEND true).putBit fCLK_LEAP_NEG neg).put64
      fCLK_LEAP_AT_LO.addr at0

/-- The leap time is reached: the module updates the table itself. -/
def execLeapSecond (s : State) : Out :=
  if s.bit fCLK_LEAP_PEND && decide ((s.get64 fCLK_LEAP_AT_LO.addr : Int) ≤ s.now) then
    let g := s.get fCLK_LEAP_GPS_UTC
    let s := s.put fCLK_LEAP_GPS_UTC (if s.bit fCLK_LEAP_NEG then g + 255 else g + 1)
    let s := ((s.putBit fCLK_LEAP_PEND false).putBit fCLK_LEAP_NEG false).putBit fCLK_EVT_LEAP true
    .next (s.ev 0x1052)
  else .next s

/-! ## Alignment of a worker (R55) -/

/-- 400 consecutive ticks within 12 ns. -/
def execAlignReached (s : State) : Out :=
  if isManager s = false ∧ s.get fCLK_STATUS_ALIGN = 0 ∧ 400 ≤ s.clk.alignRun then .next ((setAlign 1 s).ev 0x1042)
  else .next s

/-- No tick edge on either Ecnil port for 4 consecutive ticks. -/
def execAlignLost (s : State) : Out :=
  if isManager s = false ∧ s.get fCLK_STATUS_ALIGN ≠ 2 ∧ s.clk.edgeAt + 4 ≤ s.clk.tick then
    let s := { s with clk := { s.clk with lostAt := s.clk.tick, alignRun := 0 } }
    .next ((setAlign 2 s).ev 0x1041)
  else .next s

end Sys2Proof.Machine
end

