-- ==== Sys2Proof/Machine/Gnss.lean ====
section
/-!
DEFINITION. The GNSS baseband (R208–R236): antenna bias, interference, searches, tracking channels, epochs and
solutions, corrections, and the time pulse TP0. On an FYH7-B and on a worker it is held in reset (R14, R233), so its
commands do nothing there; TP0 is driven on every module.
-/
namespace Sys2Proof.Machine

/-! ## Antenna bias (R210, R211) -/

def antState (s : State) (a : Nat) : Nat := s.get (fGNS_ANT_STATE a)

def setAnt (a st mA : Nat) (s : State) : State :=
  ((s.put (fGNS_ANT_STATE a) st).put (fGNS_ANT_I_MA a) (min mA 255)).putBit fGNS_EVT_ANT true

/-- The antenna `a` begins a trial at this tick, or its trial ends. -/
def setTrial (a : Nat) (b : Bool) (s : State) : State :=
  let l := s.gns.trial.filter fun x => x.1 != a
  { s with gns := { s.gns with trial := if b then (a, s.clk.tick) :: l else l } }

/-- The antenna has been on trial for 1 s. -/
def trialDone (s : State) (a : Nat) : Bool := s.gns.trial.any fun x => x.1 == a && decide (x.2 + 20000 ≤ s.clk.tick)

/-- The bias of an enabled antenna goes on, OFF to OK. -/
def biasOn (s : State) : State :=
  forUp 2 (fun a t => if t.bit (fGNS_ANT_EN a) && antState t a == 0 then setAnt a 1 0 t else t) s

/-- Overcurrent above 120 mA or undervoltage for 1 ms: the bias goes off, also when it was a trial. -/
def execAntennaShort (a : Fin 2) (mA : Nat) (low : Bool) (s : State) : Out :=
  if s.wide = true ∧ antState s a = 1 ∧ (120 < mA ∨ low = true) then
    let s := setTrial a false { s with gns := { s.gns with shortAt := tabSet (fun _ => 0) s.gns.shortAt a s.clk.tick } }
    .next ((setAnt a 3 0 s).evMax 0x6001 a 0 (f16OfNat mA))
  else .next s

/-- The bias goes on again for a trial. -/
def startTrial (a : Nat) (s : State) : State := setTrial a true (setAnt a 1 0 s)

def execAntennaTrial (a : Fin 2) (s : State) : Out :=
  if s.wide = true ∧ antState s a = 3 ∧ tabGet (fun _ => 0) s.gns.shortAt a + 20000 ≤ s.clk.tick then
    .next (startTrial a s)
  else .next s

/-- Below 2 mA for 1 s: OPEN, the bias stays on. -/
def execAntennaOpen (a : Fin 2) (mA : Nat) (s : State) : Out :=
  if s.wide = true ∧ antState s a = 1 ∧ mA < 2 then
    .next ((setTrial a false (setAnt a 2 mA s)).evx 0x6002 a 0 (f16OfNat mA) f16NaN)
  else .next s

/-- At 2 mA or more for 1 s after OPEN, or within the limits of R210 for 1 s on trial. -/
def execAntennaOk (a : Fin 2) (mA : Nat) (s : State) : Out :=
  let back := (antState s a == 2 && decide (2 ≤ mA)) || (antState s a == 1 && trialDone s a && decide (mA ≤ 120))
  if s.wide && back then .next ((setTrial a false (setAnt a 1 mA s)).ev 0x6003 a) else .next s

/-- GNS_CTL.ANT_RETRY: a trial of each SHORT bias at once (R233). -/
def execAntRetry (req : Req) (s : State) : Out :=
  if reqIsOem req || !s.wide then .next s
  else .next (forUp 2 (fun a t => if antState t a = 3 then startTrial a t else t) s)

/-- The tick lies 5 s after `t`. -/
def fiveSec (s : State) (t : Option Nat) : Bool :=
  match t with
  | some k => decide (k + 100000 ≤ s.clk.tick)
  | none => false

/-- ANT0 has yielded fewer than four used satellites for 5 s while ANT1 yielded four or more: ANT1 serves the
position. -/
def execAnt1Substitute (s : State) : Out :=
  if s.wide = true ∧ fiveSec s s.gns.subFrom = true ∧ s.bit fGNS_SOL_STAT_SUBST = false then
    .next (((s.putBit fGNS_SOL_STAT_SUBST true).putBit fGNS_SOL_STAT_HEAD_OK false).ev 0x6004 0 1)
  else .next s

/-- ANT0 has yielded four or more for 5 s: the position returns to it. -/
def execAnt0Restore (s : State) : Out :=
  if s.wide = true ∧ fiveSec s s.gns.backFrom = true ∧ s.bit fGNS_SOL_STAT_SUBST = true then
    .next ((s.putBit fGNS_SOL_STAT_SUBST false).ev 0x6004 0 0)
  else .next s

/-! ## Interference (R212, R213) -/

/-- The notch of a band that filters a component at `freq`: an engaged one whose −3 dB width of 200 kHz takes it in, in
units of 4 Hz (R212, R233). -/
def notchOf (s : State) (a b : Nat) (freq : Int) : Option Nat :=
  (List.range 4).find? fun k => s.bit (fGNS_NOTCH_ON a b k)
    && decide ((freq - ofField 24 (s.get (fGNS_NOTCH_FREQ a b k))).natAbs ≤ 25000)

def tuneNotch (a b k : Nat) (freq : Int) (level : Nat) (s : State) : State :=
  (s.put (fGNS_NOTCH_FREQ a b k) (toField 24 freq)).put (fGNS_NOTCH_LEVEL a b k) (min level 127)

/-- A narrowband component above NOTCH_THR: the notch that filters it follows its frequency; otherwise the first free
notch of the band engages, or the component is left unfiltered and counted. -/
def execNotchEngage (a : Fin 2) (b : Fin 3) (freq : Int) (level : Nat) (s : State) : Out :=
  if !s.wide || decide (level ≤ s.get fGNS_CFG_NOTCH_THR) then .next s
  else match notchOf s a b freq, (List.range 4).find? fun k => !s.bit (fGNS_NOTCH_ON a b k) with
    | some k, _ => .next (tuneNotch a b k freq level s)
    | none, none => .next (s.inc (fGNS_JAM_OVERFLOW a b))
    | none, some k =>
      let s := ((tuneNotch a b k freq level s).putBit (fGNS_NOTCH_ON a b k) true).setBitAt (fGNS_JAM_NOTCHES a b) k true
      .next (s.evMax 0x6012 (12 * a.val + 4 * b.val + k) 0 (f16OfNat level))

/-- A component below NOTCH_THR − 3 dB for 100 ms releases its notch. -/
def execNotchRelease (a : Fin 2) (b : Fin 3) (k : Fin 4) (level : Nat) (s : State) : Out :=
  if s.wide = true ∧ s.bit (fGNS_NOTCH_ON a b k) = true ∧ level + 3 < s.get fGNS_CFG_NOTCH_THR then
    .next ((s.putBit (fGNS_NOTCH_ON a b k) false).setBitAt (fGNS_JAM_NOTCHES a b) k false)
  else .next s

/-- The jamming indicator J of a band (R213). -/
def jamJ (m : BandMeas) (notches : Nat) : Nat :=
  let drop := f32Max 0#32 (f32Sub m.nom m.gain)
  min 255 ((f32Round (f32Mul (f32OfNat 8) drop)).toNat + 24 * notches + (if m.ovl then 32 else 0))

def bitCount (n : Nat) : Nat := ((List.range 4).map fun i => n / 2 ^ i % 2).sum

/-- One band at an epoch: J, the exclusion above JAM_LIM, and the run of epochs that lets it return. -/
def bandEpoch (m : BandMeas) (i : Nat) (s : State) : State :=
  let a := i / 3
  let b := i % 3
  let j := jamJ m (bitCount (s.get (fGNS_JAM_NOTCHES a b)))
  let lim := s.get fGNS_CFG_JAM_LIM
  let s := (s.put (fGNS_JAM_J a b) j).put (fGNS_JAM_GAIN a b)
    (min 255 (f32Round (f32Mul m.gain (f32OfNat 4))).toNat)
  let g := if j + 16 ≤ lim then tabGet (fun _ => 0) s.gns.good i + 1 else 0
  let s := { s with gns := { s.gns with good := tabSet (fun _ => 0) s.gns.good i g } }
  if lim < j ∧ s.bitAt fGNS_STATUS_EXCL i = false then
    ((s.setBitAt fGNS_STATUS_EXCL i true).putBit fGNS_EVT_JAM true).evMax 0x6010 i 0 (f16OfNat j)
  else s

/-- What channel `c` latches at the epoch (R221). -/
def measEpoch (m : EpochMeas) (c : Nat) (s : State) : State :=
  (((s.wr (fGNS_TRK_CARR_CYC c).addr m.cyc).wr (fGNS_TRK_CARR_FRAC c).addr m.frac).put (fGNS_TRK_CODE_PH_PH c) m.codePh).wr
    (fGNS_TRK_CODE_CNT c).addr m.cnt

/-- The age of the corrections in use, × 0.1 s (R233). -/
def corrAge (s : State) : Nat :=
  min 1023 ((s.clk.tick - tabGet (fun _ => 0) s.gns.obsAt (s.gns.source.getD 0)) / 2000)

/-- At T of a GNSS epoch boundary the measurements of all 384 channels are latched and the jamming indicators updated; a
band excluded before this boundary is left out of the epoch's solution; an epoch counts as one without a valid solution
until one arrives (R51, R213, R221). -/
def execGnssEpoch (meas : List EpochMeas) (bands : List BandMeas) (s : State) : Out :=
  if !s.wide || s.clk.tick % 1000 != 0 then .next s
  else
    let s := { s with gns := { s.gns with exclUsed := s.get fGNS_STATUS_EXCL, epoch := some s.clk.tick } }
    let s := forAll ((List.range 384).zip meas) (fun x t => measEpoch x.2 x.1 t) s
    let s := forAll ((List.range 6).zip bands) (fun x t => bandEpoch x.2 x.1 t) s
    let s := if s.bit fGNS_CORR_STAT_IN_USE then s.put fGNS_CORR_STAT_AGE (corrAge s) else s
    .next { s with clk := { s.clk with noSol := s.clk.noSol + 1 } }

/-- 20 consecutive epochs at or below JAM_LIM − 16 return the band. -/
def execBandReturn (a : Fin 2) (b : Fin 3) (s : State) : Out :=
  let i := 3 * a.val + b.val
  if s.wide = true ∧ s.bitAt fGNS_STATUS_EXCL i = true ∧ 20 ≤ tabGet (fun _ => 0) s.gns.good i then
    let s := (s.setBitAt fGNS_STATUS_EXCL i false).putBit fGNS_EVT_JAM true
    .next (s.evx 0x6011 i 0 (f16OfNat (s.get (fGNS_JAM_J a b))) f16NaN)
  else .next s

/-! ## Signals (R208, R215, R235) -/

/-- The system of a signal code: GPS, Galileo, BeiDou, GLONASS, SBAS, as the bits of GNS_CFG.SYS (R233, R235). -/
def sigSys (sig : Nat) : Nat := if sig ≤ 2 then 0 else if sig ≤ 5 then 1 else if sig ≤ 8 then 2 else if sig ≤ 10 then 3 else 4

/-- The RF band of a signal code (R208). -/
def sigBand (sig : Nat) : Nat := ([0, 1, 2, 0, 2, 1, 0, 0, 2, 0, 1, 0] : List Nat).getD sig 0

/-- The satellites of a system: PRN, or the GLONASS frequency number + 7 (R208, R234; Galileo and BeiDou PRESUMED, log
entry 136). -/
def svOk (sys sv : Nat) : Bool :=
  match sys with
  | 0 => decide (1 ≤ sv) && decide (sv ≤ 32)
  | 1 => decide (1 ≤ sv) && decide (sv ≤ 36)
  | 2 => decide (1 ≤ sv) && decide (sv ≤ 63)
  | 3 => decide (sv ≤ 13)
  | _ => decide (120 ≤ sv) && decide (sv ≤ 158)

/-- The baseband serves the signal and its system is enabled (R208, R233). -/
def served (s : State) (sig sv : Nat) : Bool :=
  decide (sig ≤ 11) && svOk (sigSys sig) sv && s.bitAt fGNS_CFG_SYS (sigSys sig)

/-- The most code periods of an interval: 20 for a code of 1 ms, 5 for Galileo E1, and for the longer codes what keeps
it at 20 ms (R218; the length of the L2C and B1C codes is PRESUMED, log entry 136). -/
def intMax (sig : Nat) : Nat := if sig = 3 then 5 else if sig = 1 then 1 else if sig = 7 then 2 else 20

/-! ## Start and acquisition (R214–R216) -/

/-- GN0 (0) or GN1 (1) runs: GNSS has started, an update has not stopped it, and the core is not halted (R232, R439). -/
def gnRuns (s : State) (k : Nat) : Bool := s.wide && s.upd.gnsUp && !s.bitAt fSEC_HALT_CORES (8 + k)

def State.trk (s : State) (c : Nat) : Trk := tabGet (fun _ => Trk.init) s.gns.trk c
def State.setTrk (s : State) (c : Nat) (x : Trk) : State :=
  { s with gns := { s.gns with trk := tabSet (fun _ => Trk.init) s.gns.trk c x } }

/-- The channels that run. -/
def showNtrk (s : State) : State :=
  s.put fGNS_STATUS_NTRK (((List.range 384).filter fun c => s.bit (fGNS_TRK_CFG_EN c)).length)

/-- The code chips of a signal that is acquired by search (R215). -/
def codeChips (sig : Nat) : Nat := if sig = 6 then 2046 else if sig = 9 then 511 else if sig = 3 then 4092 else 1023

/-- The cells of a search: half-chip code bins by Doppler bins (R215, R216); one for a handover (DESIGN CHOICE, log entry
142). -/
def searchCells (q : Search) : Nat :=
  match q.kind with
  | .cold => 2 * codeChips q.sig * 33
  | .near => if q.sig = 3 then 360 else 80 * 3
  | .aided => if q.sig = 3 then 360 else 2 * codeChips q.sig * 3
  | .handover => 1

/-- ceil(n / 1,024) blocks. -/
def searchBlocks (q : Search) : Nat := (searchCells q + 1023) / 1024

/-- Passes over the whole bank: one up to 32 blocks. -/
def searchPasses (q : Search) : Nat := max 1 ((searchBlocks q + 31) / 32)

/-- The coherent interval in ms, and the intervals added: 8 in a cold search, otherwise 4. -/
def searchMs (q : Search) : Nat := (if q.sig = 3 then 4 else 1) * (if q.kind = .cold then 8 else 4) * searchPasses q

/-- The blocks of the bank that a search holds while it runs. -/
def bankBlocks (q : Search) : Nat := min 32 (searchBlocks q)

/-- The queue's searches start in its order while the bank of 32 blocks has room for the next one (R214). -/
def pumpBank (tick : Nat) : List Search → List (Search × Nat) → List Search × List (Search × Nat)
  | [], run => ([], run)
  | q :: qs, run =>
    if bankBlocks q + (run.map fun r => bankBlocks r.1).sum ≤ 32 then pumpBank tick qs (run ++ [(q, tick + 20 * searchMs q)])
    else (q :: qs, run)

def pumpSearches (s : State) : State :=
  let r := pumpBank s.clk.tick s.gns.queue s.gns.running
  { s with gns := { s.gns with queue := r.1, running := r.2 } }

/-- GN1 queues searches. -/
def queueSearches (l : List Search) (s : State) : State :=
  pumpSearches { s with gns := { s.gns with queue := s.gns.queue ++ l } }

/-- A channel tracks the signal on the antenna. -/
def tracked (s : State) (sig sv ant : Nat) : Bool :=
  (List.range 192).any fun i => let c := 192 * ant + i
    s.bit (fGNS_TRK_CFG_EN c) && s.get (fGNS_TRK_CFG_SIG c) == sig && s.get (fGNS_TRK_CFG_SV c) == sv

/-- The same satellite is tracked on band 0 of the antenna, or on the other antenna (R215). -/
def handSource (s : State) (sig sv ant : Nat) : Bool :=
  (List.range 12).any fun g => sigSys g == sigSys sig
    && ((sigBand g == 0 && g != sig && tracked s g sv ant) || tracked s g sv (1 - ant))

/-- Module time is known to ±1 ms (R215, R509). -/
def timeKnown (s : State) : Bool := decide (terrBound s ≤ msNs)

/-- How a signal is acquired: by search for those of the table, Galileo E1 once module time is known, every other by
handover from a channel that tracks the satellite; none while there is no such channel (R215). -/
def searchKind (kind : SearchKind) (s : State) (sig sv ant : Nat) : Option SearchKind :=
  if sig = 0 ∨ sig = 6 ∨ sig = 9 ∨ sig = 11 then some kind
  else if sig = 3 ∧ timeKnown s = true then some (if kind = .cold then .aided else kind)
  else if handSource s sig sv ant then some .handover else none

/-- The search of a satellite's signal, if it is served, not tracked and not already searched. -/
def searchFor (kind : SearchKind) (s : State) (sig sv ant : Nat) : Option Search :=
  let same (q : Search) : Bool := q.sig == sig && q.sv == sv && q.ant == ant
  if served s sig sv && !tracked s sig sv ant && !(s.gns.queue.any same || s.gns.running.any fun r => same r.1) then
    (searchKind kind s sig sv ant).map fun k => ⟨sig, sv, ant, k⟩
  else none

/-- Every PRN and frequency number of the signals acquired by a cold search (R208, R215, R216). -/
def coldList : List (Nat × Nat) :=
  ((List.range 32).map fun i => (0, i + 1)) ++ ((List.range 39).map fun i => (11, i + 120))
    ++ ((List.range 63).map fun i => (6, i + 1)) ++ ((List.range 14).map fun i => (9, i))

/-- The start kind that the saved data, the time and the position give: 1 HOT, 2 WARM, 3 COLD (R216). -/
def startKind (g : GnssStart) (s : State) : Nat :=
  let sec := s.now / 1000000000
  let young (t : Option Int) (lim : Int) : Bool := match t with
    | some x => decide (sec - x < lim)
    | none => false
  match s.gns.nav with
  | none => 3
  | some d =>
    if young d.eph 14400 && decide (g.timeErr ≤ 1000) && g.near then 1
    else if young d.alm 7776000 && decide (g.timeErr ≤ 10000) then 2 else 3

/-- A start of kind 1 HOT, 2 WARM, 3 COLD: no channel runs yet, and the searches of the kind are queued, antenna by
antenna: aided within ±20 chips, aided over the full code, or cold for every PRN (R216). -/
def gnsBegin (kind : Nat) (visible : List (Nat × Nat)) (s : State) : State :=
  let s := forUp 384 (fun c t => if t.bit (fGNS_TRK_CFG_EN c) then t.putBit (fGNS_TRK_CFG_EN c) false else t) s
  let s := showNtrk { s with gns := { s.gns with trk := [], queue := [], running := [] } }
  let s := s.put fGNS_STATUS_START kind
  let how : SearchKind := if kind = 1 then .near else if kind = 2 then .aided else .cold
  let l := if kind = 3 then coldList else visible
  let s := queueSearches ((List.range 2).flatMap fun ant => l.filterMap fun x => searchFor how s x.1 x.2 ant) s
  let s := if s.gns.running.isEmpty then s else s.svcReady 1
  if kind = 3 then s.ev 0x6040 else s.ev 0x6041 0 kind

/-- The baseband starts: the bias of each enabled antenna, the saved data, and the start kind they give (R210, R216). -/
def gnsStart (g : GnssStart) (s : State) : State :=
  let s := biasOn { s with gns := { s.gns with cur := s.gns.nav.getD NavData.none } }
  gnsBegin (startKind g s) g.visible s

/-- GNS_CTL.COLD: the saved data is discarded and a COLD start begins. -/
def execColdStartRequest (req : Req) (s : State) : Out :=
  if reqIsOem req || !s.wide then .next s
  else .next (gnsBegin 3 [] { s with gns := { s.gns with nav := none, cur := NavData.none, chgAt := none } })

/-- The lowest free channel of an antenna (R209). -/
def freeTrk (s : State) (ant : Nat) : Option Nat :=
  ((List.range 192).map fun i => 192 * ant + i).find? fun c => !s.bit (fGNS_TRK_CFG_EN c)

/-- A detected cell is handed to a free channel, which starts from its code and Doppler (R214, R215). -/
def handOver (q : Search) (carr code : Word) (s : State) : State :=
  match freeTrk s q.ant with
  | none => s
  | some c =>
    let s := ((s.put (fGNS_TRK_CFG_SIG c) q.sig).put (fGNS_TRK_CFG_SV c) q.sv).putBit (fGNS_TRK_CFG_EN c) true
    let s := s.put (fGNS_TRK_CFG_INT c) (min (s.get (fGNS_TRK_CFG_INT c)) (intMax q.sig))
    let s := (s.wr (fGNS_TRK_CARR_F c).addr carr).wr (fGNS_TRK_CODE_F c).addr code
    let s := ((s.wr (fGNS_TRK_CODE_CNT c).addr 0#32).put (fGNS_TRK_LOCK c) 0).setTrk c { Trk.init with carr := carr, code := code }
    showNtrk s

/-- A search of the bank ends: its blocks go to the next of the queue, and a cell 15 dB above the noise in a cold
search, 12 dB in any other, goes to a free channel (R214). -/
def execSearchComplete (sig sv : Nat) (ant : Fin 2) (power : Nat) (carr code : Word) (s : State) : Out :=
  if !s.wide then .next s
  else match s.gns.running.find? fun r => r.1.sig == sig && r.1.sv == sv && r.1.ant == ant.val && decide (r.2 ≤ s.clk.tick) with
    | none => .next s
    | some r =>
      let s := pumpSearches { s with gns := { s.gns with running := s.gns.running.erase r } }
      if power ≤ (if r.1.kind = .cold then 150 else 120) then .next s else .next (handOver r.1 carr code s)

/-- Ephemeris, almanac, position and offsets are saved within 60 s of a change, or the save fails and the old set stays
(R216). -/
def execNavDataSave (failed : Bool) (s : State) : Out :=
  match s.gns.chgAt with
  | none => .next s
  | some t =>
    if !s.wide || decide (t + 1200000 < s.clk.tick) then .next s
    else
      let g := { s.gns with nav := if failed then s.gns.nav else some s.gns.cur, chgAt := none }
      .next ({ s with gns := g }.ev 0x6042 0 (if failed then 1 else 0))

/-! ## Tracking channels (R217–R220) -/

/-- The end of an interval: the seven sums are latched, an unread dump is overwritten and counted, and shadow words
take effect (R218, R219). -/
def execDumpLatch (c : Fin 384) (sums : List (Int × Int)) (s : State) : Out :=
  if !s.wide || !s.bit (fGNS_TRK_CFG_EN c) then .next s
  else
    let s := forUp 7 (fun m t =>
      let v := sums.getD m (0, 0)
      (t.put (fGNS_TRK_COR_I c m) (toField 16 v.1)).put (fGNS_TRK_COR_Q c m) (toField 16 v.2)) s
    let s := s.put (fGNS_TRK_DUMP_DUMP_CNT c) (s.get (fGNS_TRK_DUMP_DUMP_CNT c) + 1)
    let x := s.trk c
    let full := s.bit (fGNS_TRK_DUMP_DUMP_RDY c)
    let tell := full && (match x.overAt with
      | some t => decide (t + 20000 ≤ s.clk.tick)
      | none => true)
    let s := if full then s.inc (fGNS_TRK_DUMP_OVERRUN c) else s
    let s := if tell then s.evMax 0x6050 (c.val % 256) 0 (f16OfNat (s.get (fGNS_TRK_DUMP_OVERRUN c))) else s
    let s := s.setTrk c
      { x with carr := if x.newCarr then s.rd (fGNS_TRK_CARR_F c).addr else x.carr
               code := if x.newCode then s.rd (fGNS_TRK_CODE_F c).addr else x.code
               newCarr := false, newCode := false
               overAt := if tell then some s.clk.tick else x.overAt }
    .next (s.putBit (fGNS_TRK_DUMP_DUMP_RDY c) true)

/-- A write of a shadow word; a second one before the boundary supersedes the first (R219). -/
def writeNco (c : Nat) (codeNco : Bool) (v : Word) (s : State) : State :=
  let x := s.trk c
  let s := if (if codeNco then x.newCode else x.newCarr) then s.inc (fGNS_TRK_DUMP_NCO_SUPERSEDED c) else s
  let s := s.setTrk c (if codeNco then { x with newCode := true } else { x with newCarr := true })
  s.wr (if codeNco then (fGNS_TRK_CODE_F c).addr else (fGNS_TRK_CARR_F c).addr) v

/-- Only GN0 writes channels 0–191 and only GN1 channels 192–383 (R219, R234). -/
def trkOwner (req : Req) (c : Nat) : Bool :=
  match reqCore req with
  | some n => n == (if c < 192 then 8 else 9) && !reqIsOem req
  | none => false

def execNcoWrite (req : Req) (c : Fin 384) (codeNco : Bool) (value : Word) (s : State) : Out :=
  if s.wide && trkOwner req c then .next (writeNco c codeNco value s) else .next s

/-- One channel at a tracking-loop period: its dump is read, which clears DUMP_RDY, and new words are written, but not to
a channel that coasts; lock that returns ends the coasting (R219, R220). -/
def trackOne (u : TrackUpd) (s : State) : State :=
  let c := u.ch.val
  if !s.bit (fGNS_TRK_CFG_EN c) || !gnRuns s (c / 192) then s
  else
    let low := !u.lock || decide (u.cn0 < 80)
    let s := (s.putBit (fGNS_TRK_DUMP_DUMP_RDY c) false).put (fGNS_TRK_LOCK_CN0 c) (min u.cn0 255)
    let x := s.trk c
    if low then
      let s := s.setTrk c { x with lowAt := some (x.lowAt.getD s.clk.tick) }
      if s.bit (fGNS_TRK_LOCK_COAST c) then s else writeNco c true u.code (writeNco c false u.carr s)
    else
      let s := s.setTrk c { x with lowAt := none, lockAt := some (x.lockAt.getD s.clk.tick) }
      let s := (s.putBit (fGNS_TRK_LOCK_LOCK c) true).putBit (fGNS_TRK_LOCK_COAST c) false
      writeNco c true u.code (writeNco c false u.carr s)

/-- Every 20 ticks GN0 and GN1 close the loops of their channels, and GN1 queues the acquisitions it schedules (R209,
R219). -/
def execTrackingLoopPeriod (upds : List TrackUpd) (plan : List (Nat × Nat × Fin 2)) (s : State) : Out :=
  if !s.wide || s.clk.tick % 20 != 0 then .next s
  else
    let s := forAll upds trackOne s
    if gnRuns s 1 = true ∧ s.get fGNS_STATUS_START ≠ 0 then
      .next (forAll plan (fun x t => match searchFor .aided t x.1 x.2.1 x.2.2 with
        | some q => queueSearches [q] t
        | none => t) s)
    else .next s

/-- A low lock indicator or C/N0 for 100 ms: the channel coasts on its last words. -/
def execLockLoss (c : Fin 384) (s : State) : Out :=
  let x := s.trk c
  let lost := match x.lowAt with
    | some t => decide (t + 2000 ≤ s.clk.tick)
    | none => false
  if s.wide = true ∧ s.bit (fGNS_TRK_CFG_EN c) = true ∧ lost = true ∧ s.bit (fGNS_TRK_LOCK_COAST c) = false then
    let s := (s.putBit (fGNS_TRK_LOCK_LOCK c) false).putBit (fGNS_TRK_LOCK_COAST c) true
    .next (s.setTrk c { x with coastAt := s.clk.tick, lockAt := none })
  else .next s

/-- After 2 s of coasting the channel is freed and GN1 queues an aided search of the satellite. -/
def execCoastExpire (c : Fin 384) (s : State) : Out :=
  if s.wide = true ∧ s.bit (fGNS_TRK_LOCK_COAST c) = true ∧ (s.trk c).coastAt + 40000 ≤ s.clk.tick then
    let sig := s.get (fGNS_TRK_CFG_SIG c)
    let sv := s.get (fGNS_TRK_CFG_SV c)
    let s := showNtrk ((s.putBit (fGNS_TRK_CFG_EN c) false).putBit (fGNS_TRK_LOCK_COAST c) false)
    match searchFor .aided s sig sv (c.val / 192) with
    | some q => .next (queueSearches [q] s)
    | none => .next s
  else .next s

/-! ## Solutions (R222, R223, R228) -/

/-- The signal of a used satellite, with the satellite's system and number. -/
structure UsedSat where
  sys : Nat
  sv : Nat
  sig : Nat
  sbas : Bool
  deriving DecidableEq, Repr

/-- A channel's satellite may be used: served, healthy, above the elevation mask, at 30 dB-Hz or more, locked for 2 s,
and its band was not excluded before the epoch (R208, R213, R222). -/
def satOk (s : State) (x : SatIn) : Bool :=
  let c := x.ch.val
  let sig := s.get (fGNS_TRK_CFG_SIG c)
  s.bit (fGNS_TRK_CFG_EN c) && served s sig (s.get (fGNS_TRK_CFG_SV c)) && x.healthy
    && decide ((100 * s.get fGNS_CFG_ELEV : Nat) < x.elev) && decide (120 ≤ s.get (fGNS_TRK_LOCK_CN0 c))
    && s.bit (fGNS_TRK_LOCK_LOCK c) && (match (s.trk c).lockAt with
      | some t => decide (t + 40000 ≤ s.clk.tick)
      | none => false)
    && !s.gns.exclUsed.testBit (3 * (c / 192) + sigBand sig)

/-- The satellites that an antenna yields, each once. -/
def usedSats (s : State) (sats : List SatIn) (ant : Nat) : List UsedSat :=
  (sats.filter fun x => x.ch.val / 192 == ant && satOk s x).foldl (fun l x =>
    let sig := s.get (fGNS_TRK_CFG_SIG x.ch)
    let u : UsedSat := ⟨sigSys sig, s.get (fGNS_TRK_CFG_SV x.ch), sig, x.sbas⟩
    if l.any fun v => v.sys == u.sys && v.sv == u.sv then l else l ++ [u]) []

/-- The place of the largest value of a list. -/
def worstAt (l : List F32) : Nat :=
  ((List.range l.length).foldl (fun b i => if f32Lt (l.getD b 0#32) (l.getD i 0#32) then i else b) 0)

/-- Whether the integrity of a solution passed, the satellites it stands on, and those excluded with their residuals. -/
structure Residual where
  integ : Bool
  used : List UsedSat
  out : List (Nat × F32)
  deriving DecidableEq, Repr

/-- The residual tests: with five or more satellites a failed one excludes the satellite with the largest residual, at
most two of them; four satellites need no test (R223). -/
def residTest (left : Nat) (used : List UsedSat) (out : List (Nat × F32)) : List ResTest → Residual
  | [] => ⟨used.length == 4, used, out⟩
  | t :: ts =>
    if used.length < 5 then ⟨used.length == 4, used, out⟩
    else if t.passed then ⟨true, used, out⟩
    else match left with
      | 0 => ⟨false, used, out⟩
      | n + 1 =>
        let i := worstAt (t.res.take used.length)
        residTest n (used.eraseIdx i) (out ++ [((used.map (·.sig)).getD i 0, t.res.getD i 0#32)]) ts

/-- The fix type: fewer than four satellites are NONE; RTK needs corrections in use and float or fixed ambiguities; SBAS
needs SBAS corrections for every used GPS satellite (R222, R226). -/
def fixOf (s : State) (used : List UsedSat) (amb : Nat) : Nat :=
  let gps := used.filter fun u => u.sys == 0
  if used.length < 4 then 0
  else if amb ≠ 0 ∧ s.bit fGNS_CORR_STAT_IN_USE = true then (if amb = 2 ∧ s.gns.floatOnly = false then 4 else 3)
  else if !gps.isEmpty && gps.all (·.sbas) then 2 else 1

/-- The error that module time is steered by: against GPS time while a GPS or SBAS satellite is used, otherwise against
the system of the most used satellites less its offset from GPS; none while that offset is unknown (R223). -/
def steerErr (sol : Solution) (used : List UsedSat) : Option Int :=
  let n (k : Nat) : Nat := (used.filter fun u => u.sys == k).length
  if 0 < n 0 then some (sol.clk.getD 0 0)
  else
    let k := if n 2 ≤ n 1 ∧ n 3 ≤ n 1 then 1 else if n 3 ≤ n 2 then 2 else 3
    let off := sol.iso.getD (k - 1) (-2147483648)
    if n k = 0 ∨ off = -2147483648 then none else some (sol.clk.getD k 0 + off)

/-- No jamming indicator of a band in use stands above JAM_LIM (R51). -/
def bandsClear (s : State) (used : List UsedSat) (ant : Nat) : Bool :=
  used.all fun u => decide (s.get (fGNS_JAM_J ant (sigBand u.sig)) ≤ s.get fGNS_CFG_JAM_LIM)

/-- Heading needs five common satellites, no substitution and a length within ±20 mm of BASE (R228). -/
def headLenOk (s : State) (len : Nat) : Bool :=
  let b := s.get fGNS_HEAD_CFG_BASE
  b != 0 && decide (b ≤ len + 20) && decide (len ≤ b + 20)

def headTried (s : State) (sol : Solution) : Bool :=
  s.get fGNS_HEAD_CFG_BASE != 0 && decide (5 ≤ sol.common) && !s.bit fGNS_SOL_STAT_SUBST

/-- The solution record (R233). -/
def writeSol (sol : Solution) (r : Residual) (fix epoch : Nat) (s : State) : State :=
  let s := s.put64 fGNS_SOL_TICK_LO.addr epoch
  let s := ((s.put fGNS_SOL_STAT_FIX fix).put fGNS_SOL_STAT_NSAT (min r.used.length 63)).putBit fGNS_SOL_STAT_INTEG r.integ
  let s := s.put fGNS_SOL_STAT_NEXCL r.out.length
  let s := s.putBit fGNS_SOL_STAT_HEAD_OK (headTried s sol && headLenOk s sol.len)
  let s := forUp 3 (fun k t => t.put64 (fGNS_SOL_X_LO.addr + 8 * k) (u64 (sol.pos.getD k 0))) s
  let s := forUp 3 (fun k t => t.put (wordAt (fGNS_SOL_VX.addr + 4 * k)) (toField 32 (sol.vel.getD k 0))) s
  let s := (s.put fGNS_SOL_SIG_H (min sol.sigH 65535)).put fGNS_SOL_SIG_V (min sol.sigV 65535)
  let s := (s.put fGNS_SOL_HEAD_HEAD (sol.head % 36000)).put fGNS_SOL_HEAD_PITCH (toField 16 sol.pitch)
  let s := (s.put fGNS_SOL_HSIG_SIG (min sol.hsig 65535)).put fGNS_SOL_HSIG_LEN (min sol.len 65535)
  forUp 3 (fun k t => t.put (fGNS_ISO k) (toField 32 (sol.iso.getD k (-2147483648)))) s

/-- The 5 s conditions of R211, judged at each solution. -/
def noteYield (used0 used1 : Nat) (s : State) : State :=
  let since (c : Bool) (t : Option Nat) : Option Nat := if c then some (t.getD s.clk.tick) else none
  { s with gns := { s.gns with
    subFrom := since (decide (used0 < 4) && decide (4 ≤ used1)) s.gns.subFrom
    backFrom := since (decide (4 ≤ used0)) s.gns.backFrom } }

/-- The navigation data as the solution leaves it, and the change that a save must follow (R216). -/
def noteNav (sol : Solution) (fix : Nat) (s : State) : State :=
  let sec := s.now / 1000000000
  let old := s.gns.cur
  let d : NavData := {
    eph := if sol.eph then some sec else old.eph, alm := if sol.alm then some sec else old.alm
    pos := if 1 ≤ fix then sol.pos else old.pos, iso := if 1 ≤ fix then sol.iso else old.iso }
  if d = old then s else { s with gns := { s.gns with cur := d, chgAt := some (s.gns.chgAt.getD s.clk.tick) } }

/-- What a solution leaves in the registers, the records and the receiver: residuals that left, heading, the record of the
epoch e, a change of the fix, the navigation data and a leap-second table (R222, R223, R228). -/
def takeSolution (sol : Solution) (e : Nat) (r : Residual) (fix : Nat) (s : State) : State :=
  let old := s.get fGNS_SOL_STAT_FIX
  let s := forAll r.out (fun x t => t.evMax 0x6021 x.1 0 (f16OfF32 x.2)) s
  let s := if headTried s sol && !headLenOk s sol.len then s.evMax 0x6022 0 0 (f16OfNat sol.len) else s
  let s := (writeSol sol r fix e s).putBit fGNS_EVT_SOL true
  let s := { s with gns := { s.gns with sols := (e, fix, r.integ) :: s.gns.sols.take 3 } }
  let s := if fix = old then s else (s.putBit fGNS_EVT_FIX_CHG true).ev 0x6020 0 fix
  let s := noteNav sol fix { s with gns := { s.gns with floatOnly := s.gns.floatOnly && fix != 3 } }
  match sol.leap with
  | some t => setLeap t s
  | none => s

/-- GN0 completes the one solution of the epoch within 300 ticks of its boundary, and a valid time solution steers module
time (R51, R222, R223). -/
def execSolutionReady (sol : Solution) (s : State) : Out :=
  match s.gns.epoch with
  | none => .next s
  | some e =>
    if !gnRuns s 0 || decide (e + 300 < s.clk.tick) then .next s
    else
      let s := { s with gns := { s.gns with epoch := none } }
      let u0 := usedSats s sol.sats 0
      let u1 := usedSats s sol.sats 1
      let ant := if s.bit fGNS_SOL_STAT_SUBST then 1 else 0
      let r := residTest 2 (if ant = 1 then u1 else u0) [] sol.tests
      let fix := fixOf s r.used sol.amb
      let s := takeSolution sol e r fix (noteYield u0.length u1.length s)
      match steerErr sol r.used with
      | some err => .next (if 1 ≤ fix ∧ r.integ = true ∧ bandsClear s r.used ant = true then timeSolution err s else s)
      | none => .next s

/-- The words of the solution record, GNS_SOL_TICK_LO to GNS_ISO[2]. -/
def solWords (s : State) : List Word := (List.range 18).map fun k => s.rd (fGNS_SOL_TICK_LO.addr + 4 * k)

/-- The solution record is latched for bank b (R233). -/
def latchSol (b : Nat) (s : State) : State :=
  { s with gns := { s.gns with latch := tabSet (fun _ => []) s.gns.latch b (solWords s) } }

/-- A read of GNS_SOL_TICK_LO latches the record for the reading core (R233). -/
def execGnsSolRead (req : Req) (s : State) : Out :=
  if !s.wide then .next (s.answer 0#32)
  else .next ((latchSol (reqBank req) s).answer (s.rd fGNS_SOL_TICK_LO.addr))

/-! ## Corrections (R224–R226) -/

/-- Types 1074–1127 that carry observations, and the other types used (R224). -/
def rtcmObs (t : Nat) : Bool := [1074, 1077, 1084, 1087, 1094, 1097, 1124, 1127].contains t
def rtcmUsed (t : Nat) : Bool := rtcmObs t || [1005, 1006, 1033, 1230].contains t

def obsTick (s : State) (src : Nat) : Option Nat := (s.gns.obsAt.find? fun x => x.1 == src).map Prod.snd

/-- The source has delivered an observation message in the last 2 s. -/
def delivering (s : State) (src : Nat) : Bool :=
  match obsTick s src with
  | some t => decide (s.clk.tick ≤ t + 40000)
  | none => false

def setObs (src : Nat) (s : State) : State :=
  { s with gns := { s.gns with obsAt := (src, s.clk.tick) :: s.gns.obsAt.filter fun x => x.1 != src } }

/-- The source in use changes; taking one where none was in use is a switch only when it is not the preferred one. -/
def useSource (src : Nat) (s : State) : State :=
  if s.gns.source = some src then s
  else
    let told := s.gns.source.isSome || src != s.get fGNS_CORR_CFG_PREF
    let s := { s with gns := { s.gns with source := some src } }.put fGNS_CORR_STAT_SRC src
    if told then (s.putBit fGNS_EVT_CORR true).ev 0x6030 src else s

/-- A move of the reported station position by more than 0.1 m; positions are × 0.1 mm. -/
def stationMoved (a b : List Int) : Bool :=
  let d := (List.range 3).map fun k => a.getD k 0 - b.getD k 0
  decide (1000000 < (d.map fun x => x * x).sum)

/-- A change of station or a move of it resets the ambiguities to float (R226). -/
def noteStation (station : Nat) (pos : Option (List Int)) (s : State) : State :=
  let changed := (match s.gns.station with
    | some x => x != station
    | none => false) || (match s.gns.stPos, pos with
    | some a, some b => stationMoved a b
    | _, _ => false)
  let g := { s.gns with station := some station, stPos := if pos.isSome then pos else s.gns.stPos
                        floatOnly := s.gns.floatOnly || changed }
  let s := { s with gns := g }
  let s := s.put fGNS_CORR_STAT_STATION station
  if changed then s.ev 0x6033 (station % 256) else s

/-- A refused type is recorded once per type per hour (R224). -/
def refuseType (t : Nat) (s : State) : State :=
  let s := s.inc fGNS_CORR_CNT_REFUSED
  let last := (s.gns.refusedAt.find? fun x => x.1 == t).map Prod.snd
  if (match last with
    | some k => decide (s.clk.tick < k + 72000000)
    | none => false) then s
  else
    let l := (t, s.clk.tick) :: s.gns.refusedAt.filter fun x => x.1 != t
    { s with gns := { s.gns with refusedAt := l } }.evMax 0x6032 0 0 (f16OfNat t)

/-- One bit of a CRC-24Q (R225; PRESUMED, log entry 135). -/
def crc24Bit (c : BitVec 24) : BitVec 24 := if c.msb then (c <<< 1) ^^^ 0x864CFB#24 else c <<< 1

/-- The CRC-24Q of a run of bytes. -/
def crc24q (l : List Byte) : BitVec 24 :=
  l.foldl (fun c b =>
    let c : BitVec 24 := c ^^^ ((BitVec.setWidth 24 b) <<< (16 : Nat))
    crc24Bit (crc24Bit (crc24Bit (crc24Bit (crc24Bit (crc24Bit (crc24Bit (crc24Bit c)))))))) 0#24

/-- The length of the frame that begins with these bytes: preamble 0xD3, six reserved bits, ten bits of length, the
payload and three bytes of CRC (R225; PRESUMED, log entry 135). -/
def rtcmLen (l : List Byte) : Nat := 6 + (l.getD 1 0#8).toNat % 4 * 256 + (l.getD 2 0#8).toNat

/-- A frame passes: its preamble, its length and its CRC-24Q, which makes the CRC over the whole frame 0. -/
def rtcmPass (l : List Byte) : Bool := l[0]? == some 0xD3#8 && rtcmLen l == l.length && crc24q l == 0#24

/-- Bits `i` to `i + n − 1` of a payload, the first bit highest. -/
def payBits (l : List Byte) (i n : Nat) : Nat :=
  (List.range n).foldl (fun v k => 2 * v + (if (l.getD ((i + k) / 8) 0#8).getMsbD ((i + k) % 8) then 1 else 0)) 0

/-- The position that a 1005 or 1006 reports, ECEF × 0.1 mm (PRESUMED, log entry 135). -/
def rtcmPos (pay : List Byte) : List Int := [34, 74, 114].map fun i => ofField 38 (payBits pay i 38)

/-- A frame is taken: one that fails its CRC-24Q is counted and discarded; a type that is not used is refused; an
observation serves its source (R224–R226). -/
def takeRtcm (src : Nat) (frame : List Byte) (s : State) : State :=
  let pay := frame.drop 3
  let mtype := payBits pay 0 12
  let station := payBits pay 12 12
  if !rtcmPass frame then s.inc fGNS_CORR_CNT_REFUSED
  else if !rtcmUsed mtype then refuseType mtype s
  else
    let s := s.inc fGNS_CORR_CNT_ACCEPTED
    let s := if rtcmObs mtype then setObs src s else s
    let s := if rtcmObs mtype ∧ src = s.get fGNS_CORR_CFG_PREF then useSource src s else s
    if s.gns.source = some src then
      let s := noteStation station (if mtype = 1005 ∨ mtype = 1006 then some (rtcmPos pay) else none) s
      if rtcmObs mtype then (s.putBit fGNS_CORR_STAT_IN_USE true).put fGNS_CORR_STAT_AGE 0 else s
    else s

/-- An RTCM message from the NTRIP client, or the next one assembled from CAN (R224); the client
must be connected, and in LOUVRED only CAN serves (R35, R370). -/
def execRtcmMessage (ntrip : Option (List Byte)) (s : State) : Out :=
  match ntrip with
  | some frame =>
    if !s.wide || s.get fPWR_STATUS_STATE == 1 || s.get fETH_STATUS_NTRIP != 2 then .next s
    else
      let s := { s with eth := { s.eth with byteAt := some s.clk.tick, rx := (s.clk.tick, frame.length) :: s.eth.rx } }
      .next (if gnRuns s 0 then takeRtcm 0 frame s else s)
  | none => match s.gns.frames with
    | [] => .next s
    | f :: rest =>
      if !gnRuns s 0 then .next s else .next (takeRtcm 1 f { s with gns := { s.gns with frames := rest } })

/-- Splits the complete frames off a buffer: bytes before a preamble are skipped (R225). -/
def cutFrames : Nat → List Byte → List (List Byte) × List Byte
  | 0, l => ([], l)
  | n + 1, l =>
    let l := l.dropWhile fun b => b != 0xD3#8
    if 3 ≤ l.length ∧ rtcmLen l ≤ l.length then
      let r := cutFrames n (l.drop (rtcmLen l))
      (l.take (rtcmLen l) :: r.1, r.2)
    else ([], l)

/-- A CAN FD frame of the stream: a gap in the sequence discards the frame that is being assembled; complete frames wait
to be taken (R225). -/
def rtcmCan (port : Nat) (ext : Bool) (id : Nat) (data : List Byte) (s : State) : State :=
  let mine := s.get fGNS_CORR_CFG_PORT == port && s.bit fGNS_CORR_CFG_EXT == ext && s.get fGNS_CORR_ID_CAN_ID == id
    && data.length == 64
  if !s.wide || !mine then s
  else
    let q := (data.getD 0 0#8).toNat
    let follows := match s.gns.seq with
      | some x => (x + 1) % 256 == q
      | none => true
    let r := cutFrames 12 ((if follows then s.gns.buf else []) ++ data.drop 1)
    { s with gns := { s.gns with seq := some q, buf := r.2, frames := s.gns.frames ++ r.1 } }

def execRtcmCanFrame (port : Fin 6) (ext : Bool) (id : Nat) (data : List Byte) (s : State) : Out :=
  .next (rtcmCan port ext id data s)

/-- 2 s without an observation from the preferred source while the other delivers. -/
def execCorrSourceSwitch (s : State) : Out :=
  let pref := s.get fGNS_CORR_CFG_PREF
  if s.wide = true ∧ delivering s pref = false ∧ delivering s (1 - pref) = true then
    .next ((useSource (1 - pref) s).putBit fGNS_CORR_STAT_IN_USE true)
  else .next s

/-- Corrections older than CORR_AGE_MAX are dropped. -/
def execCorrAgeOut (s : State) : Out :=
  let src := s.gns.source.getD 0
  let age := s.clk.tick - (obsTick s src).getD 0
  if s.wide = true ∧ s.bit fGNS_CORR_STAT_IN_USE = true ∧ 20000 * s.get fGNS_CORR_CFG_CORR_AGE_MAX < age then
    let s := (s.putBit fGNS_CORR_STAT_IN_USE false).putBit fGNS_EVT_CORR true
    .next (s.evMax 0x6031 src 0 (f16OfRatio false age 20000))
  else .next s

/-! ## Time pulse (R229, R230) -/

/-- The pulse period in ns; 0 without a rate. -/
def tpPeriod (s : State) : Nat := if s.get fGNS_TP0_CFG_RATE = 0 then 0 else 1000000000 / s.get fGNS_TP0_CFG_RATE

/-- Module time in units of 0.5 ns at a cycle of this tick (R46). -/
def halfNs (s : State) (cycle : Nat) : Int := 2 * s.clk.tbase + s.clk.tick * 100000 + 5 * cycle

/-- The number of the last pulse instant that module time has reached at a cycle, and the time since it, in units of
0.5 ns. -/
def tpNow (s : State) (cycle : Nat) : Int × Int :=
  let p : Int := 2 * tpPeriod s
  let t := halfNs s cycle - 2 * ofField 16 (s.get fGNS_TP0_CFG_DELAY)
  (t / p, t % p)

/-- The first cycle at which module time reaches a pulse instant: within one cycle of it, or at the frame boundary at
which a step took module time over it. -/
def tpDue (s : State) (cycle : Nat) : Bool :=
  let k := tpNow s cycle
  let new := match s.gns.tpK with
    | some j => decide (j < k.1)
    | none => true
  tpPeriod s != 0 && new && (decide (k.2 < 5) || (cycle == 0 && s.clk.stepAt == s.clk.tick && s.gns.tpK.isSome))

/-- Half a period has passed since the last edge, counted in ticks and cycles. -/
def tpClear (s : State) (cycle : Nat) : Bool :=
  match s.gns.tpAt with
  | none => true
  | some (t, c) => decide ((tpPeriod s : Int) ≤ ((s.clk.tick : Int) - t) * 100000 + 5 * ((cycle : Int) - c))

/-- TP0 rises; an edge less than P / 2 after the last one is moved one period later. -/
def execTp0Edge (cycle : Fin 20000) (s : State) : Out :=
  if !tpDue s cycle then .next s
  else
    let clear := tpClear s cycle
    let s := { s with gns := { s.gns with tpK := some (tpNow s cycle).1 } }
    if !clear then .next s
    else
      let s := { s with gns := { s.gns with tpAt := some (s.clk.tick, cycle) } }
      let s := s.put fGNS_TP0_STAT_EDGES (s.get fGNS_TP0_STAT_EDGES + 1)
      .next (s.put fGNS_TP0_STAT_TSTAT (timeStat s))

/-- The pulse width in cycles of 2.5 ns: WIDTH ms, cut to P / 2 (R230). -/
def tpWidth (s : State) : Nat := min (400000 * s.get fGNS_TP0_CFG_WIDTH) (tpPeriod s / 5)

/-- The level of the TP0 pin at a cycle: active for the pulse width from the last edge, inverted by POL (R229, R230,
R233). -/
def tp0Level (s : State) (tick cycle : Nat) : Bool :=
  let active := match s.gns.tpAt with
    | some (t, c) => decide (20000 * t + c ≤ 20000 * tick + cycle) && decide (20000 * tick + cycle < 20000 * t + c + tpWidth s)
    | none => false
  active != s.bit fGNS_TP0_CFG_POL

end Sys2Proof.Machine
end

