-- ==== Sys2Proof/Machine/Trig.lean ====
section
/-!
DEFINITION. Sine, cosine and arc tangent in fixed point, rounded once to binary32 (R138, R140, R141, R285).
-/
namespace Sys2Proof.Machine

/-- The scale of the fixed-point values. -/
def trigOne : Int := (10 : Int) ^ 40

/-- π × 10^40. -/
def piFix : Nat := 31415926535897932384626433832795028841971

/-- sin of x × 10^−40 for 0 ≤ x ≤ π/2, × 10^40, by its power series. -/
def sinFix (x : Nat) : Int :=
  let sq : Int := (x : Int) * x / trigOne
  ((List.range 24).foldl (fun (acc : Int × Int) (k : Nat) =>
    let t := -(acc.2 * sq / trigOne) / ((2 * (k : Int) + 2) * (2 * k + 3))
    (acc.1 + t, t)) ((x : Int), (x : Int))).1

/-- sin of n/d of a turn, × 10^40; exact at the quarters. -/
def sinTurn (n d : Nat) : Int :=
  let q := 4 * (n % d) / d
  let r := 4 * (n % d) % d
  let r := if q % 2 = 0 then r else d - r
  let v := if r = 0 then 0 else if r = d then trigOne else sinFix (2 * piFix * r / (4 * d))
  if 2 ≤ q then -v else v

/-- cos of n/d of a turn, × 10^40. -/
def cosTurn (n d : Nat) : Int := sinTurn (4 * n + d) (4 * d)

/-- A value in units of 10^−40 as binary32. -/
def f32OfFix (v : Int) : F32 := f32OfRatio (decide (v < 0)) v.natAbs (10 ^ 40)

/-- The turns of an angle of `m × 2^e` rad with `m ≥ 0`, as a numerator and a denominator. -/
def turnsOf (m : Nat) (e : Int) : Nat × Nat :=
  if 0 ≤ e then (m * 2 ^ e.toNat * 10 ^ 40, 2 * piFix) else (m * 10 ^ 40, 2 * piFix * 2 ^ (-e).toNat)

/-- The sine of a binary32 angle in rad. -/
def f32Sin (x : F32) : F32 :=
  if !f32IsFinite x then f32NaN
  else
    let v := f32Val x
    let t := turnsOf v.m.natAbs v.e
    let y := sinTurn t.1 t.2
    f32OfFix (if v.m < 0 then -y else y)

/-- The cosine of a binary32 angle in rad. -/
def f32Cos (x : F32) : F32 :=
  if !f32IsFinite x then f32NaN
  else
    let v := f32Val x
    let t := turnsOf v.m.natAbs v.e
    f32OfFix (cosTurn t.1 t.2)

/-- arctan of n/d for n ≤ d, × 10^40, by Euler's series. -/
def atanFix (n d : Nat) : Int :=
  let h : Int := ((n * n + d * d : Nat) : Int)
  let t0 := (n * d : Nat) * trigOne / h
  ((List.range 140).foldl (fun (acc : Int × Int) (k : Nat) =>
    let t := acc.2 * (2 * (k : Int) + 2) * ((n * n : Nat) : Int) / ((2 * (k : Int) + 3) * h)
    (acc.1 + t, t)) (t0, t0)).1

/-- atan2(y, x) in degrees for finite y and x that are not both 0. -/
def f32Atan2Deg (y x : F32) : F32 :=
  let a := f32Val y
  let b := f32Val x
  let e := min a.e b.e
  let p := a.m.natAbs * 2 ^ (a.e - e).toNat
  let q := b.m.natAbs * 2 ^ (b.e - e).toNat
  let v := if p ≤ q then atanFix p q else (piFix / 2 : Nat) - atanFix q p
  let v := if b.m < 0 then (piFix : Int) - v else v
  f32OfRatio (decide (a.m < 0)) (v.natAbs * 180) piFix

end Sys2Proof.Machine
end

