-- ==== Sys2Proof/Machine/MapEng.lean ====
section
/-!
DEFINITION. The yield map engine (R279–R304): sweep, attribution through the delay kernel, cells, kernel estimation,
sealing, residency, journal and export.
-/
namespace Sys2Proof.Machine

/-! ## Grid (R280), cells (R281–R283) -/

/-- Cell size code, origin and season start of a field: as the MAP commit that named it gave them, else as the
registers stand (R279). -/
def fieldGeo (s : State) (f : Nat) : List Word :=
  ((s.cfg.fields.find? fun x => x.1 == f).map Prod.snd).getD
    [BitVec.ofNat 32 (s.get fMAP_CFG_CELL), s.rd fMAP_ORG_LAT.addr, s.rd fMAP_ORG_LON.addr, s.rd fMAP_ORG_H.addr,
      s.rd fMAP_SEASON_LO.addr, s.rd fMAP_SEASON_HI.addr]

/-- The side of a field's cells in 1/4,096 m (R280). -/
def mapSide (s : State) (f : Nat) : Nat := match ((fieldGeo s f).getD 0 0#32).toNat with
  | 0 => 4096
  | 1 => 2048
  | _ => 8192

/-- The season start of a field, module time in ns. -/
def fieldSeason (s : State) (f : Nat) : Nat :=
  ((fieldGeo s f).getD 4 0#32).toNat + 4294967296 * ((fieldGeo s f).getD 5 0#32).toNat

/-- A length in m as 1/4,096 m, the units of the sweep (log entry 12). -/
def mapUnits (x : F32) : Int := f32Round (f32Mul x 0x45800000#32)

def MapTile.of (k : MapKey) : MapTile := ⟨k.field, k.i / 256, k.j / 256⟩

/-- The slot that holds a tile. -/
def mapSlot (s : State) (t : MapTile) : Option Nat := (List.range 512).find? fun n =>
  s.bit (fMAP_DIR_STAT_VALID n) && s.get (fMAP_DIR_STAT_FIELD n) == t.field
    && ofField 16 (s.get (fMAP_DIR_KEY_TX n)) == t.tx && ofField 16 (s.get (fMAP_DIR_KEY_TY n)) == t.ty

/-- The address of a cell in slot n (R281). -/
def cellAddr (n : Nat) (k : MapKey) : Nat :=
  0x100000000 + n * 0x200000 + ((k.j % 256).toNat * 256 + (k.i % 256).toNat) * 32

/-- The cell record at address a (R282). -/
structure Cell where
  mass : Nat
  area : Nat
  moist : Nat
  moistMin : Nat
  moistMax : Nat
  loss : Nat
  lossMax : Nat
  qual : Nat
  hist : List Nat
  first : Nat
  pass : Nat
  flags : Nat
  deriving DecidableEq, Repr

def leNat (bs : List Byte) : Nat := bs.foldr (fun b n => b.toNat + 256 * n) 0
def leBytes : Nat → Nat → List Byte
  | 0, _ => []
  | k + 1, n => BitVec.ofNat 8 n :: leBytes k (n / 256)

def cellOf (bs : List Byte) : Cell :=
  let f (o n : Nat) : Nat := leNat ((bs.drop o).take n)
  ⟨f 0 4, f 4 2, f 6 2, f 8 2, f 0xA 2, f 0xC 2, f 0xE 2, f 0x10 2, (List.range 8).map fun i => f (0x12 + i) 1,
    f 0x1A 4, f 0x1E 1, f 0x1F 1⟩

def cellBytes (c : Cell) : List Byte :=
  leBytes 4 c.mass ++ leBytes 2 c.area ++ leBytes 2 c.moist ++ leBytes 2 c.moistMin ++ leBytes 2 c.moistMax
  ++ leBytes 2 c.loss ++ leBytes 2 c.lossMax ++ leBytes 2 c.qual ++ c.hist.map (BitVec.ofNat 8) ++ leBytes 4 c.first
  ++ leBytes 1 c.pass ++ leBytes 1 c.flags

def emptyCell : List Byte := List.replicate 32 0#8

/-- The record a cell has on the eMMC; EMPTY where the map store holds none. -/
def storedCell (s : State) (k : MapKey) : List Byte := ((s.map.store.find? fun x => x.1 == k).map Prod.snd).getD emptyCell

def cellState (c : Cell) : Nat := c.flags % 4
def withState (c : Cell) (v : Nat) : Cell := { c with flags := c.flags / 4 * 4 + v }
def orBit (x k : Nat) : Nat := if x / 2 ^ k % 2 = 1 then x else x + 2 ^ k

/-! ## Mass that is not mapped (R286, R294, R296) -/

def unattr (kg : F32) (s : State) : State :=
  (s.wr fMAP_UNATTR.addr (f32Add (s.rd fMAP_UNATTR.addr) kg)).putBit fMAP_EVT_UNATTR true

def notMapped (why : Nat) (kg : F32) (s : State) : State := (unattr kg s).evMax 0x8006 0 why (f16OfF32 kg)

def kgOfGrams (g : Int) : F32 := f32Div (f32OfInt g) 0x447A0000#32

/-! ## Residency (R296) -/

def touch (n : Nat) (s : State) : State :=
  { s with map := { s.map with touched := n :: s.map.touched.filter (· != n) } }

/-- MAP_TILES and MAP_PEND as the directory and the queue stand (R303). -/
def showTiles (s : State) : State :=
  let cnt (f : Nat → Fld) : Nat := ((List.range 512).filter fun n => s.bit (fMAP_DIR_STAT_VALID n) && s.bit (f n)).length
  let res := ((List.range 512).filter fun n => s.bit (fMAP_DIR_STAT_VALID n)).length
  let load := cnt fMAP_DIR_STAT_LOADING
  let open' := cnt fMAP_DIR_STAT_OPEN
  (((s.put fMAP_TILES_RESIDENT res).put fMAP_TILES_OPEN open').put fMAP_TILES_LOADING (min load 63)).put
    fMAP_PEND_QUEUED s.map.incs.length

/-- The least recently touched slot without an OPEN cell and not DIRTY; a free slot comes first (R296). -/
def victim (s : State) : Option Nat :=
  match (List.range 512).find? fun n => !s.bit (fMAP_DIR_STAT_VALID n) with
  | some n => some n
  | none => s.map.touched.reverse.find? fun n =>
      !s.bit (fMAP_DIR_STAT_OPEN n) && !s.bit (fMAP_DIR_STAT_DIRTY n) && !s.bit (fMAP_DIR_STAT_LOADING n)

/-- Makes a tile resident: a tile of the store starts loading, one that has never been cut is created EMPTY. A full
store refuses a new tile (R296, R298). -/
def ensureTile (t : MapTile) (s : State) : Option Nat × State :=
  match mapSlot s t with
  | some n => (some n, touch n s)
  | none =>
    let stored := s.map.store.any fun x => MapTile.of x.1 == t
    let slot := if !stored && s.bit fMAP_STATUS_STORE_FULL then none else victim s
    match slot with
    | none => (none, s)
    | some n =>
      let s := (s.put (fMAP_DIR_KEY_TX n) (toField 16 t.tx)).put (fMAP_DIR_KEY_TY n) (toField 16 t.ty)
      let s := (s.put (fMAP_DIR_STAT n) 0).put (fMAP_DIR_STAT_FIELD n) t.field
      let s := (s.putBit (fMAP_DIR_STAT_VALID n) true).putBit (fMAP_DIR_STAT_LOADING n) stored
      let lo := 0x100000000 + n * 0x200000
      let s := if stored then s else
        { s with mem := s.mem.filter fun c => decide (c.1 < lo) || decide (lo + 0x200000 ≤ c.1) }
      (some n, touch n s)

def refuseInc (slot why : Nat) (g : Int) (s : State) : State :=
  let s := (unattr (kgOfGrams g) s).inc fMAP_PEND_REFUSED
  (s.putBit fMAP_EVT_REFUSED true).ev 0x8007 (slot % 256) why

/-! ## Cells (R287) -/

def wmean (old x mass g : Nat) : Nat := if mass + g = 0 then old else (old * mass + x * g + (mass + g) / 2) / (mass + g)
def cls (pct : F32) : Nat := min 15 (f32Floor (f32Div pct 0x3E800000#32)).toNat
def centi (x : F32) : Nat := min 65535 (f32Round (f32Mul x 0x42C80000#32)).toNat

def sampSig (m : MapSample) (i : Nat) : F32 × Bool := m.sig.getD (i - 128) (0#32, false)

/-- One value of a cell with its mean, lowest and highest; an invalid entry updates none. -/
def mixMoist (m : MapSample) (g : Nat) (c : Cell) : Cell :=
  let x := sampSig m 145
  if !x.2 then c
  else
    let v := centi x.1
    { c with moist := wmean c.moist v c.mass g, moistMin := if c.moistMax = 0 then v else min c.moistMin v
             moistMax := max c.moistMax v }

def mixLoss (m : MapSample) (g : Nat) (c : Cell) : Cell :=
  let a := sampSig m 128
  let b := sampSig m 129
  if !(a.2 && b.2) then c
  else
    let v := min 65535 (f32Round (f32Add a.1 b.1)).toNat
    { c with loss := wmean c.loss v c.mass g, lossMax := max c.lossMax v }

def mixQual (m : MapSample) (g : Nat) (c : Cell) : Cell :=
  let q := if m.gq then
      let br := wmean (c.qual % 16) (cls m.broken) c.mass g
      let mo := wmean (c.qual / 16 % 16) (cls m.mog) c.mass g
      orBit (c.qual / 256 * 256 + 16 * min 15 mo + min 15 br) 8
    else c.qual
  let q := if m.swing = 2 ∨ m.swing = 3 then orBit q 9 else if m.swing = 4 then orBit q 10 else q
  { c with qual := q }

/-- A cell brought up to date with an increment of `g` grams; a negative one only lowers MASS (R287). -/
def addGrams (m : MapSample) (g : Int) (c : Cell) : Cell :=
  if g < 0 then { c with mass := c.mass - g.natAbs }
  else
    let c := if g = 0 then c else mixQual m g.toNat (mixLoss m g.toNat (mixMoist m g.toNat c))
    let t := c.mass + g.toNat
    { c with mass := min t 4294967295, flags := if 4294967295 ≤ t then orBit c.flags 4 else c.flags }

/-- A cell cut for the first time by an interval: area, FIRST, PASS and STATE (R287, R293). -/
def cutCell (x : MapInc) (c : Cell) : Cell :=
  if x.area = 0 then c
  else
    let newPass := cellState c != 1
    let a := min 65535 (c.area + x.area)
    let c := { c with area := a, first := if newPass then x.time else c.first
                      pass := if newPass then min 255 (c.pass + 1) else c.pass
                      flags := if a = 65535 then orBit c.flags 4 else c.flags }
    withState { c with flags := if x.odo then orBit c.flags 3 else c.flags } 1

/-- A histogram count of the cell (R288). -/
def countBin (x : MapInc) (c : Cell) : Cell := match x.bin with
  | some b => { c with hist := c.hist.mapIdx fun i h => if i = b then min 255 (h + 1) else h }
  | none => c

/-- A cell after an increment (R287, R288). -/
def incCell (x : MapInc) (c : Cell) : Cell := countBin x (addGrams x.samp x.grams (cutCell x c))

/-- The record of a cell: in its slot; while its tile is loading, as the store holds it with the DEFERRED increments
applied; of a tile that is not resident, as the store holds it. -/
def mapCell (s : State) (k : MapKey) : Cell :=
  match mapSlot s (MapTile.of k) with
  | some n =>
    if s.bit (fMAP_DIR_STAT_LOADING n) then
      (s.map.incs.filter fun x => x.key == k).foldl (fun c x => incCell x c) (cellOf (storedCell s k))
    else cellOf (s.rdBytes (cellAddr n k) 32)
  | none => cellOf (storedCell s k)

def putCell (n : Nat) (k : MapKey) (c : Cell) (s : State) : State := s.wrBytes (cellAddr n k) (cellBytes c)

/-- An increment reaches a resident cell. -/
def applyInc (n : Nat) (x : MapInc) (s : State) : State :=
  let c := incCell x (mapCell s x.key)
  let s := putCell n x.key c s
  if cellState c = 1 then s.putBit (fMAP_DIR_STAT_OPEN n) true else s

/-- An increment goes to its tile: applied, DEFERRED while the tile loads, or REFUSED (R296). -/
def sendInc (x : MapInc) (s : State) : State :=
  let (slot, s) := ensureTile (MapTile.of x.key) s
  match slot with
  | none => refuseInc 0 2 x.grams s
  | some n =>
    if !s.bit (fMAP_DIR_STAT_LOADING n) then applyInc n x s
    else if s.map.incs.length < 65536 then { s with map := { s.map with incs := s.map.incs ++ [x] } }
    else refuseInc n 1 x.grams s

/-! ## The path ring -/

def noIv : MapIv := ⟨false, false, false, 0#32, 0#32, 0#32, 0, 0, []⟩
def ivOf (s : State) (j : Int) : MapIv :=
  if j < 0 then noIv else ((s.map.ring.find? fun x => x.1 == j.toNat).map Prod.snd).getD noIv
def setIv (j : Nat) (v : MapIv) (s : State) : State :=
  { s with map := { s.map with ring := s.map.ring.map fun x => if x.1 = j then (j, v) else x } }

/-- `write_cells(j, sample)`: every cell of interval j takes its cumulative share (R287); a correction merges or is
refused cell by cell (R294). -/
def writeCells (j : Nat) (m : MapSample) (corr : Bool) (s : State) : State :=
  let v := ivOf s j
  if !v.pos then s
  else
    let side := f32Div (f32OfNat (mapSide s v.field)) 0x45800000#32
    let s2 := f32Mul side side
    let step (acc : State × List MapCut) (c : MapCut) : State × List MapCut :=
      let s := acc.1
      let fc := f32Div (f32Mul (f32Div (f32OfNat c.frac) 0x477FFF00#32) s2) v.a
      let g : Int := f32Round (f32Mul (f32Mul 0x447A0000#32 v.m) fc)
      let d := g - c.written
      let done := acc.2 ++ [{ c with written := g }]
      if d = 0 then (s, acc.2 ++ [c])
      else if c.out then (notMapped 3 (kgOfGrams d) s, done)
      else
        let key : MapKey := ⟨v.field, c.i, c.j⟩
        let x : MapInc := ⟨key, d, 0, v.time, false, m, none⟩
        let cell := mapCell s key
        if !corr then (sendInc x s, done)
        else if cellState cell = 1 ∧ cell.pass = c.pass then (sendInc x (s.inc fMAP_CORR_MERGED), done)
        else
          let why := if cellState cell = 1 then 2 else 1
          let s := ((unattr (kgOfGrams d) s).inc fMAP_CORR_REFUSED).putBit fMAP_EVT_REFUSED true
          let slot := (mapSlot s (MapTile.of key)).getD 0
          let there := (mapSlot s (MapTile.of key)).isSome && !s.bit (fMAP_DIR_STAT_LOADING slot)
          let s := if there then putCell slot key { cell with flags := orBit cell.flags 2 } s else s
          (s.evMax 0x8005 (slot % 256) why (f16OfInt d), done)
    let (s, cells) := v.cells.foldl step (s, [])
    setIv j { ivOf s j with cells := cells } s

/-! ## The sweep (R285) -/

/-- The module's ground position at an update: the ego-motion pose of result U / 400, else the GNSS solution of the
epoch that ends at U; the second component is POS_SRC (R285). -/
def mapPose (s : State) (u : Nat) : Option (MapPose × Nat) :=
  match s.map.poses.find? fun p => p.frame == 5 * u && p.ok with
  | some p => some (p, 1)
  | none =>
    if s.get64 fGNS_SOL_TICK_LO.addr = 2000 * u ∧ s.bit fGNS_SOL_STAT_INTEG ∧ s.bit fGNS_SOL_STAT_HEAD_OK then
      let args := (solWords s) ++ ((fieldGeo s (s.get fMAP_FIELD_ID)).drop 1).take 3 ++ (s.fus.mounts.map Prod.snd).flatten
      some (⟨5 * u, true, Config.estimator 20 0 args, Config.estimator 20 1 args, Config.estimator 20 2 args,
        Config.estimator 20 3 args, true⟩, 2)
    else none

/-- The two ends of the cutter bar at a pose, left then right, in 1/4,096 m (R285): the heading is clockwise from
north, x forward and y left. -/
def barEnds (s : State) (e n yaw : F32) : List (Int × Int) :=
  let sn := f32Sin yaw
  let cs := f32Cos yaw
  let fwd := f32Div (f32OfInt (ofField 16 (s.get fMAP_CUTBAR_FWD))) 0x42C80000#32
  let lat := f32Div (f32OfInt (ofField 16 (s.get fMAP_CUTBAR_LAT))) 0x42C80000#32
  let half := f32Mul (s.getF fFUN_CUT_W) 0x3F000000#32
  let place (y : F32) : Int × Int :=
    (mapUnits (f32Add e (f32Sub (f32Mul fwd sn) (f32Mul y cs))), mapUnits (f32Add n (f32Add (f32Mul fwd cs) (f32Mul y sn))))
  [place (f32Add lat half), place (f32Sub lat half)]

/-- The point lies inside the polygon, by the even-odd rule (log entry 12). -/
def inPoly (p : List (Int × Int)) (x y : Int) : Bool :=
  let edges := p.zip (p.drop 1 ++ p.take 1)
  edges.foldl (fun odd q =>
    let (a, b) := q
    if (a.2 > y) == (b.2 > y) then odd
    else
      let d := (b.1 - a.1) * (y - a.2) - (x - a.1) * (b.2 - a.2)
      if (if a.2 < b.2 then decide (0 < d) else decide (d < 0)) then !odd else odd) false

/-- The points of a cell's 16 × 16 grid that the quadrilateral covers. -/
def sweptPoints (p : List (Int × Int)) (side : Nat) (i j : Int) : Nat :=
  ((List.range 256).filter fun (k : Nat) =>
    let st : Int := side / 16
    inPoly p (i * side + st * (k % 16 : Nat) + st / 2) (j * side + st * (k / 16 : Nat) + st / 2)).length

/-- The whole numbers from a to b. -/
def intRange (a b : Int) : List Int := (List.range (b - a + 1).toNat).map fun (k : Nat) => a + k

/-- The cells that the quadrilateral touches, with their covered points. -/
def sweptCells (p : List (Int × Int)) (side : Nat) : List (Int × Int × Nat) :=
  let xs := p.map Prod.fst
  let ys := p.map Prod.snd
  let lo (l : List Int) : Int := l.foldl min (l.headD 0)
  let hi (l : List Int) : Int := l.foldl max (l.headD 0)
  ((intRange (lo xs / side) (hi xs / side)).flatMap fun i =>
    (intRange (lo ys / side) (hi ys / side)).map fun j => (i, j, sweptPoints p side i j)).filter fun c => c.2.2 != 0

/-- A cell's centre lies more than 16,000 m from the origin (R280). -/
def outside (side : Nat) (i j : Int) : Bool :=
  let far (k : Int) : Bool := decide (65536000 < (k * side + side / 2).natAbs)
  far i || far j

/-- The new fraction of a swept cell, × 1/65,535: limited by the area left, and 0 for a cell sealed in this run (R285,
R292). -/
def newFrac (s : State) (key : MapKey) (pts : Nat) : Nat :=
  if s.map.runSealed.contains key then 0 else min ((pts * 65535 + 128) / 256) (65535 - (mapCell s key).area)

/-- The swept cells with their new fractions, the largest 128 kept (R285). -/
def cutCells (s : State) (field side : Nat) (p : List (Int × Int)) : List MapCut :=
  let all := (sweptCells p side).map fun c =>
    let key : MapKey := ⟨field, c.1, c.2.1⟩
    let out := outside side c.1 c.2.1
    let f := if out then (c.2.2 * 65535 + 128) / 256 else newFrac s key c.2.2
    let cell := mapCell s key
    (⟨c.1, c.2.1, f, (0 : Int), if cellState cell = 1 then cell.pass else min 255 (cell.pass + 1), out⟩ : MapCut)
  ((all.filter fun c => c.frac != 0).mergeSort fun a b => decide (b.frac ≤ a.frac)).take 128

/-- Interval u enters the path ring (R285); the ring keeps 800 intervals, more than the longest settle horizon. -/
def pushIv (u : Nat) (v : MapIv) (s : State) : State :=
  { s with map := { s.map with ring := ((u, v) :: s.map.ring).take 800 } }

/-- The cut area of a list of cells, m². -/
def cutArea (side : Nat) (cells : List MapCut) : F32 :=
  let n := (cells.map MapCut.frac).sum
  f32OfRatio false (n * side * side) (65535 * 16777216)

/-- Cells of an interval are cut: area and STATE first, their mass follows with the attribution. -/
def cutAll (u : Nat) (v : MapIv) (m : MapSample) (s : State) : State :=
  forAll (v.cells.filter fun c => !c.out) (fun c t =>
    let key : MapKey := ⟨v.field, c.i, c.j⟩
    let t := sendInc ⟨key, 0, c.frac, v.time, v.odo, m, none⟩ t
    { t with map := { t.map with opens := (key, u) :: t.map.opens.filter fun o => !(o.1 == key) } }) s

/-- The tiles touched by the present position and the one predicted 10 s ahead, within 128 m, stay resident (R296). -/
def keepResident (p : MapPose) (s : State) : State :=
  let d := f32Mul p.fwd 0x41200000#32
  let ahead := barEnds s (f32Add p.e (f32Mul d (f32Sin p.yaw))) (f32Add p.n (f32Mul d (f32Cos p.yaw))) p.yaw
  let f := s.get fMAP_FIELD_ID
  let side : Int := 256 * mapSide s f
  let tiles := (barEnds s p.e p.n p.yaw ++ ahead).flatMap fun q =>
    let x := q.1
    let y := q.2
    (intRange ((x - 524288) / side) ((x + 524288) / side)).flatMap fun tx =>
      (intRange ((y - 524288) / side) ((y + 524288) / side)).map fun ty => (⟨f, tx, ty⟩ : MapTile)
  forAll tiles (fun t u => match ensureTile t u with
    | (some _, v) => v
    | (none, v) => (v.putBit fMAP_EVT_REFUSED true).ev 0x8007 0 2) s

/-- The interval sweep of R285 for sample m. -/
def sweep (m : MapSample) (s : State) : State :=
  let u := m.u
  let c := sampSig m 148
  let cut := s.bit fMAP_STATUS_FIELD_OK && c.2 && f32Lt 0#32 c.1
  let field := s.get fMAP_FIELD_ID
  let s := if cut && !s.map.wasCut then { s with map := { s.map with runSealed := [] } } else s
  let s := { s with map := { s.map with wasCut := cut } }
  match mapPose s u with
  | none =>
    let s := { s.put fMAP_STATUS_POS_SRC 0 with map := { s.map with last := none } }
    pushIv u (if cut then { noIv with cut := true, a := f32Mul c.1 0x3DCCCCCD#32, field := field } else noIv) s
  | some (p, src) =>
    let prev := match s.map.last with
      | some (v, e, n, y) => if v + 1 = u then some (e, n, y) else none
      | none => none
    let s := { s.put fMAP_STATUS_POS_SRC src with map := { s.map with last := some (u, p.e, p.n, p.yaw) } }
    let s := if s.bit fMAP_STATUS_FIELD_OK then keepResident p s else s
    if !cut then pushIv u noIv s
    else match prev with
      | none => pushIv u { noIv with cut := true, a := f32Mul c.1 0x3DCCCCCD#32, field := field } s
      | some (e, n, y) =>
        let p0 := barEnds s e n y
        let p1 := barEnds s p.e p.n p.yaw
        let side := mapSide s field
        let cells := cutCells s field side (p0 ++ p1.reverse)
        let at' := (s.clk.tbase + 2000 * u * 50000 - fieldSeason s field) / 1000000000
        let v : MapIv := ⟨true, true, src == 1 && !p.gnss, cutArea side cells, 0#32, 0#32, at'.toNat, field, cells⟩
        cutAll u v m (pushIv u v s)

/-! ## Attribution (R286) -/

def f32Tenth : F32 := 0x3DCCCCCD#32

/-- ybar of R286; 1.0 kg/m² also where the intervals that count have no cut area (DEDUCED, log entry 139). -/
def ybar (s : State) : F32 :=
  let vs := (s.map.ring.map Prod.snd).filter fun v => f32Le 0x3E4CCCCD#32 v.hseen
  let d := vs.foldl (fun t v => f32Add t (f32Mul v.a v.hseen)) 0#32
  if f32IsZero d then f32One else f32Div (vs.foldl (fun t v => f32Add t v.m) 0#32) d

/-- The weights w[0..159] of sample u, and their sum (R286); an interval without cut area weighs 0 (DEDUCED, log entry
139). -/
def weights (s : State) (u : Nat) : List (Nat × F32) × F32 :=
  let yb := ybar s
  (List.range 160).foldl (fun (acc : List (Nat × F32) × F32) (k : Nat) =>
    let v := ivOf s (Int.ofNat u - k)
    let h := s.map.ker.getD k 0#32
    if v.cut && f32Lt 0#32 h then
      let yh := if f32Le 0x3E4CCCCD#32 v.hseen && !f32IsZero v.a then f32Div v.m (f32Mul v.a v.hseen) else yb
      let w := f32Mul (f32Mul h v.a) (f32Max yh (f32Mul f32Tenth yb))
      (acc.1 ++ [(k, w)], f32Add acc.2 w)
    else acc) ([], 0#32)

/-- A mass goes to interval j: its cumulative mass and its cells (R286, R287); an interval without a position cannot
be mapped. -/
def giveMass (j : Nat) (dm : F32) (m : MapSample) (corr : Bool) (s : State) : State :=
  let v := ivOf s j
  let s := setIv j { v with m := f32Add v.m dm } s
  if v.pos then
    let s := if s.bit fMAP_STATUS_FIELD_OK ∧ v.field = s.get fMAP_FIELD_ID then
      s.wr fMAP_MASS_TOTAL.addr (f32Add (s.rd fMAP_MASS_TOTAL.addr) dm) else s
    writeCells j m corr s
  else notMapped 2 dm s

/-- The attribution of one sample (R286). -/
def attributeMass (m : MapSample) (s : State) : State :=
  let f := sampSig m 144
  let kg := f32Mul f.1 f32Tenth
  if !f.2 then s.evMax 0x8006 0 5 (f16OfF32 kg)
  else
    let (ws, sw) := weights s m.u
    let s := if f32IsZero sw then
        let s := notMapped 1 kg s
        { s with map := { s.map with shares := (⟨m, kg, []⟩ :: s.map.shares).take 100 } }
      else
        let sh := (ws.filter fun w => f32Lt 0#32 w.2).map fun w => (w.1, f32Div (f32Mul kg w.2) sw)
        let s := forAll sh (fun x t => giveMass (m.u - x.1) x.2 m false t) s
        { s with map := { s.map with shares := (⟨m, kg, sh⟩ :: s.map.shares).take 100 } }
    forUp 160 (fun k t =>
      if m.u < k then t
      else
        let v := ivOf t (m.u - k)
        setIv (m.u - k) { v with hseen := f32Add v.hseen (t.map.ker.getD k 0#32) } t) s

/-! ## The kernel (R289–R291) -/

def f32Sum (l : List F32) : F32 := l.foldl f32Add 0#32
def normalise (l : List F32) : List F32 := let t := f32Sum l; l.map fun x => f32Div x t

/-- Centroid of a kernel, in taps. -/
def centroid (l : List F32) : F32 := f32Sum ((l.zip (List.range l.length)).map fun p => f32Mul (f32OfNat p.2) p.1)
/-- Spread (1σ) of a kernel, in taps. -/
def spread (l : List F32) : F32 :=
  let c := centroid l
  f32Sqrt (f32Sum ((l.zip (List.range l.length)).map fun p =>
    f32Mul (f32Mul (f32Sub (f32OfNat p.2) c) (f32Sub (f32OfNat p.2) c)) p.1))

/-- The kernel in force shown in MAP_KER and MAP_KERNEL (R303). -/
def showKernel (s : State) : State :=
  let tap (x : F32) : Nat := min 65535 (f32Round (f32Mul x 0x477FFF00#32)).toNat
  let s := forUp 80 (fun m t => (t.put (fMAP_KER_TAP_LO m) (tap (s.map.ker.getD (2 * m) 0#32))).put (fMAP_KER_TAP_HI m)
    (tap (s.map.ker.getD (2 * m + 1) 0#32))) s
  (s.put fMAP_KERNEL_CENTROID (min 255 (f32Round (centroid s.map.ker)).toNat)).put fMAP_KERNEL_SPREAD
    (min 255 (f32Round (spread s.map.ker)).toNat)

def setKernel (h : List F32) (s : State) : State := showKernel { s with map := { s.map with ker := h } }

/-- SIG[148] and SIG[144] of update u, where both are valid. -/
def flowAt (s : State) (u : Int) : Option (F32 × F32) :=
  if u < 0 then none
  else match s.map.flows.find? fun x => x.1 == u.toNat with
    | some (_, some c, some f) => some (c, f)
    | _ => none

/-- The values of the updates from a to b, when every one is valid. -/
def flowRun (s : State) (a b : Int) : Option (List (F32 × F32)) :=
  let l := (intRange a b).map (flowAt s)
  if l.all Option.isSome then some (l.filterMap id) else none

def meanOf (l : List F32) : F32 := f32Div (f32Sum l) (f32OfNat l.length)
def within15 (l : List F32) : Bool :=
  let m := meanOf l
  l.all fun x => f32Le (f32Abs (f32Sub x m)) (f32Mul 0x3E19999A#32 m)

/-- The update e is a step event of R289, complete at e + 160. -/
def isStep (s : State) (e : Int) : Bool :=
  let crop (a b : Int) (f : List F32 → Bool) : Bool := match flowRun s a b with
    | some l => f (l.map Prod.fst)
    | none => false
  let zero (l : List F32) : Bool := l.all f32IsZero
  let cutting (l : List F32) : Bool := within15 l && l.all fun x => f32Lt 0#32 x
  crop e (e + 160) fun after =>
    (zero after && crop (e - 100) (e - 1) fun l => cutting l && f32Le f32One (l.getLastD 0#32))
    || (cutting (after.take 160) && crop (e - 160) (e - 1) zero)

/-- The event kernel of a step at e, or the reason it is rejected (R289). -/
def eventKernel (s : State) (e : Int) : Except Nat (List F32) :=
  let f (a b : Int) : List F32 := ((flowRun s a b).getD []).map Prod.snd
  let fb := meanOf (f (e - 20) (e - 1))
  let fa := meanOf (f (e + 151) (e + 160))
  let step := f32Sub fa fb
  if f32Lt (f32Abs step) 0x40000000#32 then .error 1
  else
    let raw := (f (e + 1) (e + 160)).map fun x => f32Clamp (f32Div (f32Sub x fb) step) 0#32 f32One
    let cum := raw.foldl (fun acc x => acc ++ [f32Max x (acc.getLastD 0#32)]) []
    if f32Lt (cum.getLastD 0#32) 0x3F733333#32 then .error 2
    else
      let h := normalise ((cum.zip (0#32 :: cum)).map fun p => f32Sub p.1 p.2)
      if f32Lt 0x41F00000#32 (f32Abs (f32Sub (centroid h) (centroid s.map.ker))) then .error 3 else .ok h

/-- Re-attribution of the last REATTR samples under the kernel in force; the corrections go oldest interval first
(R291). -/
def reattribute (s : State) : State :=
  let sel := (s.map.shares.take (s.get fMAP_CFG_REATTR)).reverse
  let redo := sel.map fun x =>
    let w := weights s x.samp.u
    let sh : List (Nat × F32) := if f32IsZero w.2 then []
      else (w.1.filter fun y => f32Lt 0#32 y.2).map fun y => (y.1, f32Div (f32Mul x.kg y.2) w.2)
    (x, sh)
  let old (x : MapShare) (k : Nat) : F32 := ((x.shares.find? fun y => y.1 == k).map Prod.snd).getD 0#32
  let new (sh : List (Nat × F32)) (k : Nat) : F32 := ((sh.find? fun y => y.1 == k).map Prod.snd).getD 0#32
  let corr := redo.flatMap fun x =>
    ((List.range 160).filter fun k => decide (k ≤ x.1.samp.u)).map fun k =>
      (x.1.samp.u - k, f32Sub (new x.2 k) (old x.1 k), x.1.samp)
  let corr := (corr.filter fun c => !f32IsZero c.2.1).mergeSort fun a b => decide (a.1 ≤ b.1)
  let s := forAll corr (fun c t => giveMass c.1 c.2.1 c.2.2 true t) s
  let upd (x : MapShare) : MapShare :=
    ((redo.find? fun y => y.1.samp.u == x.samp.u).map fun y => { x with shares := y.2 }).getD x
  { s with map := { s.map with shares := s.map.shares.map upd } }

/-- Kernel estimation and adoption, then the corrections (R289–R291). -/
def kernelStep (u : Nat) (reset : Bool) (s : State) : State :=
  let e : Int := Int.ofNat u - 160
  let (s, adopted) := if !isStep s e then (s, false)
    else match eventKernel s e with
      | .error w => (s.ev 0x8004 0 w, false)
      | .ok he =>
        let b := f32Div (f32OfNat (s.get fMAP_CFG_BETA)) 0x41800000#32
        let h := normalise ((s.map.ker.zip he).map fun p => f32Add (f32Mul (f32Sub f32One b) p.1) (f32Mul b p.2))
        let s := ((setKernel h s).inc fMAP_KERNEL_EVENTS).putBit fMAP_EVT_KERNEL true
        (s.evx 0x8003 0 0 (f16OfF32 (f32Mul (spread h) f32Tenth)) (f16OfF32 (f32Mul (centroid h) f32Tenth)), true)
  if adopted || reset then reattribute s else s

/-! ## Histogram and sealing (R288, R292) -/

/-- The cells of the interval that leaves the attribution window take a histogram count (R288); the count is DEFERRED
with the tile's increments while the tile loads, and its bin is a free value where no sample reached the interval
(log entry 139). -/
def histCount (u : Nat) (s : State) : State :=
  let v := ivOf s (Int.ofNat u - 160)
  if !v.pos then s
  else
    let y := f32Div (f32Mul 0x41200000#32 v.m) (f32Mul v.a v.hseen)
    let bin := if f32IsNaN y then (Config.realFn 26 [v.m, v.a]).toNat % 8
      else min 7 (f32Floor (f32Div y (f32Mul (f32OfNat (s.get fMAP_CFG_HIST_W)) f32Tenth))).toNat
    let m : MapSample := ⟨u, [], 0#32, 0#32, false, 0⟩
    forAll (v.cells.filter fun c => !c.out) (fun c t =>
      let key : MapKey := ⟨v.field, c.i, c.j⟩
      if (mapSlot t (MapTile.of key)).isSome then sendInc ⟨key, 0, 0, v.time, false, m, some bin⟩ t else t) s

/-- OPEN cells whose newest interval is past the settle horizon become SEALED (R292). -/
def sealCells (u : Nat) (s : State) : State :=
  let due := s.map.opens.filter fun o => decide (s.get fMAP_CFG_SETTLE * 10 + o.2 ≤ u)
  let s := forAll due (fun o t =>
    match mapSlot t (MapTile.of o.1) with
    | none => t
    | some n =>
      if t.bit (fMAP_DIR_STAT_LOADING n) then t
      else
        let t := (putCell n o.1 (withState (mapCell t o.1) 2) t).putBit fMAP_EVT_SEALED true
        let t := t.putBit (fMAP_DIR_STAT_DIRTY n) true
        { t with map := { t.map with opens := t.map.opens.filter (fun p => !(p.1 == o.1))
                                     fresh := o.1 :: t.map.fresh.filter (· != o.1)
                                     unsent := o.1 :: t.map.unsent.filter (· != o.1)
                                     runSealed := o.1 :: t.map.runSealed } }) s
  forUp 512 (fun n t =>
    if !t.bit (fMAP_DIR_STAT_OPEN n) then t
    else t.putBit (fMAP_DIR_STAT_OPEN n) (t.map.opens.any fun o => mapSlot t (MapTile.of o.1) == some n)) s

/-! ## Journal (R297, R298) -/

/-- A request made at a tick counts from the first update after it. -/
def dueBy (u : Nat) (at' : Option Nat) : Bool := match at' with
  | some t => decide (t < 2000 * u)
  | none => false

def blockOf (k : MapKey) : MapKey := ⟨k.field, k.i / 16, k.j / 16⟩

/-- A journal update takes every block that holds a cell sealed since the last journal; only SEALED cells go. Without a
map-encryption key nothing is written (R435). -/
def journalTake (u : Nat) (s : State) : State :=
  let now := dueBy u s.map.journalNow
  if u % 20 != 0 && !now then s
  else
    let s := if now then { s with map := { s.map with journalNow := none } } else s
    if s.map.fresh.isEmpty || s.map.writing.isSome || !s.bit fSEC_STATUS_MAPKEY then s
    else
      let blocks := (s.map.fresh.map blockOf).eraseDups
      let cells := blocks.flatMap fun b => (List.range 256).map fun k =>
        (⟨b.field, b.i * 16 + (k % 16 : Nat), b.j * 16 + (k / 16 : Nat)⟩ : MapKey)
      let cells := cells.filter fun k => cellState (mapCell s k) == 2
      { s with map := { s.map with writing := some (cells.map fun k => (k, cellBytes (mapCell s k))), fresh := []
                                   blocks := blocks.length } }

def putStore (l : List (MapKey × List Byte)) (s : State) : State :=
  forAll l (fun x t => { t with map := { t.map with store := x :: t.map.store.filter fun y => !(y.1 == x.1) } }) s

/-- A journal write ends: committed, failed, or with the map store found full (R297, R298). -/
def execJournalCommit (failed full : Bool) (s : State) : Out :=
  match s.map.writing with
  | none => .next s
  | some cells =>
    let s := { s with map := { s.map with writing := none } }
    let s := if full && !s.bit fMAP_STATUS_STORE_FULL then (s.putBit fMAP_STATUS_STORE_FULL true).ev 0x800E else s
    if failed then
      let keys := cells.map Prod.fst
      let s := { s with map := { s.map with fresh := keys ++ s.map.fresh.filter fun k => !keys.contains k } }
      .next (((s.inc fMAP_JOURNAL_FAIL).putBit fMAP_EVT_STORE_ERR true).evMax 0x8009 0 0 (f16OfNat s.map.blocks))
    else
      let s := (putStore cells s).put fMAP_JOURNAL_BLOCKS s.map.blocks
      let s := forUp 512 (fun n t =>
        if !t.bit (fMAP_DIR_STAT_DIRTY n) then t
        else t.putBit (fMAP_DIR_STAT_DIRTY n) (t.map.fresh.any fun k => mapSlot t (MapTile.of k) == some n)) s
      .next (s.putBit fMAP_EVT_JOURNAL true)

/-! ## Samples and updates (R284, R295) -/

/-- The bytes of a map sample in the posted write buffer: 22 entries of SIG with their status words, two entries of the
clean-grain statistics and the Swing search state (DESIGN CHOICE, log entry 124). -/
def postBytes : Nat := 196

/-- At a map-update boundary the lane with the higher claim posts a sample; one that finds the buffer of 64 KiB full is
invalid, and a ninth one waiting is refused (R28, R284). The buffer has drained `drained` bytes since the last one. -/
def postSample (drained : Nat) (s : State) : State :=
  if !s.wide || !s.bit fMAP_STATUS_RUN then s
  else
    let left := s.map.posted - drained
    let accepted := decide (left + postBytes ≤ 65536)
    let s := { s with map := { s.map with posted := if accepted then left + postBytes else left } }
    let u := s.clk.tick / 2000
    let l := topLane s
    let sig := (List.range 22).map fun k => let g := s.sig l (128 + k); (g.val, g.valid && accepted)
    let gb := s.sig l (s.swg.sigs.getD 0 0)
    let gm := s.sig l (s.swg.sigs.getD 1 0)
    let m : MapSample := ⟨u, sig, gb.val, gm.val, sigUsable gb 800 && sigUsable gm 800, s.get fSWG_STATUS_STATE⟩
    if 8 ≤ s.map.queue.length then
      let g := s.sig l 144
      notMapped 4 (if g.valid && accepted then f32Mul g.val f32Tenth else 0#32) s
    else
      let s := { s with map := { s.map with queue := s.map.queue ++ [m] } }
      s.put fMAP_STAT_BACKLOG (min 8 s.map.queue.length)

/-- Opening and closing of fields at an update, and a kernel reset (R279, R290, R295). -/
def mapCommit (u : Nat) (s : State) : State :=
  let closeIt (s : State) : State :=
    if s.bit fMAP_STATUS_FIELD_OK then
      ((s.ev 0x8002 (s.get fMAP_FIELD_ID % 256)).putBit fMAP_STATUS_FIELD_OK false).put fMAP_FIELD_ID 0
    else s
  let s := if dueBy u s.map.close then { closeIt s with map := { s.map with close := none } } else s
  match s.map.newField with
  | some (f, t) =>
    if 2000 * u ≤ t then s else
    let s := closeIt s
    let s := { s with map := { s.map with newField := none, last := none } }
    let s := ((s.put fMAP_FIELD_ID f).putBit fMAP_STATUS_FIELD_OK true).wr fMAP_UNATTR.addr 0#32
    (s.wr fMAP_MASS_TOTAL.addr 0#32).ev 0x8001 (f % 256)
  | none => s

/-- The map engine is ready once it runs with the tiles loaded that a valid pose makes resident (R423). -/
def mapReady (s : State) : State :=
  if s.get fMAP_TILES_LOADING = 0 ∧ (s.rst.ready.any fun x => x.1 == 3) = true then s.svcReady 4 else s

/-- The engine processes the oldest sample: commits, sweep, attribution, kernel and corrections, histogram, sealing
and journal, in this order (R295). It starts when the result of frame U / 400 is issued, at the latest at U + 800
(R284). `deferred` of its DRAM requests waited longer than 2 µs (R29). -/
def execMapUpdateProcess (deferred : Nat) (s : State) : Out :=
  match s.map.queue with
  | [] => .next s
  | m :: rest =>
    let due := (match s.fus.last with
      | some n => decide (5 * m.u ≤ n)
      | none => false) || decide (2000 * m.u + 800 ≤ s.clk.tick)
    if !s.wide || !s.bit fMAP_STATUS_RUN || !due then .next s
    else
      let s := { s with map := { s.map with queue := rest } }
      let s := (s.put fMAP_STAT_BACKLOG (min 8 rest.length)).add fMAP_STAT_DRAM_DEFERRED deferred
      let s := mapCommit m.u s
      let reset := dueBy m.u s.map.kerReset
      let s := if reset then setKernel s.map.nom { s with map := { s.map with kerReset := none } } else s
      let val (i : Nat) : Option F32 := let x := sampSig m i; if x.2 then some x.1 else none
      let s := { s with map := { s.map with flows := ((m.u, val 148, val 144) :: s.map.flows).take 330 } }
      let s := kernelStep m.u reset (attributeMass m (sweep m s))
      let s := journalTake m.u (sealCells m.u (histCount m.u s))
      let s := s.put64 fMAP_LAST_TICK_LO.addr (2000 * m.u)
      .next (mapReady (showTiles (s.putBit fMAP_EVT_UPDATE true)))

/-- A tile finishes loading: its stored cells, those of blocks that fail authentication EMPTY, then its queued
increments in order (R296, R298). -/
def execTileLoaded (n : Fin 512) (bad : List (Fin 256)) (s : State) : Out :=
  if !s.wide || !s.bit (fMAP_DIR_STAT_VALID n) || !s.bit (fMAP_DIR_STAT_LOADING n) then .next s
  else
    let t : MapTile := ⟨s.get (fMAP_DIR_STAT_FIELD n), ofField 16 (s.get (fMAP_DIR_KEY_TX n)), ofField 16 (s.get (fMAP_DIR_KEY_TY n))⟩
    let lo := 0x100000000 + n.val * 0x200000
    let s := { s with mem := s.mem.filter fun c => decide (c.1 < lo) || decide (lo + 0x200000 ≤ c.1) }
    let blk (k : MapKey) : Nat := (k.j % 256 / 16).toNat * 16 + (k.i % 256 / 16).toNat
    let mine := s.map.store.filter fun x => MapTile.of x.1 == t
    let failed (k : MapKey) : Bool := bad.any fun b => b.val == blk k
    let s := forAll (mine.filter fun x => !failed x.1) (fun x u => u.wrBytes (cellAddr n x.1) x.2) s
    let s := forAll bad (fun _ u => (u.putBit fMAP_EVT_STORE_ERR true).ev 0x800A) s
    let s := s.putBit (fMAP_DIR_STAT_LOADING n) false
    let incs := s.map.incs.filter fun x => MapTile.of x.key == t
    let s := { s with map := { s.map with incs := s.map.incs.filter fun x => !(MapTile.of x.key == t) } }
    .next (mapReady (showTiles (forAll incs (applyInc n) s)))

/-! ## Control (R279, R290, R297) -/

def mapCtl (req : Req) (f : MapEng → MapEng) (s : State) : Out :=
  if reqIsOem req || !s.wide then .next s else .next { s with map := f s.map }

def execJournalNow (req : Req) (s : State) : Out := mapCtl req (fun m => { m with journalNow := some s.clk.tick }) s
def execKerReset (req : Req) (s : State) : Out := mapCtl req (fun m => { m with kerReset := some s.clk.tick }) s
def execFieldClose (req : Req) (s : State) : Out := mapCtl req (fun m => { m with close := some s.clk.tick }) s

/-- A field is deleted from the map store (R298). -/
def execFieldDelete (field : Nat) (s : State) : Out :=
  if !s.wide then .next s
  else
    let s := { s with map := { s.map with store := s.map.store.filter fun x => x.1.field != field } }
    .next (s.putBit fMAP_STATUS_STORE_FULL false)

/-! ## Export (R301) -/

def crc32Bit (c : Word) (b : Bool) : Word :=
  let c' := c >>> 1
  if (c.getLsbD 0) != b then c' ^^^ 0xEDB88320#32 else c'
def crc32 (bs : List Byte) : Word :=
  (bs.foldl (fun c b => (List.range 8).foldl (fun c i => crc32Bit c (b.getLsbD i)) c) 0xFFFFFFFF#32) ^^^ 0xFFFFFFFF#32

/-- The SEALED cells of a tile, in the order of their rows. -/
def sealedCells (s : State) (t : MapTile) : List (MapKey × List Byte) :=
  let keys := (List.range 65536).map fun k => (⟨t.field, t.tx * 256 + (k % 256 : Nat), t.ty * 256 + (k / 256 : Nat)⟩ : MapKey)
  (keys.map fun k => (k, cellBytes (mapCell s k))).filter fun x => cellState (cellOf x.2) == 2

/-- The export of a tile (R301). -/
def tileExport (s : State) (t : MapTile) (cells : List (MapKey × List Byte)) : List Byte :=
  let ent := cells.flatMap fun x => [BitVec.ofNat 8 (x.1.i % 256).toNat, BitVec.ofNat 8 (x.1.j % 256).toNat] ++ x.2
  let geo (k : Nat) : Nat := ((fieldGeo s t.field).getD k 0#32).toNat
  let head := [0x46#8, 0x59#8, 0x4D#8, 0x58#8] ++ leBytes 2 1 ++ leBytes 1 (geo 0) ++ leBytes 1 0
    ++ leBytes 2 t.field ++ leBytes 2 (toField 16 t.tx) ++ leBytes 2 (toField 16 t.ty) ++ leBytes 2 0
    ++ leBytes 4 cells.length ++ leBytes 4 (geo 1) ++ leBytes 4 (geo 2)
    ++ leBytes 4 (geo 3) ++ leBytes 8 (fieldSeason s t.field) ++ leBytes 8 (u64 s.now)
    ++ leBytes 12 0
  head ++ leBytes 4 (crc32 head).toNat ++ ent ++ leBytes 4 (crc32 ent).toNat

/-- A service-port request exports a tile of the field. -/
def execTileExport (field : Nat) (tx ty : Int) (s : State) : Out :=
  if !s.wide then .next s
  else
    let t : MapTile := ⟨field, tx, ty⟩
    .next { s with map := { s.map with exported := tileExport s t (sealedCells s t) } }

/-! ## Start (R290, R299, R300) -/

/-- A cell that a committed journal holds. -/
def journalled (s : State) (k : MapKey) : Bool := s.map.store.any fun x => x.1 == k

/-- The deltas that are not yet acknowledged, over a reset: the list of pending tiles lives on the eMMC with the journal,
so that only cells which it does not hold are lost with the DRAM (R367). -/
def keepDeltas (reach : Nat) (s : State) : List TileDelta :=
  if reach = 1 then s.eth.deltas
  else (s.eth.deltas.map fun d => { d with cells := d.cells.filter (journalled s) }).filter fun d => !d.cells.isEmpty

/-- After a POWER_ON, BROWNOUT or EXTERNAL reset the map is what the last committed journal holds, with its list of
pending tiles (R300, R367). -/
def mapCold (s : State) : State :=
  let m := { MapEng.init with
    store := s.map.store, unsent := s.map.unsent.filter (journalled s), nom := s.map.nom, ker := s.map.nom }
  { s with map := m }

/-- The engine starts (R299, R300): after a power loss from the journal, after a WARM reset at the next update, with
the updates lost counted. -/
def mapStart (warm : Bool) (s : State) : State :=
  if !s.wide then s
  else
    let s := s.putBit fMAP_STATUS_RUN true
    if warm then
      let lost := s.clk.tick / 2000 - s.get64 fMAP_LAST_TICK_LO.addr / 2000
      (s.putBit fMAP_STATUS_RECOVERED true).evMax 0x800B 0 0 (f16OfNat lost)
    else (showKernel { s with map := { s.map with ker := s.map.nom } }).ev 0x800C

def mapStop (s : State) : State := s.putBit fMAP_STATUS_RUN false

end Sys2Proof.Machine
end

