-- ==== Sys2Proof/Machine/Attach.lean ====
section
/-!
DEFINITION. Attachment identity and life (R305–R315): presence, authentication, INHIBIT locks, calibration and life
counters. With them the map-update boundary, at which the life counters accumulate.
-/
namespace Sys2Proof.Machine

def State.attPort (s : State) (p : Nat) : AttPort := tabGet (fun _ => AttPort.init) s.att.ports p
def State.setAttPort (s : State) (p : Nat) (x : AttPort) : State :=
  { s with att := { s.att with ports := tabSet (fun _ => AttPort.init) s.att.ports p x } }

def attState (s : State) (p : Nat) : Nat := s.get (fATT_PORT_STAT_STATE p)

/-- A region's state: 0 IDLE, 1 STAGING, 2 APPLYING (R381). -/
def fRegion (r : Nat) : Fld := ⟨fCFG_REGION.addr, 2 * r + 1, 2 * r⟩

/-! ## INHIBIT (R309) -/

/-- The port inhibits its functions: enabled, INHIBIT, and ABSENT, FAILED or WRONG_KIND. -/
def inhibits (s : State) (p : Nat) : Bool :=
  s.bit (fATT_PORT_CFG_EN p) && s.bit (fATT_PORT_CFG_POLICY p) && (attState s p == 0 || attState s p == 3 || attState s p == 4)

/-- What follows the port's state: INHIBIT requests the locks, AUTH_OK the unlock of every function that no other
inhibiting port and no lock of the operator holds. PENDING changes no lock. -/
def attPolicy (p : Nat) (s : State) : State :=
  let m := s.get (fATT_PORT_FMASK_FMASK p)
  let locked := s.bit (fATT_PORT_STAT_LOCKED p)
  if inhibits s p && !locked then
    (lockBits m (s.putBit (fATT_PORT_STAT_LOCKED p) true)).ev 0xD00A p 1
  else if locked && attState s p == 2 then
    let s := (s.putBit (fATT_PORT_STAT_LOCKED p) false).ev 0xD00A p 0
    let held := ((List.range 4).filter fun q => q != p && inhibits s q).foldl (fun h q => h ||| s.get (fATT_PORT_FMASK_FMASK q)) s.fn.opLocks
    unlockBits (m &&& (held ^^^ (2 ^ 30 - 1))) s
  else s

/-- An unlock that takes effect while a port still inhibits the function is answered by a new lock request (R309). -/
def attRelock (p : Nat) (s : State) : State :=
  let m := s.get (fATT_PORT_FMASK_FMASK p)
  let free := m &&& (s.get fFUN_LOCK_LOCK ^^^ (2 ^ 30 - 1)) &&& (s.fn.lockSet ^^^ (2 ^ 30 - 1))
  if s.bit (fATT_PORT_STAT_LOCKED p) && free != 0 then (lockBits free s).ev 0xD00A p 1 else s

/-- The port's state with what ATT_STATUS shows of it. -/
def setAttState (p st : Nat) (s : State) : State :=
  let s := (s.put (fATT_PORT_STAT_STATE p) st).setBitAt fATT_STATUS_AUTH_OK p (st == 2)
  attPolicy p s

/-! ## Presence (R308) -/

/-- One port's poll: an element that arrives starts an authentication, one absent for three polls is gone. -/
def pollPort (present : List (Fin 4)) (p : Nat) (s : State) : State :=
  let here := present.any fun q => q.val == p
  let x := s.attPort p
  if !s.bit (fATT_PORT_CFG_EN p) then s
  else if here then
    let s := s.setAttPort p { x with missed := 0 }
    if attState s p ≠ 0 then s
    else
      let s := (s.setBitAt fATT_STATUS_PRESENT p true).putBit fATT_EVT_PRESENCE true
      let s := s.setAttPort p { s.attPort p with pendAt := s.clk.tick + 1 }
      (setAttState p 1 s).ev 0xD001 p 1
  else if attState s p = 0 then attPolicy p s
  else
    let s := s.setAttPort p { x with missed := x.missed + 1 }
    if x.missed < 2 then s
    else
      let s := (s.setBitAt fATT_STATUS_PRESENT p false).putBit fATT_EVT_PRESENCE true
      let s := s.setAttPort p { s.attPort p with missed := 0, pendAt := 0 }
      (setAttState p 0 s).ev 0xD001 p 0

/-- Every 100 ms each port polls presence (R308). -/
def execPresencePoll (present : List (Fin 4)) (s : State) : Out :=
  if (match s.att.polledAt with
      | some t => decide (s.clk.tick < t + 2000)
      | none => false) then .next s
  else .next (forUp 4 (pollPort present) { s with att := { s.att with polledAt := some s.clk.tick } })

/-! ## Life counters (R311–R313) -/

/-- The unit of each counter: 36 s, 10 m², 1 kg, 1 impact. -/
def lifeUnit (i : Nat) : F32 := match i with
  | 0 => 0x42100000#32
  | 1 => 0x41200000#32
  | _ => f32One

/-- A counter's new value against its limit: 0xD007 when it first reaches 90 %, EOL and 0xD008 at the limit (R313). -/
def lifeCheck (p i : Nat) (s : State) : State :=
  let v := s.get (fATT_LIFE p i)
  let lim := s.get (fATT_LIM p i)
  if lim = 0 then s
  else
    let x := s.attPort p
    let s := if 9 * lim ≤ 10 * v && !x.near.contains i then
        ((s.setAttPort p { x with near := i :: x.near }).putBit fATT_EVT_EOL true).ev 0xD007 p i
      else s
    if lim ≤ v && !s.bitAt (fATT_PORT_STAT_EOL p) i then
      (((s.setBitAt (fATT_PORT_STAT_EOL p) i true).setBitAt fATT_STATUS_EOL p true).putBit fATT_EVT_EOL true).ev 0xD008 p i
    else s

/-- The last-seen counters of the 64 most recently authenticated serial numbers (R307). -/
def sawCounters (serial : Nat) (cs : List Nat) (s : State) : State :=
  { s with att := { s.att with seen := ((serial, cs) :: s.att.seen.filter fun x => x.1 != serial).take 64 } }

def attSerial (s : State) (p : Nat) : Nat := s.get64 (fATT_ID_LO p).addr
def lifeCounts (s : State) (p : Nat) : List Nat := (List.range 4).map fun i => s.get (fATT_LIFE p i)

/-- The impact detector of a port that is AUTH_OK, in every tick (R311). -/
def impactTick (p : Nat) (s : State) : State :=
  let i := s.get (fATT_PORT_CFG_IMP_SIG p)
  if attState s p ≠ 2 ∨ 0x3FF ≤ i then s
  else
    let x := s.attPort p
    let thr := s.getF (fATT_PORT_IMP_THR p)
    let imp := s.sig (topLane s) i
    if !imp.valid then s
    else if x.armed && f32Lt thr imp.val then s.setAttPort p { x with armed := false, imps := x.imps + 1 }
    else if !x.armed && f32Lt imp.val (f32Mul 0x3F4CCCCD#32 thr) then s.setAttPort p { x with armed := true }
    else s

/-- The increments of one map-update period (R311). -/
def accumulate (p : Nat) (s : State) : State :=
  if attState s p ≠ 2 then s
  else
    let l := topLane s
    let cut := s.sig l 148
    let flow := s.sig l 144
    let x := s.attPort p
    let add (k : Nat) (v : F32) (acc : List F32) : List F32 := acc.set k (f32Add (acc.getD k 0#32) v)
    let acc := if cut.valid && f32Lt 0#32 cut.val then add 0 f32Tenth x.acc else x.acc
    let acc := if cut.valid then add 1 (f32Mul cut.val f32Tenth) acc else acc
    let acc := if flow.valid then add 2 (f32Mul flow.val f32Tenth) acc else acc
    s.setAttPort p { x with acc := if x.imps = 0 then acc else add 3 (f32OfNat x.imps) acc, imps := 0, serial := attSerial s p }

/-- A map-update boundary: the lane with the higher claim posts a map sample and the life counters accumulate (R284,
R311). -/
def execMapUpdateBoundary (drained : Nat) (s : State) : Out :=
  if s.clk.tick % 2000 ≠ 0 then .next s else .next (forUp 4 accumulate (postSample drained s))

/-- Every 60 s the whole units go to the element; a write it does not confirm is tried again at the next (R312). -/
def writeCounters (confirmed : List (Fin 4)) (p : Nat) (s : State) : State :=
  let x := s.attPort p
  let units (i : Nat) : Nat := (f32Floor (f32Div (x.acc.getD i 0#32) (lifeUnit i))).toNat
  if attState s p ≠ 2 || (List.range 4).all (fun i => units i == 0) then s
  else if !confirmed.any (fun q => q.val == p) then (s.putBit fATT_EVT_WRITE_ERR true).ev 0xD009 p 1
  else
    let acc := (List.range 4).map fun i => f32Sub (x.acc.getD i 0#32) (f32Mul (f32OfNat (units i)) (lifeUnit i))
    let s := s.setAttPort p { x with acc := acc }
    let s := forUp 4 (fun i t => t.add (fATT_LIFE p i) (units i)) s
    forUp 4 (lifeCheck p) (sawCounters (attSerial s p) (lifeCounts s p) s)

def execCounterWrite (confirmed : List (Fin 4)) (s : State) : Out :=
  if s.clk.tick < s.att.wroteAt + 1200000 then .next s
  else .next (forUp 4 (writeCounters confirmed) { s with att := { s.att with wroteAt := s.clk.tick } })

/-! ## Authentication (R307, R308) -/

/-- The first failing step of R307 with its state and REASON: (3 FAILED or 4 WRONG_KIND, REASON). An answer after
150 ms is none. -/
def authFault (s : State) (p : Nat) (e : ElementIn) : Option (Nat × Nat) :=
  if !e.answers || decide ((s.attPort p).pendAt + 2999 < s.clk.tick) then some (3, 5)
  else if !e.certOk then some (3, 1)
  else if s.att.revoked.contains e.serial then some (3, 2)
  else if e.kind ≠ s.get (fATT_PORT_CFG_KIND p) then some (4, s.get (fATT_PORT_STAT_REASON p))
  else if !e.signOk then some (3, 3)
  else
    let last := ((s.att.seen.find? fun x => x.1 == e.serial).map Prod.snd).getD []
    if (e.counters.zip last).any fun c => decide (c.1 < c.2) then some (3, 4) else none

/-- Increments kept for another serial number are discarded (R312). -/
def dropOther (p : Nat) (e : ElementIn) (s : State) : State :=
  let x := s.attPort p
  if x.serial = e.serial ∨ x.acc.all f32IsZero then s.setAttPort p { x with serial := e.serial }
  else
    let s := s.setAttPort p { x with serial := e.serial, acc := [0#32, 0#32, 0#32, 0#32] }
    (s.putBit fATT_EVT_WRITE_ERR true).ev 0xD009 p 2

/-- The declared slot of a calibration entry whose value lies in its range (R310). -/
def calSlot (s : State) (e : Nat × F32) : Option CalSlot :=
  s.att.slots.find? fun c => c.slot == e.1 && f32Le c.lo e.2 && f32Le e.2 c.hi

/-- The port enters AUTH_OK: identity, counters, and the calibration that the next frame boundary applies. The limits
that an element reached stay noted while the same element is at the port (R313). -/
def authOk (p : Nat) (e : ElementIn) (s : State) : State :=
  let was := attState s p
  let same := attSerial s p == e.serial
  let s := dropOther p e s
  let s := (s.put64 (fATT_ID_LO p).addr e.serial).put (fATT_PORT_STAT_ELEM_KIND p) e.kind
  let s := forUp 4 (fun i t => t.put (fATT_LIFE p i) (min 4294967295 (e.counters.getD i 0))) s
  let s := sawCounters e.serial (lifeCounts s p) s
  if was = 2 then forUp 4 (lifeCheck p) s
  else
    let s := (setAttState p 2 s).ev 0xD002 p e.kind
    let x := s.attPort p
    let s := s.setAttPort p { x with near := if same then x.near else [], armed := true, busy := false, cal := e.cal }
    let s := if same then s else (s.put (fATT_PORT_STAT_EOL p) 0).setBitAt fATT_STATUS_EOL p false
    forUp 4 (lifeCheck p) (s.putBit (fATT_PORT_STAT_CAL_PEND p) (!e.cal.isEmpty))

/-- An authentication ends (R307, R308). A check that fails again, or passes again, moves no state. -/
def execAuthentication (p : Fin 4) (elem : ElementIn) (s : State) : Out :=
  let x := s.attPort p
  if x.pendAt = 0 ∨ attState s p = 0 ∨ (elem.answers = false ∧ s.clk.tick < x.pendAt + 2999) then .next s
  else
    let why := authFault s p elem
    let s := (s.setAttPort p { x with pendAt := 0, authAt := s.clk.tick }).putBit fATT_EVT_AUTH true
    match why with
    | none => .next (authOk p elem s)
    | some (st, why) =>
      let s := s.put (fATT_PORT_STAT_REASON p) why
      let s := if elem.answers then s.put (fATT_PORT_STAT_ELEM_KIND p) elem.kind else s
      if attState s p ≠ 1 ∧ attState s p ≠ 2 then .next s
      else if st = 4 then .next ((setAttState p 4 s).ev 0xD004 p elem.kind)
      else .next ((setAttState p 3 s).ev 0xD003 p why)

def startAuth (p : Nat) (s : State) : State :=
  if attState s p = 0 then s else s.setAttPort p { s.attPort p with pendAt := s.clk.tick + 1 }

/-- Every 600 s each port authenticates its element again (R307). -/
def execPeriodicReauth (p : Fin 4) (s : State) : Out :=
  if (s.attPort p).authAt + 12000000 ≤ s.clk.tick then .next (startAuth p s) else .next s

/-- ATT_CTL.REAUTH (R307). -/
def execReauth (req : Req) (bits : Fin 16) (s : State) : Out :=
  if reqIsOem req then .next s
  else .next (forUp 4 (fun p t => if bits.val.testBit p then startAuth p t else t) s)

/-! ## Calibration (R310, R388) -/

/-- A calibration value reaches its target. -/
def calWrite (c : CalSlot) (v : F32) (s : State) : State :=
  if c.msb = 31 ∧ c.lsb = 0 then s.wr c.addr v
  else s.put ⟨c.addr, c.msb, c.lsb⟩ (toField (c.msb + 1 - c.lsb) (f32Round v))

/-- The internal commit of a port's calibration at a frame boundary: it waits while a target region is STAGING or
APPLYING; entries that are not declared, or out of range, are left out. -/
def calCommit (p : Nat) (s : State) : State :=
  if !s.bit (fATT_PORT_STAT_CAL_PEND p) then s
  else
    let x := s.attPort p
    let good := x.cal.filterMap fun e => (calSlot s e).map fun c => (c, e.2)
    if good.any fun g => s.get (fRegion g.1.region) != 0 then
      if x.busy then s else (s.setAttPort p { x with busy := true }).ev 0xD006 p 2
    else
      let s := (s.setAttPort p { x with cal := [], busy := false }).putBit (fATT_PORT_STAT_CAL_PEND p) false
      let bad := x.cal.length - good.length
      let s := forUp bad (fun _ t => t.ev 0xD006 p 1) s
      let s := forAll good (fun g t => calWrite g.1 g.2 t) s
      ((s.putBit fATT_EVT_CAL true).evMax 0xD005 p 0 (f16OfNat good.length)).ev 0xA006 p

end Sys2Proof.Machine
end

