-- ==== Sys2Proof/Machine/Jamb.lean ====
section
/-!
DEFINITION. The Jambs in front of the output stages: the frames they hold, the selection of the guard, the drop of a
lane, the application at T, and the no-claim policies (R153–R157, R165–R167). Stage codes are those of R85.
-/
namespace Sys2Proof.Machine

def State.jamb (s : State) (c : Nat) : Jamb := tabGet (fun _ => Jamb.init) s.dies.jambs c
def State.setJamb (s : State) (c : Nat) (j : Jamb) : State :=
  { s with dies := { s.dies with jambs := tabSet (fun _ => Jamb.init) s.dies.jambs c j } }

/-- The stages of a die: 0–3 valve dies, 4–11 switch dies, 12 the CAN block (R85, R156, R190). -/
def dieStages (die : Nat) : List Nat :=
  if die < 4 then (List.range 4).map fun i => 4 * die + i
  else if die < 12 then (List.range 4).map fun i => 0x10 + 4 * (die - 4) + i
  else (List.range 16).map fun i => 0x30 + i

def stageDie (c : Nat) : Nat := if c < 48 then c / 4 else 12

/-- A die that holds its configuration, or the CAN block: it acts on its own, also while the main die starts (R166, R168). -/
def dieLive (s : State) (die : Nat) : Bool := die == 12 || (!s.dies.dieOff && s.dies.live.contains die)

/-- A die that has completed the handshake of this start, or the CAN block (R421). -/
def dieUp (s : State) (die : Nat) : Bool := die == 12 || (!s.dies.dieOff && s.dies.hs.contains die)

/-- A well-formed frame is a claim when it is VALID and its CLAIM is 8 or 12 (R155). -/
def isClaim (f : Frame) : Bool := f.valid && (f.claim == 8 || f.claim == 12)

def asClaim (o : Option Frame) : Option Frame :=
  match o with
  | some f => if isClaim f then some f else none
  | none => none

/-! ## Frames (R153) -/

def crcBit (c : BitVec 16) (b : Bool) : BitVec 16 :=
  if c.msb != b then (c <<< 1) ^^^ 0x1021#16 else c <<< 1

def crcByte (c : BitVec 16) (b : Byte) : BitVec 16 :=
  (List.range 8).foldl (fun x i => crcBit x (b.getLsbD (7 - i))) c

/-- The bytes of a word in address order (R6). -/
def wordBytes (w : Word) : List Byte := (List.range 4).map fun i => w.extractLsb' (8 * i) 8

/-- CRC-16, polynomial 0x1021, initial value 0xFFFF, no final inversion, over bytes 0–7 (R153). -/
def frameCrc (w0 w1 : Word) : BitVec 16 := (wordBytes w0 ++ wordBytes w1).foldl crcByte 0xFFFF#16

/-- Word 1 of a frame (R153). -/
def frameWord1 (stage claim lane : Nat) (valid degraded resume : Bool) (tick : Nat) : Word :=
  BitVec.ofNat 32 (stage + 0x100 * claim + 0x1000 * lane + (if valid then 0x2000 else 0)
    + (if degraded then 0x4000 else 0) + (if resume then 0x8000 else 0) + 0x10000 * (tick % 256))

def mkSent (stage claim lane : Nat) (val : F32) (valid degraded resume : Bool) (tick : Nat) : Sent :=
  let w1 := frameWord1 stage claim lane valid degraded resume tick
  ⟨lane, val, w1, (frameCrc val w1).setWidth 32⟩

/-- The first test of R155 that a frame on link `l` of die `die` fails: 1 CRC, 2 stage, 3 lane, 4 tick, 5 late,
6 reserved claim; 0 when it is well-formed. -/
def frameFault (s : State) (die l cycle : Nat) (w0 w1 w2 : Word) : Nat :=
  let claim := w1.toNat / 0x100 % 16
  if frameCrc w0 w1 != w2.extractLsb' 0 16 then 1
  else if !(dieStages die).contains (w1.toNat % 256) then 2
  else if w1.toNat / 0x1000 % 2 != l then 3
  else if w1.toNat / 0x10000 % 256 != (s.clk.tick + 1) % 256 then 4
  else if 18000 ≤ cycle then 5
  else if claim != 0 && claim != 8 && claim != 12 then 6
  else 0

def frameOf (w0 w1 : Word) : Frame :=
  ⟨w0, w1.toNat / 0x100 % 16, w1.getLsbD 13, w1.getLsbD 14, w1.getLsbD 15⟩

/-- The Jamb holds a well-formed frame for the next tick (R155). -/
def holdFrame (l : Nat) (w0 w1 : Word) (s : State) : State :=
  let c := w1.toNat % 256
  let j := s.jamb c
  s.setJamb c (if l = 0 then { j with nextA := some (frameOf w0 w1) } else { j with nextB := some (frameOf w0 w1) })

/-- A symbol from lane l has reached the die, or none for 200 cycles (R152, R171). -/
def setLink (die l : Nat) (up : Bool) (s : State) : State :=
  if die < 12 then s.putBit (if l = 0 then fCLM_DIE_LINK_A die else fCLM_DIE_LINK_B die) up else s

/-! ## Registers that show the Jambs (R171) -/

/-- The stage shows the lane that its applied command came from; SEL_B stays while no lane is selected, as the VALUE does. -/
def showSel (c sel : Nat) (s : State) : State :=
  if 48 ≤ c then s.put (fCAN_TXS_STAT_SEL (c - 48)) sel
  else if sel = 0 then s
  else s.setBitAt (fCLM_DIE_SEL_B (stageDie c)) (c % 4) (sel == 2)

/-- No lane is the source of the stage's command. -/
def clearSel (c : Nat) (s : State) : State :=
  if 48 ≤ c then s.put (fCAN_TXS_STAT_SEL (c - 48)) 0 else s.setBitAt (fCLM_DIE_SEL_B (stageDie c)) (c % 4) false

/-- The applied value of a transmit signal (R345, R355). -/
def showVal (c : Nat) (s : State) : State := if c < 48 then s else s.putF (fCAN_TXS_VAL (c - 48)) (s.jamb c).val

def anyPolicy (s : State) : Bool := (List.range 64).any fun c => (s.jamb c).pol

/-- The stage enters or leaves its no-claim policy. -/
def showPol (c : Nat) (b : Bool) (s : State) : State :=
  let s := if c < 48 then s.setBitAt (fCLM_DIE_NOCLAIM (stageDie c)) (c % 4) b
    else (s.putBit (fCAN_TXS_STAT_NOCLAIM (c - 48)) b).putBit fCAN_EVT_NOCLAIM true
  s.putBit fCLM_STATUS_NOCLAIM (anyPolicy s)

/-! ## Selection (R156) -/

/-- The lane selected from two held frames: 0 none, 1 A, 2 B; and whether the claims were equal. -/
def selectLane (a b : Option Frame) (prev home : Nat) : Nat × Bool :=
  match asClaim a, asClaim b with
  | some x, some y =>
    if y.claim < x.claim then (1, false)
    else if x.claim < y.claim then (2, false)
    else (if prev != 0 then prev else home + 1, true)
  | some _, none => (1, false)
  | none, some _ => (2, false)
  | none, none => (0, false)

/-- Two well-formed frames differ in VALUE, VALID or DEGRADED (R156). -/
def framesDiffer (a b : Option Frame) : Bool :=
  match a, b with
  | some x, some y => x.val != y.val || x.valid != y.valid || x.degraded != y.degraded
  | _, _ => false

/-- The frame of the selected lane. -/
def selFrame (sel : Nat) (a b : Option Frame) : Option Frame :=
  if sel = 1 then asClaim a else if sel = 2 then asClaim b else none

/-! ## Drop of a lane (R157) -/

/-- The Jamb discards the frames of lane l; a command of that lane that is applied gives way to the other lane's claim
for the present tick, and without one no claim is in force and the timer of R165 starts. -/
def dropStage (l c : Nat) (s : State) : State :=
  let j := s.jamb c
  let j := if l = 0 then { j with curA := none, nextA := none } else { j with curB := none, nextB := none }
  let j := if j.nextSel = l + 1 then
      { j with nextSel := match asClaim (if l = 0 then j.nextB else j.nextA) with
        | some _ => 2 - l
        | none => 0 }
    else j
  if j.sel != l + 1 then s.setJamb c j
  else match asClaim (if l = 0 then j.curB else j.curA) with
    | some f => showSel c (2 - l) (s.setJamb c
        { j with sel := 2 - l, val := if j.pol then j.val else f.val })
    | none => showSel c 0 (s.setJamb c
        { j with sel := 0, timer := if j.ever && !j.pol && j.timer.isNone then some s.clk.tick else j.timer })

def dropDie (die l : Nat) (s : State) : State := forAll (dieStages die) (dropStage l) s

/-! ## Application at T (R156, R165, R167) -/

/-- A claim is in force at T: the stage resumes with RESUME = 1, or follows the VALUE (R165, R167). A stage that has
had no claim since its die's power-on also waits for RESUME = 1. -/
def applyFrame (f : Frame) (j : Jamb) : Jamb × Bool :=
  if j.pol || !j.ever then
    if f.resume then ({ j with val := f.val, ever := true, pol := false, off := false, timer := none }, true)
    else (j, false)
  else ({ j with val := f.val, timer := none }, false)

/-- The Jamb of stage c at T; the answer says that the stage resumed. -/
def applyJamb (c : Nat) (s : State) : Bool × State :=
  let j := s.jamb c
  let j := { j with curA := j.nextA, curB := j.nextB, nextA := none, nextB := none, sel := j.nextSel, nextSel := 0 }
  let s := showSel c j.sel s
  match selFrame j.sel j.curA j.curB with
  | some f =>
    let r := applyFrame f j
    let s := s.setJamb c r.1
    let s := showVal c s
    if r.2 then (true, if c < 48 then (showPol c false s).ev 0x2032 c else (showPol c false s).ev 0x920C (c - 48))
    else (false, s)
  | none =>
    (false, s.setJamb c
      { j with timer := if j.ever && !j.pol && j.timer.isNone then some s.clk.tick else j.timer })

/-- The command a stage acts on: none while it is off for want of a claim or under a policy that acts as OFF (R165,
R166). -/
def stageCmd (s : State) (c : Nat) : Option F32 :=
  let j := s.jamb c
  if j.ever && !j.off && dieLive s (stageDie c) then some j.val else none

/-- The no-claim policy of a stage: 0 HOLD, 1 OFF, 2 SAFE_VALUE (R166). -/
def applyPolicy (c pol : Nat) (safe : F32) (s : State) : State :=
  let j := s.jamb c
  let j := { j with pol := true, polAt := s.clk.tick, timer := none }
  let j := if pol = 0 then j else if pol = 2 then { j with val := safe } else { j with off := true }
  let s := showVal c (showPol c true (s.setJamb c j))
  if pol = 0 then s else clearSel c s

end Sys2Proof.Machine
end

