-- ==== Sys2Proof/Machine/CanBus.lean ====
section
/-!
DEFINITION. The CAN ports (R336–R356): reception into the signal maps, transmit messages, FIFO and express slot, bus-off,
address claim, transport and sleep.
-/
namespace Sys2Proof.Machine

def State.canPort (s : State) (p : Nat) : CanPort := tabGet (fun _ => CanPort.init) s.can.ports p
def State.setCanPort (s : State) (p : Nat) (x : CanPort) : State :=
  { s with can := { s.can with ports := tabSet (fun _ => CanPort.init) s.can.ports p x } }

def canState (s : State) (p : Nat) : Nat := s.get (fCAN_PORT_STAT_STATE p)
def canAcl (s : State) (p : Nat) : Nat := s.get (fCAN_PORT_STAT_ACL p)
def canJ1939 (s : State) (p : Nat) : Bool := s.bit (fCAN_PORT_CFG_PROTO p)
def canAddr (s : State) (p : Nat) : Nat := s.get (fCAN_PORT_STAT_ADDR p)

/-- The application cluster runs: it has been started, and the module is OPEN (R427). -/
def appRuns (s : State) : Bool := appOn s

/-! ## Bit fields of a frame (R342) -/

/-- Bit `n` of a frame: from the least significant bit of byte 0 in little-endian order, from the most significant bit
of byte 0 in big-endian order (log entry 13). -/
def frameBit (big : Bool) (bs : List Byte) (n : Nat) : Bool :=
  (bs.getD (n / 8) 0#8).getLsbD (if big then 7 - n % 8 else n % 8)

/-- The raw field; none where the frame is too short to hold it. -/
def rawField (big : Bool) (start len : Nat) (bs : List Byte) : Option Nat :=
  if bs.length * 8 < start + len then none
  else some ((List.range len).foldl (fun a i =>
    if big then 2 * a + (if frameBit true bs (start + i) then 1 else 0)
    else a + (if frameBit false bs (start + i) then 2 ^ i else 0)) 0)

def putFrameBit (big : Bool) (bs : List Byte) (n : Nat) (b : Bool) : List Byte :=
  bs.mapIdx fun i x =>
    if i ≠ n / 8 then x
    else
      let k := if big then 7 - n % 8 else n % 8
      BitVec.ofNat 8 (x.toNat - (if x.getLsbD k then 2 ^ k else 0) + (if b then 2 ^ k else 0))

def putField (big : Bool) (start len raw : Nat) (bs : List Byte) : List Byte :=
  (List.range len).foldl (fun bs i => putFrameBit big bs (start + i) (raw.testBit (if big then len - 1 - i else i))) bs

/-! ## Reception (R341–R343) -/

def canVal (s : State) (i : Nat) : CanVal := tabGet (fun _ => CanVal.init) s.can.vals i
def setCanVal (i : Nat) (v : CanVal) (s : State) : State :=
  { s with can := { s.can with vals := tabSet (fun _ => CanVal.init) s.can.vals i v } }

def mapMatches (m : SigMap) (p : Nat) (f : CanFrame) : Bool :=
  m.port == p && m.ide == f.ide && (f.id &&& m.mask) == (m.id &&& m.mask)

/-- A matching frame feeds one signal map entry (R342). -/
def feedMap (f : CanFrame) (i : Nat) (m : SigMap) (s : State) : State :=
  match rawField m.big m.start m.len f.data with
  | none => s
  | some raw =>
    let v := canVal s i
    if m.na && decide (2 ^ m.len ≤ raw + 2) then setCanVal i { v with tick := s.clk.tick, na := true } s
    else
      let n : Int := if m.signed then ofField m.len raw else raw
      let x := f32Add (f32Mul (f32OfInt n) m.scale) m.offset
      let s := if v.out then s.evMax 0x9207 m.port 0 (f16OfNat i) else s
      setCanVal i ⟨x, s.clk.tick, false, false⟩ s

/-- No matching frame for TIMEOUT (R342). -/
def execSignalTimeout (i : Fin 256) (s : State) : Out :=
  match s.can.maps.find? fun m => m.1 == 192 + i.val with
  | none => .next s
  | some (n, m) =>
    let v := canVal s n
    if v.out ∨ s.clk.tick < v.tick + 20 * m.timeout then .next s
    else .next (((setCanVal n { v with out := true } s).putBit fCAN_EVT_TIMEOUT true).evMax 0x9206 m.port 0 (f16OfNat n))

/-- The CAN entries of lane l's signal table at T (R82, R341, R342): "not available" holds for the freeze of its frame. -/
def fillCan (l : Nat) (s : State) : State :=
  forAll s.can.maps (fun m t =>
    let v := canVal t m.1
    let age := t.clk.tick - 1 - v.tick
    t.putNew l m.1 ⟨v.val, age, !v.out && v.tick != 0 && !(v.na && age == 0), false, false⟩) s

/-! ## FIFO and express slot (R346–R350) -/

/-- The identifier as it is sent: on a J1939 port the claimed address replaces the low byte (R353). -/
def sentId (s : State) (p : Nat) (f : TxFrame) : Nat :=
  if canJ1939 s p then f.id / 256 * 256 + canAddr s p else f.id

/-- The 29-bit form that priorities are compared on (R348). -/
def prioId (s : State) (p : Nat) (f : TxFrame) : Nat := if f.ide then sentId s p f else f.id * 262144

/-- CAN_FIFO as the FIFO stands; entries above the head's priority are counted in BLOCKED (R348). -/
def showFifo (p : Nat) (s : State) : State :=
  let x := s.canPort p
  let head := (x.fifo.head?.map (prioId s p)).getD 0
  let mark := x.fifo.map fun f => if prioId s p f < head then { f with blocked := true } else f
  let s := s.setCanPort p { x with fifo := mark, hoqDone := x.hoqDone && !mark.isEmpty }
  let n := (x.fifo.filter fun f => prioId s p f < head).length
  let s := ((s.put (fCAN_FIFO_DEPTH p) mark.length).put (fCAN_FIFO_BLOCKED p) n).putBit (fCAN_FIFO_EXPRESS p) x.express.isSome
  if mark.isEmpty then s.put (fCAN_HOQ p) 0 else s

def canOutcome (p id out why : Nat) (s : State) : State :=
  { s with can := { s.can with outcomes := ⟨p, id, out, why⟩ :: s.can.outcomes } }

def canRefuse (p why : Nat) (f : TxFrame) (s : State) : State :=
  (canOutcome p f.id 2 why s).putBit fCAN_EVT_REFUSED true

/-- A frame joins the FIFO; a full FIFO refuses it (R346). An instance of a message whose previous one still waits
replaces it in place (R347). -/
def canQueue (p : Nat) (f : TxFrame) (s : State) : State :=
  let x := s.canPort p
  if f.msg.isSome && x.fifo.any fun g => g.msg == f.msg && g.tries == 0 then
    let fifo := x.fifo.map fun g => if g.msg == f.msg && g.tries == 0 then { g with data := f.data } else g
    showFifo p ((s.setCanPort p { x with fifo := fifo }).inc (fCAN_CNT_SUP p))
  else if 32 ≤ x.fifo.length then
    ((canRefuse p 1 f s).inc (fCAN_CNT_REF_FULL p)).ev 0x9204 p
  else
    let headAt := if x.fifo.isEmpty then s.clk.tick else x.headAt
    showFifo p (s.setCanPort p { x with fifo := x.fifo ++ [{ f with waited := !x.fifo.isEmpty }], headAt := headAt })

/-- The express slot takes a frame, replacing one that has not started; the head's attempt under way may still end
(R350). -/
def canExpress (p : Nat) (f : TxFrame) (s : State) : State :=
  let x := s.canPort p
  showFifo p (s.setCanPort p { x with express := some f, flight := if x.express.isSome then x.flight else !x.fifo.isEmpty })

def popHead (p : Nat) (s : State) : State :=
  let x := s.canPort p
  showFifo p (s.setCanPort p { x with fifo := x.fifo.drop 1, headAt := s.clk.tick, flight := false })

/-- The port may transmit: enabled, not listening, not in bus-off or asleep. -/
def canMay (s : State) (p : Nat) : Bool :=
  s.bit (fCAN_PORT_CFG_EN p) && !s.bit (fCAN_PORT_CFG_LISTEN p) && decide (canState s p < 2)

/-- The FIFO may be offered: on a J1939 port only with a claimed address (R353). -/
def fifoMay (s : State) (p : Nat) : Bool := canMay s p && (!canJ1939 s p || canAcl s p == 2)

/-- The frame offered is transmitted, SERVED or DEFERRED (R346, R348). -/
def execCanTxComplete (port : Fin 6) (express : Bool) (tec : Fin 256) (s : State) : Out :=
  let x := s.canPort port
  if express then
    match x.express with
    | none => .next s
    | some f =>
      if !canMay s port then .next s
      else
        let s := canOutcome port f.id 0 0 ((s.setCanPort port { x with express := none }).inc (fCAN_CNT_TX port))
        .next (showFifo port (s.put (fCAN_PORT_STAT_TEC port) tec))
  else
    match x.fifo with
    | [] => .next s
    | f :: _ =>
      if !fifoMay s port || (x.express.isSome && !x.flight) then .next s
      else
        let s := canOutcome port f.id (if f.waited then 1 else 0) 0 (s.inc (fCAN_CNT_TX port))
        let s := if f.blocked then s.inc (fCAN_INV_CNT port) else s
        .next (popHead port (s.put (fCAN_PORT_STAT_TEC port) tec))

/-- The retry limit is reached (R349): RETRY further attempts, 16 for unlimited. -/
def lastTry (s : State) (p tries : Nat) : Bool :=
  decide (s.get (fCAN_PORT_CFG_RETRY p) < 16) && decide (s.get (fCAN_PORT_CFG_RETRY p) < tries)

/-- A lost arbitration or a transmit error offers the frame again, or refuses it at its last attempt (R349). -/
def execCanTxRetry (port : Fin 6) (express error : Bool) (tec : Fin 256) (s : State) : Out :=
  let x := s.canPort port
  let refuse (f : TxFrame) (s : State) : State :=
    ((canRefuse port 2 f s).inc (fCAN_CNT_REF_RETRY port)).ev 0x9205 port (if error then 2 else 1)
  let s' := s.put (fCAN_PORT_STAT_TEC port) tec
  if express then
    match x.express with
    | none => .next s
    | some f =>
      if !canMay s port then .next s
      else if lastTry s port (f.tries + 1) then .next (showFifo port (refuse f (s'.setCanPort port { x with express := none })))
      else .next (s'.setCanPort port { x with express := some { f with tries := min 32 (f.tries + 1) } })
  else
    match x.fifo with
    | [] => .next s
    | f :: rest =>
      if !fifoMay s port || (x.express.isSome && !x.flight) then .next s
      else if lastTry s port (f.tries + 1) then .next (popHead port (refuse f s'))
      else .next (s'.setCanPort port { x with flight := false, fifo := { f with tries := min 32 (f.tries + 1) } :: rest })

/-- The head's age first exceeds HOQ_LIM (R348). -/
def execHoqLimit (port : Fin 6) (s : State) : Out :=
  let x := s.canPort port
  let lim := s.get (fCAN_PORT_LIM_HOQ_LIM port)
  if lim = 0 ∨ x.fifo.isEmpty ∨ x.hoqDone ∨ s.clk.tick < x.headAt + 20 * lim then .next s
  else
    let s := (s.setCanPort port { x with hoqDone := true }).putBit fCAN_EVT_HOQ true
    .next (s.evMax 0x920D port 0 (f16OfNat (s.get (fCAN_FIFO_BLOCKED port))))

/-- The head's age in CAN_HOQ, in µs, at a tick edge (R348). -/
def hoqTick (s : State) : State :=
  forUp 6 (fun p t =>
    let x := t.canPort p
    if x.fifo.isEmpty then t else t.put (fCAN_HOQ p) (min 4294967295 (50 * (t.clk.tick - x.headAt)))) s

/-! ## Transmit messages (R344, R345) -/

/-- A transmit signal is sent as OFF: its policy acts as OFF, or no claim has been in force yet. -/
def txsOff (s : State) (k : Nat) : Bool := let j := s.jamb (48 + k); j.off || !j.ever

/-- One signal placed into a message's bytes (R344): the inverse of SCALE and OFFSET, rounded to nearest and saturated
to the field; all ones under OFF (R345). -/
def placeSig (s : State) (x : TxPlace) (bs : List Byte) : List Byte :=
  if txsOff s x.sig then putField x.big x.start x.len (2 ^ x.len - 1) bs
  else
    let n := f32Round (f32Div (f32Sub (s.jamb (48 + x.sig)).val x.offset) x.scale)
    let lo : Int := if x.signed then -(2 ^ (x.len - 1)) else 0
    let hi : Int := if x.signed then 2 ^ (x.len - 1) - 1 else 2 ^ x.len - 1
    putField x.big x.start x.len (toField x.len (max lo (min hi n))) bs

/-- At its period and phase a message is encoded and queued; with every signal under OFF it is not (R344, R345). -/
def execTxMessageDue (m : Fin 32) (s : State) : Out :=
  match s.can.msgs.find? fun x => x.1 == m.val with
  | none => .next s
  | some (_, x) =>
    if x.period = 0 ∨ s.clk.tick % x.period ≠ x.phase ∨ !s.bit (fCAN_PORT_CFG_EN x.port) ∨ canState s x.port = 3 then .next s
    else if !x.places.isEmpty && x.places.all fun q => txsOff s q.sig then .next s
    else
      let data := x.places.foldl (fun bs q => placeSig s q bs) x.bytes
      let f : TxFrame := ⟨x.id, x.ide, data, some m, false, 0, false⟩
      if x.express && !canJ1939 s x.port then .next (canExpress x.port f s) else .next (canQueue x.port f s)

/-- 100 µs without a claim for a transmit signal (R345). -/
def execTxsNoclaimPolicy (sig : Fin 16) (s : State) : Out :=
  let c := 48 + sig.val
  match (s.jamb c).timer with
  | none => .next s
  | some t =>
    if s.clk.tick < t + 2 then .next s
    else
      let pol := s.get (fCAN_TXS_CFG_POLICY sig)
      .next ((applyPolicy c pol (s.getF (fCAN_TXS_SAFE sig)) s).ev 0x920B sig pol)

/-! ## Bus-off (R351) and the error states -/

def setCanState (p v : Nat) (s : State) : State :=
  let s := s.put (fCAN_PORT_STAT_STATE p) v
  ((s.setBitAt fCAN_STATUS_BUSOFF p (v == 2)).setBitAt fCAN_STATUS_ERRP p (v == 1)).setBitAt fCAN_STATUS_SLEEP p (v == 3)

def execBusOff (port : Fin 6) (tec : Fin 256) (s : State) : Out :=
  if !s.bit (fCAN_PORT_CFG_EN port) ∨ 2 ≤ canState s port then .next s
  else
    let s := (setCanState port 2 s).put (fCAN_PORT_STAT_TEC port) tec
    let s := s.setCanPort port { s.canPort port with boffAt := s.clk.tick, recovering := false }
    .next (((s.inc (fCAN_CNT_ERR_BUSOFF port)).putBit fCAN_EVT_BUSOFF true).evMax 0x9201 port 0 (f16OfNat tec))

def startRecover (p : Nat) (s : State) : State :=
  if canState s p = 2 then s.setCanPort p { s.canPort p with recovering := true } else s

def execBusOffHoldEnd (port : Fin 6) (s : State) : Out :=
  if s.clk.tick < (s.canPort port).boffAt + 200 * s.get (fCAN_PORT_LIM_BOFF_HOLD port) then .next s
  else .next (startRecover port s)

def execCanRecover (req : Req) (bits : Fin 64) (s : State) : Out :=
  if reqIsOem req then .next s
  else .next (forUp 6 (fun p t => if bits.val.testBit p then startRecover p t else t) s)

def execBusOffRecovered (port : Fin 6) (s : State) : Out :=
  if canState s port ≠ 2 ∨ !(s.canPort port).recovering then .next s
  else
    let s := ((setCanState port 0 s).put (fCAN_PORT_STAT_TEC port) 0).put (fCAN_PORT_STAT_REC port) 0
    let s := s.setCanPort port { s.canPort port with recovering := false }
    .next ((s.putBit fCAN_EVT_BUSOFF true).ev 0x9202 port)

def execErrorPassive (port : Fin 6) (enter : Bool) (tec recv : Fin 256) (s : State) : Out :=
  if !s.bit (fCAN_PORT_CFG_EN port) ∨ 2 ≤ canState s port ∨ (canState s port = 1 ↔ enter = true) then .next s
  else
    let s := (s.put (fCAN_PORT_STAT_TEC port) tec).put (fCAN_PORT_STAT_REC port) recv
    if enter then .next ((setCanState port 1 s).evMax 0x9203 port 0 (f16OfNat (max tec.val recv.val)))
    else .next (setCanState port 0 s)

/-- The FIFO of a port is discarded, each frame REFUSED for one reason. -/
def dropFifo (p why : Nat) (s : State) : State :=
  let x := s.canPort p
  let s := forAll x.fifo (canRefuse p why) s
  showFifo p (s.setCanPort p { x with fifo := [] })

def execCanFlush (req : Req) (bits : Fin 64) (s : State) : Out :=
  if reqIsOem req then .next s
  else .next (forUp 6 (fun p t => if bits.val.testBit p then dropFifo p 5 t else t) s)

/-! ## Address claim (R353) -/

def setAcl (p v : Nat) (s : State) : State :=
  if canAcl s p = v then s else (s.put (fCAN_PORT_STAT_ACL p) v).putBit fCAN_EVT_ADDR true

/-- The NAME's bytes, least significant first. -/
def nameBytes (n : Nat) : List Byte := (List.range 8).map fun i => BitVec.ofNat 8 (n / 256 ^ i)

/-- Address claimed or cannot-claim, through the express slot: PGN 60928 to the global address (ISO 11783-5). -/
def claimFrame (s : State) (p addr : Nat) : TxFrame :=
  ⟨0x18EEFF00 + addr, true, nameBytes (s.canPort p).name, none, false, 0, false⟩

/-- The port claims an address (R353). -/
def claimAddr (p a : Nat) (s : State) : State :=
  let s := (setAcl p 1 s).put (fCAN_PORT_STAT_ADDR p) a
  let s := s.setCanPort p { s.canPort p with claimAt := s.clk.tick, cannotSent := false }
  canExpress p (claimFrame s p a) s

/-- An enabled J1939 port starts to claim its preferred address (R353). -/
def canEnable (p : Nat) (s : State) : State :=
  if !s.bit (fCAN_PORT_CFG_EN p) || !canJ1939 s p || canAcl s p != 0 then s
  else claimAddr p (s.get (fCAN_PORT_LIM_PREF_ADDR p)) s

/-- 250 ms without a contending claim. -/
def execAddressClaimed (port : Fin 6) (s : State) : Out :=
  if canAcl s port ≠ 1 ∨ s.clk.tick < (s.canPort port).claimAt + 5000 then .next s
  else .next ((setAcl port 2 s).evMax 0x9209 port 0 (f16OfNat (canAddr s port)))

/-- The next free address in 128–247 after `a`, ascending and wrapping. -/
def nextFree (used : List Nat) (a : Nat) : Option Nat :=
  let start := if 128 ≤ a ∧ a ≤ 247 then a - 128 + 1 else 0
  ((List.range 120).map fun k => 128 + (start + k) % 120).find? fun x => x != a && !used.contains x

/-- Another node claims an address (R353): one that contends for ours is answered by NAME priority. -/
def execContendingClaim (port : Fin 6) (addr : Fin 254) (name : Nat) (s : State) : Out :=
  let x := s.canPort port
  let acl := canAcl s port
  if !canJ1939 s port then .next s
  else if addr.val ≠ canAddr s port ∨ (acl ≠ 1 ∧ acl ≠ 2) then
    .next (s.setCanPort port { x with used := addr.val :: x.used.filter (· != addr.val) })
  else if x.name < name then .next (canExpress port (claimFrame s port addr) s)
  else
    let s := s.setCanPort port { x with used := addr.val :: x.used.filter (· != addr.val) }
    let free := if s.bit (fCAN_PORT_LIM_SELF_CFG port) then nextFree (addr.val :: x.used) addr else none
    match free with
    | some a => .next ((claimAddr port a s).ev 0x9208 port 1)
    | none =>
      let s := (setAcl port 3 s).put (fCAN_PORT_STAT_ADDR port) 254
      let s := s.setCanPort port { s.canPort port with cannotAt := s.clk.tick, cannotSent := false }
      .next (s.ev 0x9208 port 2)

/-- After its pseudo-random delay of at most 153 ms the port sends cannot-claim from address 254 (R353). -/
def execCannotClaimSend (port : Fin 6) (s : State) : Out :=
  let x := s.canPort port
  if canAcl s port ≠ 3 ∨ x.cannotSent ∨ x.cannotAt + 3060 < s.clk.tick then .next s
  else .next (canExpress port (claimFrame s port 254) (s.setCanPort port { x with cannotSent := true }))

def execCommandedAddress (port : Fin 6) (name : Nat) (addr : Fin 254) (s : State) : Out :=
  if canAcl s port ≠ 2 ∨ name ≠ (s.canPort port).name ∨ !s.bit (fCAN_PORT_LIM_SELF_CFG port) then .next s
  else .next (claimAddr port addr s)

/-- 250 ms in CANNOT_CLAIM: FIFO entries are REFUSED with NO_ADDRESS (R353). -/
def execNoAddressTimeout (port : Fin 6) (s : State) : Out :=
  if canAcl s port ≠ 3 ∨ s.clk.tick < (s.canPort port).cannotAt + 5000 then .next s else .next (dropFifo port 3 s)

/-! ## J1939 transport and diagnostics (R352) -/

/-- A transport control frame to a node (J1939-21). -/
def tpControl (s : State) (p dst : Nat) (bytes : List Nat) : TxFrame :=
  ⟨0x1CEC0000 + 256 * dst + canAddr s p, true, bytes.map (BitVec.ofNat 8), none, false, 0, false⟩

def pgnBytes (n : Nat) : List Nat := [n % 256, n / 256 % 256, n / 65536 % 256]

/-- A transport message is received, reassembled or aborted; a fifth session by RTS is answered with an abort, reason
1; in LOUVRED sessions are aborted (R352). -/
def execJ1939Transport (port : Fin 6) (ev : TpEvent) (s : State) : Out :=
  let x := s.canPort port
  if !canJ1939 s port then .next s
  else match ev with
    | .start src size pgn bam =>
      let open' := x.sessions.filter fun t => t.src != src
      if bam then
        if 4 ≤ open'.length ∨ 1785 < size ∨ !appRuns s then .next s
        else .next (s.setCanPort port { x with sessions := open' ++ [⟨src, size, pgn, true⟩] })
      else if 4 ≤ open'.length ∨ 1785 < size ∨ !appRuns s then
        .next (canQueue port (tpControl s port src ([255, 1, 255, 255, 255] ++ pgnBytes pgn)) s)
      else
        let s := s.setCanPort port { x with sessions := open' ++ [⟨src, size, pgn, false⟩] }
        .next (canQueue port (tpControl s port src ([17, min 255 ((size + 6) / 7), 1, 255, 255] ++ pgnBytes pgn)) s)
    | .done src bytes =>
      match x.sessions.find? fun t => t.src == src with
      | none => .next s
      | some t =>
        let s := s.setCanPort port { x with sessions := x.sessions.filter fun u => u.src != src }
        let s := { s with can := { s.can with tp := (port.val, t.pgn, bytes) :: s.can.tp } }
        if t.bam then .next s
        else .next (canQueue port (tpControl s port src ([19, t.size % 256, t.size / 256, (t.size + 6) / 7, 255] ++ pgnBytes t.pgn)) s)
    | .stop src => .next (s.setCanPort port { x with sessions := x.sessions.filter fun u => u.src != src })

/-- In LOUVRED transport sessions are aborted (R352). -/
def canLouvred (s : State) : State := forUp 6 (fun p t => t.setCanPort p { t.canPort p with sessions := [] }) s

/-- DM1 every 1 s and on change, at most once in 100 ms; in LOUVRED it repeats its last content (R352). -/
def execDm1Send (port : Fin 6) (content : List Byte) (s : State) : Out :=
  let x := s.canPort port
  let c := if appRuns s then content else x.dm1
  let gap := if c = x.dm1 then 20000 else 2000
  if !canJ1939 s port ∨ s.clk.tick < x.dm1At + gap then .next s
  else
    let s := s.setCanPort port { x with dm1 := c, dm1At := s.clk.tick }
    .next (canQueue port ⟨0x18FECA00 + canAddr s port, true, c, none, false, 0, false⟩ s)

/-! ## Requests and received frames (R339, R341–R343, R350, R352) -/

/-- A request (PGN 59904) to this node or to all: an address claimed goes through the express slot, DM2 is sent, with a
content that the spec leaves open, and any other PGN asked of this node alone is answered by a negative acknowledgement
(R350, R352; frame bytes PRESUMED, log entry 63). -/
def j1939Request (p : Nat) (f : CanFrame) (s : State) : State :=
  let dst := f.id / 256 % 256
  let bytes := (f.data.take 3).map BitVec.toNat
  let pgn := bytes.foldr (fun b n => b + 256 * n) 0
  if !canJ1939 s p || !f.ide || f.id / 65536 % 256 != 0xEA || bytes.length != 3 || (dst != 255 && dst != canAddr s p) then s
  else if pgn = 60928 then (if canAcl s p = 0 then s else canExpress p (claimFrame s p (canAddr s p)) s)
  else if pgn = 65227 then
    if !appRuns s then s
    else
      let data := (List.range 8).map fun k => BitVec.ofNat 8 (Config.freeValue (s.free + k)).toNat
      canQueue p ⟨0x18FECB00 + canAddr s p, true, data, none, false, 0, false⟩ { s with free := s.free + 8 }
  else if dst = 255 then s
  else canQueue p ⟨0x18E8FF00 + canAddr s p, true, ([1, 255, 255, 255, f.id % 256] ++ bytes).map (BitVec.ofNat 8), none, false, 0, false⟩ s

/-- The PGN of a 29-bit identifier (J1939-21). -/
def pgnOf (id : Nat) : Nat :=
  let pf := id / 65536 % 256
  id / 65536 % 1024 / 256 * 65536 + pf * 256 + (if pf < 240 then 0 else id / 256 % 256)

/-- The diagnostic messages that go to the service firmware: DM1, DM3 and DM11 (R352). -/
def diagFrame (s : State) (p : Nat) (f : CanFrame) : Bool :=
  canJ1939 s p && f.ide && [65226, 65228, 65235].contains (pgnOf f.id)

/-- A received frame (R339, R341–R343). -/
def execCanFrameReceive (port : Fin 6) (frame : CanFrame) (s : State) : Out :=
  if !s.bit (fCAN_PORT_CFG_EN port) ∨ canState s port = 2 ∨ canState s port = 3 then .next s
  else if s.get (fCAN_PORT_CFG_DRATE port) = 0 ∧ frame.fdf = true then
    let s := (s.inc (fCAN_CNT_ERR_PROTO_EXC port)).putBit fCAN_EVT_PROTO_EXC true
    let x := s.canPort port
    let again := match x.protoAt with
      | some t => decide (t + 20000 ≤ s.clk.tick)
      | none => true
    if again then .next ((s.setCanPort port { x with protoAt := some s.clk.tick }).ev 0x920A port) else .next s
  else
    let s := j1939Request port frame (s.inc (fCAN_CNT_RX port))
    let rtcm := s.wide && s.get fGNS_CORR_CFG_PORT == port.val && s.bit fGNS_CORR_CFG_EXT == frame.ide
      && s.get fGNS_CORR_ID_CAN_ID == frame.id
    if rtcm then .next (rtcmCan port frame.ide frame.id frame.data s)
    else
      let hits := s.can.maps.filter fun m => mapMatches m.2 port frame
      if !hits.isEmpty then .next (forAll hits (fun m t => feedMap frame m.1 m.2 t) s)
      else if ((s.canPort port).rawSel || diagFrame s port frame) && appRuns s then
        let r : RawFrame := ⟨port, s.clk.tick, frame.cycle, frame.id, frame.ide, frame.data⟩
        .next { s with can := { s.can with raw := r :: s.can.raw } }
      else .next s

/-! ## Sleep (R354) -/

/-- The drain ends: what remains is REFUSED with SLEEP and the transceiver goes to sleep. The drain runs from the
descent's boundary P, for at most 50 ms (R354, R430). -/
def execCanSleep (port : Fin 6) (s : State) : Out :=
  match s.pwr.parkAt with
  | none => .next s
  | some p =>
    let x := s.canPort port
    let left := x.fifo.length + (if x.express.isSome then 1 else 0)
    if canState s port = 3 ∨ s.clk.tick < p ∨ (left ≠ 0 ∧ s.clk.tick < p + 1000) then .next s
    else
      let s := forAll x.express.toList (canRefuse port 4) s
      let s := dropFifo port 4 s
      let s := showFifo port (s.setCanPort port { s.canPort port with express := none })
      .next ((setCanState port 3 s).evMax 0x920E port 0 (f16OfNat left))

end Sys2Proof.Machine
end

