-- ==== Sys2Proof/Machine/Ether.lean ====
section
/-!
DEFINITION. Ethernet and the fleet service (R357–R372): links, gPTP, TLS, the fleet connection, the unloading
rendezvous, map-tile sync and the NTRIP client. The NET domain runs only in OPEN (R33), on the manager.
-/
namespace Sys2Proof.Machine

/-- The NET domain runs: OPEN (R33). -/
def netRuns (s : State) : Bool := s.get fPWR_STATUS_STATE == 0

/-- A page p of 4–9 exists on an FYH7-A that is the manager (R371). -/
def ethPort (s : State) (p : Nat) : Bool := netRuns s && (p < 4 || s.wide) && s.bit (fETH_PORT_CFG_EN p)

/-! ## Links (R357, R372) -/

/-- A link goes down or up. -/
def execEthLinkChange (p : Fin 10) (up : Bool) (sqi : Fin 8) (s : State) : Out :=
  if !ethPort s p ∨ (s.get (fETH_PORT_STAT_LINK p) = 2 ↔ up = true) then .next s
  else
    let s := (s.put (fETH_PORT_STAT_LINK p) (if up then 2 else 0)).setBitAt fETH_STATUS_LINK p up
    let s := (s.put (fETH_PORT_STAT_SQI p) (if up then sqi else 0)).putBit fETH_EVT_LINK true
    if up then .next (s.ev 0x9302 p)
    else .next ((s.putBit (fETH_PORT_STAT_AS_CAPABLE p) false).evx 0x9301 p 0 (f16OfNat sqi) f16NaN)

/-! ## gPTP (R359) -/

/-- A gPTP port: every port but ETH3, with its link up. -/
def ptpPort (s : State) (p : Nat) : Bool := ethPort s p && s.wide && p != 3 && s.get (fETH_PORT_STAT_LINK p) == 2

/-- A foreign Announce or Sync is discarded and counted; 0x9303 at most once per hour. -/
def execPtpForeign (p : Fin 10) (s : State) : Out :=
  if !ptpPort s p then .next s
  else
    let s := s.inc (fETH_CNT_ERR_PTP p)
    let quiet := s.eth.ptpAt.any fun x => x.1 == p.val && decide (s.clk.tick < x.2 + 72000000)
    if quiet then .next s
    else
      let s := { s with eth := { s.eth with ptpAt := (p.val, s.clk.tick) :: s.eth.ptpAt.filter fun x => x.1 != p.val } }
      .next (s.ev 0x9303 p)

/-- Sync every 125 ms on asCapable ports. -/
def execPtpSync (p : Fin 10) (s : State) : Out :=
  if !ptpPort s p ∨ !s.bit (fETH_PORT_STAT_AS_CAPABLE p) ∨ s.clk.tick % 2500 ≠ 0 then .next s
  else
    let s := s.inc (fETH_CNT_TX p)
    .next { s with eth := { s.eth with syncs := (p.val, s.clk.tick) :: s.eth.syncs.filter fun x => x.1 != p.val } }

/-- A peer-delay measurement completes: above 1 µs the port is not asCapable. -/
def execPdelayExchange (p : Fin 10) (delay : Nat) (s : State) : Out :=
  if !ptpPort s p then .next s
  else
    let s := s.put (fETH_PTP_DELAY p) (min 4294967295 delay)
    if delay ≤ 16000 then .next (s.putBit (fETH_PORT_STAT_AS_CAPABLE p) true)
    else .next ((s.putBit (fETH_PORT_STAT_AS_CAPABLE p) false).evMax 0x9304 p 0 (f16OfNat (delay / 16)))

/-! ## Connections (R361, R363, R369) -/

def setFleet (v : Nat) (s : State) : State :=
  if fleetState s = v then s else (s.put fETH_STATUS_FLEET v).putBit fETH_EVT_FLEET true

def ntripState (s : State) : Nat := s.get fETH_STATUS_NTRIP
def setNtrip (v : Nat) (s : State) : State :=
  if ntripState s = v then s else (s.put fETH_STATUS_NTRIP v).putBit fETH_EVT_NTRIP true

/-- The backoff begins; after a failed attempt its wait doubles, up to 64 s. -/
def fleetBackoff (failed : Bool) (s : State) : State :=
  let w := if failed then min 64 (2 * s.eth.fleetWait) else s.eth.fleetWait
  setFleet 3 { s with eth := { s.eth with fleetWait := w, fleetAt := s.clk.tick, fleetTls := false } }

def ntripBackoff (failed : Bool) (s : State) : State :=
  let w := if failed then min 64 (2 * s.eth.ntripWait) else s.eth.ntripWait
  setNtrip 3 { s with eth := { s.eth with ntripWait := w, ntripAt := s.clk.tick, ntripTls := false, byteAt := none, rx := [] } }

/-- A TLS 1.3 handshake completes or fails; a failure is a failed attempt of its connection. -/
def execTlsHandshake (conn : Fin 3) (ok : Bool) (alert : Nat) (s : State) : Out :=
  let wants := netRuns s && (conn.val == 2 || (s.wide && (if conn.val = 0 then fleetState s == 1 else ntripState s == 1)))
  if !wants then .next s
  else if ok then
    if conn = 0 then .next { s with eth := { s.eth with fleetTls := true } }
    else if conn = 2 then .next { s with eth := { s.eth with services := s.eth.services + 1 } }
    else .next { s with eth := { s.eth with ntripTls := true } }
  else
    let s := s.evMax 0x9312 0 (conn + 1) (f16OfNat alert)
    if conn = 0 then .next (fleetBackoff true s)
    else if conn = 1 then .next (ntripBackoff true (s.inc fETH_NTRIP_CNT_FAILS))
    else .next s

/-- The MQTT connection is up: the retained status, and everything that waited is sent DEFERRED (R363, R368). -/
def execFleetConnect (s : State) : Out :=
  if !s.wide ∨ !netRuns s ∨ fleetState s ≠ 1 ∨ !s.eth.fleetTls then .next s
  else
    let s := (setFleet 2 s).ev 0x9310
    let status : Pub := ⟨0, [1#8], s.clk.tick⟩
    let sent := s.eth.queue.reverse ++ status :: s.eth.sent
    .next (showAlerts { s with eth := { s.eth with fleetWait := 1, queue := [], sent := sent } })

/-- The fleet connection is lost, or the attempt for one fails. -/
def execFleetDisconnect (why : Fin 3) (s : State) : Out :=
  if fleetState s = 2 then .next (fleetBackoff false (s.ev 0x9311 0 (why + 1)))
  else if fleetState s = 1 then .next (fleetBackoff true s)
  else .next s

/-- A backoff has run out: its wait with a random spread of ±20 %. -/
def backoffOver (s : State) (wait at' : Nat) : Bool := decide (at' + 16000 * wait ≤ s.clk.tick)

def fleetAttempt (s : State) : State := setFleet 1 { s with eth := { s.eth with fleetTls := false } }

def execReconnectAttempt (ntrip : Bool) (s : State) : Out :=
  if !s.wide ∨ !netRuns s then .next s
  else if ntrip then
    if ntripState s = 3 ∧ backoffOver s s.eth.ntripWait s.eth.ntripAt then .next (setNtrip 1 s) else .next s
  else if fleetState s = 3 ∧ backoffOver s s.eth.fleetWait s.eth.fleetAt then .next (fleetAttempt s)
  else .next s

/-- The services may connect: the NET domain runs, and the fleet credentials are present (R362). -/
def mayConnect (s : State) : Bool := s.wide && netRuns s && s.rst.appUp && !s.bit fETH_STATUS_NO_CRED

def execFleetReconnect (req : Req) (s : State) : Out :=
  if reqIsOem req || !mayConnect s || fleetState s == 2 then .next s else .next (fleetAttempt s)

def execNtripReconnect (req : Req) (s : State) : Out :=
  if reqIsOem req || !mayConnect s || ntripState s == 2 then .next s else .next (setNtrip 1 s)

/-- The caster's reply; where the region sets TLS, its handshake comes first (R370). -/
def execNtripReply (ok : Bool) (status : Nat) (s : State) : Out :=
  if !s.wide ∨ !netRuns s ∨ ntripState s ≠ 1 ∨ (s.eth.tls && !s.eth.ntripTls) then .next s
  else if ok then
    let s := ((setNtrip 2 s).inc fETH_NTRIP_CNT_CONNECTS).ev 0x9320
    .next { s with eth := { s.eth with ntripWait := 1, byteAt := some s.clk.tick } }
  else .next (ntripBackoff true ((s.inc fETH_NTRIP_CNT_FAILS).evMax 0x9322 0 0 (f16OfNat status)))

/-- No byte for 5 s (R370). -/
def execNtripSilence (s : State) : Out :=
  let quiet := match s.eth.byteAt with
    | some t => decide (t + 100000 ≤ s.clk.tick)
    | none => false
  if ntripState s ≠ 2 ∨ !quiet then .next s else .next (ntripBackoff false (s.ev 0x9321 0 3))

def execNtripDisconnect (link : Bool) (s : State) : Out :=
  if ntripState s ≠ 2 then .next s else .next (ntripBackoff false (s.ev 0x9321 0 (if link then 2 else 1)))

/-- A GGA sentence of the latest solution every 10 s (R370). -/
def execGgaSend (s : State) : Out :=
  if ntripState s ≠ 2 ∨ !s.eth.gga ∨ s.clk.tick < s.eth.ggaAt + 200000 then .next s
  else .next { s with eth := { s.eth with ggaAt := s.clk.tick, ggaSol := solWords s } }

/-- ETH_NTRIP_STAT at each 0.1 s (R371). -/
def ntripTick (s : State) : State :=
  if s.clk.tick % 2000 ≠ 0 then s
  else
    let rx := s.eth.rx.filter fun x => decide (s.clk.tick < x.1 + 200000)
    let age := match s.eth.byteAt with
      | some t => min 0xFFFE ((s.clk.tick - t) / 2000)
      | none => 0xFFFF
    let s := { s with eth := { s.eth with rx := rx } }
    (s.put fETH_NTRIP_STAT_AGE age).put fETH_NTRIP_STAT_RATE (min 65535 ((rx.map Prod.snd).sum / 10))

/-- NET stops on leaving OPEN (R33): connections are lost. -/
def netStop (s : State) : State :=
  let s := if fleetState s = 2 then s.ev 0x9311 0 4 else s
  let s := if ntripState s = 2 then s.ev 0x9321 0 2 else s
  let s := setNtrip 0 (setFleet 0 s)
  { s with eth := { s.eth with services := 0, fleetTls := false, ntripTls := false, byteAt := none, rx := [] } }

def netStart (s : State) : State := if mayConnect s then setNtrip 1 (fleetAttempt s) else s

/-! ## Inbound messages (R365, R366) -/

/-- The check of an inbound message: version, type, length, and its time of validity (R365). -/
def inboundOk (h : FleetHdr) (s : State) : Bool :=
  h.version == 1 && [1, 4, 6, 8, 0xA].contains h.type && h.lenOk
    && decide (h.time ≤ s.now + 100000000) && decide (s.now - 2000000000 ≤ h.time)

/-- A discarded message: counted, and recorded at most once per minute (R365). -/
def discardIn (type : Nat) (s : State) : State :=
  let s := (s.inc ⟨fETH_FLEET_REF.addr, 31, 16⟩).putBit fETH_EVT_REFUSED true
  let quiet := match s.eth.inAt with
    | some t => decide (s.clk.tick < t + 1200000)
    | none => false
  if quiet then s else ({ s with eth := { s.eth with inAt := some s.clk.tick } }).ev 0x9314 0 (type % 256)

/-- A checked message acts, any other is discarded. -/
def inbound (h : FleetHdr) (type : Nat) (f : State → State) (s : State) : State :=
  if !s.wide || fleetState s != 2 then s
  else if h.type = type ∧ inboundOk h s = true then f s
  else discardIn h.type s

/-- The first offer within 60 s from a cart of the roster is accepted (R366). -/
def takeOffer (sender : Nat) (s : State) : State :=
  let waiting := match s.eth.reqAt with
    | some t => decide (s.clk.tick < t + 1200000)
    | none => false
  if !waiting || !s.eth.roster.contains sender then s
  else
    let s := publish 5 (leByteList 4 sender) s
    let s := { s.wr fFUS_UNL_CART.addr (BitVec.ofNat 32 sender) with eth := { s.eth with cart := some sender, reqAt := none } }
    unlBegin s

/-- An end from the accepted cart is UNL_STOP (R366). -/
def takeEnd (sender : Nat) (s : State) : State := if s.eth.cart = some sender then unlStopOp s else s

/-- The tile's chunks of 65,536 bytes. -/
def chunksOf (bs : List Byte) : Nat → List (List Byte)
  | 0 => []
  | k + 1 => if bs.length ≤ 65536 then [bs] else bs.take 65536 :: chunksOf (bs.drop 65536) k

/-- The chunks of a tile message (R364, R367). -/
def sendTile (t : MapTile) (seq : Nat) (chunks : List (List Byte)) (skip : List Nat) (s : State) : State :=
  (List.range chunks.length).foldl (fun s i =>
    if skip.contains i then s
    else
      let body := leByteList 2 t.field ++ leByteList 2 (toField 16 t.tx) ++ leByteList 2 (toField 16 t.ty)
        ++ [BitVec.ofNat 8 i, BitVec.ofNat 8 chunks.length] ++ leByteList 4 seq ++ chunks.getD i []
      publish 7 body s) s

/-- A request for a tile is answered with its full export, delta sequence 0 (R367). -/
def answerTget (t : MapTile) (s : State) : State := sendTile t 0 (chunksOf (tileExport s t (sealedCells s t)) 64) [] s

/-- A cart position is a track-level sample of source 10 (R255, R366). -/
def takeCartPos (sender : Nat) (vals : List Int) (s : State) : State :=
  if s.eth.cart ≠ some sender then s
  else
    let s := setSrc 10 1 { s with eth := { s.eth with cartPos := vals } }
    { s with fus := { s.fus with cartAt := s.clk.tick } }

def execUoffer (hdr : FleetHdr) (capacity arrival : Nat) (s : State) : Out :=
  let _ := (capacity, arrival)
  .next (inbound hdr 4 (takeOffer hdr.sender) s)
def execUend (hdr : FleetHdr) (reason : Fin 256) (s : State) : Out :=
  let _ := reason
  .next (inbound hdr 6 (takeEnd hdr.sender) s)
def execTget (hdr : FleetHdr) (field : Nat) (tx ty : Int) (s : State) : Out :=
  .next (inbound hdr 8 (answerTget ⟨field, tx, ty⟩) s)
def execCartPos (hdr : FleetHdr) (lat lon height : Int) (heading speed fix stat : Nat) (s : State) : Out :=
  .next (inbound hdr 1 (takeCartPos hdr.sender [hdr.time, lat, lon, height, heading, speed, fix, stat]) s)

/-- A signed field of a payload. -/
def payInt (bs : List Byte) (o n : Nat) : Int := ofField (8 * n) (leNat ((bs.drop o).take n))
def payNat (bs : List Byte) (o n : Nat) : Nat := leNat ((bs.drop o).take n)

/-- The length of a payload of each inbound type (R364); an in/cfg carries a request and a 64-byte signature. -/
def payLenOk (type len : Nat) : Bool := match type with
  | 1 => len == 34
  | 4 => len == 22
  | 6 => len == 17
  | 8 => len == 22
  | 0xA => decide (80 < len)
  | _ => false

/-- An inbound message as its bytes stand: checked, and passed on by its type (R364, R365). -/
def execFleetInbound (payload : List Byte) (s : State) : Out :=
  let b := payload
  let h : FleetHdr := ⟨payNat b 0 1, payNat b 1 1, payNat b 4 4, payInt b 8 8, payLenOk (payNat b 1 1) b.length⟩
  let act (s : State) : State := match h.type with
    | 1 => takeCartPos h.sender [h.time, payInt b 16 4, payInt b 20 4, payInt b 24 4, payNat b 28 2, payNat b 30 2, payNat b 32 1,
        payNat b 33 1] s
    | 4 => takeOffer h.sender s
    | 6 => takeEnd h.sender s
    | 8 => answerTget ⟨payNat b 16 2, payInt b 18 2, payInt b 20 2⟩ s
    | _ => { s.putBit fETH_EVT_CFG_IN true with eth := { s.eth with cfgIn := some b } }
  .next (inbound h h.type act s)

/-! ## Unloading requests (R275, R366) -/

/-- UNL_REQ publishes the request; with a cart announced the rendezvous begins (R275, R366). UNL_STOP in the same write
wins (R277). -/
def execUnlReq (req : Req) (stop : Bool) (s : State) : Out :=
  if reqIsOem req || !s.wide then .next s
  else if stop then .next (unlStopOp s)
  else if !appOn s || unlState s != 0 then .next s
  else
    let pos := (List.range 2).flatMap fun k => leByteList 4 (Config.estimator 22 k (solWords s)).toNat
    let s := publish 3 (leByteList 2 (s.get fMAP_FIELD_ID) ++ pos ++ leByteList 4 (Config.estimator 23 0 [s.rd fMAP_MASS_TOTAL.addr]).toNat) s
    .next (unlBegin { s with eth := { s.eth with reqAt := some s.clk.tick } })

def execUnlStop (req : Req) (s : State) : Out := if reqIsOem req || !s.wide then .next s else .next (unlStopOp s)

/-- 2 s after F21 reached 0 %: unloading is over (R275). -/
def execUnloadEndingDone (s : State) : Out :=
  match s.fus.zeroAt with
  | none => .next s
  | some t =>
    if !s.wide ∨ unlState s ≠ 4 ∨ s.clk.tick < t + 40000 then .next s
    else
      let s := guidPost 18 (lastFrame s) 0#32 (request 18 2 0#32 s)
      let s := s.put (fFUN_REC_CTL_SP_SRC 17) 2
      let s := request 25 2 ((s.fnSt 25).opReq.getD (s.getF (fFUN_REC_SP_TGT 25))) s
      .next (setUnl 0 { s with fus := { s.fus with zeroAt := none } })

/-- 60 s without an offer (R366). -/
def execUreqLapse (s : State) : Out :=
  match s.eth.reqAt with
  | none => .next s
  | some t =>
    if s.clk.tick < t + 1200000 then .next s
    else .next (({ s with eth := { s.eth with reqAt := none } }).ev 0x9315)

/-- Queued requests older than 60 s are REFUSED (R368). -/
def execPublicationExpire (s : State) : Out :=
  let old := s.eth.queue.filter fun p => isUrgent p.type && decide (p.tick + 1200000 ≤ s.clk.tick)
  let s := { s with eth := { s.eth with queue := s.eth.queue.filter fun p => !old.contains p } }
  .next (showAlerts (forAll old (fun p t => refusePub p.type t) s))

/-- pos at 1 Hz, 5 Hz while unloading; tank every 10 s and on a change of 2 % (R364). -/
def execPeriodicPublish (tank : Bool) (fill mass : Nat) (s : State) : Out :=
  if !s.wide ∨ fleetState s = 0 then .next s
  else if tank then
    let far := decide (s.eth.fill + 20 ≤ fill) || decide (fill + 20 ≤ s.eth.fill)
    if s.clk.tick < s.eth.tankAt + 200000 ∧ !far then .next s
    else
      let m := min 65535 (f32Round (f32Mul (s.sig (topLane s) 145).val 0x42C80000#32)).toNat
      let s := { s with eth := { s.eth with tankAt := s.clk.tick, fill := fill } }
      .next (publish 2 (leByteList 2 fill ++ leByteList 4 mass ++ leByteList 2 m ++ leByteList 1 (unlState s)) s)
  else
    let gap := if unlState s = 0 then 20000 else 4000
    if s.clk.tick < s.eth.posAt + gap then .next s
    else
      let w := (List.range 3).flatMap fun k => leByteList 4 (Config.estimator 22 k (solWords s)).toNat
      let speed := (Config.realFn 25 (solWords s)).toNat
      let body := w ++ leByteList 2 (s.get fGNS_SOL_HEAD_HEAD) ++ leByteList 2 speed ++ leByteList 1 (s.get fGNS_SOL_STAT_FIX)
        ++ leByteList 1 (s.get fCLK_STATUS_TIME_STAT)
      .next (publish 1 body { s with eth := { s.eth with posAt := s.clk.tick } })

/-! ## Map-tile sync (R367) -/

def showTileQ (s : State) : State :=
  let ts := (s.map.unsent.map MapTile.of ++ s.eth.deltas.map TileDelta.tile).eraseDups
  s.put fETH_FLEET_Q_TILES (min 512 ts.length)

/-- The export of the cells of a delta (R301, R367). -/
def deltaExport (s : State) (t : MapTile) (cells : List MapKey) : List Byte :=
  tileExport s t ((cells.map fun k => (k, cellBytes (mapCell s k))).filter fun x => cellState (cellOf x.2) == 2)

/-- The delta of one tile: one that is not acknowledged is sent again with its sequence number, otherwise the cells
sealed since the last one make a new delta. -/
def syncTile (t : MapTile) (s : State) : State :=
  match s.eth.deltas.find? fun d => d.tile == t with
  | some d =>
    let chunks := chunksOf (deltaExport s t d.cells) 64
    let put (x : TileDelta) : TileDelta := if x.tile == t then { x with chunks := chunks.length } else x
    sendTile t d.seq chunks d.acked { s with eth := { s.eth with deltas := s.eth.deltas.map put } }
  | none =>
    let cells := s.map.unsent.filter fun k => MapTile.of k == t
    if cells.isEmpty then s
    else
      let chunks := chunksOf (deltaExport s t cells) 64
      let d : TileDelta := ⟨t, cells, s.eth.seq + 1, chunks.length, []⟩
      let s := { s with eth := { s.eth with deltas := d :: s.eth.deltas, seq := d.seq }
                        map := { s.map with unsent := s.map.unsent.filter fun k => !(MapTile.of k == t) } }
      sendTile t d.seq chunks [] s

/-- Pending deltas go out at a write of TILE_SYNC, every TILE_INT seconds and at field close; without a connection the
pending list stands (R367, R368). -/
def execTileSync (req : Option Req) (s : State) : Out :=
  let asked := match req with
    | some r => !reqIsOem r
    | none => decide (s.eth.syncAt + 20000 * s.get fETH_SVC_PORT_TILE_INT ≤ s.clk.tick) || !s.bit fMAP_STATUS_FIELD_OK
  if !s.wide || !asked || fleetState s != 2 then .next s
  else
    let ts := (s.map.unsent.map MapTile.of ++ s.eth.deltas.map TileDelta.tile).eraseDups
    .next (showTileQ (forAll ts syncTile { s with eth := { s.eth with syncAt := s.clk.tick } }))

/-- A PUBACK of a chunk; with every chunk acknowledged the delta is (R367). -/
def execPuback (seq chunk : Nat) (s : State) : Out :=
  match s.eth.deltas.find? fun d => d.seq == seq with
  | none => .next s
  | some d =>
    let d := { d with acked := chunk :: d.acked.filter (· != chunk) }
    let rest := s.eth.deltas.filter fun x => x.seq != seq
    if (List.range d.chunks).all fun i => d.acked.contains i then
      .next (showTileQ ({ s with eth := { s.eth with deltas := rest } }.putBit fETH_EVT_TILE_ACK true))
    else .next { s with eth := { s.eth with deltas := d :: rest } }

end Sys2Proof.Machine
end

