-- ==== Sys2Proof/Machine/Swing.lean ====
section
/-!
DEFINITION. Swing search (R132–R150): the active set, its states, the dither, the cost, the fit, and setpoint sets.
-/
namespace Sys2Proof.Machine

/-- The function, counted from 0, that Swing search's index j serves (R132). -/
def swgFn (j : Nat) : Nat := [9, 10, 11, 12, 13, 14, 16, 25].getD j 25

def swgState (s : State) : Nat := s.get fSWG_STATUS_STATE

/-! ## The active set (R133, R134) -/

/-- The function takes part (R132). -/
def takesPart (s : State) (j : Nat) : Bool := s.bit (fFUN_REC_CTL_SWG (swgFn j)) && s.bit (fSWG_FN_CFG_EN j)

/-- The function runs: its STATE is RUNNING, or, where its home is a worker, whose STATE no path of the spec brings to the
manager, that worker is JOINED and ALIGNED (DESIGN CHOICE, log entry 122). -/
def swgRuns (s : State) (f : Nat) : Bool :=
  if fnHome s f then s.get (fFUN_REC_CTL_STATE f) == 1
  else
    let p := s.get (fFUN_REC_CTL_HOME f)
    s.bit (fFUN_REC_CTL_EN f) && p != s.straps.pos && s.bitAt fECN_MEMBERS_JOINED p && s.bitAt fECN_MEMBERS_ALIGNED p

/-- COND of function j: 0 ACTIVE, else the first condition that fails, in the order of R133. -/
def swgCond (s : State) (j : Nat) : Nat :=
  let f := swgFn j
  if !takesPart s j then 6
  else if s.bitAt fFUN_LOCK_LOCK f then 1
  else if !swgRuns s f then 2
  else if s.get (fFUN_REC_CTL_SP_SRC f) = 3 then 3
  else if f32Lt (f32Sub (fnHi s f) (fnLo s f)) (f32Mul 0x40000000#32 (s.getF (fSWG_FN_AMP j))) then 4
  else if 3 ≤ s.get (fSWG_FN_STAT_TRACK_FAILS j) then 5
  else 0

def swgActive (s : State) : List Nat := (List.range 8).filter fun j => swgCond s j == 0

def setSwgState (v : Nat) (s : State) : State :=
  if swgState s = v then s else ((s.put fSWG_STATUS_STATE v).putBit fSWG_EVT_STATE_CHG true).ev 0x3901 0 v

def clearWindow (s : State) : State := { s with swg := { s.swg with window := [], setAt := none, upd := none } }

/-! ## Setpoint sets (R144, R145) -/

/-- The apply tick of a set decided at a boundary: 800 ticks after it (R144). -/
def setTick (s : State) : Nat := s.clk.tick / 400 * 400 + 800

/-- The base function j is to have: that of the pending set, otherwise the base in force. -/
def nextBase (s : State) (j : Nat) : F32 :=
  match s.swg.set.bind fun x => x.items.getD j none with
  | some i => i.base
  | none => s.getF (fSWG_FN_BASE j)

/-- A set over the functions that take part, for apply tick `a`; only one is pending at any time. `dither` gives the
active functions their amplitude, from the tick `t0` on. -/
def sendSetAt (a : Nat) (dither : Bool) (t0 : Nat) (base : Nat → F32) (s : State) : State :=
  let act := swgActive s
  let item (j : Nat) : Option SwgItem :=
    if !takesPart s j then none
    else some ⟨base j, if dither && act.contains j then s.getF (fSWG_FN_AMP j) else 0#32, s.get (fSWG_FN_CFG_K j), t0⟩
  { s with swg := { s.swg with set := some ⟨a, (List.range 8).map item, false⟩, t0 := if dither then t0 else s.swg.t0 } }

/-- A set decided now whose dither, if it has one, begins at its own apply tick. -/
def sendSet (dither : Bool) (base : Nat → F32) (s : State) : State := sendSetAt (setTick s) dither (setTick s) base s

/-- A set decided now that holds the bases. -/
def holdSet (dither : Bool) (s : State) : State := sendSet dither (nextBase s) s

/-- The state that FILL, SEEK or a restart falls back to (R135). -/
def byMoved (s : State) : Nat := if s.bit fSWG_STATUS_MOVED then 4 else 1

/-- Steady flow is lost, or the active set empty: a set with amplitude 0, and the window is cleared (R135). -/
def steadyLost (s : State) : State := setSwgState (byMoved s) (clearWindow (holdSet false s))

/-- The active set is judged; a change of its membership clears the window and returns FILL or SEEK to FILL with the
bases held, and FILL or SEEK with an empty set is left (R133–R135). -/
def judgeActive (s : State) : State :=
  let was := s.swg.used
  let s := forUp 8 (fun j t =>
    let c := swgCond t j
    let t := t.put (fSWG_FN_STAT_COND j) c
    if c ≠ 0 ∧ was.contains j then (t.putBit fSWG_EVT_EXCLUDED true).ev 0x3905 (swgFn j + 1) c else t) s
  let now := swgActive s
  let s := s.put fSWG_STATUS_ACTIVE ((now.map fun j => 2 ^ j).sum)
  let s := if now = was then s else clearWindow { s with swg := { s.swg with used := now } }
  if swgState s ≠ 2 ∧ swgState s ≠ 3 then s
  else if now.isEmpty then steadyLost s
  else if now = was then s
  else setSwgState 2 (holdSet true s)

/-! ## Commands of SWG_CTL (R135) -/

/-- The presets of the declared crop go out as bases, without dither. -/
def toPresets (s : State) : State :=
  setSwgState 1 (clearWindow (sendSet false (fun j => s.getF (fFUN_REC_PRESET (swgFn j))) s))

/-- DISABLE: the bases stay as targets (R135). -/
def swgOff (s : State) : State := if swgState s = 0 then s else setSwgState 0 (clearWindow (holdSet false s))

/-- A write of ENABLE; `disable` is the DISABLE bit of the same write, which wins (R148). -/
def execSwgEnable (req : Req) (disable : Bool) (s : State) : Out :=
  if reqIsOem req || !appOn s then .next s
  else if disable then .next (swgOff s)
  else
    let s := judgeActive s
    if swgState s ≠ 0 ∨ (swgActive s).isEmpty then .next s else .next (toPresets s)

def execSwgDisable (req : Req) (s : State) : Out := if reqIsOem req || !appOn s then .next s else .next (swgOff s)

def execSwgRestart (req : Req) (s : State) : Out :=
  if reqIsOem req || !appOn s || swgState s == 0 then .next s
  else
    let s := forUp 8 (fun j t => t.put (fSWG_FN_STAT_TRACK_FAILS j) 0) (clearWindow s)
    .next (judgeActive (setSwgState (byMoved s) s))

/-- A crop declaration at its frame boundary (R135, R146). -/
def cropDeclared (s : State) : State :=
  let c := s.get fSWG_CROP_CROP
  let pre := s.swg.crops.getD c []
  let s := forUp 8 (fun j t => t.putF (fFUN_REC_PRESET (swgFn j)) (pre.getD j 0#32)) s
  let s := forUp 8 (fun j t => t.put (fSWG_FN_STAT_TRACK_FAILS j) 0) (s.putBit fSWG_STATUS_MOVED false)
  if swgState s = 0 then s else (toPresets s).ev 0x3907 c

/-- The dither of every function restarts on the bases given (R135, R146). -/
def restartDither (src : Nat) (base : Nat → F32) (s : State) : State :=
  let s := s.ev 0x3906 src
  if swgState s = 2 ∨ swgState s = 3 then setSwgState 2 (sendSet true base (clearWindow s))
  else sendSet false base s

/-- A SWING commit other than a crop declaration restarts the dither (R146). -/
def swingCommitted (s : State) : State :=
  if swgState s = 0 then s
  else
    let s := judgeActive s
    restartDither 0 (nextBase s) s

/-- An operator setpoint (R65, R67, R146): an active, unlocked function of Swing search takes it as its base at the next
set; any other function takes it as its target, and an unlocked one that guidance drives keeps it as the operator's
request. -/
def execOperatorSetpoint (f : Fin 30) (value : F32) (s : State) : Out :=
  let s := s.setFnSt f { s.fnSt f with opReq := some value }
  if s.bitAt fFUN_LOCK_LOCK f = true then .next (request f 2 value s)
  else match (List.range 8).find? fun j => swgFn j == f.val && s.swg.used.contains j with
  | some j =>
    if swgState s = 0 || !appOn s then .next (request f 2 value s)
    else
      let amp := s.getF (fSWG_FN_AMP j)
      let v := fnClamp s f value
      let s := if v != f32Flush value then
          (s.putBit fFUN_EVT_CLAMP true).evx 0x3821 (f + 1) 0 (f16OfF32 value) (f16OfF32 value)
        else s
      let b := f32Min (f32Max v (f32Add (fnLo s f) amp)) (f32Sub (fnHi s f) amp)
      let old := nextBase s
      .next (restartDither (f + 1) (fun k => if k = j then b else old k) s)
  | none => if s.get (fFUN_REC_CTL_SP_SRC f) = 3 then .next s else .next (request f 2 value s)

/-! ## The set's way to the boundary (R144, R145) -/

/-- A set not in the mailbox by then is discarded and counted; the bases in force stay. -/
def execSetMissed (s : State) : Out :=
  match s.swg.set with
  | none => .next s
  | some x =>
    if x.posted ∨ s.clk.tick + 10 < x.apply then .next s
    else
      let s := { s with swg := { s.swg with set := none } }
      .next (((s.inc fSWG_MISS_CNT).putBit fSWG_EVT_SET_MISSED true).ev 0x3903 0 0)

def fSetRes (j : Nat) : Fld := ⟨fSWG_SET_STAT.addr, 2 * j + 1, 2 * j⟩

/-- One function of a set: its result, and its base, amplitude, k and t0 in force (R145). -/
def applyItem (x : SwgSet) (j : Nat) (s : State) : State :=
  let f := swgFn j
  match x.items.getD j none with
  | none => s.put (fSetRes j) 3
  | some i =>
    if !takesPart s j ∨ !s.bit (fFUN_REC_CTL_EN f) then s.put (fSetRes j) 3
    else if s.bitAt fFUN_LOCK_LOCK f then s.put (fSetRes j) 2
    else
      let lo := fnLo s f
      let hi := fnHi s f
      let amp := if f32Lt (f32Sub hi lo) (f32Mul 0x40000000#32 i.amp) then 0#32 else i.amp
      let b := f32Min (f32Max i.base (f32Add lo amp)) (f32Sub hi amp)
      let clamped := b != i.base || amp != i.amp
      let s := (s.put (fSetRes j) (if clamped then 1 else 0)).putF (fSWG_FN_BASE j) b
      let s := if b != s.getF (fFUN_REC_PRESET f) then s.putBit fSWG_STATUS_MOVED true else s
      let old := (s.swg.dith.find? fun d => d.1 == j).map Prod.snd
      let rest := s.swg.dith.filter fun d => d.1 != j
      let s := if !f32IsZero amp then
          { s with swg := { s.swg with dith := (j, ⟨b, amp, i.k, i.t0⟩) :: rest, ending := s.swg.ending.filter (· != j) } }
        else match old with
          | some o => { s with swg := { s.swg with dith := (j, { o with base := b }) :: rest
                                                   ending := j :: s.swg.ending.filter (· != j) } }
          | none => s
      if !fnHome s f || s.get (fFUN_REC_CTL_SP_SRC f) == 3 then s
      else
        let s := request f (if s.bit fSWG_STATUS_MOVED then 1 else 0) b s
        if clamped then s.putBit (fFUN_REC_CTL_CLAMPED f) true else s

/-- The pending set at step 2 of R23; its boundary is the present tick. -/
def applySet (s : State) : State :=
  match s.swg.set with
  | none => s
  | some x =>
    if !x.posted ∨ x.apply ≠ s.clk.tick then s
    else
      let before := (List.range 8).map fun j => s.getF (fSWG_FN_BASE j)
      let s := { s with swg := { s.swg with set := none, setAt := some x.apply } }
      let s := forUp 8 (applyItem x) s
      let moved := (List.range 8).filter fun j => s.get (fSetRes j) ≤ 1 && s.getF (fSWG_FN_BASE j) != before.getD j 0#32
      let s := ((s.inc fSWG_UPD_CNT).put64 fSWG_SET_TICK_LO.addr x.apply).putBit fSWG_EVT_SET_APPLIED true
      let j := f16OfF32 (s.getF fSWG_COST_WIN)
      s.evx 0x3902 ((moved.map fun j => 2 ^ j).sum) 0 j j

/-! ## The dither (R138) -/

/-- t[j] of R138: sin(2π × j / 4,096) rounded to nearest-even. -/
def sineTab (j : Nat) : F32 := f32OfFix (sinTurn j 4096)

/-- `sine_table(idx)` with linear interpolation (R138). -/
def sineAt (idx : Nat) : F32 :=
  let pos := idx * 4096
  let i := pos / 1200000
  let frac := f32Div (f32OfNat (pos % 1200000)) (f32OfNat 1200000)
  f32Add (sineTab i) (f32Mul frac (f32Sub (sineTab (i + 1)) (sineTab i)))

def dithIdx (x : SwgItem) (tick : Nat) : Nat := (tick - x.t0) * x.k % 1200000

/-- idx crosses 0 or 600,000 in the present tick. -/
def dithCross (x : SwgItem) (tick : Nat) : Bool :=
  let a := dithIdx x (tick - 1) / 600000
  let b := dithIdx x tick / 600000
  a != b || dithIdx x tick % 600000 == 0

/-- The dither of function j ends: its target equals the base (R138). -/
def endDither (j : Nat) (s : State) : State :=
  match s.swg.dith.find? fun d => d.1 == j with
  | none => s
  | some (_, x) =>
    let s := { s with swg := { s.swg with dith := s.swg.dith.filter (fun d => d.1 != j), ending := s.swg.ending.filter (· != j) } }
    if fnHome s (swgFn j) then setTarget (swgFn j) x.base s else s

/-- A dither that is to end reaches its zero crossing in the present tick. -/
def dithDue (s : State) (j : Nat) : Bool :=
  s.swg.ending.contains j && s.swg.dith.any fun d => d.1 == j && dithCross d.2 s.clk.tick

def execDitherEnd (j : Fin 8) (s : State) : Out := if dithDue s j then .next (endDither j s) else .next s

/-- A locked function keeps the target it has: its dither ends where it stands (R67). -/
def dropDither (j : Nat) (s : State) : State :=
  { s with swg := { s.swg with dith := s.swg.dith.filter (fun d => d.1 != j), ending := s.swg.ending.filter (· != j) } }

/-- The dithered targets of a tick, formed before R63 and R64; a base that the set clamped keeps CLAMPED (R138, R145). -/
def ditherTick (s : State) : State :=
  forAll s.swg.dith (fun d t =>
    let f := swgFn d.1
    if t.bitAt fFUN_LOCK_LOCK f then dropDither d.1 t
    else if dithDue t d.1 then endDither d.1 t
    else if t.clk.tick < d.2.t0 || !fnHome t f || t.get (fFUN_REC_CTL_SP_SRC f) == 3 then t
    else
      let t := setTarget f (f32Add d.2.base (f32Mul d.2.amp (sineAt (dithIdx d.2 t.clk.tick)))) t
      if t.get (fSetRes d.1) = 1 then t.putBit (fFUN_REC_CTL_CLAMPED f) true else t) s

def leaseSig (s : State) : Sig := s.sig (topLane s) (s.swg.sigs.getD 3 1023)

/-- The lease's AGE is above 800 ticks: every dither ends at its next zero crossing, and FILL or SEEK is left (R135,
R138). -/
def execLeaseLost (s : State) : Out :=
  if sigUsable (leaseSig s) 800 then .next s
  else
    let s := { s with swg := { s.swg with ending := s.swg.dith.map Prod.fst } }
    let s := s.putBit fSWG_STATUS_LEASE false
    if swgState s = 2 ∨ swgState s = 3 then .next (setSwgState (byMoved s) (clearWindow s)) else .next s

/-! ## Cost and steady flow (R136, R139) -/

/-- What Swing search takes at T of a frame boundary. At an update boundary FILL goes on to SEEK after 1,200,000 ticks of
dither, and SEEK owes the update that the statistics of the window's last frame complete (R135, R143, R144). -/
def swgBoundary (s : State) : State :=
  let l := topLane s
  let g (i : Nat) : SwgSig := ((s.sig l i).val, sigUsable (s.sig l i) 800)
  let cut := s.sig l 148
  let m := (List.range 8).map fun j => g (s.get (fFUN_REC_MEAS (swgFn j)))
  let flow := s.sig l 144
  let x : SwgSample := ⟨s.clk.tick / 400, (flow.val, flow.valid), (cut.val, cut.valid),
    [g 128, g 129, g 147, g 144, g (s.swg.sigs.getD 2 1023)], m⟩
  let s := s.putBit fSWG_STATUS_LEASE (sigUsable (leaseSig s) 800)
  if !appOn s then s
  else
    let s := judgeActive { s with swg := { s.swg with samples := (x :: s.swg.samples).take 8 } }
    if s.clk.tick % 600000 ≠ 0 then s
    else
      let s := if swgState s = 2 ∧ s.swg.t0 + 1200000 ≤ s.clk.tick then setSwgState 3 s else s
      if swgState s = 3 then { s with swg := { s.swg with upd := some s.clk.tick } } else s

/-- R136 over the last 1,000 frames. -/
def isSteady (h : List (F32 × Bool)) : Bool :=
  decide (1000 ≤ h.length) && h.all Prod.snd && within15 (h.map Prod.fst)

/-- The cost of a frame, `none` where a term with a weight is not valid (R139). -/
def frameCost (s : State) (x : SwgSample) (broken mog : SwgSig) : Option F32 :=
  let w (i : Nat) : F32 := s.getF (fSWG_W i)
  let t (i : Nat) : SwgSig := x.terms.getD i (0#32, false)
  let eng := t 4
  let load := f32Max 0#32 (f32Sub eng.1 (s.getF fSWG_ENG_LIM))
  let ts : List (F32 × SwgSig) := [(w 0, t 0), (w 1, t 1), (w 2, broken), (w 3, mog), (w 4, t 2), (w 5, t 3), (w 6, (load, eng.2))]
  if ts.any fun p => !f32IsZero p.1 && !p.2.2 then none
  else
    let m (p : F32 × SwgSig) : F32 := if f32IsZero p.1 then 0#32 else f32Mul p.1 p.2.1
    let v (i : Nat) : F32 := m (ts.getD i (0#32, 0#32, true))
    some (f32Add (f32Sub (f32Add (f32Add (f32Add (f32Add (v 0) (v 1)) (v 2)) (v 3)) (v 4)) (v 5)) (v 6))

/-- The clean-grain statistic tagged with the frame, as the mailbox holds it (R248). -/
def frameStat (s : State) (e frame : Nat) : SwgSig :=
  match (s.mail.buf ++ s.mail.copy).find? fun x => x.1 == e && x.2.tick == 400 * frame with
  | some (_, v) => (v.val, v.valid && decide (s.clk.tick - v.tick ≤ 800))
  | none => (0#32, false)

/-- A frame's statistics are ready: its cost, and steady flow (R136, R139). Steady flow lost ends FILL or SEEK (R135). -/
def execCostFrame (frame : Nat) (s : State) : Out :=
  match s.swg.samples.find? fun x => x.frame == frame && appOn s with
  | none => .next s
  | some x =>
    let s := { s with swg := { s.swg with samples := s.swg.samples.filter fun y => y.frame != frame } }
    let j := frameCost s x (frameStat s (s.swg.sigs.getD 0 1023) frame) (frameStat s (s.swg.sigs.getD 1 1023) frame)
    let s := match j with
      | some v => s.putF fSWG_COST v
      | none => s
    let s := { s with swg := { s.swg with window := ((⟨frame, j, x.meas.map Prod.fst⟩ : SwgFrame) :: s.swg.window).take 3002 } }
    let ok := x.flow.2 && f32Le (s.getF fSWG_FLOW_MIN) x.flow.1 && x.cut.2 && f32Le f32One x.cut.1
    let h := ((x.flow.1, ok) :: s.swg.steady).take 1000
    let s := { s with swg := { s.swg with steady := h } }
    let s := s.put fSWG_STEADY_FRAMES (if ok then min 65535 (s.get fSWG_STEADY_FRAMES + 1) else 0)
    let steady := isSteady h
    let s := judgeActive (s.putBit fSWG_STATUS_STEADY steady)
    if !steady && (swgState s = 2 ∨ swgState s = 3) then .next (steadyLost s) else .next s

/-- 20 s of steady flow start the dither: from PRESET, or from HOLD with an active function (R135). -/
def execSteadyReached (s : State) : Out :=
  if !s.bit fSWG_STATUS_STEADY || !appOn s then .next s
  else if swgState s = 1 ∨ (swgState s = 4 ∧ !(swgActive s).isEmpty) then
    .next (setSwgState 2 (holdSet true (clearWindow s)))
  else .next s

/-! ## The update (R140–R143) -/

/-- The frames of the window of boundary `u`: the last 3,000 before it, oldest last (R140). -/
def winFrames (s : State) (u : Nat) : List SwgFrame :=
  s.swg.window.filter fun x => decide (u ≤ 400 * x.frame + 1200000) && decide (400 * x.frame < u)

/-- The tick of the step column: that of the last set applied in the window. A set applied at the window's first tick makes
it equal to the constant, and it is left out (R140; DESIGN CHOICE, log entry 123). -/
def stepTick (s : State) (u : Nat) : Option Nat :=
  s.swg.setAt.filter fun t => decide (u < t + 1200000) && decide (t < u)

/-- The columns of a frame, the sines and cosines × 10^20 (R140). -/
def fitRow (s : State) (act : List Nat) (step : Option Nat) (x : SwgFrame) : List Int :=
  let tick := 400 * x.frame
  let idx (j : Nat) : Nat := ((((tick : Int) - s.swg.t0) * s.get (fSWG_FN_CFG_K j)) % 1200000).toNat
  let col (v : Int) : Int := v / (10 : Int) ^ 20
  let on : List Int := match step with
    | some t => [if t ≤ tick then 1 else 0]
    | none => []
  (1 : Int) :: on ++ act.flatMap fun j => [col (sinTurn (idx j) 1200000), col (cosTurn (idx j) 1200000)]

/-- A finite binary32 value in units of 2^−149. -/
def fitVal (x : F32) : Int :=
  let v := f32Val x
  v.m * (2 : Int) ^ (v.e + 149).toNat

/-- One step of the elimination without fractions: column k of every other row becomes 0, each division being exact. -/
def elimStep (k : Nat) (prev : Int) (m : List (List Int)) : List (List Int) :=
  let pr := m.getD k []
  let p := pr.getD k 0
  m.zipIdx.map fun q =>
    if q.2 = k then q.1
    else
      let f := q.1.getD k 0
      (q.1.zip pr).map fun z => (p * z.1 - f * z.2) / prev

/-- The elimination of the first `n` columns from column k on; `none` where the columns depend on one another. -/
def elim : Nat → Nat → Int → List (List Int) → Option (List (List Int))
  | 0, _, _, m => some m
  | n + 1, k, prev, m =>
    let p := (m.getD k []).getD k 0
    if p = 0 then none else elim n (k + 1) p (elimStep k prev m)

/-- Sum of products of two lists. -/
def dotInt (a b : List Int) : Int := ((a.zip b).map fun z => z.1 * z.2).sum

/-- The least-squares solution for several right-hand sides: for each column, a numerator for each side, over one
denominator (R140). -/
def leastSquares (rows : List (List Int)) (rhs : List (List Int)) : Option (List (List Int) × Int) :=
  let n := (rows.headD []).length
  let cols := (List.range n).map fun k => rows.map fun r => r.getD k 0
  let m := cols.map fun c => (cols.map (dotInt c)) ++ rhs.map (dotInt c)
  (elim n 0 1 m).map fun e => (e.map (List.drop n), ((e.getD (n - 1) []).getD (n - 1) 0))

/-- The fit of the window of boundary `u`: the costs and the active functions' measured values against the columns
(R140). It is exact, and each coefficient is rounded once (DESIGN CHOICE, log entry 123). -/
structure SwgFit where
  act : List Nat
  off : Nat                         -- columns before the first sine
  bad : List Bool                   -- a side held a value that is not finite
  sol : Option (List (List Int) × Int)
  vals : List F32                   -- the values of all sides, for the free values

def swgFit (s : State) (u : Nat) : SwgFit :=
  let act := swgActive s
  let fr := (winFrames s u).filter fun x => x.cost.isSome
  let step := stepTick s u
  let sides := fr.map (fun x => x.cost.getD 0#32) :: act.map fun j => fr.map fun x => x.meas.getD j 0#32
  ⟨act, if step.isSome then 2 else 1, sides.map fun l => l.any fun x => !f32IsFinite x,
    leastSquares (fr.map (fitRow s act step)) (sides.map fun l => l.map fitVal), sides.flatten⟩

/-- A coefficient: that of the sine (part 0) or cosine (part 1) of function j for a side, 0 the cost and i + 1 the i-th active
function's measured value. Where the columns depend on one another it is a free value. -/
def SwgFit.coef (x : SwgFit) (j part side : Nat) : F32 :=
  let i := x.act.idxOf j
  if x.bad.getD side false then f32NaN
  else match x.sol with
    | some (m, d) =>
      let n := (m.getD (x.off + 2 * i + part) []).getD side 0 * (10 : Int) ^ 20
      f32OfRatio (decide (n < 0) != decide (d < 0)) n.natAbs (d.natAbs * 2 ^ 149)
    | none => Config.estimator 21 (4 * j + part + 2 * min side 1) x.vals

/-- φ of function j as sine and cosine: K × TAU / 600 of a turn (R141). -/
def fitPhase (s : State) (j : Nat) : F32 × F32 :=
  let n := s.get (fSWG_FN_CFG_K j) * s.get (fSWG_FN_CFG_TAU j)
  (f32OfFix (sinTurn n 600), f32OfFix (cosTurn n 600))

/-- Gradient, quadrature, tracking ratio and lag of function j (R141); the lag of c = d = 0 is a free value. -/
def fitFn (s : State) (x : SwgFit) (j : Nat) : F32 × F32 × F32 × F32 :=
  let side := x.act.idxOf j + 1
  let a := x.coef j 0 0
  let b := x.coef j 1 0
  let c := x.coef j 0 side
  let d := x.coef j 1 side
  let amp := s.getF (fSWG_FN_AMP j)
  let (sn, cs) := fitPhase s j
  let lag := if !f32IsFinite c || !f32IsFinite d then f32NaN
    else if f32IsZero c && f32IsZero d then Config.realFn 24 [c, d] else f32Atan2Deg (f32Neg' d) c
  (f32Div (f32Sub (f32Mul a cs) (f32Mul b sn)) amp, f32Div (f32Add (f32Mul a sn) (f32Mul b cs)) amp,
    f32Div (f32Sqrt (f32Add (f32Mul c c) (f32Mul d d))) amp, lag)

/-- The new base of function j from its gradient (R143). -/
def movedBase (s : State) (j : Nat) (g : F32) : F32 :=
  let f := swgFn j
  let amp := s.getF (fSWG_FN_AMP j)
  let dmax := s.getF (fSWG_FN_DMAX j)
  let dlt := f32Min (f32Max (f32Mul (f32Neg' (s.getF (fSWG_FN_STEP j))) g) (f32Neg' dmax)) dmax
  f32Min (f32Max (f32Add (s.getF (fSWG_FN_BASE j)) dlt) (f32Add (fnLo s f) amp)) (f32Sub (fnHi s f) amp)

/-- The gradient of function j may be used (R142). -/
def tracks (r lag : F32) : Bool := f32Le 0x3F333333#32 r && f32Le r 0x3FA66666#32 && f32Le (f32Abs lag) 0x41F00000#32

/-- One active function at an update: what the fit gives, and the tracking check of R142. -/
def judgeFn (x : SwgFit) (j : Nat) (s : State) : State :=
  let (g, q, r, lag) := fitFn s x j
  let s := ((s.putF (fSWG_FN_GRAD j) g).putF (fSWG_FN_QUAD j) q).putF (fSWG_FN_TRK j) r
  if tracks r lag then s.put (fSWG_FN_STAT_TRACK_FAILS j) 0
  else
    let s := s.put (fSWG_FN_STAT_TRACK_FAILS j) (min 3 (s.get (fSWG_FN_STAT_TRACK_FAILS j) + 1))
    (s.putBit fSWG_EVT_TRACK_FAIL true).evx 0x3904 (swgFn j + 1) 0 (f16OfF32 r) (f16OfF32 lag)

/-- The base of each function after an update: moved where its gradient is used (R142, R143). -/
def updBase (s : State) (x : SwgFit) (j : Nat) : F32 :=
  let y := fitFn s x j
  if x.act.contains j && tracks y.2.2.1 y.2.2.2 then movedBase s j y.1 else s.getF (fSWG_FN_BASE j)

/-- The update of boundary U, made at U + 400 when the statistics of the window's last frame are read; its set applies at
U + 800 (R135, R140–R144). -/
def execSwingUpdate (s : State) : Out :=
  match s.swg.upd with
  | none => .next s
  | some u =>
    if s.clk.tick ≠ u + 400 || swgState s != 3 || !appOn s then .next s
    else
      let s := { s with swg := { s.swg with upd := none } }
      let s := s.putBit fSWG_EVT_UPDATE true
      let js := (winFrames s u).filterMap SwgFrame.cost
      let s := if js.isEmpty then s else s.putF fSWG_COST_WIN (meanOf js)
      if js.length < 2400 then .next ((s.putBit fSWG_EVT_SET_MISSED true).ev 0x3903 0 1)
      else
        let x := swgFit s u
        let base := (List.range 8).map (updBase s x)
        let s := sendSetAt (u + 800) true s.swg.t0 (fun j => base.getD j 0#32) (forAll x.act (judgeFn x) s)
        .next (judgeActive s)

end Sys2Proof.Machine
end

