-- ==== Sys2Proof/Machine/Valve.lean ====
section
/-!
DEFINITION. The valve drivers (R174–R189): the command at T, boost requests, the phases of a profile, the proportional
mode, and the faults. Currents and voltages the die measures are operands.
-/
namespace Sys2Proof.Machine

def State.vlv (s : State) (n : Nat) : VlvCh := tabGet (fun _ => VlvCh.init) s.dies.vlv n
def State.setVlv (s : State) (n : Nat) (x : VlvCh) : State :=
  { s with dies := { s.dies with vlv := tabSet (fun _ => VlvCh.init) s.dies.vlv n x } }

/-- Whole µs since tick 0, at a 1 µs step after T. -/
def usAt (s : State) (us : Nat) : Nat := 50 * s.clk.tick + us

def vlvPhase (s : State) (n : Nat) : Nat := s.get (fVLV_CH_STAT_PHASE n)
def setPhase (n p : Nat) (s : State) : State := s.put (fVLV_CH_STAT_PHASE n) p

def bankOf (n : Nat) : Nat := n / 4

/-! ## The parameters of a running profile (R176, R181) -/

def profNow (s : State) (n : Nat) : List Word :=
  [s.rd (fVLV_CH_MODE n).addr, s.rd (fVLV_CH_PROF n).addr, s.rd (fVLV_CH_CUR n).addr, s.rd (fVLV_CH_DIAG n).addr,
    s.rd (fVLV_CH_MOT_WIN n).addr, s.rd (fVLV_CH_PROP n).addr]

/-- A field of the running profile's copy; `k` is the word. -/
def profFld (x : VlvCh) (k : Nat) (f : Fld) : Nat := fldOf f (x.prof.getD k 0#32)

def pOffBoost (x : VlvCh) : Nat := profFld x 0 (fVLV_CH_MODE_OFF_BOOST 0)
def pOffPeak (x : VlvCh) : Nat := profFld x 0 (fVLV_CH_MODE_OFF_PEAK 0)
def pOffHold (x : VlvCh) : Nat := profFld x 0 (fVLV_CH_MODE_OFF_HOLD 0)
def pMotEn (x : VlvCh) : Bool := profFld x 0 (fVLV_CH_MODE_MOT_EN 0) == 1
def pTBoost (x : VlvCh) : Nat := profFld x 1 (fVLV_CH_PROF_T_BOOST 0)
def pTPeak (x : VlvCh) : Nat := 10 * profFld x 1 (fVLV_CH_PROF_T_PEAK 0)
def pIPeak (x : VlvCh) : Nat := profFld x 2 (fVLV_CH_CUR_I_PEAK 0)
def pIHold (x : VlvCh) : Nat := profFld x 2 (fVLV_CH_CUR_I_HOLD 0)
def pTpkMin (x : VlvCh) : Nat := profFld x 3 (fVLV_CH_DIAG_TPK_MIN 0)
def pTpkMax (x : VlvCh) : Nat := profFld x 3 (fVLV_CH_DIAG_TPK_MAX 0)
def pMotMin (x : VlvCh) : Nat := 10 * profFld x 4 (fVLV_CH_MOT_WIN_MOT_MIN 0)
def pMotMax (x : VlvCh) : Nat := 10 * profFld x 4 (fVLV_CH_MOT_WIN_MOT_MAX 0)

/-- A profile runs on its own copy of the parameters: BOOST, PEAK or HOLD. -/
def profRuns (s : State) (n : Nat) : Bool := decide (2 ≤ vlvPhase s n) && decide (vlvPhase s n ≤ 4)

/-- KCNT and W of the fault window: those of the running profile, otherwise those in force (R176, R187). -/
def vlvKcnt (s : State) (n : Nat) : Nat :=
  if profRuns s n then profFld (s.vlv n) 3 (fVLV_CH_DIAG_KCNT 0) else s.get (fVLV_CH_DIAG_KCNT n)
def vlvW (s : State) (n : Nat) : Nat :=
  if profRuns s n then profFld (s.vlv n) 5 (fVLV_CH_PROP_W 0) else s.get (fVLV_CH_PROP_W n)

def vlvHot (s : State) (n : Nat) : Bool := s.bitAt fVLV_STATUS_HOT (bankOf n)

/-! ## Energy of a bank (R177, R178) -/

def State.rail (s : State) (b : Nat) : Rail := tabGet (fun _ => Rail.init) s.dies.rails b
def State.setRail (s : State) (b : Nat) (r : Rail) : State :=
  { s with dies := { s.dies with rails := tabSet (fun _ => Rail.init) s.dies.rails b r } }

/-- The rail voltage stands at `rail` × 10 mV; V_BOOST in V. -/
def vBoost (s : State) (b : Nat) : Nat := s.get (fVLV_BANK_CFG_V_BOOST b)

/-- The power of a converter in units of 5 nJ a µs: 25 W from 11 V of VBAT_OUT on, 18 W from 9 V on, none below (R177). -/
def chargeRate (v : F32) : Nat :=
  if f32Le (f32OfNat 11) v then 5000 else if f32Le (f32OfNat 9) v then 3600 else 0

/-- The converter of a bank is off with its die, and without the load supply (R187, R491). -/
def bankCharge (s : State) (b : Nat) : Nat :=
  if s.bitAt fVLV_STATUS_HOT b || s.dies.loadOff || !dieLive s b then 0 else s.dies.charge

/-- The energy of a rail `us` after T: charged up to ½ · C · V_BOOST², 46,875 · V² units, less what left it, and with what
RECOVER returned (R177, R180). -/
def railAt (s : State) (b us : Nat) (f : RailIn) : Nat :=
  let full := 46875 * vBoost s b ^ 2
  let e := (s.rail b).e
  (if e < full then min full (e + bankCharge s b * us) else e) + f.back - f.out

/-- The voltage of a rail with that energy, × 10 mV: ½ · C · (10 mV)² is 4.6875 units. -/
def railVolt (e : Nat) : Nat := min 65535 (e * 16 / 75).sqrt

/-- The rail is at its ready level of 0.9 × V_BOOST. -/
def railReady (s : State) (b rail : Nat) : Bool := decide (90 * vBoost s b ≤ rail)

/-- e_res of R178, from V_BOOST, I_PEAK × 50 mA and T_BOOST µs. -/
def eResOf (v ip tb : Nat) : F32 :=
  f32Div (f32Mul (f32Mul (f32OfNat v) (f32OfRatio false ip 20)) (f32OfRatio false tb 1000000)) (f32OfNat 2)

/-- e_rail of R178, floored at 0. -/
def eRail (v rail : Nat) : F32 :=
  let vr := f32OfRatio false rail 100
  let rdy := f32Mul (f32OfRatio false 9 10) (f32OfNat v)
  f32Max 0#32 (f32Mul (f32Mul (f32OfRatio false 1 2) (f32OfRatio false 46875 100000000))
    (f32Sub (f32Mul vr vr) (f32Mul rdy rdy)))

/-- e_free of R178; `drawn` are the energies the four channels have taken in their BOOST, summed in channel order. -/
def eFree (s : State) (b rail : Nat) (drawn : List F32) : F32 :=
  let held := (List.range 4).foldl (fun e i =>
    let n := 4 * b + i
    if vlvPhase s n = 2 then f32Add e (f32Max 0#32 (f32Sub (s.vlv n).eRes (drawn.getD i 0#32))) else e) 0#32
  f32Sub (eRail (vBoost s b) rail) held

/-- The full budget of a bank (R178). -/
def fullBudget (s : State) (b : Nat) : F32 := eRail (vBoost s b) (100 * vBoost s b)

/-- e_res of a channel's next profile. -/
def eResNow (s : State) (n : Nat) : F32 :=
  eResOf (vBoost s (bankOf n)) (s.get (fVLV_CH_CUR_I_PEAK n)) (s.get (fVLV_CH_PROF_T_BOOST n))

/-- The bank's measured rail voltage and its readiness (R188). -/
def showRail (b rail : Nat) (s : State) : State :=
  (s.put (fVLV_BANK_RAIL_V_RAIL b) (min rail 65535)).setBitAt fVLV_STATUS_READY b (railReady s b rail)

/-- e_free in the register, × 10 µJ. -/
def showFree (b : Nat) (e : F32) (s : State) : State :=
  s.put (fVLV_BANK_RAIL_E_FREE b) (min 65535 (max 0 (f32Floor (f32Mul e (f32OfNat 100000)))).toNat)

/-! ## Switching off (R180, R182) -/

/-- A fall of current with switch-off mode `m`: RECOVER with the rail at 1.05 × V_BOOST or more is carried out as FAST
and counted. -/
def switchOff (n m rail : Nat) (s : State) : State :=
  if m = 2 ∧ 105 * vBoost s (bankOf n) ≤ rail then s.inc (fVLV_BANK_CNT_DIVERT (bankOf n)) else s

/-- The switch-off mode of the phase the channel is in (R175, R182). -/
def offMode (s : State) (n : Nat) : Nat :=
  let x := s.vlv n
  match vlvPhase s n with
  | 2 => pOffBoost x
  | 3 => pOffPeak x
  | 4 => pOffHold x
  | 1 => if x.chop = 1 then pOffPeak x else if x.chop = 2 then pOffHold x else 0
  | _ => 0

/-- The channel leaves its profile for phase `p`: its reservation and its request end. -/
def vlvStop (n p : Nat) (s : State) : State :=
  let x := s.vlv n
  setPhase n p (s.setVlv n
    { x with wait := none, chop := 0, eRes := 0#32, motWait := false, peaked := true, late := true, lowTicks := 0 })

/-! ## Fault events (R127, R187) -/

/-- A fault window of `kcnt` events within `w` × 0.1 s: the event is entered, and the answer is the count in the window
and whether the event is LASTING (R127). -/
def windowAdd (s : State) (win : List Nat) (kcnt w : Nat) : List Nat × Nat × Bool :=
  let now := s.clk.tick / 2000 % 65536
  let win := (now :: win).take 8
  let k := (win.filter fun t => decide ((now + 65536 - t) % 65536 < w)).length
  (win, k, decide (kcnt ≤ k))

/-- The low digit of the channel's last fault code: every code of R189 that reports a fault of the channel, 0x4001, 0x400A and
0x400D among them (DEDUCED from the range 0x1–0xD, log entry 128). -/
def showCode (n code : Nat) (s : State) : State := s.put (fVLV_CH_STAT_FAULT n) (code % 16)

/-- A fault event of valve channel n with the code's low digit. -/
def vlvFault (n code : Nat) (s : State) : State :=
  let x := s.vlv n
  let r := windowAdd s x.faults (vlvKcnt s n) (vlvW s n)
  let s := s.setVlv n { x with faults := r.1 }
  let s := ((showCode n code s).putBit (fVLV_CH_STAT_CLASS n) r.2.2).putBit fVLV_EVT_FAULT true
  if r.2.2 then
    let s := vlvStop n 6 s
    let s := (s.setBitAt fVLV_STATUS_LATCHED n true).putBit fVLV_EVT_LASTING true
    noteLasting 0x400B (s.evMax 0x400B n 0 (f16OfNat r.2.1))
  else s

def vlvLatched (s : State) (n : Nat) : Bool := s.bitAt fVLV_STATUS_LATCHED n

/-- The channel goes off until its next new command; a LATCHED one stays LATCHED. -/
def vlvOff (n : Nat) (s : State) : State :=
  let s := vlvStop n (if vlvLatched s n then 6 else 7) s
  s.setVlv n { s.vlv n with offCmd := true }

/-- A release of a LASTING channel: the latch and the window end, and the next T acts on the applied command as on a new one;
`here` is a release at the T that is under way, which does not act yet (R187). -/
def vlvRelease (here : Bool) (n : Nat) (s : State) : State :=
  if !vlvLatched s n then s
  else
    let s := (s.setBitAt fVLV_STATUS_LATCHED n false).setVlv n
      { s.vlv n with faults := [], on := false, offCmd := false, released := here }
    setPhase n 0 s

/-- The fault window of a channel that is not LASTING ends with a reset of reach WARM or wider too (R187, log entry 129). -/
def vlvClearWin (n : Nat) (s : State) : State := s.setVlv n { s.vlv n with faults := [] }

/-! ## The command at T (R174–R176, R185) -/

/-- The value a command acts as: 0 when it is not finite or negative. -/
def vlvBad (v : F32) : Bool := !f32IsFinite v || f32Lt v 0#32

/-- A new request; a restart keeps the coil at the target of the phase it was in, and a request that replaces a waiting
one keeps its place and its window (R175, R179). -/
def vlvRequest (n : Nat) (s : State) : State :=
  let x := s.vlv n
  let chop := match vlvPhase s n with
    | 2 => 1
    | 3 => 1
    | 4 => 2
    | 1 => x.chop
    | _ => 0
  let now := usAt s 0
  setPhase n 1 (s.setVlv n
    { x with wait := some (x.wait.getD now), reqAt := now, chop := chop, eRes := 0#32, motWait := false,
             peaked := true, late := true, offCmd := false })

/-- PROFILE at T. -/
def profileTick (n : Nat) (v : F32) (isNew : Bool) (s : State) : State :=
  let x := s.vlv n
  let on := f32Le 0x3F000000#32 v
  let s := s.setVlv n { x with on := on }
  if !on then
    let p := vlvPhase s n
    let s := if 1 ≤ p ∧ p ≤ 4 then switchOff n (offMode s n) (s.get (fVLV_BANK_RAIL_V_RAIL (bankOf n))) s else s
    let s := vlvStop n 0 s
    s.setVlv n { s.vlv n with offCmd := false }
  else if !x.on || isNew then vlvRequest n s
  else s

/-- The value a PROP channel acts on: 0 A to 3 A. -/
def propVal (v : F32) : F32 := f32Min (if vlvBad v then 0#32 else v) 0x40400000#32

/-- The target with its dither, whose phase restarts at each frame boundary; the shape of the dither is a free value (R185, log
entry 130). -/
def dithered (s : State) (n : Nat) (v : F32) : F32 :=
  let a := s.get (fVLV_CH_PROP_DITH_A n)
  let f := s.get (fVLV_CH_PROP_DITH_F n)
  if a = 0 ∨ f = 0 then v
  else f32Add v (Config.realFn 30 [f32OfRatio false a 500, f32OfRatio false (s.clk.tick % 400 * f % 10000) 10000])

/-- PROP at T: the target is limited to 0 A to 3 A; a new value ends an off state that waits for a new command. -/
def propTick (n : Nat) (v : F32) (isNew : Bool) (s : State) : State :=
  let x := s.vlv n
  let moved := f32Lt 0x3DCCCCCD#32 (f32Abs (f32Sub v (propVal x.cmd)))
  let s := s.setVlv n { x with chgAt := if moved then s.clk.tick else x.chgAt
                               offCmd := x.offCmd && !isNew
                               tgt := dithered s n v }
  if (s.vlv n).offCmd then s else setPhase n 5 s

/-- Channel n acts on the command applied to it. A channel whose command falls away acts as OFF with FAST (R166); one of a hot die
stays off until its first new command after that (R187). -/
def vlvAct (n : Nat) (s : State) : State :=
  let x := s.vlv n
  let mode := s.get (fVLV_CH_MODE_MODE n)
  match stageCmd s n with
  | none =>
    let s := s.setVlv n { x with cmd := 0#32, on := false }
    if vlvLatched s n then s else vlvStop n 0 s
  | some v =>
    let isNew := v != x.cmd
    let s := if isNew && vlvBad v && (mode == 1 || mode == 2) then showCode n 0x400D (s.ev 0x400D n) else s
    let w := if vlvBad v then 0#32 else v
    let s := if vlvLatched s n then s.setVlv n { s.vlv n with on := f32Le 0x3F000000#32 w }
      else if vlvHot s n ∧ mode ≠ 0 then (vlvOff n s).setVlv n { (vlvOff n s).vlv n with on := f32Le 0x3F000000#32 w }
      else if mode = 1 then profileTick n w isNew s
      else if mode = 2 then propTick n (propVal v) isNew s
      else vlvStop n 0 s
    s.setVlv n { s.vlv n with cmd := v }

/-- Channel n at T. -/
def vlvTick (n : Nat) (s : State) : State :=
  let x := s.vlv n
  if x.modeChg then
    let s := vlvStop n 0 s
    s.setVlv n { s.vlv n with modeChg := false, on := false, offCmd := false, released := false, cmd := 0#32 }
  else if x.released then s.setVlv n { x with released := false }
  else vlvAct n s

/-- A change of MODE that a commit makes: off with FAST at T of the boundary, the new mode from the next T (R176). -/
def vlvModeChange (n : Nat) (s : State) : State := s.setVlv n { s.vlv n with modeChg := true }

/-- The readback agrees with the applied command (R186); `i` is the mean current in mA. -/
def vlvAgrees (s : State) (n i : Nat) : Bool :=
  let x := s.vlv n
  let v := if vlvBad x.cmd then 0#32 else x.cmd
  let p := vlvPhase s n
  match s.get (fVLV_CH_MODE_MODE n) with
  | 1 => (decide (1 ≤ p) && decide (p ≤ 4)) == f32Le 0x3F000000#32 v
  | 2 =>
    let c := f32Min v 0x40400000#32
    let d := f32Abs (f32Sub (f32OfRatio false i 1000) c)
    decide (s.clk.tick < x.chgAt + 40)
      || f32Le d (f32Add (f32Mul (f32OfRatio false 2 100) c) (f32OfRatio false 20 1000))
  | _ => decide (i < 20)

/-! ## Requests (R179) -/

/-- Every request of the bank is REFUSED: the boost converter failed or the load supply is missing (R187, R491). -/
def bankRefuses (s : State) (b : Nat) : Bool := s.dies.failed.contains b || s.dies.loadOff

/-- The time a request has waited at a step, from the T from which its DEFER_WIN counts (log entry 131). -/
def boostWaited (s : State) (n us : Nat) : Nat := usAt s us - (s.vlv n).wait.getD (usAt s us)

/-- DEFER_WIN in µs. -/
def deferUs (s : State) (n : Nat) : Nat := 100 * s.get (fVLV_CH_CUR_DEFER_WIN n)

/-- A REFUSED request: the channel stays off until its next new command, with the switch-off mode of the target it was
chopped at; `free` is e_free in J (R175, R179). -/
def refuseBoost (us : Nat) (free : F32) (n : Nat) (s : State) : State :=
  let b := bankOf n
  let eRes := eResNow s n
  let s := s.put (fVLV_CH_TPK_WAIT n) (min 65535 (boostWaited s n us))
  let s := if 1 ≤ (s.vlv n).chop then switchOff n (offMode s n) (s.get (fVLV_BANK_RAIL_V_RAIL b)) s else s
  let s := showCode n 0x4001 (vlvStop n 0 s)
  let s := s.setVlv n { s.vlv n with offCmd := true }
  let s := (s.put (fVLV_CH_STAT_OUTCOME n) 3).inc (fVLV_BANK_CNT_REFUSED b)
  (s.putBit fVLV_EVT_REFUSED true).evx 0x4001 n 0 (f16OfF32 (f32Mul free (f32OfNat 1000)))
    (f16OfF32 (f32Mul eRes (f32OfNat 1000)))

/-- BOOST begins: SERVED at the T of the request, DEFERRED at a later step. -/
def startBoost (n us : Nat) (eRes : F32) (s : State) : State :=
  let x := s.vlv n
  let now := usAt s us
  let waited := boostWaited s n us
  let s := s.setVlv n { x with wait := none, chop := 0, eRes := eRes, prof := profNow s n, boostAt := now,
                               boostEnd := 0, peaked := false, late := false, motWait := s.bit (fVLV_CH_MODE_MOT_EN n) }
  let s := (setPhase n 2 s).add (fVLV_CH_CNT n) 1
  let s := s.put (fVLV_CH_TPK_WAIT n) (min 65535 waited)
  if now = x.reqAt then s.put (fVLV_CH_STAT_OUTCOME n) 1
  else ((s.put (fVLV_CH_STAT_OUTCOME n) 2).inc (fVLV_BANK_CNT_DEFERRED (bankOf n))).evMax 0x4002 n 0 (f16OfNat waited)

/-- The waiting channels of a bank with priority p, in channel order. -/
def boostQueue (s : State) (b p : Nat) : List Nat :=
  ((List.range 4).map fun i => 4 * b + i).filter fun n =>
    (s.vlv n).wait.isSome && s.get (fVLV_CH_MODE_PRIO n) == p

/-- One request at one step: it is served within its window where it fits, and REFUSED at the end of its window. The answer
carries the energies drawn, and whether a request was not served. -/
def boostPrio (us rail : Nat) (r : List F32 × Bool × State) (n : Nat) : List F32 × Bool × State :=
  let s := r.2.2
  let need := eResNow s n
  let free := eFree s (bankOf n) rail r.1
  if boostWaited s n us ≤ deferUs s n ∧ f32Le need free = true then (r.1.set (n % 4) 0#32, r.2.1, startBoost n us need s)
  else if deferUs s n ≤ boostWaited s n us then (r.1, true, refuseBoost us free n s)
  else (r.1, true, s)

/-- The priorities from 3 down; an unserved request blocks the lower ones. -/
def boostServe (b us rail : Nat) (drawn : List F32) (s : State) : List F32 × Bool × State :=
  [3, 2, 1, 0].foldl (fun r p => if r.2.1 then r else (boostQueue r.2.2 b p).foldl (boostPrio us rail) r) (drawn, false, s)

/-- Every waiting request of a bank is REFUSED. -/
def refuseBank (b us : Nat) (free : F32) (s : State) : State :=
  forAll [3, 2, 1, 0] (fun p t => forAll (boostQueue t b p) (refuseBoost us free) t) s

/-- The die decides the waiting requests of its bank (R178, R179). -/
def execBoostDecision (bank : Fin 4) (us : Fin 50) (flow : RailIn) (drawn : List F32) (s : State) : Out :=
  let b := bank.val
  let rail := railVolt (railAt s b us flow)
  let s := showRail b rail s
  if bankRefuses s b then .next (refuseBank b us (eFree s b rail drawn) s)
  else
    let r := boostServe b us rail drawn s
    .next (showFree b (eFree r.2.2 b rail r.1) r.2.2)

/-- A request not served within DEFER_WIN × 0.1 ms of its T is REFUSED (R179). -/
def execBoostRequestRefused (n : Fin 16) (us : Fin 50) (flow : RailIn) (drawn : List F32) (s : State) : Out :=
  let b := bankOf n
  if (s.vlv n).wait.isNone ∨ boostWaited s n us < deferUs s n then .next s
  else .next (refuseBoost us (eFree s b (railVolt (railAt s b us flow)) drawn) n s)

/-! ## Phases (R180–R184) -/

/-- Time to peak is recorded and checked against its window; 0x4003 comes once in a profile (R183). -/
def recordTpk (n t : Nat) (s : State) : State :=
  let x := s.vlv n
  let s := (s.setVlv n { x with peaked := true }).put (fVLV_CH_TPK_TPK n) (min t 65535)
  let f := if t < pTpkMin x then 1 else if pTpkMax x < t then 2 else 0
  if f = 0 ∨ x.late = true then s
  else vlvFault n 0x4003 ((s.putBit fVLV_EVT_TPK true).evMax 0x4003 n f (f16OfNat t))

/-- BOOST ends at I_PEAK or at T_BOOST: the reservation ends; PEAK follows, or HOLD when T_PEAK is 0. -/
def execBoostEnd (n : Fin 16) (us : Fin 50) (reached : Bool) (flow : RailIn) (s : State) : Out :=
  let x := s.vlv n
  let rail := railVolt (railAt s (bankOf n) us flow)
  let t := usAt s us - x.boostAt
  if vlvPhase s n != 2 || (!reached && decide (t < pTBoost x)) then .next s
  else
    let s := s.setVlv n { x with eRes := 0#32, boostEnd := usAt s us }
    let s := if pTPeak x = 0 then setPhase n 4 (switchOff n (pOffPeak x) rail s) else setPhase n 3 s
    .next (if reached then recordTpk n t s else s)

/-- T_PEAK after the end of BOOST the current falls to I_HOLD with OFF_PEAK (R181, R182). -/
def execPeakEnd (n : Fin 16) (us : Fin 50) (flow : RailIn) (s : State) : Out :=
  let x := s.vlv n
  let rail := railVolt (railAt s (bankOf n) us flow)
  if vlvPhase s n != 3 || decide (usAt s us < x.boostEnd + pTPeak x) then .next s
  else .next (setPhase n 4 (switchOff n (pOffPeak x) rail s))

/-- I_PEAK is reached from VBAT_OUT in PEAK, and time to peak is recorded then (R181, R183). -/
def execPeakReachedLate (n : Fin 16) (us : Fin 50) (s : State) : Out :=
  let x := s.vlv n
  if vlvPhase s n != 3 || x.peaked then .next s
  else .next (recordTpk n (usAt s us - x.boostAt) s)

/-- I_PEAK is not reached within 2 × TPK_MAX (R183). -/
def execPeakNotReached (n : Fin 16) (us : Fin 50) (s : State) : Out :=
  let x := s.vlv n
  let p := vlvPhase s n
  if p < 2 || 4 < p || x.peaked || x.late || decide (usAt s us < x.boostAt + 2 * pTpkMax x) then .next s
  else
    let s := s.setVlv n { x with late := true }
    .next (vlvFault n 0x4003 ((s.putBit fVLV_EVT_TPK true).ev 0x4003 n 3))

/-- The kink in HOLD gives the motion time (R184). -/
def execMotionKink (n : Fin 16) (time : Nat) (s : State) : Out :=
  let x := s.vlv n
  if vlvPhase s n != 4 || !x.motWait || time < pMotMin x || pMotMax x < time then .next s
  else .next ((s.setVlv n { x with motWait := false }).put (fVLV_CH_MOT n) (min time 65535))

/-- No kink between MOT_MIN and MOT_MAX (R184). -/
def execMotionTimeout (n : Fin 16) (us : Fin 50) (s : State) : Out :=
  let x := s.vlv n
  let p := vlvPhase s n
  if p < 2 || 4 < p || !x.motWait || decide (usAt s us < x.boostAt + pMotMax x) then .next s
  else
    let s := (s.setVlv n { x with motWait := false }).put (fVLV_CH_MOT n) 0xFFFF
    .next (vlvFault n 0x4004 (s.ev 0x4004 n))

/-! ## Faults (R185, R187) -/

/-- Open load, at the end of BOOST with I_PEAK of 1 A or more, or by the off-state test current. -/
def execVlvOpenLoad (n : Fin 16) (offTest : Bool) (meas : F32) (s : State) : Out :=
  let p := vlvPhase s n
  let seen := if offTest then s.bit (fVLV_CH_MODE_OL_TEST n) && (p == 0 || p == 7) && f32Lt (f32OfNat 20) meas
    else (p == 2 || p == 3) && decide (20 ≤ pIPeak (s.vlv n)) && f32Lt meas (f32OfRatio false 3 10)
  if !seen then .next s
  else .next (vlvFault n 0x4005 (vlvOff n (s.ev 0x4005 n (if offTest then 2 else 1))))

/-- A switch current above 15 A: both switches open with FAST. -/
def execVlvOvercurrent (n : Fin 16) (peak : F32) (s : State) : Out :=
  if !f32Lt (f32OfNat 15) peak then .next s
  else .next (vlvFault n 0x4006 (vlvOff n (s.evMax 0x4006 n 0 (f16OfF32 peak))))

/-- HOLD current below 0.9 × I_HOLD for 1 ms: the profile continues. -/
def execHoldCurrentLow (n : Fin 16) (current : F32) (s : State) : Out :=
  let x := s.vlv n
  if vlvPhase s n != 4 || decide (x.lowTicks < 20) then .next s
  else .next (vlvFault n 0x4007 ((s.setVlv n { x with lowTicks := 0 }).evx 0x4007 n 0 (f16OfF32 current) f16NaN))

/-- The rail is below 0.5 × V_BOOST for 10 ms with no reservation entered: every request of the bank is REFUSED. -/
def execBoostConverterFailure (bank : Fin 4) (s : State) : Out :=
  let b := bank.val
  let rail := s.get (fVLV_BANK_RAIL_V_RAIL b)
  if s.dies.failed.contains b || decide ((s.rail b).low < 200) then .next s
  else
    let s := { s with dies := { s.dies with failed := b :: s.dies.failed } }
    .next (refuseBank b 0 (eFree s b rail []) (s.evx 0x4009 b 0 (f16OfRatio false rail 100) f16NaN))

/-- The rail has been ready for 10 ms (R187). -/
def execBoostFailureCleared (bank : Fin 4) (s : State) : Out :=
  if 200 ≤ (s.rail bank).ready then
    .next { s with dies := { s.dies with failed := s.dies.failed.filter fun b => b != bank.val } }
  else .next s

/-- Junction above 175 °C: all channels and the converter of the die go off. -/
def execVlvDieOvertemp (n : Fin 16) (junction : F32) (s : State) : Out :=
  let b := bankOf n
  if !f32Lt (f32OfNat 175) junction || vlvHot s n then .next s
  else
    let s := (s.setBitAt fVLV_STATUS_HOT b true).evMax 0x400A n 0 (f16OfF32 junction)
    .next (forUp 4 (fun i t => showCode (4 * b + i) 0x400A (vlvOff (4 * b + i) t)) s)

/-- Junction below 150 °C: each channel restarts at its first new command from here. -/
def execVlvDieCooled (bank : Fin 4) (junction : F32) (s : State) : Out :=
  if f32Lt junction (f32OfNat 150) then .next (s.setBitAt fVLV_STATUS_HOT bank false) else .next s

/-- A mean current of a tick, in mA, outside ±(5 % + 50 mA) of the command (R185). -/
def propOut (x : VlvCh) (mean : Nat) : Bool :=
  let c := propVal x.cmd
  let lim := f32Add (f32Mul (f32OfRatio false 5 100) c) (f32OfRatio false 50 1000)
  !f32Le (f32Abs (f32Sub (f32OfRatio false mean 1000) c)) lim

/-- The mean current has been out of tolerance for 400 consecutive ticks; the count begins again (R185). -/
def execPropCurrentFault (n : Fin 16) (s : State) : Out :=
  let x := s.vlv n
  let m := f16OfRatio false (s.get (fVLV_CH_I_I_MEAS n)) 1000
  if vlvPhase s n != 5 || decide (x.outTicks < 400) then .next s
  else .next (vlvFault n 0x400C ((s.setVlv n { x with outTicks := 0 }).evx 0x400C n 0 m m))

/-- A write of 1 to a bit of VLV_CLR releases that channel when it is LASTING (R187, R188). -/
def execVlvClr (req : Req) (bits : Word) (s : State) : Out :=
  if reqIsOem req then .next s
  else .next (forUp 16 (fun n t => if bits.getLsbD n then vlvRelease false n t else t) s)

/-- A bank's rail at T, from what it gained and lost in the past tick (R177, R187, R188). -/
def railTick (inp : TickIn) (b : Nat) (s : State) : State :=
  let e := railAt s b 50 (inp.rails.getD b ⟨0, 0⟩)
  let v := railVolt e
  let r := s.rail b
  let idle := (List.range 4).all fun i => vlvPhase s (4 * b + i) != 2
  let s := s.setRail b ⟨e, if railReady s b v then min 200 (r.ready + 1) else 0,
    if idle && decide (v < 50 * vBoost s b) && dieLive s b then min 200 (r.low + 1) else 0⟩
  let drawn := (List.range 4).map fun i => (inp.vlv.getD (4 * b + i) ⟨0, 0, 0#32⟩).drawn
  showFree b (eFree s b v drawn) (showRail b v s)

/-- The tick report of the valve dies (R186). -/
def vlvReport (inp : TickIn) (s : State) : State :=
  let s := forUp 4 (railTick inp) s
  let s := { s with dies := { s.dies with charge := chargeRate (inp.supply.getD 2 0#32) } }
  forUp 16 (fun n t =>
    let i := inp.vlv.getD n ⟨0, 0, 0#32⟩
    let x := t.vlv n
    let p := vlvPhase t n
    let t := t.put (fVLV_CH_I_I_MEAS n) (min 65535 i.mean)
    let out := if p = 5 ∧ propOut x i.mean = true then min 400 (x.outTicks + 1) else 0
    let low := if p = 4 ∧ 4 * i.top < 45 * pIHold x then min 20 (x.lowTicks + 1) else 0
    if out = x.outTicks ∧ low = x.lowTicks then t else t.setVlv n { x with outTicks := out, lowTicks := low }) s

end Sys2Proof.Machine
end

