-- ==== Sys2Proof/Machine/Switch.lean ====
section
/-!
DEFINITION. The protected load switches (R190–R207): the duty at T, the budget arbiter, current and temperature
protection, retry, and clamp-energy accounting. Currents, temperatures and energies the die measures are operands.
-/
namespace Sys2Proof.Machine

def State.psw (s : State) (n : Nat) : PswCh := tabGet (fun _ => PswCh.init) s.dies.psw n
def State.setPsw (s : State) (n : Nat) (x : PswCh) : State :=
  { s with dies := { s.dies with psw := tabSet (fun _ => PswCh.init) s.dies.psw n x } }

def pswState (s : State) (n : Nat) : Nat := s.get (fPSW_CH_STAT_STATE n)
def setPswState (n p : Nat) (s : State) : State := s.put (fPSW_CH_STAT_STATE n) p

def pswLasting (s : State) (n : Nat) : Bool := s.bitAt fPSW_STATUS n
def pswLocked (s : State) (n : Nat) : Bool := s.bitAt fPSW_LOCK n

/-- I_NOM, × 0.1 A. -/
def iNom (s : State) (n : Nat) : Nat := s.get (fPSW_CH_LIM_I_NOM n)

/-- The channel is switched on. -/
def pswOn (s : State) (n : Nat) : Bool := pswState s n == 2 || pswState s n == 3

/-! ## The registers of a die that follow its channels (R206) -/

def quadHot (s : State) (q : Nat) (p : Bool → Bool → Bool) (z : Bool) : Bool :=
  (List.range 4).foldl (fun b i => p b (s.psw (4 * q + i)).hot) z

/-- HOT and ARB_HOT of the channel's die. -/
def showHot (n : Nat) (s : State) : State :=
  let q := n / 4
  (s.putBit (fPSW_DIE_HOT q) (quadHot s q (· || ·) false)).putBit (fPSW_DIE_ARB_HOT q) (quadHot s q (· && ·) true)

/-! ## The budget (R194–R196) -/

/-- The budget limit in A for a case temperature in °C (R195, R504). -/
def budgetLimit (tc : F32) : Nat :=
  if f32Le tc (f32OfNat 88) then 90
  else if f32Lt (f32OfNat 108) tc then 0
  else (f32Floor (f32Sub (f32OfNat 90) (f32Mul (f32OfNat 2) (f32Sub tc (f32OfNat 88))))).toNat

/-- The reserved sum, × 0.1 A. -/
def reservedSum (s : State) : Nat :=
  ((List.range 32).map fun n => if (s.psw n).resv then iNom s n else 0).sum

def waitingCount (s : State) : Nat := ((List.range 32).filter fun n => (s.psw n).wait.isSome).length

/-- RESV and WAITING as they stand. -/
def showBudget (s : State) : State :=
  (s.put fPSW_BUDGET_RESV (min 65535 (reservedSum s))).put fPSW_BUDGET_WAITING (waitingCount s)

/-- The quad may act as arbiter: handshake complete, load supply present, and not off under overtemperature (R196). -/
def arbMay (s : State) (q : Nat) : Bool := dieLive s (4 + q) && !s.dies.loadOff && !s.bit (fPSW_DIE_ARB_HOT q)

/-- The lowest-numbered quad that may act, 8 when there is none. -/
def arbQuad (s : State) : Nat := ((List.range 8).find? fun q => arbMay s q).getD 8

/-- The quad that acts now, 8 when none does. -/
def arbNow (s : State) : Nat := if s.bit fPSW_ARB_VALID then s.get fPSW_ARB_QUAD else 8

/-- An arbiter takes over, or none is left, and 0x500E is recorded with the quad that acted last (R196, R207). -/
def execArbiterChange (s : State) : Out :=
  let q := arbQuad s
  let last := s.get fPSW_ARB_QUAD
  if q = arbNow s then .next s
  else
    let s := { s with dies := { s.dies with arbAt := some s.clk.tick } }
    let s := (if q = 8 then s else s.put fPSW_ARB_QUAD q).putBit fPSW_ARB_VALID (q != 8)
    .next (s.ev 0x500E last q)

def pswPer (s : State) (n : Nat) : Nat := s.get (fPSW_CH_CFG_PER n)

/-- T is a period start of the channel (R192). -/
def periodStart (s : State) (n : Nat) : Bool := s.clk.tick % pswPer s n == 0

/-- A request is served: the reservation is entered, and the channel switches on. Its inrush window opens at the first period
start from this T on, which its first rising edge is (R197). -/
def startSwitch (n : Nat) (s : State) : State :=
  let x := s.psw n
  let t0 := x.wait.getD s.clk.tick
  let s := s.setPsw n { x with wait := none, resv := true, ovr := 0, lowTicks := 0
                               inrAt := if periodStart s n then some s.clk.tick else none }
  let s := (setPswState n 2 s).add (fPSW_CH_CNT n) 1
  if t0 = s.clk.tick then s.put (fPSW_CH_STAT_OUTCOME n) 1
  else ((s.put (fPSW_CH_STAT_OUTCOME n) 2).inc fPSW_BUDGET_CNT_DEFERRED).evMax 0x5002 n 0
    (f16OfRatio false (s.clk.tick - t0) 20)

def switchQueue (s : State) (p : Nat) : List Nat :=
  (List.range 32).filter fun n => (s.psw n).wait.isSome && s.get (fPSW_CH_CFG_PRIO n) == p

/-- A request is REFUSED (R194). -/
def refuseSwitch (n : Nat) (s : State) : State :=
  let free : Int := 10 * s.get fPSW_BUDGET_LIMIT - reservedSum s
  let s := setPswState n 0 (s.setPsw n { s.psw n with wait := none })
  let s := (s.put (fPSW_CH_STAT_OUTCOME n) 3).inc fPSW_BUDGET_CNT_REFUSED
  (s.putBit fPSW_EVT_REFUSED true).evx 0x5001 n 0 (f16OfRatio (decide (free < 0)) free.natAbs 10) (f16OfRatio false (iNom s n) 10)

/-- The T at which a request's window ends. -/
def switchEnd (s : State) (n : Nat) : Nat := (s.psw n).wait.getD s.clk.tick + 20 * s.get (fPSW_CH_IND_DEFER_WIN n)

/-- One waiting request: it is served within its window where it fits, and REFUSED at the end of its window. The answer says
whether one was not served. -/
def switchOne (lim : Nat) (r : Bool × State) (n : Nat) : Bool × State :=
  let s := r.2
  if !dieLive s (4 + n / 4) then r
  else if s.clk.tick ≤ switchEnd s n ∧ reservedSum s + iNom s n ≤ 10 * lim then (r.1, startSwitch n s)
  else if switchEnd s n ≤ s.clk.tick then (true, refuseSwitch n s)
  else (true, s)

/-- The acting arbiter decides at T: by priority, an unserved request blocking the lower ones (R194). -/
def switchServe (lim : Nat) (s : State) : State :=
  ([3, 2, 1, 0].foldl (fun r p => if r.1 then r else (switchQueue r.2 p).foldl (switchOne lim) r) (false, s)).2

/-- The budget decision of this T. The limit follows SIG[161]; a value that is not VALID leaves it as it stands (log
entry 10). In the T of a change of arbiter nothing is decided (R196). -/
def execBudgetDecision (s : State) : Out :=
  let g := s.sig (topLane s) 161
  let lim := if g.valid && f32IsFinite g.val then budgetLimit g.val else s.get fPSW_BUDGET_LIMIT
  let s := s.put fPSW_BUDGET_LIMIT lim
  let s := if arbNow s < 8 ∧ arbMay s (arbNow s) = true ∧ s.dies.arbAt ≠ some s.clk.tick then switchServe lim s else s
  .next (showBudget s)

/-- A request not served within DEFER_WIN ms of its T is REFUSED (R194). -/
def execSwitchOnRefused (n : Fin 32) (s : State) : Out :=
  if (s.psw n).wait.isNone ∨ s.clk.tick < switchEnd s n then .next s else .next (showBudget (refuseSwitch n s))

/-! ## The duty at T (R191–R193) -/

/-- The duty a command value stands for, and the flags of 0x500C, 0 for none. -/
def dutyOf (onoff : Bool) (v : F32) : F32 × Nat :=
  if !f32IsFinite v || f32Lt v 0#32 then (0#32, 1)
  else if f32Lt f32One v then (f32One, 2)
  else if onoff && f32Lt 0#32 v && f32Lt v f32One then (f32One, 3)
  else (v, 0)

/-- The high time of a period in TICK cycles (R192). -/
def highTime (duty : F32) (per : Nat) : Nat :=
  let all := 20000 * per
  let h := min all (f32MulFloor duty all)
  let h := if 1 ≤ h ∧ h < 4000 then 4000 else h
  if h < all ∧ all < h + 4000 then all else h

/-- The waveform of a PWM generator: the cycles from T on for which it is high in a tick, every period being high from its start
(R192). -/
def pwmHigh (duty : F32) (per tick : Nat) : Nat := min 20000 (highTime duty per - 20000 * (tick % per))

/-- The waveform at the input pin in a tick: that of the selected lane, which computes it from the applied duty as the other lane
does, or the die's own under a policy (R192, R204). -/
def pinHigh (s : State) (n tick : Nat) : Nat := pwmHigh (s.psw n).act (pswPer s n) tick

/-- The level of the input pin at a cycle of the present tick. -/
def pinLevel (s : State) (n : Nat) : Bool := decide (s.clk.cycle < pinHigh s n s.clk.tick)

/-- The channel goes off: its request and its reservation end. -/
def pswStop (n p : Nat) (s : State) : State :=
  setPswState n p (s.setPsw n { s.psw n with wait := none, resv := false, inrAt := none, ovr := 0, lowTicks := 0 })

/-- Channel n acts on the command applied to it, at a T or, for a policy or a lane that takes over, between two. A duty of 0 acts
at once; another takes effect at a period start, at which the inrush window of a switch-on opens (R193, R197). A duty that rises
from 0, or that stands at the T after a release, makes a request (R194, R200). -/
def pswAct (atT : Bool) (n : Nat) (s : State) : State :=
  let x := s.psw n
  let v := (stageCmd s (0x10 + n)).getD 0#32
  let d := dutyOf (s.bit (fPSW_CH_CFG_ONOFF n)) v
  let s := if v != x.cmd && d.2 != 0 then s.ev 0x500C n d.2 else s
  let s := s.setPsw n { x with cmd := v, duty := d.1, again := if !atT then x.again else if x.again = 1 then 2 else 0 }
  let st := pswState s n
  let held := pswLasting s n || pswLocked s n
  if f32IsZero d.1 then
    let s := if held then s.setPsw n { s.psw n with resv := false } else pswStop n 0 s
    showHot n (s.setPsw n { s.psw n with act := 0#32, hot := held && x.hot, again := 0 })
  else
    let s := if (f32IsZero x.duty || (atT && x.again == 2)) && !held && st == 0 then
        setPswState n 1 (s.setPsw n { s.psw n with wait := some s.clk.tick })
      else s
    if atT && periodStart s n then
      s.setPsw n { s.psw n with act := d.1
                                inrAt := if pswState s n = 2 ∧ (s.psw n).inrAt.isNone then some s.clk.tick
                                  else (s.psw n).inrAt }
    else s

/-- Channel n at T. -/
def pswTick (n : Nat) (s : State) : State := pswAct true n s

/-- Readback agrees with the command (R203): `i` is the mean current in mA and `pin` the cycles for which the pin was high in the
past tick, whose number is that before the present one. -/
def pswAgrees (s : State) (n i pin : Nat) : Bool :=
  let st := pswState s n
  if f32IsZero (s.psw n).duty then st == 0 && decide (i < 20)
  else decide (1 ≤ st) && decide (st ≤ 3) && pin == pinHigh s n (s.clk.tick - 1)

/-- INR_WIN after the window opened the ceiling falls to 1.25 × I_NOM (R197). -/
def execInrushEnd (n : Fin 32) (s : State) : Out :=
  match (s.psw n).inrAt with
  | some t =>
    if pswState s n = 2 ∧ t + 20 * s.get (fPSW_CH_LIM_INR_WIN n) ≤ s.clk.tick then .next (setPswState n 3 s) else .next s
  | none => .next s

/-! ## Faults, retry and release (R198, R200) -/

/-- A fault event switches the channel off: it waits RETRY ms for its retry, or is LASTING. -/
def pswFault (n code : Nat) (s : State) : State :=
  let x := s.psw n
  let r := windowAdd s x.faults (s.get (fPSW_CH_CFG_KCNT n)) (s.get (fPSW_CH_CFG_W n))
  let s := s.setPsw n { x with faults := r.1, inrAt := none, ovr := 0, lowTicks := 0
                               retryAt := s.clk.tick + 20 * s.get (fPSW_CH_IND_RETRY n) + 1 }
  let s := ((s.put (fPSW_CH_STAT_FAULT n) (code % 16)).putBit (fPSW_CH_STAT_CLASS n) r.2.2).putBit fPSW_EVT_FAULT true
  if r.2.2 then
    let s := pswStop n 5 s
    let s := (s.setBitAt fPSW_STATUS n true).putBit fPSW_EVT_LASTING true
    showBudget (noteLasting 0x500B (s.evMax 0x500B n 0 (f16OfNat r.2.1)))
  else setPswState n 4 s

/-- The absolute limit of the channel's class, A (R190). -/
def absLimit (n : Nat) : Nat := if n < 24 then 25 else 70

/-- Current above min(5 × I_NOM, the absolute limit) (R190, R198). -/
def execPswShort (n : Fin 32) (peak : F32) (s : State) : Out :=
  let five := 5 * iNom s n
  let abs := 10 * absLimit n
  if !pswOn s n || !f32Above peak (min five abs) 10 then .next s
  else .next (pswFault n 0x5003 (s.evMax 0x5003 n (if five ≤ abs then 1 else 2) (f16OfF32 peak)))

/-- The overload ceiling of R197 in mA: INR_MULT × I_NOM inside the window, 1.25 × I_NOM outside it. -/
def overCeil (s : State) (n : Nat) : Nat :=
  if pswState s n = 2 then 25 * s.get (fPSW_CH_LIM_INR_MULT n) * iNom s n else 125 * iNom s n

/-- Current above the ceiling of R197 for the overload time, 1 ms inside the window and 10 ms outside it, of time with the pin
high (R198). -/
def execPswOverload (n : Fin 32) (current : F32) (ovr : Nat) (again : Bool) (s : State) : Out :=
  let inside := pswState s n == 2
  let time := if again then ovr else (s.psw n).ovr + ovr
  if !pswOn s n || !f32Above current (overCeil s n) 1000 || decide (time < if inside then 400000 else 4000000) then .next s
  else .next (pswFault n 0x5004 (s.evMax 0x5004 n (if inside then 1 else 2) (f16OfF32 current)))

/-- Junction minus die case temperature above DT_LIM. -/
def execDtLimit (n : Fin 32) (caseT dt : F32) (s : State) : Out :=
  if !pswOn s n || !f32Lt (f32OfNat (s.get (fPSW_CH_LIM_DT_LIM n))) dt then .next s
  else .next (pswFault n 0x5005 (s.evx 0x5005 n 0 (f16OfF32 caseT) (f16OfF32 dt)))

/-- Junction above 175 °C. -/
def execJunctionOvertemp (n : Fin 32) (junction : F32) (s : State) : Out :=
  if !pswOn s n || !f32Lt (f32OfNat 175) junction then .next s
  else
    let s := pswFault n 0x5006 (s.evMax 0x5006 n 0 (f16OfF32 junction))
    .next (showHot n (s.setPsw n { s.psw n with hot := true }))

/-- The channel is continuously on. -/
def pswSolid (s : State) (n : Nat) : Bool := pswOn s n && highTime (s.psw n).act (pswPer s n) == 20000 * pswPer s n

/-- An open load leaves the channel as it is: more than 20 kΩ in the off state with OL_TEST, or continuously on and below 50 mA
for 10 ms. -/
def execPswOpenLoad (n : Fin 32) (onState : Bool) (meas : F32) (s : State) : Out :=
  let seen := if onState then pswSolid s n && decide (200 ≤ (s.psw n).lowTicks)
    else s.bit (fPSW_CH_CFG_OL_TEST n) && pswState s n == 0 && f32Lt (f32OfNat 20) meas
  if !seen then .next s
  else .next (((s.putBit (fPSW_CH_STAT_OPEN n) true).putBit fPSW_EVT_OPEN true).ev 0x500A n (if onState then 2 else 1))

/-- The die's case rose by more than 5 K in 1 s; RISE shows the rise in every tick. -/
def execCaseRise (q : Fin 8) (start stop : F32) (s : State) : Out :=
  if !f32Lt (f32OfNat 5) (f32Sub stop start) then .next s
  else .next ((s.putBit fPSW_EVT_CASE_RISE true).evx 0x500D q 0 (f16OfF32 start) (f16OfF32 stop))

/-- The release condition of the last fault (R198). -/
def retryRelease (s : State) (n : Nat) (dt junction : F32) : Bool :=
  match s.get (fPSW_CH_STAT_FAULT n) with
  | 5 => f32Lt dt (f32OfInt (s.get (fPSW_CH_LIM_DT_LIM n) - 15))
  | 6 => f32Lt junction (f32OfNat 150)
  | _ => true

/-- After RETRY ms and the release condition the channel switches on at a period start, with a new window (R200). -/
def execPswRetry (n : Fin 32) (dt junction : F32) (s : State) : Out :=
  let x := s.psw n
  if pswState s n = 4 ∧ x.retryAt ≤ s.clk.tick ∧ periodStart s n = true ∧ f32IsZero x.duty = false
      ∧ retryRelease s n dt junction = true then
    let s := s.setPsw n { x with act := x.duty, inrAt := some s.clk.tick, hot := false, ovr := 0, lowTicks := 0 }
    .next (showHot n ((setPswState n 2 s).add (fPSW_CH_CNT n) 1))
  else .next s

/-- A release of a LASTING channel; a clamp lock stays (R200, R201). From the next T a duty above 0 is a request; `here` is a
release at the T that is under way. -/
def pswRelease (here : Bool) (n : Nat) (s : State) : State :=
  if !pswLasting s n then s
  else
    let s := (s.setBitAt fPSW_STATUS n false).setPsw n
      { s.psw n with faults := [], hot := false, again := if here then 1 else 2 }
    showHot n (if pswLocked s n then s else setPswState n 0 s)

/-- The fault window of a channel that is not LASTING ends with a reset of reach WARM or wider too (R200, log entry 129). -/
def pswClearWin (n : Nat) (s : State) : State := s.setPsw n { s.psw n with faults := [] }

def execPswClr (req : Req) (bits : Word) (s : State) : Out :=
  if reqIsOem req then .next s
  else .next (forUp 32 (fun n t => if bits.getLsbD n then pswRelease false n t else t) s)

/-! ## Clamp energy (R199, R201) -/

/-- The pulses of the last 10 s and their sum in the register, × 0.1 mJ. -/
def showClamp (n : Nat) (s : State) : State :=
  let ps := (s.psw n).pulses.filter fun p => decide (s.clk.tick < p.1 + 200000)
  (s.setPsw n { s.psw n with pulses := ps }).put (fPSW_CH_CLAMP_SUM n) (min 65535 (ps.map Prod.snd).sum)

/-- A clamp pulse: above 120 mJ alone, or 600 mJ in 10 s, locks the channel. -/
def execClampPulse (n : Fin 32) (energy : Nat) (s : State) : Out :=
  let s := s.setPsw n { s.psw n with pulses := (s.clk.tick, energy) :: (s.psw n).pulses }
  let s := (showClamp n s).put (fPSW_CH_CLAMP_LAST n) (min 65535 energy)
  let sum := ((s.psw n).pulses.map Prod.snd).sum
  let s := if 1200 < energy then s.evMax 0x5007 n 0 (f16OfRatio false energy 10) else s
  if (1200 < energy ∨ 6000 ≤ sum) ∧ pswLocked s n = false then
    let s := pswStop n 6 s
    let s := (s.setPsw n { s.psw n with lockAt := s.clk.tick }).setBitAt fPSW_LOCK n true
    .next (showBudget ((s.putBit fPSW_EVT_CLAMP_LOCK true).evMax 0x5008 n 0 (f16OfRatio false sum 10)))
  else .next s

/-- The lock ends at the first T at least 10 s after it at which the duty is 0. -/
def execClampLockRelease (n : Fin 32) (s : State) : Out :=
  let x := s.psw n
  if pswLocked s n = true ∧ x.lockAt + 200000 ≤ s.clk.tick ∧ f32IsZero x.duty = true then
    let s := (s.setBitAt fPSW_LOCK n false).ev 0x5009 n
    let s := setPswState n (if pswLasting s n then 5 else 0) s
    .next (if pswLasting s n then s else showHot n (s.setPsw n { s.psw n with hot := false }))
  else .next s

/-- The tick report of the switch dies (R203). -/
def pswReport (inp : TickIn) (s : State) : State :=
  let s := forUp 32 (fun n t =>
    let i := inp.psw.getD n ⟨0, 0, 0, 0, 0, false⟩
    let x := t.psw n
    let t := (t.put (fPSW_CH_MEAS_I_MEAS n) (min 65535 i.mean)).put (fPSW_CH_MEAS_DT n) (min 255 i.dt)
    let ovr := if !pswOn t n then 0 else if i.again then i.ovr else x.ovr + i.ovr
    let low := if pswSolid t n && decide (i.top < 50) then min 200 (x.lowTicks + 1) else 0
    let t := if ovr = x.ovr ∧ low = x.lowTicks then t else t.setPsw n { x with ovr := ovr, lowTicks := low }
    if (t.psw n).pulses.isEmpty then t else showClamp n t) s
  forUp 8 (fun q t =>
    let c := inp.cases.getD q ⟨0, 0⟩
    (t.put (fPSW_DIE_CASE q) (toField 12 c.temp)).put (fPSW_DIE_RISE q) (min 4095 c.rise)) s

end Sys2Proof.Machine
end

