-- ==== Sys2Proof/Machine/CfgMap.lean ====
section
/-!
DEFINITION. Where the configuration lives (R380): the register bits an image fills, and for each item of a transaction
the words its record consists of, in their order.
-/
namespace Sys2Proof.Machine

/-- Registers that the image fills: address, stride, count, and the mask of the bits it fills (R6, R380). -/
def imgRegs0 : List (Nat × Nat × Nat × Nat) := [
  (0x40000000, 0x0, 1, 0xC), (0x40020028, 0x0, 1, 0xFFFF), (0x40040010, 0x0, 1, 0x3FFFFF), (0x40050010, 0x0, 1, 0x3FFFFF),
  (0x4006000C, 0x0, 1, 0x1FFFF), (0x40060100, 0x4, 48, 0xFFFF), (0x40060200, 0x4, 48, 0xFFFFFFFF),
  (0x40070010, 0x10, 4, 0x7F), (0x40070100, 0x40, 16, 0xFFF), (0x40070104, 0x40, 16, 0x7FFFFFF),
  (0x40070108, 0x40, 16, 0xFFFFFF), (0x4007010C, 0x40, 16, 0x3FFFFFF), (0x40070110, 0x40, 16, 0xFFFFFFFF),
  (0x40070114, 0x40, 16, 0xFFFFFFFF), (0x40080100, 0x20, 32, 0xFFFF7FF), (0x40080104, 0x20, 32, 0x7FFFFFF),
  (0x40080108, 0x20, 32, 0xFFFFFFFF), (0x4009000C, 0x0, 1, 0x7FFFFF), (0x40090010, 0x4, 2, 0x3),
  (0x40090018, 0x0, 1, 0xFFFFFFFF), (0x40090020, 0x0, 1, 0x1FFF), (0x40090024, 0x0, 1, 0x3FF),
  (0x40090030, 0x0, 1, 0x1FFFFFFF), (0x400A0008, 0x1000, 6, 0xFFFFFFFF), (0x400A000C, 0x1000, 6, 0xFFFFFFFF),
  (0x400A0010, 0x1000, 6, 0xFFFFFFFF), (0x400A0100, 0x1000, 6, 0x3FFFFF), (0x400A0104, 0x1000, 6, 0xFFF),
  (0x400A0108, 0x1000, 6, 0xFFF), (0x400A010C, 0x1000, 6, 0xFFF), (0x400A0110, 0x1000, 6, 0xFFF),
  (0x400A0114, 0x1000, 6, 0x1FFF), (0x400A0118, 0x1000, 6, 0x1)]

/-- More of them. -/
def imgRegs1 : List (Nat × Nat × Nat × Nat) := [
  (0x400A011C, 0x1000, 6, 0xF), (0x400A0120, 0x1000, 6, 0x3), (0x400A0124, 0x1000, 6, 0x1),
  (0x400A0128, 0x1000, 6, 0x7F7F7F7F), (0x400B000C, 0x0, 1, 0x3FFFFFF), (0x400B0010, 0x0, 1, 0xFFFFFFFF),
  (0x400C000C, 0x0, 1, 0x7FFFFFF), (0x400C0010, 0x0, 1, 0xFFFF), (0x400C0014, 0x0, 1, 0xFFFFFFFF),
  (0x400C0018, 0x0, 1, 0xFFFFFFFF), (0x400C001C, 0x0, 1, 0xFFFFFFFF), (0x400C0044, 0x0, 1, 0xFFFFFFFF),
  (0x400C0048, 0x0, 1, 0xFFFFFFFF), (0x400C004C, 0x0, 1, 0xFFFFFFFF), (0x400D0100, 0x40, 6, 0x7FFFFFFF),
  (0x400D0104, 0x40, 6, 0x1FFFFFF), (0x400D0108, 0x40, 2, 0x3FFFFFFF), (0x400D010C, 0x40, 6, 0x1FFFFFFF),
  (0x400D0400, 0x10, 16, 0x1FFFFF), (0x400D0404, 0x10, 16, 0xFFFFFFFF), (0x400E000C, 0x0, 1, 0xFFFFFFFF),
  (0x400E0100, 0x40, 10, 0x3F), (0x400E010C, 0x40, 10, 0xFFFFFFFF), (0x400F000C, 0x0, 1, 0xFFFF),
  (0x400F0024, 0x0, 1, 0x3FFFFFFF), (0x4013000C, 0x0, 1, 0xFFFFFFFF), (0x40160100, 0x40, 4, 0x7FFF),
  (0x40160104, 0x40, 4, 0x3FFFFFFF), (0x40160108, 0x40, 4, 0xFFFFFFFF), (0x40160128, 0x40, 4, 0xFFFFFFFF),
  (0x4016012C, 0x40, 4, 0xFFFFFFFF), (0x40160130, 0x40, 4, 0xFFFFFFFF)]

/-- The rest. -/
def imgRegs2 : List (Nat × Nat × Nat × Nat) := [
  (0x40160134, 0x40, 4, 0xFFFFFFFF), (0x4017002C, 0x0, 1, 0xFFFFFFFF), (0x40170030, 0x4, 7, 0xFFFFFFFF),
  (0x4017004C, 0x0, 1, 0xFFFFFFFF), (0x40170050, 0x0, 1, 0xF), (0x40170100, 0x40, 8, 0xFF1F),
  (0x40170104, 0x40, 8, 0xFFFFFFFF), (0x40170108, 0x40, 8, 0xFFFFFFFF), (0x4017010C, 0x40, 8, 0xFFFFFFFF),
  (0x40180008, 0x0, 1, 0x3FFFFFFF), (0x40180024, 0x0, 1, 0x3F3F3F3F), (0x40180028, 0x0, 1, 0xFFFFFFFF),
  (0x4018002C, 0x0, 1, 0xFFFFFFFF), (0x40180030, 0x0, 1, 0xFFFFFFFF), (0x40180034, 0x0, 1, 0xFFFFFFFF),
  (0x40180100, 0x4, 48, 0xFFFFFF), (0x40180300, 0x4, 16, 0xFFFFFFFF), (0x40180500, 0x4, 4, 0x1F),
  (0x40180510, 0x4, 4, 0xFFFFFFFF), (0x40180520, 0x4, 4, 0xFFFFFFFF), (0x40180540, 0x4, 4, 0xFFFFFF7F),
  (0x40181000, 0x40, 30, 0x3F), (0x40181004, 0x40, 30, 0xFFFFFFFF), (0x40181008, 0x40, 30, 0xFFFFFFFF),
  (0x4018100C, 0x40, 30, 0x3FF), (0x40181010, 0x40, 30, 0xFFFFFFFF), (0x40181014, 0x40, 30, 0xFFFFFFFF),
  (0x40181018, 0x40, 30, 0xFFFFFFFF), (0x4018101C, 0x40, 30, 0xFFFFFFFF), (0x40181020, 0x40, 30, 0xFFFFFFFF),
  (0x40181024, 0x40, 30, 0xFFFFFFFF)]

/-- Whether address `a` is register `i` of a row. -/
def imgRow (a : Nat) (r : Nat × Nat × Nat × Nat) : Bool :=
  decide (r.1 ≤ a) && (if r.2.1 = 0 then a == r.1 else (a - r.1) % r.2.1 == 0 && decide ((a - r.1) / r.2.1 < r.2.2.1))

/-- The bits of a register that the image fills. -/
def imgMask (a : Nat) : Nat := ((imgRegs0 ++ imgRegs1 ++ imgRegs2).find? (imgRow a)).elim 0 fun r => r.2.2.2

/-- Writes the configuration bits of a register and keeps the others. -/
def wrImage (a : Nat) (w : Word) (s : State) : State :=
  let m := BitVec.ofNat 32 (imgMask a)
  s.wr a ((s.rd a &&& ~~~m) ||| (w &&& m))

/-! ## Items (R380) -/

/-- A word of an item's record: a register, of which the bits of `only` may come from the image alone; a word of both
lanes' SRAM, of which `keep` holds the bits that are no configuration; the shadow set of a pipeline; a sensor mount;
the unloading item; a preset of a crop entry; the field identity; a word no register shows; or a word that holds state
or a LIMITS field. -/
inductive CfgSlot where
  | reg (a : Nat) (only : Nat := 0)
  | lane (off : Nat) (keep : Nat := 0)
  | shadow (n k : Nat)
  | mount (n k : Nat)
  | unl (k : Nat)
  | crop (n j : Nat)
  | field
  | raw (key : Nat)
  | state
  deriving DecidableEq, Repr

/-- An item code: its region, the number of its indices, and the bytes of its record (R380). -/
def itemInfo (code : Nat) : Option (Nat × Nat × Nat) := match code with
  | 0x0100 => some (0, 30, 64) | 0x0101 => some (0, 48, 4) | 0x0102 => some (0, 16, 4) | 0x0103 => some (0, 4, 12)
  | 0x0104 => some (0, 4, 4) | 0x0105 => some (0, 1, 80) | 0x0106 => some (0, 4, 28)
  | 0x0200 => some (1, 96, 128) | 0x0201 => some (1, 96, 40) | 0x0202 => some (1, 1, 4096)
  | 0x0300 => some (2, 4, 4) | 0x0301 => some (2, 16, 24) | 0x0302 => some (2, 32, 12) | 0x0303 => some (2, 48, 8)
  | 0x0400 => some (3, 6, 12) | 0x0401 => some (3, 6, 44) | 0x0402 => some (3, 6, 36) | 0x0403 => some (3, 1, 256)
  | 0x0500 => some (4, 11, 20) | 0x0501 => some (4, 1, 8) | 0x0502 => some (4, 1, 64)
  | 0x0600 => some (5, 1, 32) | 0x0601 => some (5, 1, 320)
  | 0x0700 => some (6, 6, 16) | 0x0701 => some (6, 256, 32) | 0x0702 => some (6, 32, 80) | 0x0703 => some (6, 16, 8)
  | 0x0704 => some (6, 4, 64) | 0x0705 => some (6, 1, 512)
  | 0x0800 => some (7, 30, 8) | 0x0801 => some (7, 30, 4) | 0x0802 => some (7, 1, 4)
  | 0x0900 => some (8, 1, 36) | 0x0901 => some (8, 8, 16) | 0x0902 => some (8, 16, 32) | 0x0903 => some (8, 1, 4)
  | _ => none

/-- `n` registers from `a` on, as slots. -/
def regRun (a n : Nat) : List CfgSlot := (List.range n).map fun k => .reg (a + 4 * k)

/-- The words of a channel record that an item reaches: the configuration words, and those among the derived and state
words that stand in between (R91, R116). -/
def recSlot (n k : Nat) : CfgSlot :=
  let off := 0x3000 + 0x80 * n + 4 * k
  if k < 16 ∨ k = 27 ∨ k = 28 ∨ k = 30 then .lane off else if k = 26 then .lane off 0xFFFF else .state

/-- The words of item `code`, index `i` (R380); none for the items whose layout the spec leaves open. -/
def itemSlots (code i : Nat) : List CfgSlot := match code with
  | 0x0100 =>
    let a := (fFUN_REC_CTL_EN i).addr
    [.reg a 0x2E, .reg (a + 4), .reg (a + 8), .reg (a + 0xC), .reg (a + 0x10) 0xFFFFFFFF, .reg (a + 0x14) 0xFFFFFFFF,
     .state, .state, .state, .reg (a + 0x24)] ++ List.replicate 6 .state
  | 0x0101 => [.reg (fFUN_UIN_CFG_MODE i).addr]
  | 0x0102 => [.reg (fFUN_LOSS_CFG_EN i).addr]
  | 0x0103 => [.reg (fFUN_GRP_EN i).addr, .reg (fFUN_GRP_KMASS i).addr, .reg (fFUN_GRP_COVER i).addr]
  | 0x0104 => [.reg (fFUN_ANG_EN i).addr]
  | 0x0106 => regRun (fATT_PORT_CFG_EN i).addr 3 ++ (List.range 4).map fun k => .reg (fATT_LIM i k).addr
  | 0x0200 => (List.range 32).map (recSlot i)
  | 0x0201 => (List.range 10).map fun k => .lane (0x4C000 + 0x40 * i + 4 * k)
  | 0x0202 => (List.range 1024).map fun k => .lane (0x6000 + 4 * k)
  | 0x0300 => [.reg (fVLV_BANK_CFG_V_BOOST i).addr]
  | 0x0301 => regRun (fVLV_CH_MODE_MODE i).addr 6
  | 0x0302 => regRun (fPSW_CH_CFG_PER i).addr 3
  | 0x0303 => [.reg (fCLM_POL_POLICY i).addr, .reg (fCLM_SAFE i).addr]
  | 0x0400 => regRun (fISP_PORT_CFG_EN i).addr 3
  | 0x0401 => (List.range 11).map (.shadow i)
  | 0x0402 => (List.range 9).map fun k => .raw (rawKey code i k)
  | 0x0403 => (List.range 64).map fun k => .raw (rawKey code i k)
  | 0x0500 => (List.range 5).map (.mount i)
  | 0x0501 => [.reg fFUS_CFG_LIDAR_DIV.addr, .reg fFUS_GUID_CFG_PREF.addr]
  | 0x0502 => (List.range 16).map .unl
  | 0x0600 => [.reg fMAP_CFG_CELL.addr, .field, .reg fMAP_ORG_LAT.addr, .reg fMAP_ORG_LON.addr, .reg fMAP_ORG_H.addr,
      .reg fMAP_SEASON_LO.addr, .reg fMAP_SEASON_HI.addr, .reg fMAP_CUTBAR_FWD.addr]
  | 0x0601 => (List.range 80).map fun k => .raw (rawKey code i k)
  | 0x0700 => regRun (fCAN_PORT_CFG_EN i).addr 4
  | 0x0703 => regRun (fCAN_TXS_CFG_MSG i).addr 2
  | 0x0800 => [.reg (fFUN_REC_OP_MIN i).addr, .reg (fFUN_REC_OP_MAX i).addr]
  | 0x0801 => [.reg (fFUN_REC_RATE i).addr]
  | 0x0802 => [.reg fCLK_HOLD_LIM_SEC.addr]
  | 0x0900 => regRun fSWG_FLOW_MIN.addr 9
  | 0x0901 => regRun (fSWG_FN_CFG_EN i).addr 4
  | 0x0902 => (List.range 8).map (.crop i)
  | 0x0903 => [.reg fSWG_CROP_CROP.addr]
  | _ => []

/-- Word `k` of a list that is one whole record. -/
def setAt (l : List Word) (n k : Nat) (w : Word) : List Word := ((List.range n).map fun j => l.getD j 0#32).set k w

def State.mountOf (s : State) (n : Nat) : List Word := ((s.fus.mounts.find? fun m => m.1 == n).map Prod.snd).getD []

/-- The word a slot holds. -/
def cfgRd (s : State) : CfgSlot → Word
  | .reg a _ => s.rd a
  | .lane off _ => s.rd32 off
  | .shadow n k => (s.pipe n).img.getD k 0#32
  | .mount n k => (s.mountOf n).getD k 0#32
  | .unl k => s.fus.unlItem.getD k 0#32
  | .crop n j => (s.swg.crops.getD n []).getD j 0#32
  | .field => BitVec.ofNat 32 ((s.map.newField.map Prod.fst).getD (s.get fMAP_FIELD_ID))
  | .raw key => tabGet (fun _ => 0#32) s.cfg.raw key
  | .state => 0#32

/-- Writes a slot: configuration bits only. -/
def cfgWr (sl : CfgSlot) (w : Word) (s : State) : State := match sl with
  | .reg a _ => wrImage a w s
  | .lane off keep =>
    let m := BitVec.ofNat 32 keep
    let v := (s.rd32 off &&& m) ||| (w &&& ~~~m)
    (s.wr32 off v).wr32 (laneBase 1 + off) ((s.rd32 (laneBase 1 + off) &&& m) ||| (w &&& ~~~m))
  | .shadow n k => s.setPipe n { s.pipe n with img := setAt (s.pipe n).img 11 k w }
  | .mount n k =>
    { s with fus := { s.fus with mounts := tabSet (fun _ => []) s.fus.mounts n (setAt (s.mountOf n) 5 k w) } }
  | .unl k => { s with fus := { s.fus with unlItem := setAt s.fus.unlItem 16 k w } }
  | .crop n j =>
    let cs := (List.range 16).map fun i => s.swg.crops.getD i []
    { s with swg := { s.swg with crops := cs.set n (setAt (cs.getD n []) 8 j w) } }
  | .field => if w.toNat % 65536 = s.get fMAP_FIELD_ID then s
    else { s with map := { s.map with newField := some (w.toNat % 65536, s.clk.tick) } }
  | .raw key => { s with cfg := { s.cfg with raw := tabSet (fun _ => 0#32) s.cfg.raw key w } }
  | .state => s

/-- A record with the bytes of an item in place. -/
def patchBytes (old new : List Byte) (off : Nat) : List Byte :=
  old.take off ++ new ++ old.drop (off + new.length)

/-- Words from bytes, little-endian. -/
def bytesWord (bs : List Byte) (k : Nat) : Word := BitVec.ofNat 32 (leNat ((bs.drop (4 * k)).take 4))

/-- The bytes of an item's record as it stands. -/
def itemBytes (s : State) (code i : Nat) : List Byte := (itemSlots code i).flatMap fun sl => wordBytes (cfgRd s sl)

/-- The nominal kernel that item 0x0601 holds, 160 taps in units of 1/65,535 (R290). -/
def nomKernel (s : State) : List F32 :=
  (List.range 160).map fun k =>
    f32OfRatio false (leNat ((itemBytes s 0x0601 0).drop (2 * k) |>.take 2)) 65535

/-- One item takes its place. -/
def applyItemVal (it : CfgItem) (s : State) : State := match it.val with
  | .bytes b =>
    let bs := patchBytes (itemBytes s it.code it.index) b it.offset
    let sl := itemSlots it.code it.index
    let s := forUp sl.length (fun k t =>
      if 4 * k + 4 ≤ it.offset ∨ it.offset + b.length ≤ 4 * k then t
      else cfgWr (sl.getD k .state) (bytesWord bs k) t) s
    if it.code = 0x0601 then { s with map := { s.map with nom := nomKernel s } } else s
  | .crop src flow cal =>
    let s := wrImage fFUN_CROP_SRC_FLOW.addr src s
    let s := ((s.putF fFUN_FLOW_K (flow.getD 0 0#32)).putF fFUN_FLOW_ZERO (flow.getD 1 0#32)).putF fFUN_FLOW_FS
      (flow.getD 2 0#32)
    let s := s.putF fFUN_CUT_W (flow.getD 3 0#32)
    { s with fn := { s.fn with cal := cal } }
  | .sigMap m =>
    { s with can := { s.can with maps := s.can.maps.filter (fun x => x.1 != 192 + it.index) ++ [(192 + it.index, m)] } }
  | .txMsg m =>
    { s with can := { s.can with msgs := s.can.msgs.filter (fun x => x.1 != it.index) ++ [(it.index, m)] } }
  | .ethPort cfg ip4 => wrImage (fETH_IP4 it.index).addr ip4 (wrImage (fETH_PORT_CFG_EN it.index).addr cfg s)
  | .fleet id roster alerts gga tls svc =>
    let s := wrImage fETH_SVC_PORT_TCP.addr svc s
    { s with eth := { s.eth with fleetId := id, roster := roster, alertList := alerts, gga := gga, tls := tls } }

def applyItems (items : List CfgItem) (s : State) : State := forAll items applyItemVal s

end Sys2Proof.Machine
end

