-- ==== Sys2Proof/Machine/Loop.lean ====
section
/-!
DEFINITION. The loop engine of a lane (R87–R114): channel records in lane SRAM, one computation of a channel with its
repetitive term, PID step, plausibility and supervision (R115–R131), destinations, panes, and the schedule proof.
-/
namespace Sys2Proof.Machine

/-! ## The channel record (R91, R92, R101, R116) and the supervision records (R117, R118) -/

def chAddr (l n : Nat) : Nat := laneBase l + 0x3000 + 0x80 * n
def supAddr (l n : Nat) : Nat := laneBase l + 0x4C000 + 0x40 * n
def winAddr (l n : Nat) : Nat := laneBase l + 0x4D800 + 0x20 * n
def repAddr (l n b : Nat) : Nat := laneBase l + 0x10000 + 0x800 * n + 4 * b
def lineAddr (l n i : Nat) : Nat := laneBase l + 0x40000 + 0x200 * n + 2 * i

/-- A binary32 word of a channel record at base address `a`. -/
def State.chF (s : State) (a off : Nat) : F32 := s.rd32 (a + off)
/-- A bit field of a channel record at base address `a`. -/
def chFld (a off hi lo : Nat) : Fld := ⟨a + off, hi, lo⟩

def cEN (a : Nat) : Fld := chFld a 0 0 0
def cK (a : Nat) : Fld := chFld a 0 3 1
def cPHASE (a : Nat) : Fld := chFld a 0 9 4
def cDMEAS (a : Nat) : Fld := chFld a 0 10 10
def cREP (a : Nat) : Fld := chFld a 0 11 11
def cPLAUS (a : Nat) : Fld := chFld a 0 12 12
def cDEST (a : Nat) : Fld := chFld a 0 14 13
def cINIT (a : Nat) : Fld := chFld a 0 15 15
def cBUMP (a : Nat) : Fld := chFld a 0 16 16
def cSP (a : Nat) : Fld := chFld a 4 9 0
def cFB (a : Nat) : Fld := chFld a 4 19 10
def cFF (a : Nat) : Fld := chFld a 4 29 20
def cDESTA (a : Nat) : Fld := chFld a 8 7 0
def cDESTB (a : Nat) : Fld := chFld a 8 15 8
def cAGE (a : Nat) : Fld := chFld a 8 31 16
def cFB2 (a : Nat) : Fld := chFld a 0xC 9 0
def tSTATE (a : Nat) : Fld := chFld a 0x64 1 0
def tSATHI (a : Nat) : Fld := chFld a 0x64 2 2
def tSATLO (a : Nat) : Fld := chFld a 0x64 3 3
def tRATE (a : Nat) : Fld := chFld a 0x64 4 4
def tINTHELD (a : Nat) : Fld := chFld a 0x64 5 5
def tSPHELD (a : Nat) : Fld := chFld a 0x64 6 6
def tFBABS (a : Nat) : Fld := chFld a 0x64 7 7
def tNONFIN (a : Nat) : Fld := chFld a 0x64 8 8
def tSEEDED (a : Nat) : Fld := chFld a 0x64 9 9
def tFBSEL (a : Nat) : Fld := chFld a 0x64 10 10
def tFFHELD (a : Nat) : Fld := chFld a 0x64 11 11
def tTICK16 (a : Nat) : Fld := chFld a 0x64 31 16
def lFFHOLD (a : Nat) : Fld := chFld a 0x68 15 0
def lSRC (a : Nat) : Fld := chFld a 0x68 17 16
def lLEAD (a : Nat) : Fld := chFld a 0x68 26 18
def lREV (a : Nat) : Fld := chFld a 0x74 7 0
def lBIN (a : Nat) : Fld := chFld a 0x74 16 8
def lFROZEN (a : Nat) : Fld := chFld a 0x74 17 17
def pDT (a : Nat) : Fld := chFld a 0x78 7 0
def pFALLBACK (a : Nat) : Fld := chFld a 0x78 8 8
def pKCNT (a : Nat) : Fld := chFld a 0x78 12 9
def pW (a : Nat) : Fld := chFld a 0x78 22 13
def pWARMUP (a : Nat) : Fld := chFld a 0x78 30 23
def uLEVEL (a : Nat) : Fld := chFld a 0x7C 1 0
def uPRIOK (a : Nat) : Fld := chFld a 0x7C 2 2
def uSECOK (a : Nat) : Fld := chFld a 0x7C 3 3
def uLASTING (a : Nat) : Fld := chFld a 0x7C 4 4
def uGOOD (a : Nat) : Fld := chFld a 0x7C 13 5
def uWP (a : Nat) : Fld := chFld a 0x7C 21 14

def State.mbit (s : State) (f : Fld) : Bool := s.mget f != 0
def State.mputBit (s : State) (f : Fld) (b : Bool) : State := s.mput f (if b then 1 else 0)

/-- LEA_DEG or LEB_DEG, one bit for each DEGRADED channel (R112). -/
def fLeDeg (l n : Nat) : Fld := ⟨(fLE_DEG l (n / 32)).addr, n % 32, n % 32⟩

/-! ## Derived words (R94) -/

/-- 2^k as binary32. -/
def pow2 (k : Nat) : F32 := BitVec.ofNat 32 ((127 + k) * 8388608)
def f32Two : F32 := 0x40000000#32

/-- The sample period of the record at `a`: 2^K × 50 µs. -/
def recH (s : State) (a : Nat) : F32 := f32Mul (pow2 (s.mget (cK a))) f32Tick

/-- Twice the time constant of the derivative filter. -/
def recTf2 (s : State) (a : Nat) : F32 :=
  f32Mul f32Two (if f32IsZero (s.chF a 0x18) then 0#32 else f32Div (s.chF a 0x18) (f32Mul (s.chF a 0x10) (s.chF a 0x24)))

/-- The pole of the derivative filter, 1 where KD = 0. -/
def recAd (s : State) (a : Nat) : F32 :=
  if f32IsZero (s.chF a 0x18) then f32One
  else f32Div (f32Sub (recTf2 s a) (recH s a)) (f32Add (recTf2 s a) (recH s a))

/-- The gain of the derivative filter, 0 where KD = 0. -/
def recBd (s : State) (a : Nat) : F32 :=
  if f32IsZero (s.chF a 0x18) then 0#32
  else f32Div (f32Mul f32Two (s.chF a 0x18)) (f32Add (recTf2 s a) (recH s a))

/-- The derived words of the record at address `a` (R94). -/
def deriveRec (a : Nat) (s : State) : State :=
  (((s.wr32 (a + 0x40) (recH s a)).wr32 (a + 0x44) (recAd s a)).wr32 (a + 0x48) (recBd s a)).wr32 (a + 0x4C)
    (f32Mul (s.chF a 0x38) (recH s a))

/-! ## Gather (R95) -/

/-- What a computation works on after the gather. -/
structure Gather where
  sp : F32
  y : F32
  ff : F32
  fbFirst : Bool

/-- The feedback entry of a source: 1 primary, 2 secondary (R95, R124). -/
def fbIdx (s : State) (a src : Nat) : Nat := if src = 1 then s.mget (cFB a) else s.mget (cFB2 a)
def fbSel (s : State) (a : Nat) : Nat := s.mget (tFBSEL a) + 1

/-- The gather; a setpoint that begins to be held sets `LEA_EVT.SP_HELD` and records 0x3004 (R95, R112, R114). -/
def gather (l n : Nat) (s : State) : Gather × State :=
  let a := chAddr l n
  let ageMax := s.mget (cAGE a)
  let spE := s.sig l (s.mget (cSP a))
  let was := s.mbit (tSPHELD a)
  let (sp, s) :=
    if sigUsable spE ageMax then (spE.val, (s.wr32 (a + 0x60) spE.val).mputBit (tSPHELD a) false)
    else
      let s' := s.mputBit (tSPHELD a) true
      (s.chF a 0x60, if was then s' else
        (s'.putBit (fLE_EVT_SP_HELD l) true).ev1 l 0x3004 n 0 (f16OfNat spE.age))
  let fbi := fbIdx s a (fbSel s a)
  let fbE := s.sig l fbi
  let (y, s) :=
    if fbi = 0x3FF then (0#32, s.mputBit (tFBABS a) false)
    else if sigUsable fbE ageMax then (fbE.val, s.mputBit (tFBABS a) false)
    else (0#32, s.mputBit (tFBABS a) true)
  let ffi := s.mget (cFF a)
  let ffE := s.sig l ffi
  let (ff, s) :=
    if ffi = 0x3FF then (0#32, s)
    else if sigUsable ffE ageMax then
      (ffE.val, (s.mput (lFFHOLD a) (f16OfF32 ffE.val).toNat).mputBit (tFFHELD a) false)
    else (f32OfF16 (BitVec.ofNat 16 (s.mget (lFFHOLD a))), s.mputBit (tFFHELD a) true)
  (⟨sp, y, ff, fbi != 0x3FF && fbE.first⟩, s)

/-! ## The repetitive term (R119–R121) -/

/-- The shaft speed of an angle source in rev/s (R119). -/
def shaftSpeed (s : State) (l src : Nat) : F32 :=
  let ppr := s.get (fFUN_ANG_PPR src)
  f32Div (s.sig l (2 * s.get (fFUN_ANG_PAIR src))).val
    (f32OfNat (if s.get (fFUN_ANG_KIND src) = 0 then 4 * ppr else ppr))

/-- The term and the bin it would write, kept back until the computation is known to be finite (R99, R120). -/
def repTerm (l n : Nat) (g : Gather) (s : State) : F32 × Option (Nat × F32) × State :=
  let a := chAddr l n
  if !s.mbit (cREP a) then (0#32, none, s)
  else
    let src := s.mget (lSRC a)
    let ang := s.sig l (48 + src)
    let ageMax := s.mget (cAGE a)
    let w := shaftSpeed s l src
    if !sigUsable ang ageMax || !sigUsable (s.sig l (2 * s.get (fFUN_ANG_PAIR src))) ageMax
        || !f32Le (s.rd32 (supAddr l n + 0x24)) w then
      (0#32, none, s.mputBit (lFROZEN a) true)
    else
      let b := (f32Floor (f32Mul ang.val 0x44000000#32)).toNat % 512
      let wrap := decide (b < 128) && decide (384 ≤ s.mget (lBIN a))
      let frz := s.mget (tSTATE a) != 1 || s.mget (uLEVEL a) != 0 || s.mbit (tFBABS a) || s.mbit (tSPHELD a)
        || s.mbit (tSATHI a) || s.mbit (tSATLO a) || s.mbit (tRATE a)
      let s := (s.mput (lBIN a) b).mputBit (lFROZEN a) frz
      let rb := (b + s.mget (lLEAD a)) % 512
      if frz then (s.rd32 (repAddr l n rb), none, s)
      else
        let s := if wrap && decide (s.mget (lREV a) < 255) then s.mput (lREV a) (s.mget (lREV a) + 1) else s
        let le := f32Mul (s.chF a 0x6C) (f32Div (f32OfNat (min (s.mget (lREV a)) 200)) (f32OfNat 200))
        let m0 := f32Add (f32Mul (s.chF a 0x70) (s.rd32 (repAddr l n b)))
          (f32Mul (f32Mul le (s.chF a 0x10)) (f32Sub g.sp g.y))
        let mlim := f32Mul 0x3E800000#32 (f32Sub (s.chF a 0x34) (s.chF a 0x30))
        let m := f32Min (f32Max m0 (f32Neg' mlim)) mlim
        (if rb = b then m else s.rd32 (repAddr l n rb), some (b, m), s)

/-! ## The PID step (R96–R100) -/

/-- The values of R97 up to the unlimited sum, for the record at address `a` and the state words `i`, `d0`,
`dinPrev`. -/
structure PidSum where
  p : F32
  dx : F32
  d : F32
  v : F32

def pidSum (s : State) (a : Nat) (g : Gather) (uRep i d0 dinPrev : F32) : PidSum :=
  let cc := if s.mbit (cDMEAS a) then 0#32 else s.chF a 0x20
  let p := f32Mul (s.chF a 0x10) (f32Sub (f32Mul (s.chF a 0x1C) g.sp) g.y)
  let dx := f32Sub (f32Mul cc g.sp) g.y
  let d := f32Add (f32Mul (s.chF a 0x44) d0) (f32Mul (s.chF a 0x48) (f32Sub dx dinPrev))
  ⟨p, dx, d, f32Add (f32Add (f32Add p i) d) (f32Add (f32Mul (s.chF a 0x2C) g.ff) uRep)⟩

/-- The amplitude limit, then the rate limit (R97). -/
def limitOut (s : State) (a : Nat) (v : F32) : F32 :=
  let u := f32Min (f32Max v (s.chF a 0x30)) (s.chF a 0x34)
  let r := s.chF a 0x4C
  let ul := s.chF a 0x5C
  if f32Lt 0#32 r then f32Min (f32Max u (f32Sub ul r)) (f32Add ul r) else u

/-- The address of the record kept from before a commit (R90, R111). -/
def prevAddr (l n : Nat) : Nat := laneBase l + 0xB000 + 0x80 * n

/-- The result of a PID step: what it writes, and whether it was discarded (R97–R99). -/
structure PidOut where
  i : F32
  d : F32
  din : F32
  u : F32
  satHi : Bool
  satLo : Bool
  rateLim : Bool
  intHeld : Bool
  bad : Bool

/-- The PID step with the feedback present, seeding when `seed` is set (R97, R98) and adjusting the integrator after a
commit when `bump` is set (R111). -/
def pidStep (l n : Nat) (g : Gather) (uRep : F32) (seed bump : Bool) (s : State) : PidOut :=
  let a := chAddr l n
  let i0 := s.chF a 0x50
  let d0 := s.chF a 0x54
  let din := s.chF a 0x58
  let x0 := pidSum s a g uRep i0 d0 din
  let tail := f32Add (f32Mul (s.chF a 0x2C) g.ff) uRep
  let umin := s.chF a 0x30
  let umax := s.chF a 0x34
  let iSeed := f32Min (f32Max (if s.mbit (cINIT a) then 0#32
    else f32Sub (f32Sub (s.chF a 0x5C) x0.p) tail) umin) umax
  let i := if seed then iSeed
    else if bump then f32Add i0 (f32Sub (pidSum s (prevAddr l n) g uRep i0 d0 din).v x0.v) else i0
  let d := if seed then 0#32 else x0.d
  let v := f32Add (f32Add (f32Add x0.p i) d) tail
  let u := limitOut s a v
  let e := f32Sub g.sp g.y
  let kie := f32Mul (s.chF a 0x14) e
  let h := s.chF a 0x40
  let skip := (f32Lt u v && f32Lt 0#32 kie) || (f32Lt v u && f32Lt kie 0#32)
  let i1 := if skip then i else f32Add i (f32Mul (f32Mul (s.chF a 0x14) h) e)
  let i2 := f32Add i1 (f32Mul (f32Mul (s.chF a 0x28) h) (f32Sub u v))
  let iNew := if seed then i else i2
  ⟨iNew, d, x0.dx, u, f32Lt umax v, f32Lt v umin, !f32Eq u (f32Min (f32Max v umin) umax), skip,
   !(f32IsFinite v && f32IsFinite x0.p && f32IsFinite d && f32IsFinite iNew)⟩

/-! ## Destinations (R102, R103) -/

def seedNext (l n : Nat) (s : State) : State :=
  let x := s.loop l
  s.setLoop l { x with seed := n :: x.seed.filter fun k => k != n }

/-- An enabled channel whose selected feedback entry carries FIRST is seeded at its next computation, whatever tick that
falls in (R98); `p` says which entries are looked at. -/
def seedFirst (l : Nat) (p : Nat → Bool) (s : State) : State :=
  forUp 96 (fun n t =>
    let a := chAddr l n
    let i := fbIdx t a (fbSel t a)
    if t.mbit (cEN a) && i != 0x3FF && p i && (t.sig l i).first then seedNext l n t else t) s

/-- Writes a channel's output to its destination; `first` says that this computation has seeded the channel (R103,
R128). -/
def writeDest (l n : Nat) (u : F32) (first : Bool) (s : State) : State :=
  let a := chAddr l n
  let da := s.mget (cDESTA a)
  let db := s.mget (cDESTB a)
  let deg := s.mget (tSTATE a) == 2
  let cmd (v : F32) : Cmd := ⟨v, n, true, deg, s.mbit (tSATHI a) || s.mbit (tSATLO a), s.clk.tick⟩
  let s := s.setLoop l { s.loop l with held := (s.loop l).held.filter fun k => k != da && k != db }
  match s.mget (cDEST a) with
  | 0 => s.putCmd l da (cmd u)
  | 1 =>
    if f32Le 0#32 u then (s.putCmd l da (cmd u)).putCmd l db (cmd 0#32)
    else (s.putCmd l da (cmd 0#32)).putCmd l db (cmd (f32Neg' u))
  | _ =>
    let s := s.putSig l (960 + da % 64) ⟨u, 0, true, false, first⟩
    if first then seedFirst l (· == 960 + da % 64) s else s

/-- Channel n of lane l drives stage c. -/
def drives (s : State) (l c n : Nat) : Bool :=
  let a := chAddr l n
  s.mbit (cEN a) && ((s.mget (cDEST a) ≤ 1 && s.mget (cDESTA a) == c) || (s.mget (cDEST a) == 1 && s.mget (cDESTB a) == c))

/-! ## Plausibility (R124, R125) -/

/-- A source is present: configured, and usable in this computation (R124). -/
def srcPresent (s : State) (l a src : Nat) : Bool :=
  let i := fbIdx s a src
  i != 0x3FF && sigUsable (s.sig l i) (s.mget (cAGE a))

/-- What the plausibility step finds of a source: OK and bad. -/
structure Verdict where
  ok : Bool
  bad : Bool

def rfAddr (l n src : Nat) : Nat := supAddr l n + (if src = 1 then 0x30 else 0x34)

/-- One source against the model's estimate (R124). -/
def judge (l n src : Nat) (yh : F32) (s : State) : Verdict × State :=
  let a := chAddr l n
  let sp := supAddr l n
  if srcPresent s l a src then
    let y := (s.sig l (fbIdx s a src)).val
    let rf := s.rd32 (rfAddr l n src)
    let rf := f32Add rf (f32Mul (s.rd32 (sp + 0x18)) (f32Sub (f32Sub y yh) rf))
    let mult := if s.rd32 (winAddr l n + 0x14) = 0#32 then f32One else 0x40800000#32
    (⟨f32Le (f32Abs rf) (f32Mul (s.rd32 (sp + 0x1C)) mult), f32Lt (f32Mul (s.rd32 (sp + 0x20)) mult) (f32Abs rf)⟩,
     s.wr32 (rfAddr l n src) rf)
  else (⟨false, true⟩, s)

/-- The plant model and the two verdicts; a channel without a model is judged by presence (R124, R125). -/
def plausible (l n : Nat) (s : State) : Verdict × Verdict × State :=
  let a := chAddr l n
  if !s.mbit (cPLAUS a) then
    let p1 := srcPresent s l a 1
    let p2 := srcPresent s l a 2
    (⟨p1, !p1⟩, ⟨p2, !p2⟩, s)
  else
    let sp := supAddr l n
    let wp := s.mget (uWP a)
    let dc := s.mget (pDT a) >>> s.mget (cK a)
    let la := lineAddr l n ((wp + 255 - dc) % 256)
    let ud := f32OfF16 (s.rd8 (la + 1) ++ s.rd8 la)
    let yh := f32Add (f32Add (f32Add (f32Mul (s.rd32 sp) (s.rd32 (sp + 0x28)))
      (f32Mul (s.rd32 (sp + 4)) (s.rd32 (sp + 0x2C)))) (f32Add (f32Mul (s.rd32 (sp + 8)) ud)
      (f32Mul (s.rd32 (sp + 0xC)) (s.rd32 (sp + 0x3C))))) (s.rd32 (sp + 0x10))
    let s := s.wr32 (sp + 0x3C) ud
    let (v1, s) := judge l n 1 yh s
    let (v2, s) := judge l n 2 yh s
    let sel := fbSel s a
    let yh := if (if sel = 1 then v1.ok else v2.ok) then
        f32Add yh (f32Mul (s.rd32 (sp + 0x14)) (f32Sub (s.sig l (fbIdx s a sel)).val yh)) else yh
    let s := (s.wr32 (sp + 0x2C) (s.rd32 (sp + 0x28))).wr32 (sp + 0x28) yh
    (v1, v2, s)

/-- The output goes into the delay line (R124). -/
def pushLine (l n : Nat) (u : F32) (s : State) : State :=
  let a := chAddr l n
  let wp := s.mget (uWP a)
  let w := f16OfF32 u
  let la := lineAddr l n wp
  ((s.wr8 la (w.extractLsb' 0 8)).wr8 (la + 1) (w.extractLsb' 8 8)).mput (uWP a) ((wp + 1) % 256)

/-- The delay-line entry written in this computation is overwritten (R128). -/
def fixLine (l n : Nat) (u : F32) (s : State) : State :=
  let a := chAddr l n
  pushLine l n u (s.mput (uWP a) ((s.mget (uWP a) + 255) % 256))

/-! ## Fault events and supervision (R126–R128) -/

/-- The event time of R118. -/
def evtTime (s : State) : Nat := s.clk.tick / 2000 % 65536

/-- One fault event: entered in the window and classed; true for LASTING (R127). -/
def faultEvent (l n : Nat) (s : State) : Bool × State :=
  let a := chAddr l n
  let w := winAddr l n
  let fv : Fld := ⟨w + 0x10, 7, 0⟩
  let fn : Fld := ⟨w + 0x10, 10, 8⟩
  let i := s.mget fn
  let s := s.mput ⟨w + 4 * (i / 2), if i % 2 = 0 then 15 else 31, if i % 2 = 0 then 0 else 16⟩ (evtTime s)
  let s := (s.mput fv (s.mget fv ||| 2 ^ i)).mput fn ((i + 1) % 8)
  let near := (List.range 8).filter fun k =>
    (s.mget fv).testBit k &&
      decide ((evtTime s + 65536
        - s.mget ⟨w + 4 * (k / 2), if k % 2 = 0 then 15 else 31, if k % 2 = 0 then 0 else 16⟩) % 65536 < s.mget (pW a))
  let lasting := decide (s.mget (pKCNT a) ≤ near.length)
  let cnt := w + (if lasting then 0x1C else 0x18)
  let s := if s.rd32 cnt = 0xFFFFFFFF#32 then s else s.wr32 cnt (s.rd32 cnt + 1#32)
  let x := s.loop l
  (lasting, s.setLoop l { x with lastFlt := tabSet (fun _ => 0) x.lastFlt n s.clk.tick })

/-- The fault events in the window, the value of 0x3105 (R131). -/
def windowCount (l n : Nat) (s : State) : Nat :=
  let w := winAddr l n
  ((List.range 8).filter fun k => (s.mget ⟨w + 0x10, 7, 0⟩).testBit k &&
    decide ((evtTime s + 65536
      - s.mget ⟨w + 4 * (k / 2), if k % 2 = 0 then 15 else 31, if k % 2 = 0 then 0 else 16⟩) % 65536
        < s.mget (pW (chAddr l n)))).length

/-- The value a DEGRADED channel writes (R128). -/
def fallbackVal (l n : Nat) (s : State) : F32 :=
  let a := chAddr l n
  if s.mbit (pFALLBACK a) then s.chF a 0x3C else s.rd32 (supAddr l n + 0x38)

/-- The channel goes DEGRADED (R128). -/
def degrade (l n : Nat) (s : State) : State :=
  (s.mput (tSTATE (chAddr l n)) 2).putBit (fLeDeg l n) true

/-- A fault event classed LASTING degrades a running channel and sets LASTING, recorded as 0x3105 (R126). -/
def takeLasting (l n : Nat) (s : State) : State :=
  let a := chAddr l n
  if s.mbit (uLASTING a) then s
  else
    let s := if l = topLane s then noteLasting 0x3105 s else s
    (degrade l n (s.mputBit (uLASTING a) true)).ev1 l 0x3105 n (fbSel s a) (f16OfNat (windowCount l n s))

/-- Counts a fault event, and degrades the channel when it is classed LASTING (R126, R127). -/
def countFault (l n : Nat) (s : State) : State :=
  let r := faultEvent l n s
  if r.1 then takeLasting l n r.2 else r.2

/-- The table of R126 for one computation; `nonfin` is a discarded computation of R99. -/
def supervise (l n : Nat) (v1 v2 : Verdict) (nonfin : Bool) (s : State) : State :=
  let a := chAddr l n
  let sel := fbSel s a
  let vs := if sel = 1 then v1 else v2
  let vo := if sel = 1 then v2 else v1
  let rfSel := f16OfF32 (s.rd32 (rfAddr l n sel))
  let rfOth := f16OfF32 (s.rd32 (rfAddr l n (3 - sel)))
  let level := if vs.bad then 2 else if vs.ok then 0 else 1
  let wasWarn := s.mget (uLEVEL a) == 1
  let wasOth := s.mbit (if sel = 1 then uSECOK a else uPRIOK a)
  let s := ((s.mput (uLEVEL a) level).mputBit (uPRIOK a) v1.ok).mputBit (uSECOK a) v2.ok
  let s := if nonfin then countFault l n s else s
  let x := s.loop l
  let og := tabGet (fun _ => 0) x.otherGood n
  let og := if vo.ok then og + 2 ^ s.mget (cK a) else 0
  let s := s.setLoop l { x with otherGood := tabSet (fun _ => 0) x.otherGood n og }
  let s := s.mput (uGOOD a) (if vs.ok then min (s.mget (uGOOD a) + 2 ^ s.mget (cK a)) 400 else 0)
  if s.mget (tSTATE a) = 1 then
    if vs.bad then
      if vo.ok then
        countFault l n ((seedNext l n (s.mput (tFBSEL a) (2 - sel))).ev1 l 0x3102 n (3 - sel) rfSel)
      else
        let (lst, s) := faultEvent l n s
        if lst then takeLasting l n s else (degrade l n s).ev1 l 0x3103 n sel rfSel
    else
      let s := if level == 1 && !wasWarn then s.ev1 l 0x3101 n sel rfSel else s
      if wasOth && !vo.ok && vs.ok then s.ev1 l 0x3106 n (3 - sel) rfOth else s
  else if s.mget (tSTATE a) = 2 then
    if vs.bad && decide (tabGet (fun _ => 0) (s.loop l).lastFlt n + 400 ≤ s.clk.tick) then
      countFault l n s
    else s
  else s

/-! ## One computation (R95–R100, R107) -/

/-- The first computation of a channel since module start starts its warm-up (R125). -/
def startChannel (l n : Nat) (s : State) : State :=
  let x := s.loop l
  if x.started.contains n then s else
    (s.setLoop l { x with started := n :: x.started }).wr32 (winAddr l n + 0x14)
      (BitVec.ofNat 32 (s.mget (pWARMUP (chAddr l n)) * 20000))

/-- Writes the new word of the repetitive memory, where there is one (R121). -/
def keepRep (l n : Nat) (m : Option (Nat × F32)) (s : State) : State :=
  match m with
  | some (b, w) => s.wr32 (repAddr l n b) w
  | none => s

/-- Writes back what the PID computation gave (R97, R98, R100). -/
def writePid (l n : Nat) (r : PidOut) (s : State) : State :=
  let a := chAddr l n
  let s := ((s.wr32 (a + 0x50) r.i).wr32 (a + 0x54) r.d).wr32 (a + 0x58) r.din
  let s := ((s.mputBit (tSATHI a) r.satHi).mputBit (tSATLO a) r.satLo).mputBit (tRATE a) r.rateLim
  let s := (s.mputBit (tINTHELD a) r.intHeld).wr32 (a + 0x5C) r.u
  let y := s.loop l
  s.setLoop l { y with seed := y.seed.filter fun k => k != n, bump := y.bump.filter fun k => k != n }

/-- The result of the computation: a non-finite one is counted and discarded (R99), an absent measurement keeps the
memory only, a DEGRADED channel keeps its derivative going. -/
def storeResult (l n : Nat) (bad absent degraded : Bool) (m : Option (Nat × F32)) (g : Gather) (uRep : F32) (r : PidOut)
    (s : State) : State :=
  let a := chAddr l n
  if bad then (((seedNext l n s).inc (fLE_NF_CNT l)).putBit (fLE_EVT_NONFINITE l) true).ev1 l 0x3003 n 0 f16NaN
  else if absent then keepRep l n m s
  else if degraded then
    let y := pidSum s a g uRep 0#32 (s.chF a 0x54) (s.chF a 0x58)
    ((keepRep l n m s).wr32 (a + 0x54) y.d).wr32 (a + 0x58) y.dx
  else writePid l n r (keepRep l n m s)

/-- A channel that becomes DEGRADED in this computation takes its fallback value at once (R126, R128). -/
def enterFallback (l n : Nat) (was : Bool) (s : State) : State :=
  let a := chAddr l n
  if s.mget (tSTATE a) == 2 && !was then
    let f := fallbackVal l n s
    let s := s.wr32 (a + 0x5C) f
    if s.mbit (cPLAUS a) then fixLine l n f s else s
  else s

/-- The supervision of a channel after its computation (R122–R126). A source that is not configured is bad, also that of an
open loop (R124, log entry 9). -/
def superviseChannel (l n : Nat) (bad : Bool) (s : State) : State :=
  let a := chAddr l n
  let (v1, v2, s) := plausible l n s
  let s := if s.mbit (cPLAUS a) then pushLine l n (s.chF a 0x5C) s else s
  let vs := if fbSel s a = 1 then v1 else v2
  let s := if vs.ok && !vs.bad && s.mget (tSTATE a) == 1 then s.wr32 (supAddr l n + 0x38) (s.chF a 0x5C) else s
  supervise l n v1 v2 bad s

/-- One computation of channel n in lane l. -/
def computeChannel (l n : Nat) (s : State) : State :=
  let a := chAddr l n
  let (g, s) := gather l n (startChannel l n s)
  let (uRep, mNew, s) := repTerm l n g s
  let degraded := s.mget (tSTATE a) == 2
  let absent := s.mbit (tFBABS a)
  let seed := (s.loop l).seed.contains n || g.fbFirst || !s.mbit (tSEEDED a)
  let r := pidStep l n g uRep seed ((s.loop l).bump.contains n) s
  let mBad := match mNew with
    | some (_, m) => !f32IsFinite m
    | none => false
  let degBad := !(f32IsFinite (pidSum s a g uRep 0#32 (s.chF a 0x54) (s.chF a 0x58)).p)
    || !(f32IsFinite (pidSum s a g uRep 0#32 (s.chF a 0x54) (s.chF a 0x58)).d)
  let bad := mBad || (!absent && (if degraded then degBad else r.bad))
  let s := storeResult l n bad absent degraded mNew g uRep r (s.mputBit (tNONFIN a) bad)
  let s := if degraded then s.wr32 (a + 0x5C) (fallbackVal l n s) else s
  let s := enterFallback l n degraded (superviseChannel l n bad s)
  let done := !bad && !absent && !degraded
  let s := writeDest l n (s.chF a 0x5C) (seed && done) s
  let s := if done then s.mputBit (tSEEDED a) true else s
  s.mput (tTICK16 a) (s.clk.tick % 65536)

/-! ## Panes (R105–R110) -/

def paneAddr (l k : Nat) : Nat := laneBase l + 0x6000 + 16 * k

/-- The channels of a pane, in execution order (R105). -/
def paneChannels (s : State) (p : Nat) : List Nat :=
  (List.range (s.mget ⟨p, 19, 16⟩)).map fun k => (s.rd8 (p + 4 + k)).toNat

/-- The cycles a channel costs (R108). -/
def chanCost (s : State) (a : Nat) : Nat := 60 + 40 * s.mget (cREP a) + 50 * s.mget (cPLAUS a)

/-- A pane whose phase matches runs in this tick (R107). -/
def paneDue (s : State) (p tick : Nat) : Bool :=
  s.mget ⟨p, 0, 0⟩ == 1 && tick % 2 ^ s.mget ⟨p, 3, 1⟩ == s.mget ⟨p, 9, 4⟩

/-- The channels that lane l computes in this tick, in the engine's order (R107). -/
def tickChannels (s : State) (l tick : Nat) : List Nat :=
  ((List.range 256).filter fun k => paneDue s (paneAddr l k) tick).flatMap fun k => paneChannels s (paneAddr l k)

/-- The AGE of a loop entry of SIG grows by 1 in every tick until its next write (R103). -/
def ageLoopSig (l k : Nat) (s : State) : State :=
  let g := s.sig l (960 + k)
  if g.valid then s.putSig l (960 + k) { g with age := g.age + 1, first := false } else s

/-- Warm-up ticks count down (R125). -/
def countWarm (l n : Nat) (s : State) : State :=
  let w := winAddr l n + 0x14
  if s.rd32 w = 0#32 then s else s.wr32 w (s.rd32 w - 1#32)

/-- The engine computes the channels of the due panes back to back from cycle 800; `LEA_LOAD` takes the cycles (R107,
R112). -/
def runPanes (l : Nat) (chs : List Nat) (s : State) : State :=
  let load := (chs.map fun n => chanCost s (chAddr l n)).sum
  let s := forAll chs (computeChannel l) (seedFirst l (fun i => decide (i < 960)) s)
  let s := s.put (fLE_LOAD_LAST l) load
  s.put (fLE_LOAD_MAX l) (max (s.get (fLE_LOAD_MAX l)) load)

/-- The channels a function names (R62). -/
def fnChannels (s : State) (f : Nat) : List Nat :=
  ([fFUN_REC_CH_CH0 f, fFUN_REC_CH_CH1 f, fFUN_REC_CH_CH2 f, fFUN_REC_CH_CH3 f].map s.get).filter
    fun n => decide (n < 96)

/-- `FUN_REC_CTL.STATE` as the lane with the higher claim shows it: DEGRADED with at least one channel DEGRADED
(R84, R128). -/
def showFn (f : Nat) (s : State) : State :=
  if !fnHome s f then s.put (fFUN_REC_CTL_STATE f) 0
  else
    let l := topLane s
    let chs := fnChannels s f
    let deg := chs.any fun n => s.mget (tSTATE (chAddr l n)) == 2
    let run := chs.any fun n => s.mget (tSTATE (chAddr l n)) == 1
    s.put (fFUN_REC_CTL_STATE f) (if deg then 2 else if run then 1 else 0)

/-! ## Commands of the loop engine -/

/-- A DEGRADED channel returns to RUNNING: its GOOD count has reached 400 ticks, or its other source has been OK for
400 ticks while the selected one was not at the last computation, GOOD being 0, which switches the source; neither with
class LASTING (R126). -/
def recoverChannel (l n : Nat) (s : State) : State :=
  let a := chAddr l n
  if s.mget (tSTATE a) ≠ 2 ∨ s.mbit (uLASTING a) then s
  else
    let sel := fbSel s a
    let back (s : State) : State :=
      let s := (s.mput (tSTATE a) 1).putBit (fLeDeg l n) false
      (seedNext l n s).ev1 l 0x3104 n (fbSel s a) f16NaN
    if 400 ≤ s.mget (uGOOD a) then back s
    else if s.mget (uGOOD a) = 0 ∧ 400 ≤ tabGet (fun _ => 0) (s.loop l).otherGood n then
      let rf := f16OfF32 (s.rd32 (rfAddr l n sel))
      back ((s.mput (tFBSEL a) (2 - sel)).ev1 l 0x3102 n (3 - sel) rf)
    else s

/-- Both lanes decide alike (R126). -/
def execChannelRecovered (n : Fin 96) (s : State) : Out := .next (recoverChannel 1 n (recoverChannel 0 n s))

/-- WARM_LEFT reaches 0, and the thresholds drop from four times to their set values (R124, R125). -/
def execWarmupEnd (n : Fin 96) (s : State) : Out :=
  let one (l : Nat) (s : State) : State :=
    let w := winAddr l n + 0x14
    if (s.rd32 w).toNat ≤ 1 then s.wr32 w 0#32 else s
  .next (one 1 (one 0 s))

/-- LEA_CTL.LOAD_CLR clears `LEA_LOAD.MAX`; the application cluster never writes it (R17, R112). -/
def execLoadClr (req : Req) (lane : Lane) (s : State) : Out :=
  if reqIsOem req || reqIsApp req then .next s else .next (s.put (fLE_LOAD_MAX (laneIx lane)) 0)

/-- LEA_CTL.SNAP_REQ sets BUSY and clears VALID; a request while BUSY is ignored, and one of the application cluster (R17, R113). -/
def execSnapReq (req : Req) (lane : Lane) (s : State) : Out :=
  let l := laneIx lane
  if reqIsOem req || reqIsApp req || s.bit (fLE_SNAP_BUSY l) then .next s
  else
    let s := (s.putBit (fLE_SNAP_BUSY l) true).putBit (fLE_SNAP_VALID l) false
    .next (s.setLoop l { s.loop l with snapAt := s.clk.tick + 1, snapNew := none })

/-- The lane's own snapshot port copies SIG, CMD, the records and the active pane table as they stand at cycle 17,600
of the tick after the request (R113). -/
def takeSnap (l : Nat) (s : State) : State :=
  let x := s.loop l
  if s.bit (fLE_SNAP_BUSY l) && x.snapNew.isNone && decide (x.snapAt ≤ s.clk.tick) then
    let cells := s.mem.filter fun c => decide (laneBase l ≤ c.1) && decide (c.1 < laneBase l + 0x7000)
    s.setLoop l { x with snapNew := some (cells, s.clk.tick) }
  else s

/-- The snapshot completes: the windows change, BUSY falls, VALID rises and SNAP_DONE is set (R113). -/
def execSnapDone (lane : Lane) (s : State) : Out :=
  let l := laneIx lane
  match (s.loop l).snapNew with
  | some (cells, t) =>
    if !s.bit (fLE_SNAP_BUSY l) then .next s
    else
      let s := s.setLoop l { s.loop l with snapNew := none, snap := cells }
      let s := (s.putBit (fLE_SNAP_BUSY l) false).putBit (fLE_SNAP_VALID l) true
      .next ((s.putBit (fLE_EVT_SNAP_DONE l) true).put64 (fLE_SNAP_TICK_LO l).addr t)
  | none => .next s

/-! ## Configuration checks (R93, R106, R109, R122, R130) -/

/-- Pane load of residue r of the pane table at `p0` (R109). -/
def paneLoad (s : State) (p0 r : Nat) : Nat :=
  (((List.range 256).filter fun k => paneDue s (p0 + 16 * k) r).map fun k => s.mget ⟨p0 + 16 * k + 12, 15, 0⟩).sum

/-- The proved load and the first residue at which it occurs (R109). -/
def provedLoad (s : State) (p0 : Nat) : Nat × Nat :=
  (List.range 64).foldl (fun best r => let x := paneLoad s p0 r; if best.1 < x then (x, r) else best) (0, 0)

/-- A source of the configuration writes the entry (R81). -/
def hasWriter (s : State) (recs : Nat) (i : Nat) : Bool :=
  if i < 48 then uinMode s i != 0
  else if i < 52 then s.bit (fFUN_ANG_EN (i - 48))
  else if i < 96 then false
  else if i < 128 then s.bit (fFUN_LOSS_CFG_EN ((i - 96) % 16))
  else if i < 136 then s.bit (fFUN_GRP_EN ((i - 128) % 4))
  else if i < 144 then true
  else if i < 150 then (s.ecn.rx.any fun r => r.1 == i) ||
    (if i = 144 then s.get fFUN_CROP_SRC_FLOW < 48 else if i = 145 then s.get fFUN_CROP_SRC_MOIST < 48
      else if i = 146 then s.get fFUN_CROP_SRC_TORQ < 48 else if i = 147 then s.get fFUN_CROP_SRC_TAIL < 48
      else s.get fFUN_CROP_SRC_FLOW < 48)
  else if i < 160 then false
  else if i < 167 then true
  else if i < 192 then false
  else if i < 448 then (s.can.maps.any fun m => m.1 == i)
  else if i < 768 then s.ecn.rx.any fun r => r.1 == i
  else if i < 798 then fnHome s (i - 768)
  else if i < 960 then s.mail.dests.contains i
  else (List.range 96).any fun n =>
    let a := recs + 0x80 * n
    s.mbit (cEN a) && s.mget (cDEST a) == 2 && 960 + s.mget (cDESTA a) == i

/-- Two values of the same sign, or the second zero (R93). -/
def sameSign (x y : F32) : Bool := f32IsZero y || (f32Neg x == f32Neg y)

def finPos (x : F32) : Bool := f32IsFinite x && f32Lt 0#32 x

/-- |A1| + A2 ≤ 1 and |A2| ≤ 1: both roots of z² − A1·z − A2 have magnitude at most 1 (R130). -/
def rootsOk (a1 a2 : F32) : Bool :=
  let x := dyadicAdd (f32Val (f32Abs a1)) (f32Val a2)
  let y := dyadicAdd x ⟨-1, 0⟩
  decide (y.m ≤ 0) && f32Le (f32Abs a2) f32One

/-- One channel record at `a`, with its supervision words at `sp`, meets the limits of R93, R122 and R130; `recs` is
the base of its record area. H and AD are those of the candidate. A record with EN = 0 is exempt, and the bin advance is held
only where REP_EN = 1 (DESIGN CHOICE, log entry 125). -/
def recordOk (s : State) (recs a sp : Nat) : Bool :=
  let f := s.chF a
  let kp := f 0x10
  let idxOk (i : Nat) : Bool := i == 0x3FF || hasWriter s recs i
  !s.mbit (cEN a) ||
  (decide (s.mget (cK a) ≤ 6) && decide (s.mget (cPHASE a) < 2 ^ s.mget (cK a)) && s.mget (cDEST a) != 3
    && s.mget (cAGE a) != 0
    && f32IsFinite kp && f32IsFinite (f 0x14) && f32IsFinite (f 0x18) && f32IsFinite (f 0x2C)
    && (if f32IsZero kp then f32IsZero (f 0x18) else sameSign kp (f 0x14) && sameSign kp (f 0x18))
    && f32Le 0#32 (f 0x1C) && f32Le (f 0x1C) f32One && f32Le 0#32 (f 0x20) && f32Le (f 0x20) f32One
    && f32Le f32One (f 0x24) && f32Le (f 0x24) 0x42C80000#32
    && f32Le 0#32 (f 0x28) && f32Le (f32Mul (f 0x28) (recH s a)) f32One
    && f32IsFinite (f 0x30) && f32IsFinite (f 0x34) && f32Lt (f 0x30) (f 0x34)
    && (f32IsZero (f 0x38) || finPos (f 0x38))
    && f32Le (f 0x30) (f 0x3C) && f32Le (f 0x3C) (f 0x34) && f32Le 0#32 (recAd s a)
    && hasWriter s recs (s.mget (cSP a)) && idxOk (s.mget (cFB a)) && idxOk (s.mget (cFB2 a)) && idxOk (s.mget (cFF a))
    && decide (1 ≤ s.mget (pKCNT a)) && decide (s.mget (pKCNT a) ≤ 8) && decide (1 ≤ s.mget (pW a))
    && f32Le 0#32 (f 0x6C) && f32Le (f 0x6C) 0x3F000000#32
    && f32Le 0x3F666666#32 (f 0x70) && f32Le (f 0x70) f32One && finPos (s.rd32 (sp + 0x24))
    && (!s.mbit (cREP a) ||
      (s.bit (fFUN_ANG_EN (s.mget (lSRC a))) && (s.mget (cFB a) != 0x3FF || s.mget (cFB2 a) != 0x3FF)
        && f32Le (f32Mul (f32Mul (f32OfNat (s.get (fFUN_ANG_W_MAX (s.mget (lSRC a))))) (f32OfNat 512)) (recH s a)) f32Two))
    && (!s.mbit (cPLAUS a) ||
      (f32IsFinite (s.rd32 sp) && f32IsFinite (s.rd32 (sp + 4)) && f32IsFinite (s.rd32 (sp + 8))
        && f32IsFinite (s.rd32 (sp + 0xC)) && f32IsFinite (s.rd32 (sp + 0x10))
        && rootsOk (s.rd32 sp) (s.rd32 (sp + 4))
        && f32Le 0#32 (s.rd32 (sp + 0x14)) && f32Le (s.rd32 (sp + 0x14)) f32One
        && f32Lt 0#32 (s.rd32 (sp + 0x18)) && f32Le (s.rd32 (sp + 0x18)) f32One
        && f32Lt 0#32 (s.rd32 (sp + 0x1C)) && f32Lt (s.rd32 (sp + 0x1C)) (s.rd32 (sp + 0x20))
        && f32IsFinite (s.rd32 (sp + 0x20)))))

/-- The CMD entries and loop entries of SIG a record writes; SIG entries count from 960 (R103). -/
def recordDests (s : State) (a : Nat) : List Nat :=
  if !s.mbit (cEN a) then []
  else match s.mget (cDEST a) with
    | 0 => [s.mget (cDESTA a)]
    | 1 => [s.mget (cDESTA a), s.mget (cDESTB a)]
    | _ => [960 + s.mget (cDESTA a)]

/-- The kind of a stage: 0 valve, 1 load switch, 2 transmit signal (R85). -/
def stageKind (c : Nat) : Nat := if c < 16 then 0 else if c < 48 then 1 else 2

/-- Destinations exist, none has two writers, and a split pair is of one stage kind (R102, R103). -/
def destsOk (s : State) (recs : Nat) : Bool :=
  let all := (List.range 96).map fun n => recordDests s (recs + 0x80 * n)
  let ds := all.flatten
  (ds.all fun d => decide (d < 64) || (decide (960 ≤ d) && decide (d < 1024)))
    && decide (ds.eraseDups.length = ds.length)
    && all.all fun p => decide (p.length < 2) || (p.all fun d => stageKind d == stageKind (p.headD 0))

/-- The pane table at `p0` agrees with the records at `recs` (R105, R106). -/
def panesOk (s : State) (p0 recs : Nat) : Bool :=
  let ps := (List.range 256).filter fun k => s.mget ⟨p0 + 16 * k, 0, 0⟩ == 1
  let inPanes := ps.flatMap fun k => paneChannels s (p0 + 16 * k)
  let en := (List.range 96).filter fun n => s.mbit (cEN (recs + 0x80 * n))
  let rec0 (n : Nat) : Nat := recs + 0x80 * n
  (ps.all fun k =>
    let p := p0 + 16 * k
    let chs := paneChannels s p
    decide (1 ≤ chs.length) && decide (chs.length ≤ 8)
      && (chs.all fun n => decide (n < 96) && s.mbit (cEN (rec0 n)) && s.mget (cK (rec0 n)) == s.mget ⟨p, 3, 1⟩
            && s.mget (cPHASE (rec0 n)) == s.mget ⟨p, 9, 4⟩)
      && s.mget ⟨p + 12, 15, 0⟩ == (chs.map fun n => chanCost s (rec0 n)).sum)
  && (en.all fun n => inPanes.count n == 1)
  && (inPanes.all fun r => inPanes.all fun w =>
      !(s.mget (cDEST (rec0 w)) == 2 && s.mget (cK (rec0 w)) == s.mget (cK (rec0 r))
        && s.mget (cPHASE (rec0 w)) == s.mget (cPHASE (rec0 r))
        && (s.mget (cSP (rec0 r)) :: [s.mget (cFB (rec0 r)), s.mget (cFB2 (rec0 r)), s.mget (cFF (rec0 r))].filter (· != 0x3FF)).contains
              (960 + s.mget (cDESTA (rec0 w))))
      || decide (inPanes.idxOf w < inPanes.idxOf r))

/-- The lane's own computation agrees with the proof in the image, which LEA_SCHED shows (R109). -/
def proofOk (s : State) : Bool :=
  provedLoad s 0x6000 == (s.get (fLE_SCHED_PROVED 0), s.get (fLE_SCHED_RESIDUE 0))

/-- The schedule fits the ceiling of R40 and agrees with the proof in the image (R109). -/
def schedOk (s : State) : Bool := decide (800 + (provedLoad s 0x6000).1 + 400 ≤ 18000) && proofOk s

/-- 0x3006 of a schedule that disagrees with the image: the residue and the load that the lane has computed (R114). -/
def schedEvent (t : State) (s : State) : State :=
  let x := provedLoad t 0x6000
  s.evx 0x3006 x.2 0 (f16OfNat x.1) (f16OfNat x.1)

/-- The records `SUP[n]` and `SUP_WIN[n]` as the service port's diagnostic reads return them: those of the lane with the higher
claim (R118). -/
def diagSup (s : State) (n : Nat) : List Byte × List Byte :=
  (s.rdBytes (supAddr (topLane s) n) 64, s.rdBytes (winAddr (topLane s) n) 32)

end Sys2Proof.Machine
end

