-- ==== Sys2Proof/Machine/CfgCheck.lean ====
section
/-!
DEFINITION. The checks that a configuration passes (R376, R383): the values that the field maps reserve, and the rules
R22, R62, R63, R81, R93, R106, R109, R130, R137, R202, R271, R285, R291, R321, R337, R338, R340, R354 and R357.
-/
namespace Sys2Proof.Machine

/-- Every index below `n` passes. -/
def upTo (n : Nat) (p : Nat → Bool) : Bool := (List.range n).all p

/-- A field lies in a range. -/
def inRange (s : State) (f : Fld) (lo hi : Nat) : Bool := decide (lo ≤ s.get f) && decide (s.get f ≤ hi)

/-- A stage or channel number below `n`, or none. -/
def orNone (n v : Nat) : Bool := decide (v < n) || v == 0xFF

def fnChFlds (f : Nat) : List Fld := [fFUN_REC_CH_CH0 f, fFUN_REC_CH_CH1 f, fFUN_REC_CH_CH2 f, fFUN_REC_CH_CH3 f]
def fnOutFlds (f : Nat) : List Fld := [fFUN_REC_OUT_OUT0 f, fFUN_REC_OUT_OUT1 f, fFUN_REC_OUT_OUT2 f, fFUN_REC_OUT_OUT3 f]

/-- No number stands twice in a list, 0xFF apart. -/
def noTwice (l : List Nat) : Bool := let m := l.filter (· != 0xFF); decide (m.eraseDups.length = m.length)

/-- The functions whose home is this module (R62). -/
def homeFns (s : State) : List Nat := (List.range 30).filter (fnHome s)

/-- The functions of the table whose home is position p, enabled or not (R62). -/
def fnsOf (s : State) (p : Nat) : List Nat := (List.range 30).filter fun f => s.get (fFUN_REC_CTL_HOME f) == p

/-- R62, for the functions of every home; a transmit signal is looked up for those at home here. -/
def functionsOk (s : State) : Bool :=
  let chs (f : Nat) : List Nat := (fnChFlds f).map s.get
  let outs (f : Nat) : List Nat := (fnOutFlds f).map s.get
  (upTo 30 fun f => ((chs f).all (orNone 96)) && ((outs f).all (orNone 64))
    && (!s.bit (fFUN_REC_CTL_EN f) || (chs f).any (· != 0xFF)))
  && (upTo 8 fun p => noTwice ((fnsOf s p).flatMap chs) && noTwice ((fnsOf s p).flatMap outs))
  && (((homeFns s).flatMap outs).all fun c =>
      decide (c < 48) || c == 0xFF || s.can.msgs.any fun m => m.2.places.any fun q => q.sig == c - 48)

/-- The inputs and the crop-flow sources (R68–R78, R83). -/
def inputsOk (s : State) : Bool :=
  (upTo 48 fun n => inRange s (fFUN_UIN_CFG_MODE n) 0 7 && inRange s (fFUN_UIN_CFG_THR n) 13 255
    && inRange s (fFUN_UIN_CFG_TOUT n) 1 127 && (!s.bit (fFUN_UIN_CFG_PULLUP n) || decide (5 ≤ uinMode s n)))
  && (upTo 24 fun p => (decide (uinMode s (2 * p) < 6) && decide (uinMode s (2 * p + 1) < 6))
    || uinMode s (2 * p) == uinMode s (2 * p + 1))
  && f32IsFinite (s.getF fFUN_FLOW_FS) && f32Lt 0#32 (s.getF fFUN_FLOW_FS)
  && (upTo 16 fun n => inRange s (fFUN_LOSS_CFG_A_MIN n) 1 255
    && inRange s (fFUN_LOSS_CFG_A_MAX n) (s.get (fFUN_LOSS_CFG_A_MIN n)) 255
    && inRange s (fFUN_LOSS_CFG_RISE_MAX n) 1 63 && inRange s (fFUN_LOSS_CFG_DEAD n) 1 63)
  && (upTo 4 fun g => inRange s (fFUN_GRP_TAU g) 1 15)
  && (upTo 4 fun a => inRange s (fFUN_ANG_PAIR a) 0 23 && inRange s (fFUN_ANG_PPR a) 1 32767
    && inRange s (fFUN_ANG_W_MAX a) 1 511
    && (!s.bit (fFUN_ANG_EN a) || uinMode s (2 * s.get (fFUN_ANG_PAIR a)) == 6 + s.get (fFUN_ANG_KIND a)))
  && ([fFUN_CROP_SRC_FLOW, fFUN_CROP_SRC_MOIST, fFUN_CROP_SRC_TORQ, fFUN_CROP_SRC_TAIL].all fun f =>
    decide (s.get f < 48) || s.get f == 63)
  && (upTo 4 fun p => inRange s (fATT_PORT_CFG_KIND p) 0 4)

/-- The operator's bounds lie inside the maker's, and CLK_HOLD_LIM is at least 60 s (R63, R58). -/
def limitsOk (s : State) : Bool :=
  (upTo 30 fun f =>
    let lo := s.getF (fFUN_REC_OP_MIN f)
    let hi := s.getF (fFUN_REC_OP_MAX f)
    !f32Lt lo (s.getF (fFUN_REC_MK_MIN f)) && !f32Lt (s.getF (fFUN_REC_MK_MAX f)) hi && !f32Lt hi lo)
  && decide (60 ≤ s.get fCLK_HOLD_LIM_SEC)

/-- The records, destinations and panes of lane A's SRAM, which both lanes hold alike (R93, R103, R106, R109). -/
def loopsOk (s : State) : Bool :=
  (upTo 96 fun n => recordOk s 0x3000 (chAddr 0 n) (supAddr 0 n)) && destsOk s 0x3000 && panesOk s 0x6000 0x3000 && schedOk s

/-- The valve channels and banks (R174–R189); the reservation of a profile fits the full budget of its bank (R178). -/
def valvesOk (s : State) : Bool :=
  (upTo 4 fun b => inRange s (fVLV_BANK_CFG_V_BOOST b) 36 65)
  && (upTo 16 fun n => inRange s (fVLV_CH_MODE_MODE n) 0 2 && inRange s (fVLV_CH_MODE_OFF_BOOST n) 0 2
    && inRange s (fVLV_CH_MODE_OFF_PEAK n) 0 2 && inRange s (fVLV_CH_MODE_OFF_HOLD n) 0 2
    && inRange s (fVLV_CH_PROF_T_BOOST n) 10 2000 && inRange s (fVLV_CH_PROF_T_PEAK n) 0 50000
    && inRange s (fVLV_CH_CUR_I_PEAK n) 10 240 && inRange s (fVLV_CH_CUR_I_HOLD n) 8 240
    && inRange s (fVLV_CH_DIAG_TPK_MAX n) (s.get (fVLV_CH_DIAG_TPK_MIN n)) 2047
    && inRange s (fVLV_CH_DIAG_KCNT n) 1 8
    && inRange s (fVLV_CH_MOT_WIN_MOT_MAX n) (s.get (fVLV_CH_MOT_WIN_MOT_MIN n)) 65535
    && inRange s (fVLV_CH_PROP_PWM_F n) 20 200
    && (s.get (fVLV_CH_PROP_DITH_F n) == 0 || inRange s (fVLV_CH_PROP_DITH_F n) 25 200)
    && inRange s (fVLV_CH_PROP_DITH_A n) 0 250 && inRange s (fVLV_CH_PROP_W n) 1 255
    && (s.get (fVLV_CH_MODE_MODE n) != 1 || f32Le (eResNow s n) (fullBudget s (bankOf n))))

/-- R202: with L in 10 µH and I in 0.1 A, ½·L·I² is L·I²/20 µJ; times 200,000 / PER it is at most 600 mJ. -/
def switchOk (s : State) (n : Nat) : Bool :=
  let i := s.get (fPSW_CH_LIM_I_NOM n)
  let l := s.get (fPSW_CH_IND_L_LOAD n)
  let per := pswPer s n
  (per != 0 && 400 % per == 0)
  && (if n < 24 then inRange s (fPSW_CH_LIM_I_NOM n) 5 40 else inRange s (fPSW_CH_LIM_I_NOM n) 10 120)
  && decide (l * i * i ≤ 2400000)
  && (l == 0 || s.bit (fPSW_CH_CFG_ONOFF n) || decide (10000 * (l * i * i) ≤ 600000 * per))
  && inRange s (fPSW_CH_LIM_INR_MULT n) 4 12 && inRange s (fPSW_CH_LIM_INR_WIN n) 0 200
  && inRange s (fPSW_CH_LIM_DT_LIM n) 30 80 && inRange s (fPSW_CH_IND_RETRY n) 1 255
  && inRange s (fPSW_CH_CFG_KCNT n) 1 8 && inRange s (fPSW_CH_CFG_W n) 1 1023

def outputsOk (s : State) : Bool :=
  valvesOk s && upTo 32 (switchOk s)
  && (upTo 48 fun c => inRange s (fCLM_POL_POLICY c) 0 2 && inRange s (fCLM_POL_HOLD_WIN c) 1 10000)
  && inRange s fCLM_CFG_HINGE_INT 60 65535

/-- A lever arm, mm: three signed words of the mount record (R254; the place of its fields is PRESUMED, log entry 138). -/
def leverArm (s : State) (k : Nat) : List Int := (List.range 3).map fun j => (((s.mountOf k).getD j 0#32).toInt)

/-- Every configured sensor has a mount, and the antennas lie at least 500 mm apart while heading is enabled (R254). -/
def mountsOk (s : State) : Bool :=
  let has (k : Nat) : Bool := s.fus.mounts.any fun m => m.1 == k
  let d := (List.range 3).map fun j => (leverArm s 8).getD j 0 - (leverArm s 9).getD j 0
  (upTo 6 fun k => !s.bit (fISP_PORT_CFG_EN k) || has k) && (upTo 2 fun a => !s.bit (fGNS_ANT_EN a) || has (8 + a))
    && (s.get fGNS_HEAD_CFG_BASE == 0 || decide (250000 ≤ (d.map fun x => x * x).sum))

/-- TP0 of every module (R229). -/
def tp0Ok (s : State) : Bool :=
  [1, 2, 4, 5, 8, 10, 16, 20, 25, 32, 40, 50, 80, 100].contains (s.get fGNS_TP0_CFG_RATE)
  && inRange s fGNS_TP0_CFG_WIDTH 1 255

def gnssOk (s : State) : Bool :=
  inRange s fGNS_CFG_JAM_LIM 16 255 && inRange s fGNS_CFG_NOTCH_THR 6 31 && inRange s fGNS_CFG_ELEV 0 30
  && (s.get fGNS_HEAD_CFG_BASE == 0 || inRange s fGNS_HEAD_CFG_BASE 500 5000)
  && inRange s fGNS_CORR_CFG_PORT 0 5 && inRange s fGNS_CORR_CFG_CORR_AGE_MAX 1 30

def camerasOk (s : State) : Bool :=
  upTo 6 fun n => inRange s (fISP_PORT_CFG_ROLE n) 0 5 && inRange s (fISP_PORT_CFG_EXP_DIV n) 0 2
    && inRange s (fISP_PORT_CFG_WIDTH n) 1 120 && inRange s (fISP_PORT_CFG_HEIGHT n) 1 75

def fusionOk (s : State) : Bool :=
  inRange s fFUS_CFG_LIDAR_DIV 1 5 && inRange s fFUS_CFG_DENY_N 1 7 && inRange s fFUS_CFG_GUID_AGE_MAX 1200 4000
  && inRange s fFUS_CFG_UNL_CLEAR 0 50 && inRange s fFUS_GUID_CFG_STOP_MARGIN 5 255
  && inRange s fFUS_GUID_CFG_EDGE_MAP_TOL 1 127 && !f32IsZero (s.getF (fFUN_REC_RATE 25)) && mountsOk s

/-- The map region; the cut width is at most 40 cells (R279, R285, R290, R291, R301). -/
def mapOk (s : State) : Bool :=
  inRange s fMAP_CFG_CELL 0 2 && inRange s fMAP_CFG_SETTLE 16 60 && inRange s fMAP_CFG_BETA 1 8
  && inRange s fMAP_CFG_HIST_W 1 255
  && decide (s.get fMAP_CFG_REATTR + 160 ≤ 10 * s.get fMAP_CFG_SETTLE)
  && f32Le (s.getF fFUN_CUT_W)
      (match s.get fMAP_CFG_CELL with | 0 => 0x42200000#32 | 1 => 0x41A00000#32 | _ => 0x42A00000#32)

/-- The range of DTSEG2 of a data rate (R337). -/
def dtsegRange (d : Nat) : Nat × Nat := match d with
  | 1 => (10, 32)
  | 2 => (5, 16)
  | 3 => (3, 8)
  | _ => (2, 6)

/-- A data rate in kbit/s (R337). -/
def dataRate (d : Nat) : Nat := match d with
  | 1 => 1000
  | 2 => 2000
  | 3 => 4000
  | _ => 5000

def canPortOk (s : State) (p : Nat) : Bool :=
  let d := s.get (fCAN_PORT_CFG_DRATE p)
  let t := s.get (fCAN_PORT_CFG_TSEG2 p)
  inRange s (fCAN_PORT_CFG_TSEG2 p) 10 20 && inRange s (fCAN_PORT_CFG_SJW p) 1 t
  && decide (d ≤ 4)
  && (d == 0 || (inRange s (fCAN_PORT_CFG_DTSEG2 p) (dtsegRange d).1 (dtsegRange d).2
      && decide (125 * 2 ^ s.get (fCAN_PORT_CFG_RATE p) ≤ dataRate d)))
  && (!s.bit (fCAN_PORT_CFG_TRIPLE p) || decide (s.get (fCAN_PORT_CFG_RATE p) ≤ 1))
  && inRange s (fCAN_PORT_CFG_RETRY p) 0 16 && inRange s (fCAN_PORT_CFG_WAKE p) 0 (if p < 2 then 2 else 1)
  && inRange s (fCAN_PORT_LIM_PREF_ADDR p) 0 253
  && (!s.bit (fCAN_PORT_CFG_LISTEN p)
      || (!s.bit (fCAN_PORT_CFG_PROTO p) && s.can.msgs.all fun m => m.2.port != p))

/-- A signal map entry and a transmit message keep to their fields (R342, R344). -/
def sigMapOk (m : SigMap) : Bool :=
  decide (m.port < 6) && decide (m.start < 512) && decide (1 ≤ m.len) && decide (m.len ≤ 32)
  && decide (1 ≤ m.timeout) && decide (m.timeout ≤ 65535)

def txMsgOk (m : TxMsg) : Bool :=
  decide (m.port < 6) && decide (m.bytes.length ≤ 64) && decide (20 ≤ m.period) && decide (m.period ≤ 20000)
  && m.places.all fun q => decide (q.sig < 16)

/-- A port in use has its fixed role: LIDAR on ETH0 and ETH1, TERMINAL on ETH2 and GATEWAY on ETH3 of the manager, DIAG on a
worker (R357); the camera ports have none. -/
def ethRoleOk (s : State) (p : Nat) : Bool :=
  let r := s.get (fETH_PORT_CFG_ROLE p)
  if 4 ≤ p then r == 0
  else !s.bit (fETH_PORT_CFG_EN p) || (if s.straps.manager then r == (if p < 2 then 0 else p - 1) else r == 3)

def commsOk (s : State) : Bool :=
  upTo 6 (canPortOk s) && (s.can.maps.all fun m => sigMapOk m.2) && (s.can.msgs.all fun m => txMsgOk m.2)
  && (upTo 16 fun t => inRange s (fCAN_TXS_CFG_POLICY t) 0 2 && inRange s (fCAN_TXS_CFG_HOLD_WIN t) 1 10000)
  && (upTo 10 fun p => ethRoleOk s p && inRange s (fETH_PORT_CFG_IP4_MODE p) 0 2
      && (s.get (fETH_PORT_CFG_IP4_MODE p) != 2 || p == 3))
  && inRange s fETH_SVC_PORT_TILE_INT 60 3600 && inRange s fECN_CFG_JOIN_WAIT 0 150

/-- 2π / 60 as binary32, and 1.25 of it. -/
def ditherSlope : F32 := 0x3E060A92#32

/-- R137, and the harmonics that the field map allows. -/
def swingOk (s : State) : Bool :=
  let en := (List.range 8).filter fun j => s.bit (fSWG_FN_CFG_EN j)
  let k (j : Nat) : Nat := s.get (fSWG_FN_CFG_K j)
  let amp (j : Nat) : F32 := s.getF (fSWG_FN_AMP j)
  (upTo 8 fun j => inRange s (fSWG_FN_CFG_K j) 2 12)
  && (en.all fun i => en.all fun j => i == j || (k i != k j && k i != 2 * k j))
  && (en.all fun j =>
      let f := swgFn j
      let span := f32Sub (s.getF (fFUN_REC_MK_MAX f)) (s.getF (fFUN_REC_MK_MIN f))
      let rate := s.getF (fFUN_REC_RATE f)
      f32Lt 0#32 (amp j) && f32Le (f32Mul 0x40000000#32 (amp j)) (f32Mul 0x3E800000#32 span)
      && (f32IsZero rate || f32Le (f32Mul (f32Mul ditherSlope (f32OfNat (k j))) (amp j)) rate))

/-- The slot plan (R22, R321): at most one window a module, inside bytes 192–2,399, none overlapping another, 272 records
in all, at most 320 received entries, and a producer for each. Every plan that passes reaches its consumers within one
tick (R322). -/
def planOk (s : State) : Bool :=
  let last (w : EcnWin) : Nat := w.start + 8 * w.recs.length + 4
  let l := s.ecn.plan
  decide ((l.map fun w => w.pos).eraseDups.length = l.length)
  && decide ((l.map fun w => w.recs.length).sum ≤ 272)
  && (l.all fun w => decide (w.pos < 8) && decide (192 ≤ w.start) && decide (last w ≤ 2400) && w.recs.all fun e => decide (e < 1024))
  && (l.all fun v => l.all fun w => v.pos == w.pos || decide (last v ≤ w.start) || decide (last w ≤ v.start))
  && decide (s.ecn.rx.length ≤ 320)
  && s.ecn.rx.all fun r => l.any fun w => w.pos == r.2.1 && w.pos != s.straps.pos
      && (if r.1 < 150 then w.recs[r.2.2]? == some r.1 else decide (r.2.2 < w.recs.length))

/-- Each entry that Ecnil or the mailbox writes lies in its range and has one writer (R81). -/
def signalsOk (s : State) : Bool :=
  let rx := s.ecn.rx.map Prod.fst
  (rx.all fun e => (decide (448 ≤ e) && decide (e < 768)) || (decide (144 ≤ e) && decide (e < 150)))
  && (s.mail.dests.all fun e => decide (798 ≤ e) && decide (e < 960))
  && decide (rx.eraseDups.length = rx.length) && decide (s.mail.dests.eraseDups.length = s.mail.dests.length)
  && planOk s

/-- The fields of the power controller and the OEM partition (R442, R483). -/
def powerOk (s : State) : Bool :=
  inRange s fPWR_CFG_OFF_STATE 0 2 && inRange s fPWR_CFG_IGN_DLY 1 255 && inRange s fSYS_STATUS_OEM_CORES 0 2

/-- The whole configuration of this position. -/
def cfgOk (s : State) : Bool :=
  functionsOk s && inputsOk s && signalsOk s && limitsOk s && loopsOk s && outputsOk s && tp0Ok s && commsOk s && powerOk s
  && (!s.wide || (gnssOk s && camerasOk s && fusionOk s && mapOk s && swingOk s))

/-- The first item, in staging order, with which the configuration no longer passes; the last one when only the whole
fails (R382). -/
def firstBad (items : List CfgItem) (s : State) : Option Nat :=
  if cfgOk (applyItems items s) then none
  else some (((List.range items.length).find? fun k => !cfgOk (applyItems (items.take (k + 1)) s)).getD 0)

end Sys2Proof.Machine
end

