-- ==== Sys2Proof/Machine/Ecnil.lean ====
section
/-!
DEFINITION. Ecnil (R316–R335): tick frames, the message slot, join states, port breaks, and the apply-tick rules that
setpoint sets, commits and the ring mode share.
-/
namespace Sys2Proof.Machine

def ecnJoin (s : State) : Nat := s.get fECN_STATUS_JOIN

/-- A change of the join state (R330). -/
def setJoin (v : Nat) (s : State) : State :=
  let s := if ecnJoin s = 2 ∨ v = 2 then s.putBit fECN_EVT_MEMBER true else s
  { s.put fECN_STATUS_JOIN v with ecn := { s.ecn with since := s.clk.tick } }

def isJoined (s : State) (p : Nat) : Bool := s.bitAt fECN_MEMBERS_JOINED p
/-- The position is JOINED and ALIGNED, as its last valid status slot says (R320). -/
def isAligned (s : State) (p : Nat) : Bool := isJoined s p && s.bitAt fECN_MEMBERS_ALIGNED p

/-- The positions a manager's messages go to: every worker that is JOINED and ALIGNED (R324). -/
def ringWorkers (s : State) : List Nat := (List.range 8).filter fun p => p != 0 && isAligned s p

/-- A worker's own time is ALIGNED (R55). -/
def ownAligned (s : State) : Bool := s.get fCLK_STATUS_ALIGN == 1

/-- A message leaves in this module's message slot (R324); the last 64 are kept. -/
def sendMsg (type : Nat) (args : List Int) (s : State) : State :=
  { s with ecn := { s.ecn with sent := (⟨type, args⟩ :: s.ecn.sent).take 64 } }

/-! ## The message slot (R324, R385) -/

/-- A tick in which another message type is due: ANNOUNCE, LEAP, or the segments of a setpoint set (R324). -/
def slotBusy (s : State) (t : Nat) : Bool :=
  t % 400 == 0 || t % 1000 == 0 || decide (t < s.ecn.slotFree)
    || s.swg.set.any fun x => decide (x.apply ≤ t + 10) && decide (t + 5 ≤ x.apply)

/-- The first run of `k` free ticks at or after `t`. -/
def freeRun (s : State) (k : Nat) : Nat → Nat → Nat
  | 0, t => t
  | fuel + 1, t => if (List.range k).any (fun i => slotBusy s (t + i)) then freeRun s k fuel (t + 1) else t

/-- Places parts of the given numbers of segments one after another, and answers the tick after the last (R385). -/
def placeRuns (s : State) : List Nat → Nat → Nat
  | [], t => t
  | k :: ks, t => placeRuns s ks (freeRun s k 4096 t + k)

/-- The first frame boundary at or after `t`. -/
def boundaryFrom (t : Nat) : Nat := (t + 399) / 400 * 400

/-- A message with an apply tick goes out: it waits for the ACK of each worker in `need` (R324). -/
def sendApply (type : Nat) (apply : Nat) (need : List Nat) (args : List Int) (s : State) : State :=
  let g := s.ecn.nextGen
  let s := sendMsg type ([(g : Int), (apply : Int)] ++ args) s
  { s with ecn := { s.ecn with nextGen := g + 1, waits := s.ecn.waits ++ [⟨type, g, apply, need, [], false⟩] } }

/-- The message of a type that is due at this tick. -/
def waitAt (s : State) (type : Nat) : Option EcnWait :=
  s.ecn.waits.find? fun w => w.type == type && w.apply == s.clk.tick

/-- A message is applied at its apply tick A: on the manager unless it set ABORT; on a worker unless it saw ABORT in a
valid header of A − 2 or A − 1, or had no valid header in either (R324). -/
def ringOk (s : State) (w : EcnWait) : Bool :=
  if s.straps.manager then !w.halt
  else
    let hs := s.ecn.hdrs.filter fun h => h.1 + 2 == w.apply || h.1 + 1 == w.apply
    !hs.isEmpty && hs.all fun h => !h.2

/-- A due message leaves the list; an applied one gives its generation to the status slot, one that is not is counted as
aborted (R324). -/
def settle (w : EcnWait) (s : State) : State :=
  let ok := ringOk s w
  let s := { s with ecn := { s.ecn with waits := s.ecn.waits.filter fun x => !(x.type == w.type && x.gen == w.gen),
                                        gen := if ok then w.gen else s.ecn.gen, genAt := some w.apply } }
  if ok || s.straps.manager then s else (s.putBit fECN_EVT_ABORT true).ev 0x9109 0 w.type

/-- At the end of A − 3 a missing ACK sets ABORT in the headers of A − 2 and A − 1 (R324). -/
def execAbortCheck (s : State) : Out :=
  if !s.straps.manager then .next s
  else
    let late (w : EcnWait) : Bool := decide (w.apply = s.clk.tick + 3) && !w.halt && w.need.any fun p => !w.acked.contains p
    let bad := s.ecn.waits.filter late
    let s := { s with ecn := { s.ecn with waits := s.ecn.waits.map fun w => { w with halt := w.halt || late w } } }
    .next (forAll bad (fun w t => (t.putBit fECN_EVT_ABORT true).ev 0x9109 0 w.type) s)

/-- A worker's ACK (R324). -/
def execEcnAck (pos : Fin 8) (gen : Nat) (s : State) : Out :=
  if !s.straps.manager then .next s
  else
    let up (w : EcnWait) : EcnWait := if w.gen = gen ∧ pos.val ∉ w.acked then { w with acked := pos.val :: w.acked } else w
    let s := if s.ecn.waits.any fun w => w.gen == gen && w.type == 0x0B then s.setBitAt fUPD_POS_READY pos true else s
    .next { s with ecn := { s.ecn with waits := s.ecn.waits.map up } }

/-- At A + 1 the manager compares each worker's GEN with its own (R324). -/
def execGenCheck (s : State) : Out :=
  if !s.straps.manager || s.ecn.genAt.all (fun a => a + 1 != s.clk.tick) then .next s
  else
    let s := { s with ecn := { s.ecn with genAt := none } }
    let one (p : Nat) (t : State) : State :=
      if p = 0 || !isJoined t p then t
      else
        let g := (tabGet (fun _ => 0#32) t.ecn.slots p).toNat / 256 % 256
        if g = t.ecn.gen % 256 then t else (t.putBit fECN_EVT_GEN true).ev 0x9108 p g
    .next (forUp 8 one s)

/-- A worker that holds a complete message sends ACK in the next tick, while JOINED and ALIGNED, and keeps it for its
apply tick (R324). -/
def holdMsg (type gen apply : Nat) (s : State) : State :=
  let s := { s with ecn := { s.ecn with waits := s.ecn.waits ++ [⟨type, gen, apply, [], [], false⟩] } }
  if ecnJoin s = 2 ∧ ownAligned s = true then sendMsg 0x07 [(s.straps.pos : Int), gen] s else s

/-- A setpoint set for its apply tick; all its segments have arrived (R144, R324). -/
def execEcnSet (gen apply : Nat) (items : List (Option SwgItem)) (s : State) : Out :=
  if s.straps.manager ∨ apply ≤ s.clk.tick then .next s
  else .next (holdMsg 0x05 gen apply { s with swg := { s.swg with set := some ⟨apply, items, true⟩ } })

/-- STEP names a boundary; at its T every module applies the step (R325). A worker that has not joined compares the
boundary with the system's count, and keeps the step for its join (R44); an ISOLATED one counts on its own and takes
none (R330). -/
def execEcnStep (amount : Int) (boundary : Nat) (s : State) : Out :=
  if s.straps.manager = true ∨ ecnJoin s = 4 ∨ (boundary : Int) ≤ sysTick s then .next s
  else .next (keepSteps (fun _ => true) { s with clk := { s.clk with steps := s.clk.steps ++ [(amount, boundary)] } })

/-- LEAP writes the leap-second table (R325). -/
def execEcnLeap (table : LeapTable) (s : State) : Out := if s.straps.manager then .next s else .next (setLeap table s)

/-- RESET orders an ECNIL reset at T of the next tick (R333). -/
def execEcnReset (pos : Fin 8) (s : State) : Out :=
  if s.straps.manager ∨ pos.val ≠ s.straps.pos then .next s
  else .next { s with ecn := { s.ecn with resetAt := some (s.clk.tick + 1) } }

/-- MODE returns the ring to RING at its apply tick (R332). -/
def execEcnMode (gen apply : Nat) (s : State) : Out :=
  if s.straps.manager ∨ apply ≤ s.clk.tick then .next s else .next (holdMsg 0x0C gen apply s)

def setRingMode (v : Nat) (s : State) : State :=
  if s.get fECN_STATUS_MODE = v then s
  else
    let s := (s.put fECN_STATUS_MODE v).putBit fECN_EVT_MODE true
    if s.straps.manager then s.ev 0x910D 0 v else s

/-- What a SET message carries: for each of the eight functions its index, base, amplitude, k and t0 (R145). -/
def setArgs (x : SwgSet) : List Int :=
  x.items.zipIdx.flatMap fun q => match q.1 with
    | some i => [(q.2 : Int), i.base.toNat, i.amp.toNat, i.k, i.t0]
    | none => []

/-- The set is placed in the manager's mailbox before T of its apply tick less 10. -/
def execSetPost (s : State) : Out :=
  match s.swg.set with
  | none => .next s
  | some x =>
    if x.posted || decide (x.apply < s.clk.tick + 11) || !appOn s then .next s
    else
      let s := { s with swg := { s.swg with set := some { x with posted := true } } }
      .next (if (ringWorkers s).isEmpty then s else sendApply 0x05 x.apply (ringWorkers s) (setArgs x) s)

/-! ## COMMIT messages (R384) -/

/-- The staged bytes of items, with their 12-byte headers (R383). -/
def itemSize (its : List CfgItem) : Nat := (its.map fun it => 12 + it.length).sum

/-- The segments of the parts that carry `n` item bytes: 16 bytes of header a part, 4 of CRC in the last, at most 128
segments of 28 bytes each (R384). -/
def partSegs (n : Nat) : List Nat :=
  let body := n + 4
  List.replicate (body / 3568) 128 ++ (if body % 3568 = 0 then [] else [(16 + body % 3568 + 27) / 28])

/-- Where each item begins in the item bytes of a position. -/
def itemStarts : Nat → List CfgItem → List (Nat × CfgItem)
  | _, [] => []
  | o, it :: its => (o, it) :: itemStarts (o + 12 + it.length) its

/-- The parts of a worker's COMMIT message: each names the generation, the apply tick, the position, its place among the
parts and PERSIST, and holds the items that begin in its 3,568 item bytes (R384). -/
def commitParts (gen apply : Nat) (items : List CfgItem) (persist replay : Bool) (pos : Nat) : List CommitPart :=
  let mine := items.filter fun it => it.pos == pos
  let count := (partSegs (itemSize mine)).length
  (List.range count).map fun k =>
    ⟨gen, apply, pos, k, count, persist, ((itemStarts 0 mine).filter fun q => q.1 / 3568 == k).map Prod.snd, true, replay⟩

/-- The manager sends each of the workers its COMMIT message (R324, R384). -/
def sendCommit (apply : Nat) (ws : List Nat) (items : List CfgItem) (persist replay : Bool) (args : List Int) (s : State) :
    State :=
  let parts := ws.flatMap (commitParts s.ecn.nextGen apply items persist replay)
  let old := s.cfg.out.filter fun p => s.ecn.waits.any fun w => w.gen == p.gen
  sendApply 0x06 apply ws args { s with cfg := { s.cfg with out := parts ++ old } }

/-- The ring mode at its apply tick. -/
def applyMode (s : State) : State :=
  match waitAt s 0x0C with
  | some w => let t := settle w s; if ringOk s w then setRingMode 0 t else t
  | none => s

/-- Whether the set that is due may be applied: on the ring its message must hold (R144, R324). An aborted one counts
as missed. -/
def ringSet (s : State) : State :=
  match waitAt s 0x05 with
  | none => s
  | some w =>
    let t := settle w s
    if ringOk s w then t
    else
      let t := { t with swg := { t.swg with set := none } }
      if t.straps.manager then ((t.inc fSWG_MISS_CNT).putBit fSWG_EVT_SET_MISSED true).ev 0x3903 else t

/-! ## Tick frames (R318–R327) -/

def State.ecnPort (s : State) (p : Nat) : EcnPort := tabGet (fun _ => EcnPort.init) s.ecn.ports p
def State.setEcnPort (s : State) (p : Nat) (x : EcnPort) : State :=
  { s with ecn := { s.ecn with ports := tabSet (fun _ => EcnPort.init) s.ecn.ports p x } }

def fPortUp (p : Nat) : Fld := if p = 0 then fECN_STATUS_IN_UP else fECN_STATUS_OUT_UP
def fHop (p : Nat) : Fld := if p = 0 then fECN_HOP_IN_DLY else fECN_HOP_OUT_DLY

/-- 20,000 TICK cycles in units of 1/32 cycle. -/
def tickUnits : Nat := 640000

/-- The hop delay of R326 in units of 1/32 TICK cycle. -/
def hopDelay (t : Nat × Nat × Nat × Nat) : Nat :=
  let sub (a b : Nat) : Nat := (a + tickUnits - b % tickUnits) % tickUnits
  (sub t.2.1 t.1 + sub t.2.2.2 t.2.2.1) / 2

/-- The mean of the last 16 valid results (R326). -/
def meanHop (x : EcnPort) : Nat := if x.hops.isEmpty then 0 else x.hops.sum / x.hops.length

/-- 50 ns of a repeater, in units of 1/32 TICK cycle (R319). -/
def repeatUnits : Nat := 640

/-- The port's counts and its hop delay, which shows while the port is UP (R334). -/
def framePort (port : Nat) (f : EcnFrame) (s : State) : State :=
  let x := s.ecnPort port
  let good := f.hdrOk && f.probe.isSome
  let x := { x with run := if good then x.run + 1 else 0, probes := if f.probe.isSome then x.probes + 1 else 0,
                    last := if f.hdrOk then some s.clk.tick else x.last }
  match f.probe with
  | some t =>
    let x := { x with hops := (hopDelay t :: x.hops).take 16 }
    let s := s.setEcnPort port x
    if s.bit (fPortUp port) then s.put (fHop port) (meanHop x) else s
  | none => s.setEcnPort port x

/-- The edge of the marker with the lowest HOPS of this tick: its offset, and what repeaters said (R327). A worker that
is LOST and not JOINED is ACQUIRING again with it (R55); a JOINED one rejoins by REJOIN, and an ISOLATED one runs on its
own tick (R330). -/
def frameEdge (port : Nat) (f : EcnFrame) (s : State) : State :=
  let d := meanHop (s.ecnPort port)
  let first := s.ecn.best.1 != s.clk.tick || decide (f.hops < s.ecn.best.2)
  if s.straps.manager || !first then s
  else
    let off : Int := ((f.acc + d : Nat) : Int) - f.arrive
    let ps := off * 78125 / 1000
    let s := (s.put fECN_ACC_TOTAL (f.acc + d)).put fECN_ACC_HOPS f.hops
    let s := if s.get fCLK_STATUS_ALIGN = 2 then s else s.put fCLK_ALIGN (sat32 ps)
    let s := if s.get fCLK_STATUS_ALIGN = 2 ∧ ecnJoin s ≠ 2 ∧ ecnJoin s ≠ 4 then setAlign 0 s else s
    { s with ecn := { s.ecn with best := (s.clk.tick, f.hops), diff := (f.count : Int) - s.clk.tick },
             clk := { s.clk with edgeAt := s.clk.tick } }

/-- The header's fields: time status, ring mode, ABORT (R319, R324, R325, R332). -/
def frameHdr (f : EcnFrame) (s : State) : State :=
  let s := { s with ecn := { s.ecn with hdrs := ((s.clk.tick, f.halt) :: s.ecn.hdrs).take 16,
                                        firstHdr := some (s.ecn.firstHdr.getD s.clk.tick) } }
  if s.straps.manager then s
  else
    let s := if ownAligned s then setTimeStat (f.time % 4) s else s
    if f.mode % 4 = 3 then s else setRingMode (f.mode % 4) s

/-- A status word of a position (R320). -/
def frameSlot (x : Nat × Word) (s : State) : State :=
  let p := x.1
  let w := x.2.toNat
  if 8 ≤ p then s
  else
    let j := w % 2 == 1
    let s := if isJoined s p == j then s else s.putBit fECN_EVT_MEMBER true
    let s := (s.setBitAt fECN_MEMBERS_JOINED p j).setBitAt fECN_MEMBERS_ALIGNED p (w / 2 % 4 == 1)
    let s := (s.setBitAt fECN_MEMBERS_LIMP p (w.testBit 3)).setBitAt fECN_MEMBERS_NOCLAIM p (w.testBit 4)
    { s with ecn := { s.ecn with slots := tabSet (fun _ => 0#32) s.ecn.slots p x.2 } }

/-- A window is used from the first pass with a correct CRC, of a sender that is JOINED and ALIGNED in the same frame,
by a module that is ALIGNED itself (R323). -/
def frameWin (f : EcnFrame) (x : Nat × Bool × List (Word × Word)) (s : State) : State :=
  if !x.2.1 then s.inc fECN_CNT_WIN
  else
    let ok := f.slots.any fun q => q.1 == x.1 && q.2.toNat % 2 == 1 && q.2.toNat / 2 % 4 == 1
    let mine := s.straps.manager || (ownAligned s && ecnJoin s == 2)
    if !ok || !mine || s.ecn.got.any fun g => g.1 == x.1 then s
    else { s with ecn := { s.ecn with got := s.ecn.got ++ [(x.1, x.2.2)] } }

/-- The header of a frame as a worker repeats it: ACC and HOPS brought up to date, or unchanged where its CRC fails
(R319). -/
def repeated (port : Nat) (f : EcnFrame) (s : State) : Nat × Nat :=
  if f.hdrOk then (f.acc + meanHop (s.ecnPort port) + repeatUnits, f.hops + 1) else (f.acc, f.hops)

/-- The port on which the frame leaves, with the port it came by once the other one is DOWN: the frame is turned back
there (R318, R332). -/
def repeatPorts (port : Nat) (s : State) : List Nat :=
  (1 - port) :: (if (s.ecnPort (1 - port)).broken then [port] else [])

/-- A tick frame on a port: it is repeated with its header brought up to date, and its windows, status and probe are
taken; a header whose CRC fails is forwarded unchanged, counted and not used (R318–R323, R326, R327). -/
def execEcnilFrame (port : Fin 2) (frame : EcnFrame) (s : State) : Out :=
  let s := framePort port frame s
  let s := if frame.hdrOk then frameHdr frame (frameEdge port frame s) else s.inc fECN_CNT_HDR
  let s := forAll frame.slots frameSlot s
  let s := forAll frame.wins (frameWin frame) s
  if s.straps.manager then .next s
  else
    let send (q : Nat) (t : State) : State :=
      { t with ecn := { t.ecn with rep := (q, repeated port frame s) :: t.ecn.rep.filter fun r => r.1 != q } }
    .next (forAll (repeatPorts port s) send s)

/-- At T each consumer writes the entries it consumes into both lanes' SIG, with AGE + 1; an entry whose window was not
used ages in each lane (R321, R323, R19). -/
def takeWindows (s : State) : State :=
  let got := s.ecn.got
  let one (r : Nat × Nat × Nat) (t : State) : State :=
    match (got.find? fun g => g.1 == r.2.1).bind fun g => g.2[r.2.2]? with
    | some (v, st) =>
      let w := st.toNat
      t.putSigs r.1 ⟨v, w % 65536 + 1, w / 0x10000 % 2 == 1, w / 0x20000 % 2 == 1, w / 0x40000 % 2 == 1⟩
    | none => forUp 2 (fun l u => let g := u.sig l r.1; u.putSig l r.1 { g with age := g.age + 1, first := false }) t
  let s := forAll s.ecn.rx one s
  { s with ecn := { s.ecn with got := [] } }

/-- The records of this module's window, as its SIG stands at cycle 800 in the lane with the higher claim (R321). -/
def fillWindow (s : State) : State :=
  let l := topLane s
  let recs := (s.ecn.plan.find? fun w => w.pos == s.straps.pos).elim [] fun w => w.recs
  { s with ecn := { s.ecn with win := recs.map fun e => let g := s.sig l e; (g.val, sigStatus g) } }

/-- This module's status word (R320). -/
def statusWord (s : State) : Word :=
  let degraded (v : Nat) : Bool := v != 0 && v != 1
  BitVec.ofNat 32 ((if ecnJoin s = 2 then 1 else 0) + 2 * s.get fCLK_STATUS_ALIGN + 8 * s.get fCLM_STATUS_LIMP
    + 16 * s.get fCLM_STATUS_NOCLAIM
    + (if degraded (s.get fCLM_STATUS_STATE_A) || degraded (s.get fCLM_STATUS_STATE_B) then 32 else 0)
    + 256 * (s.ecn.gen % 256))

/-! ## Joining (R328–R331) -/

/-- The manager has enabled its claims since its last reset (R331). -/
def claimsOn (s : State) : Bool := s.bit fRST_STATUS_CLAIMS

/-- 16 consecutive valid headers and probe results on the receiving hop: the worker sends JOIN (R330). -/
def execJoinSend (port : Fin 2) (s : State) : Out :=
  let x := s.ecnPort port
  if s.straps.manager ∨ s.get fRST_STATUS_STEP < 7 ∨ ecnJoin s ≠ 0 ∨ x.run < 16 ∨ x.probes < 16 then .next s
  else .next (setJoin 1 (sendMsg 0x02 [(s.straps.pos : Int), (s.get64 fSEC_SERIAL_LO.addr : Int), if s.straps.orderB then 1 else 0,
      (s.get fUPD_RUN_VER : Int), ((s.cfg.image.elim 0 fun i => i.sysId : Nat) : Int), (s.get fCFG_PERSIST_GEN : Int)] s))

/-- No answer within 400 ticks. -/
def execJoinTimeout (s : State) : Out :=
  if ecnJoin s = 1 ∧ s.straps.manager = false ∧ s.ecn.joinFor = none ∧ s.ecn.since + 400 ≤ s.clk.tick then .next (setJoin 0 s)
  else .next s

/-- 20,000 ticks in REFUSED. -/
def execRefusedTimeout (s : State) : Out :=
  if ecnJoin s = 3 ∧ s.ecn.since + 20000 ≤ s.clk.tick then .next (setJoin 0 s) else .next s

def isolate (s : State) : State :=
  (setJoin 4 s).evMax 0x9105 s.straps.pos 0 (f16OfInt s.ecn.diff)

/-- ADMIT sets the join tick and brings `tbase_ns` as it stands, with every step that fell before it (R44); a worker that was JOINED before and counts differently becomes ISOLATED (R330). -/
def execEcnAdmit (pos : Fin 8) (tick : Nat) (tbase : Int) (replay : Bool) (s : State) : Out :=
  if s.straps.manager ∨ pos.val ≠ s.straps.pos ∨ ecnJoin s ≠ 1 then .next s
  else if s.ecn.wasJoined = true ∧ s.ecn.diff ≠ 0 then .next (isolate s)
  else
    let s := keepSteps (fun x => decide (sysTick s < (x.2 : Int))) s
    .next { s with ecn := { s.ecn with joinFor := some (tick, tbase), replay := replay } }

/-- REFUSE moves the worker to REFUSED (R330). -/
def execEcnRefuse (pos : Fin 8) (reason : Fin 5) (s : State) : Out :=
  if s.straps.manager ∨ pos.val ≠ s.straps.pos ∨ ecnJoin s ≠ 1 ∨ reason.val = 0 then .next s
  else .next (((setJoin 3 s).put fECN_STATUS_REASON reason).ev 0x9102 pos reason)

/-- The join tick (R44, R330): at the first join the worker loads the count and `tbase_ns`, with the steps that the
manager applies up to it, and jumps its phase; a worker that was JOINED before keeps count and phase, and takes a
difference of `tbase_ns` as a step. -/
def execJoinTick (s : State) : Out :=
  match s.ecn.joinFor with
  | none => .next s
  | some (j, tb) =>
    let now : Int := s.clk.tick + s.ecn.diff
    if s.straps.manager ∨ ecnJoin s ≠ 1 ∨ now + 1 < j then .next s
    else
      let tbase : Int := tb + ((s.clk.steps.filter fun x => decide (x.2 ≤ j)).map Prod.fst).sum
      let s := (keepSteps (fun x => decide (j < x.2)) s).putBit fCLK_STATUS_RTC_ONLY false
      let s :=
        if !s.ecn.wasJoined then
          let s : State := { s with clk := { s.clk with tick := j, cycle := 0, tbase := tbase, edgeAt := j } }
          let s : State := s.put fCLK_ALIGN 0
          if s.get fCLK_STATUS_ALIGN = 1 then s else (setAlign 1 s).ev 0x1042
        else if s.clk.tbase = tbase then s else applyStep (tbase - s.clk.tbase) s
      let s := { s with ecn := { s.ecn with joinFor := none, wasJoined := true, joinedAt := s.clk.tick, diff := 0 } }
      .next ((setJoin 2 s).ev 0x9101 s.straps.pos)

/-- A marker after LOST: the worker rejoins when its count agrees and is ISOLATED otherwise (R55, R330). -/
def execRejoin (s : State) : Out :=
  if s.straps.manager ∨ ecnJoin s ≠ 2 ∨ s.get fCLK_STATUS_ALIGN ≠ 2 ∨ s.clk.tick > s.clk.edgeAt + 1 then .next s
  else if s.ecn.diff ≠ 0 then .next (isolate s)
  else .next ((setAlign 0 s).evMax 0x9104 s.straps.pos 0 (f16OfInt (alignOffset s / 1000)))

/-- A worker that has not joined 1 s after its first valid header records 0x9107 once (R331). -/
def execJoinLate (s : State) : Out :=
  match s.ecn.firstHdr with
  | none => .next s
  | some t =>
    if s.straps.manager ∨ ecnJoin s = 2 ∨ s.ecn.late = true ∨ s.clk.tick < t + 20000 then .next s
    else .next ({ s with ecn := { s.ecn with late := true } }.ev 0x9107 s.straps.pos)

/-- After 40 ticks of listening the manager sends its first frame (R329). -/
def execManagerListenEnd (s : State) : Out :=
  if s.straps.manager = false ∨ s.get fRST_STATUS_STEP < 7 ∨ s.ecn.firstAt.isSome = true ∨ s.bit fECN_STATUS_FOREIGN = true
      ∨ s.clk.tick < s.ecn.listenAt + 40 then .next s
  else .next { s with ecn := { s.ecn with firstAt := some s.clk.tick } }

/-- A port becomes DOWN (R332). -/
def portDown (p : Nat) (s : State) : State :=
  let s := s.setEcnPort p { EcnPort.init with broken := true }
  let s := (s.putBit (fPortUp p) false).put (fHop p) 0xFFFFFF
  (s.putBit fECN_EVT_PORT true).ev 0x910B p

/-- An ANNOUNCE of another manager: before claims it stops this one, which shows "ROLE"; after them the port counts as
DOWN (R329), and the ring has one hop less (R332). -/
def execAnnounce (port : Fin 2) (serial : Nat) (s : State) : Out :=
  if s.straps.manager = false ∨ serial = s.get64 fSEC_SERIAL_LO.addr then .next s
  else if claimsOn s then
    let s := if s.bit (fPortUp port) then setRingMode (if s.get fECN_STATUS_MODE = 0 then 1 else 2) (portDown port s)
      else s.setEcnPort port { EcnPort.init with broken := true }
    .next (s.ev 0x9103 port)
  else
    let s := { s with ecn := { s.ecn with firstAt := none } }
    .next (((s.putBit fECN_STATUS_FOREIGN true).put fRST_STATUS_FAIL 4).ev 0x9103 port)

/-- The manager's answer to a JOIN: a reason of R330, or none. -/
def joinReason (s : State) (pos serial fw sysId persistGen : Nat) : Nat :=
  if isJoined s pos && s.ecn.members.any fun m => m.1 == pos && m.2 != serial then 1
  else if !(s.get fECN_CFG_EXPECT).testBit pos then 2
  else if sysId ≠ (s.cfg.image.elim 0 fun i => i.sysId) ∨ persistGen ≠ s.get fCFG_PERSIST_GEN then 3
  else if fw ≠ s.get fUPD_RUN_VER then 4
  else 0

/-- The parts under transfer to a worker that joins resume from the start of the interrupted part (R406). -/
def restartTransfer (pos : Nat) (s : State) : State :=
  let theirs (e : Nat) : Bool := (s.upd.man.bind fun m => m.entries[e]?).any fun x => x.pos == pos
  { s with upd := { s.upd with sent := s.upd.sent.map fun x => if theirs x.1 then (x.1, 0) else x } }

/-- A JOIN reaches the manager: ADMIT with the first frame boundary at least 20 ticks after it, or REFUSE (R330). The
commits that position missed follow as one replay commit, under R389. -/
def execJoin (pos : Fin 8) (serial : Nat) (orderB : Bool) (fw sysId persistGen : Nat) (s : State) : Out :=
  if s.straps.manager = false ∨ s.ecn.firstAt = none ∨ pos.val = 0 then .next s
  else
    let r := joinReason s pos serial fw sysId persistGen
    if r ≠ 0 then .next (sendMsg 0x04 [(pos.val : Int), r] s)
    else
      let j := boundaryFrom (s.clk.tick + 21)
      let missed := s.cfg.others.filter fun it => it.pos == pos.val
      let s := { s with ecn := { s.ecn with
        members := (pos.val, serial) :: s.ecn.members.filter (fun m => m.1 != pos.val)
        orders := (pos.val, orderB) :: s.ecn.orders.filter fun m => m.1 != pos.val } }
      let s := restartTransfer pos s
      let s := sendMsg 0x03 [(pos.val : Int), j, s.clk.tbase, if missed.isEmpty then 0 else 1] s
      if missed.isEmpty then .next s
      else
        let a := boundaryFrom (j + 400)
        let s := sendCommit a [pos.val] missed false true [(pos.val : Int), 0] s
        let g := s.ecn.nextGen - 1
        .next { s with cfg := { s.cfg with
          applying := s.cfg.applying ++ [⟨0, 0, 0, missed, a, g, false, true, some pos.val⟩] } }

/-! ## Breaks (R332) -/

/-- The ring mode that a number of DOWN hops gives. -/
def modeOf (down : Nat) : Nat := min down 2

/-- 4 ticks without a valid header: the port is DOWN and turns back its frames; the manager sets the ring mode in the
next header (R332). -/
def execPortDown (port : Fin 2) (down : Fin 9) (s : State) : Out :=
  let quiet := match (s.ecnPort port).last with
    | some t => decide (t + 4 ≤ s.clk.tick)
    | none => true
  if !s.bit (fPortUp port) || !quiet then .next s
  else
    let s := portDown port s
    if s.straps.manager then .next (setRingMode (modeOf down) s) else .next s

/-- 400 ticks of valid headers and probes: the port is UP; with every hop UP the manager sends MODE with an apply tick
at a frame boundary (R332). -/
def execPortUp (port : Fin 2) (down : Fin 9) (s : State) : Out :=
  if s.bit (fPortUp port) || decide ((s.ecnPort port).run < 400) then .next s
  else
    let x := s.ecnPort port
    let s := (s.setEcnPort port { x with broken := false }).put (fHop port) (meanHop x)
    let s := ((s.putBit (fPortUp port) true).putBit fECN_EVT_PORT true).ev 0x910C port
    if !s.straps.manager then .next s
    else if down.val = 0 ∧ s.get fECN_STATUS_MODE ≠ 0 then
      let t := freeRun s 1 4096 (s.clk.tick + 1)
      .next (sendApply 0x0C (boundaryFrom (t + 4)) (ringWorkers s) [0] s)
    else if down.val = 0 then .next s
    else .next (setRingMode (modeOf down) s)

/-! ## Worker reset (R333) -/

/-- ECN_CTL.RESET on the manager sends RESET to RESET_POS, or is REFUSED; a worker ignores it (R333, R334). -/
def execWorkerResetRequest (req : Req) (pos : Fin 8) (s : State) : Out :=
  if reqIsOem req || !s.straps.manager then .next s
  else if pos.val = 0 || !isJoined s pos then .next (s.ev 0x910A pos 0)
  else .next (sendMsg 0x0A [(pos.val : Int)] s)

end Sys2Proof.Machine
end

