-- ==== Sys2Proof/Machine/ConfigTx.lean ====
section
/-!
DEFINITION. Transactions and commits (R381–R393): staging, validation, the apply tick, the application of a commit at
its frame boundary with its effects in each region, commits carried to the workers, and PERSIST.
-/
namespace Sys2Proof.Machine

/-! ## Effects of a commit in its regions (R387) -/

def hasItem (items : List CfgItem) (code i : Nat) : Bool := items.any fun it => it.code == code && it.index == i

/-- A channel's repetitive memory and its REV count return to 0 (R123). -/
def clearRep (l n : Nat) (s : State) : State := (s.clearMem (repAddr l n 0) 0x800).mput (lREV (chAddr l n)) 0

/-- A commit that includes channel n in lane l: derived words, seeding, the bumpless adjustment, the learning memory,
warm-up, and the release from DEGRADED and LASTING (R98, R111, R123, R125, R126, R129). `old` is the state before. A previous
record that still waits for its adjustment stays (R111), and WARM_LEFT is set at the boundary (DESIGN CHOICE, log entry
126). -/
def loopChannel (old : State) (l n : Nat) (s : State) : State :=
  let a := chAddr l n
  let diff (f : Fld) : Bool := old.mget f != s.mget f
  let diffW (off : Nat) : Bool := old.rd32 (a + off) != s.rd32 (a + off)
  let diffS (off : Nat) : Bool := old.rd32 (supAddr l n + off) != s.rd32 (supAddr l n + off)
  let enabled := s.mbit (cEN a) && !old.mbit (cEN a)
  let back := old.mget (tFBSEL a) != 0
  let degraded := old.mget (tSTATE a) == 2
  let s := deriveRec a s
  let s := if s.mbit (cBUMP a) && (diffW 0x10 || diffW 0x1C || diffW 0x2C || diffW 0x3C) && !(s.loop l).bump.contains n then
      (s.wrBytes (prevAddr l n) (old.rdBytes a 0x80)).setLoop l { s.loop l with bump := n :: (s.loop l).bump }
    else s
  let s := if enabled || degraded || back || diff (cK a) || diff (cSP a) || diff (cFB a) then seedNext l n s else s
  let s := if diff (lSRC a) || (s.mbit (cREP a) && !old.mbit (cREP a)) then
      (clearRep l n s).ev1 l 0x3107 n 0 f16NaN
    else s
  let s := if diffS 0 || diffS 4 || diffS 8 || diffS 0xC || diffS 0x10 || diff (pDT a) then
      s.wr32 (winAddr l n + 0x14) (BitVec.ofNat 32 (s.mget (pWARMUP a) * 20000))
    else s
  let s := if s.mbit (cPLAUS a) then s else
    forAll [0x28, 0x2C, 0x30, 0x34] (fun o t => t.wr32 (supAddr l n + o) 0#32) s
  let s := s.mput (tFBSEL a) 0
  let s := if !s.mbit (cEN a) then (s.mput (tSTATE a) 0).putBit (fLeDeg l n) false
    else if enabled then s.mput (tSTATE a) 1
    else s
  let s := if degraded then
      ((s.mputBit (uLASTING a) false).mput (uGOOD a) 0).mput ⟨winAddr l n + 0x10, 7, 0⟩ 0
    else s
  if degraded && s.mbit (cEN a) then
    ((s.mput (tSTATE a) 1).putBit (fLeDeg l n) false).ev1 l 0x3104 n (fbSel s a) f16NaN
  else s

/-- Enabled panes and channels as LEA_STATUS and LEB_STATUS count them (R112). -/
def showLoops (l : Nat) (s : State) : State :=
  let panes := ((List.range 256).filter fun k => s.mget ⟨paneAddr l k, 0, 0⟩ == 1).length
  let chs := ((List.range 96).filter fun n => s.mbit (cEN (chAddr l n))).length
  (s.put (fLE_STATUS_NPANE l) panes).put (fLE_STATUS_NCH l) chs

/-- The channels of which a commit includes the record (R387). -/
def touchedChs (items : List CfgItem) : List Nat :=
  (List.range 96).filter fun n => hasItem items 0x0200 n || hasItem items 0x0201 n

/-- A validated LOOPS commit stands in the staged areas of both lanes: the records that it touches and its pane table, whose
words both lanes switch to active at the boundary (R90, R111). -/
def stageLoops (items : List CfgItem) (s : State) : State :=
  let t := applyItems items s
  forUp 2 (fun l u =>
    let u := forAll (touchedChs items) (fun n v => v.wrBytes (laneBase l + 0x8000 + 0x80 * n) (t.rdBytes (chAddr l n) 0x80)) u
    if hasItem items 0x0202 0 then u.wrBytes (laneBase l + 0x7000) (t.rdBytes (paneAddr l 0) 0x1000) else u) s

/-- A CMD entry that no channel writes: WRITER 0xFF, and the value and VALID with which it is sent (R102, R104). -/
def freeCmd (l c : Nat) (s : State) : State :=
  if (List.range 96).any (drives s l c) || (s.cmd l c).writer == 0xFF then s
  else s.putCmd l c ⟨0#32, 0xFF, decide (c < 64), false, false, (s.cmd l c).tick16⟩

/-- A LOOPS commit in both lanes (R111). -/
def loopsCommit (old : State) (items : List CfgItem) (s : State) : State :=
  if !items.any fun it => it.region == 1 then s
  else
    let chs := touchedChs items
    let s := forUp 2 (fun l t => forAll chs (loopChannel old l) t) s
    let s := forUp 2 (fun l t => (showLoops l (forUp 64 (freeCmd l) t)).putBit (fLE_EVT_COMMIT l) true) s
    s.ev 0x3005 chs.length

/-- FUNCTIONS and LIMITS: a mode or filter change of an input blinds it for this T (R73); the targets follow a band
that has changed (R63). -/
def functionsCommit (old : State) (items : List CfgItem) (s : State) : State :=
  let s := forUp 48 (fun n t =>
    let was := (uinMode old n, old.get (fFUN_UIN_CFG_TAU n))
    if hasItem items 0x0101 n && was != (uinMode t n, t.get (fFUN_UIN_CFG_TAU n)) then
      t.setUin n { t.uin n with chg := 1, old := if (t.uin n).chg = 1 then (t.uin n).old else was } else t) s
  forUp 30 (fun f t => if hasItem items 0x0800 f then setTarget f (t.fnSt f).req t else t) s

/-- OUTPUTS: a channel that the commit includes is released from LASTING; a change of MODE switches it off (R176, R187,
R200). -/
def outputsCommit (old : State) (items : List CfgItem) (s : State) : State :=
  let s := forUp 16 (fun n t =>
    if !hasItem items 0x0301 n then t
    else
      let t := vlvRelease true n t
      if old.get (fVLV_CH_MODE_MODE n) = t.get (fVLV_CH_MODE_MODE n) then t else vlvModeChange n t) s
  forUp 32 (fun n t => if hasItem items 0x0302 n then pswRelease true n t else t) s

/-- CAMERAS: the words an item carries go to the shadows, to be transferred at step 3 of this boundary; a shadow write
made before is lost and counted (R245, R387). -/
def camerasCommit (items : List CfgItem) (s : State) : State :=
  let touched (n k : Nat) : Bool := items.any fun it =>
    it.code == 0x0401 && it.index == n && decide (it.offset < 4 * k + 4) && decide (4 * k < it.offset + it.length)
  forUp 6 (fun n t => forUp 11 (fun k u =>
    if !touched n k then u
    else
      let p := u.pipe n
      let u := if p.written.contains k then u.inc (fISP_SUPERSEDED n) else u
      let sh := (List.range 11).map fun j => p.shadow.getD j (u.rd (shadowAddr n j))
      u.setPipe n { p with shadow := sh.set k (p.img.getD k 0#32), written := p.written.filter fun j => j != k }) t) s

/-- The fields the map knows, with their cell sizes, origins and season starts (R279). -/
def noteField (s : State) : State :=
  let id := (s.map.newField.map Prod.fst).getD (s.get fMAP_FIELD_ID)
  let o := [BitVec.ofNat 32 (s.get fMAP_CFG_CELL), s.rd fMAP_ORG_LAT.addr, s.rd fMAP_ORG_LON.addr, s.rd fMAP_ORG_H.addr,
    s.rd fMAP_SEASON_LO.addr, s.rd fMAP_SEASON_HI.addr]
  { s with cfg := { s.cfg with fields := tabSet (fun _ => []) s.cfg.fields id o } }

/-- MAP: a new field identity opens at the next map update; a new nominal kernel takes the kernel's place there (R279,
R290). -/
def mapRegion (items : List CfgItem) (s : State) : State :=
  let s := if items.any fun it => it.code == 0x0600 then noteField s else s
  if items.any fun it => it.code == 0x0601 then { s with map := { s.map with kerReset := some s.clk.tick } } else s

/-- COMMS: a port that the commit enables claims its address (R353); an entry that it changes starts anew. -/
def commsCommit (old : State) (items : List CfgItem) (s : State) : State :=
  let s := { s with can := { s.can with vals := s.can.vals.filter fun v => !hasItem items 0x0701 (v.1 - 192) } }
  forUp 6 (fun p t =>
    if hasItem items 0x0700 p && !old.bit (fCAN_PORT_CFG_EN p) && t.bit (fCAN_PORT_CFG_EN p) then canEnable p t else t) s

/-- SWING: a crop declaration moves to its presets; any other commit restarts the dither (R146). -/
def swingRegion (items : List CfgItem) (s : State) : State :=
  if hasItem items 0x0903 0 then cropDeclared s
  else if items.any fun it => it.region == 8 then swingCommitted s
  else s

/-- A commit's items take effect in every region at T of the frame boundary (R387). -/
def applyCommit (items : List CfgItem) (s : State) : State :=
  let old := s
  let s := applyItems items s
  let s := functionsCommit old items (loopsCommit old items s)
  let s := camerasCommit items (outputsCommit old items s)
  swingRegion items (commsCommit old items (mapRegion items s))

/-! ## Answers (R382, R391, R392) -/

/-- An answer to a transaction request: 0 SERVED, 1 BUSY, 2 REFUSED, 3 ABORTED, with its reason and first failing
item; a fleet request is answered by `cfgr`, whose body the spec leaves open (log entry 29). -/
def cfgAnswer (owner out reason item : Nat) (s : State) : State :=
  let s := ((s.put fCFG_RESULT_OUTCOME out).put fCFG_RESULT_REASON reason).put fCFG_RESULT_ITEM item
  let s := if out = 1 ∨ out = 2 then s.putBit fCFG_EVT_REFUSED true else s
  let s := if out = 2 then s.inc fCFG_CNT_REFUSED else s
  if owner = 3 then publish 0xB [BitVec.ofNat 8 out, BitVec.ofNat 8 reason] s else s

def setRegions (mask st : Nat) (s : State) : State :=
  forUp 9 (fun r t => if mask.testBit r then t.put (fRegion r) st else t) s

def showTx (s : State) : State :=
  match s.cfg.tx with
  | none => s.wr fCFG_TX.addr 0#32
  | some x => ((s.put fCFG_TX_HANDLE x.handle).put fCFG_TX_OWNER x.owner).put fCFG_TX_MASK x.mask

def setTx (x : Option CfgTx) (s : State) : State := showTx { s with cfg := { s.cfg with tx := x } }

/-- A transaction request is served by the manager, in OPEN (R381). -/
def cfgServed (s : State) : Bool := appOn s

/-- BEGIN (R382). -/
def txBegin (owner mask : Nat) (s : State) : State :=
  if !s.straps.manager then cfgAnswer owner 2 10 0 s
  else if !cfgServed s then s
  else if (List.range 9).any fun r => mask.testBit r && s.get (fRegion r) == 2 then cfgAnswer owner 1 0 0 s
  else if s.cfg.tx.isSome then cfgAnswer owner 2 1 0 s
  else if mask = 0 ∨ 512 ≤ mask then cfgAnswer owner 2 2 0 s
  else
    let h := s.cfg.nextHandle
    let s := { s with cfg := { s.cfg with nextHandle := if h = 65535 then 1 else h + 1 } }
    let s := setRegions mask 1 (setTx (some ⟨h, owner, mask, [], s.clk.tick, none⟩) s)
    (cfgAnswer owner 0 0 0 s).ev 0xA001 owner (mask % 256)

/-- An item's value has the form of its code: bytes of its length, or the values of a whole record. -/
def valForm (it : CfgItem) (size : Nat) : Bool := match it.val with
  | .bytes b => b.length == it.length && !(itemSlots it.code it.index).isEmpty
  | .crop .. => it.code == 0x0105 && it.offset == 0 && it.length == size
  | .sigMap _ => it.code == 0x0701 && it.offset == 0 && it.length == size
  | .txMsg _ => it.code == 0x0702 && it.offset == 0 && it.length == size
  | .ethPort .. => it.code == 0x0704 && it.offset == 0 && it.length == size
  | .fleet .. => it.code == 0x0705 && it.offset == 0 && it.length == size

/-- The slots whose words the item's bytes touch, with the word's number. -/
def touchedSlots (it : CfgItem) : List (CfgSlot × Nat) :=
  (itemSlots it.code it.index).zipIdx.filter fun q =>
    decide (it.offset < 4 * q.2 + 4) && decide (4 * q.2 < it.offset + it.length)

/-- The item's bytes reach state words, derived words or LIMITS fields (R380). -/
def reachesState (it : CfgItem) : Bool :=
  (touchedSlots it).any fun q => match q.1 with
    | .state => true
    | .lane _ keep => (List.range 4).any fun b =>
        keep / 256 ^ b % 256 != 0 && decide (it.offset ≤ 4 * q.2 + b) && decide (4 * q.2 + b < it.offset + it.length)
    | _ => false

/-- The item would change bits that the image alone sets (R380). -/
def changesImage (s : State) (it : CfgItem) : Bool :=
  match it.val with
  | .bytes b =>
    let bs := patchBytes (itemBytes s it.code it.index) b it.offset
    ((touchedSlots it).any fun q => match q.1 with
      | .reg a only => ((s.rd a ^^^ bytesWord bs q.2) &&& BitVec.ofNat 32 only) != 0#32
      | _ => false)
    || (it.code == 0x0600 &&
        let id := (bytesWord bs 1).toNat % 65536
        (match s.cfg.fields.find? fun f => f.1 == id with
          | some f => f.2.take 4 != [BitVec.ofNat 32 ((bytesWord bs 0).toNat % 4), bytesWord bs 2, bytesWord bs 3, bytesWord bs 4]
              && ((s.map.store.any fun c => c.1.field == id) || (List.range 512).any fun n =>
                s.bit (fMAP_DIR_STAT_VALID n) && s.get (fMAP_DIR_STAT_FIELD n) == id)
          | none => false))
  | _ => false

/-- The reason for which a STAGE is REFUSED, 0 for none (R380, R382, R392). -/
def stageReason (s : State) (x : CfgTx) (it : CfgItem) : Nat :=
  if 9 ≤ it.region || !x.mask.testBit it.region then 2
  else match itemInfo it.code with
    | none => 3
    | some (r, n, size) =>
      if r ≠ it.region || decide (n ≤ it.index) || decide (7 < it.pos) || it.length == 0
          || decide (size < it.offset + it.length) || !valForm it size || reachesState it then 3
      else if it.pos == s.straps.pos && changesImage s it then 4
      else if 262144 < itemSize (it :: x.items) ∨ 65536 < itemSize (it :: x.items.filter fun y => y.pos == it.pos) then 5
      else 0

/-- A later STAGE of the same bytes replaces the earlier one (R382). -/
def putItem (it : CfgItem) (its : List CfgItem) : List CfgItem :=
  let same (y : CfgItem) : Bool :=
    y.pos == it.pos && y.code == it.code && y.index == it.index && y.offset == it.offset && y.length == it.length
  if its.any same then its.map fun y => if same y then it else y else its ++ [it]

/-- The open transaction, if this owner and handle name it (R381). -/
def ownTx (s : State) (owner handle : Nat) : Option CfgTx := s.cfg.tx.filter fun x => x.owner == owner && x.handle == handle

/-- STAGE (R382). -/
def txStage (owner handle : Nat) (it : CfgItem) (s : State) : State :=
  if !s.straps.manager then cfgAnswer owner 2 10 0 s
  else if !cfgServed s then s
  else match ownTx s owner handle with
    | none => cfgAnswer owner 2 9 0 s
    | some x =>
      let x := { x with reqAt := s.clk.tick }
      let r := stageReason s x it
      if r ≠ 0 then cfgAnswer owner 2 r 0 (setTx (some x) s)
      else cfgAnswer owner 0 0 0 (setTx (some { x with items := putItem it x.items }) s)

/-- Staged items are discarded and the regions return to IDLE: 0 request, 1 timeout, 2 connection, 3 power state (R382). -/
def rollBack (cause : Nat) (s : State) : State :=
  match s.cfg.tx with
  | none => s
  | some x => (setTx none (setRegions x.mask 0 s)).ev 0xA002 x.owner cause

/-- ROLLBACK (R382). -/
def txRollback (owner handle : Nat) (s : State) : State :=
  if !s.straps.manager then cfgAnswer owner 2 10 0 s
  else if !cfgServed s then s
  else match ownTx s owner handle with
    | none => cfgAnswer owner 2 9 0 s
    | some _ => cfgAnswer owner 0 0 0 (rollBack 0 s)

/-- The worker positions that items name. -/
def otherPos (s : State) (its : List CfgItem) : List Nat :=
  (List.range 8).filter fun p => p != s.straps.pos && its.any fun it => it.pos == p

/-- The workers of EXPECT. -/
def expected (s : State) : List Nat := (List.range 8).filter fun p => p != 0 && (s.get fECN_CFG_EXPECT).testBit p

/-- The reason for which a COMMIT is REFUSED before its validation, 0 for none (R383, R390). -/
def commitReason (s : State) (x : CfgTx) (persist : Bool) : Nat :=
  if (otherPos s x.items).any fun p => !isAligned s p then 7
  else if persist && (expected s).any fun p => !isAligned s p then 7
  else if persist && s.bit fCFG_STATUS_PERSIST_BUSY then 8
  else 0

/-- A COMMIT is REFUSED (R382, R393). -/
def commitRefused (owner reason item : Nat) (s : State) : State :=
  (cfgAnswer owner 2 reason item s).evMax 0xA003 owner reason (f16OfNat item)

/-- COMMIT starts the validation of the staged configuration (R382, R383). -/
def txCommit (owner handle : Nat) (persist : Bool) (s : State) : State :=
  if !s.straps.manager then cfgAnswer owner 2 10 0 s
  else if !cfgServed s then s
  else match ownTx s owner handle with
    | none => commitRefused owner 9 0 s
    | some x =>
      let x := { x with reqAt := s.clk.tick }
      let r := commitReason s x persist
      if r ≠ 0 then commitRefused owner r 0 (setTx (some x) s)
      else setTx (some { x with validating := some persist }) s

def execCfgBegin (owner : Fin 3) (mask : Nat) (s : State) : Out := .next (txBegin (owner + 1) mask s)
def execStage (owner : Fin 3) (handle : Nat) (item : CfgItem) (s : State) : Out := .next (txStage (owner + 1) handle item s)
def execCommit (owner : Fin 3) (handle : Nat) (persist : Bool) (s : State) : Out :=
  .next (txCommit (owner + 1) handle persist s)
def execRollback (owner : Fin 3) (handle : Nat) (s : State) : Out := .next (txRollback (owner + 1) handle s)

/-- 120 s without a request (R382). -/
def execStagingTimeout (s : State) : Out :=
  match s.cfg.tx with
  | some x => if x.reqAt + 2400000 ≤ s.clk.tick then .next (rollBack 1 s) else .next s
  | none => .next s

/-- The requester's connection is lost (R382). -/
def execRequesterDisconnect (owner : Fin 3) (s : State) : Out :=
  match s.cfg.tx with
  | some x => if x.owner = owner.val + 1 then .next (rollBack 2 s) else .next s
  | none => .next s

/-! ## Validation and the apply tick (R383–R385) -/

/-- The staged commit becomes APPLYING, with its apply tick (R382, R385). -/
def startApply (x : CfgTx) (persist : Bool) (s : State) : State :=
  let ws := if persist then expected s else otherPos s x.items
  let segs := ws.flatMap fun p => partSegs (itemSize (x.items.filter fun it => it.pos == p))
  let t0 := s.clk.tick
  let last := placeRuns s segs (t0 + 1)
  let a := boundaryFrom (if ws.isEmpty then t0 + 4 else last + 3)
  let s := if ws.isEmpty then s
    else
      let s := sendCommit a ws x.items persist false [x.handle] s
      { s with ecn := { s.ecn with slotFree := last } }
  let s := stageLoops (x.items.filter fun it => it.pos == s.straps.pos) s
  let g := s.ecn.nextGen - 1
  let s := { s with cfg := { s.cfg with
    applying := s.cfg.applying ++ [⟨x.handle, x.owner, x.mask, x.items, a, g, persist, !ws.isEmpty, none⟩] } }
  let s := setRegions x.mask 2 (setTx none s)
  cfgAnswer x.owner 0 0 0 (s.put64 fCFG_APPLY_TICK_LO.addr a)

/-- The record of a LOOPS commit whose schedule disagrees with the image (R109). -/
def schedRefused (items : List CfgItem) (s : State) : State :=
  let t := applyItems items s
  if items.any (fun it => it.region == 1) && !proofOk t then schedEvent t s else s

/-- Validation ends (R383): the configuration of every touched position is checked completely. `remote` is the first
item that fails on a position other than the manager's. -/
def execValidationDone (remote : Option (Fin 1024)) (s : State) : Out :=
  match s.cfg.tx with
  | none => .next s
  | some x =>
    match x.validating with
    | none => .next s
    | some persist =>
      let mine := x.items.zipIdx.filter fun q => q.1.pos == s.straps.pos
      let items := mine.map Prod.fst
      let own := if items.isEmpty then none else (firstBad items s).map fun k => ((mine.map Prod.snd).getD k 0)
      let bad := match own, remote with
        | none, none => none
        | some k, none => some k
        | none, some r => some r.val
        | some k, some r => some (min k r.val)
      match bad with
      | none => .next (startApply x persist s)
      | some k =>
        let s := schedRefused items s
        .next (commitRefused x.owner 6 k (setTx (some { x with validating := none }) s))

/-! ## Commits on a worker (R384, R386) -/

/-- The regions that items name, as a mask. -/
def itemMask (its : List CfgItem) : Nat := ((List.range 9).filter fun r => its.any fun it => it.region == r).foldl (fun m r => m + 2 ^ r) 0

/-- A part of a COMMIT message: with every part and a correct CRC, and when the items pass the worker's own checks, the
worker holds the message and its regions are APPLYING (R384, R386). -/
def execCommitMessage (part : CommitPart) (s : State) : Out :=
  if s.straps.manager ∨ part.pos ≠ s.straps.pos ∨ part.crcOk = false ∨ part.apply ≤ s.clk.tick then .next s
  else
    let ps := (s.cfg.parts.filter fun p => p.gen == part.gen && p.index != part.index) ++ [part]
    if !(List.range part.count).all fun i => ps.any fun p => p.index == i then
      .next { s with cfg := { s.cfg with parts := ps } }
    else
      let items := (List.range part.count).flatMap fun i => (ps.find? fun p => p.index == i).elim [] fun p => p.items
      let s := { s with cfg := { s.cfg with parts := [] } }
      if !items.isEmpty && (firstBad items s).isSome then .next (schedRefused items s)
      else
        let s := stageLoops items s
        let m := itemMask items
        let s := { s with cfg := { s.cfg with applying := s.cfg.applying ++
          [⟨0, 0, m, items, part.apply, part.gen, part.persist, true, if part.replay then some s.straps.pos else none⟩] } }
        let s := (setRegions m 2 s).put64 fCFG_APPLY_TICK_LO.addr part.apply
        .next (holdMsg 0x06 part.gen part.apply s)

/-! ## The frame boundary (R382, R387, R389) -/

/-- A PERSIST write begins (R390). -/
def startPersist (s : State) : State :=
  let s := { s with cfg := { s.cfg with writing := some (s.get fCFG_PERSIST_GEN + 1) } }
  (s.putBit fCFG_STATUS_PERSIST_BUSY true).putBit fCFG_STATUS_PERSIST_FAIL false

/-- A commit is applied on this module (R382, R387). -/
def commitApplied (c : CfgCommit) (s : State) : State :=
  let mine := c.items.filter fun it => it.pos == s.straps.pos
  if s.straps.manager ∧ c.replay.isSome then s
  else
    let s := applyCommit mine s
    let s := { s with cfg := { s.cfg with own := s.cfg.own ++ mine
                                          others := if s.straps.manager then
                                            s.cfg.others ++ c.items.filter (fun it => it.pos != s.straps.pos) else s.cfg.others } }
    let s := if c.replay.isSome then { s with ecn := { s.ecn with replay := false } } else s
    let s := ((setRegions c.mask 0 s).inc fCFG_CNT_APPLIED).putBit fCFG_EVT_APPLIED true
    let s := s.put fCFG_GEN (s.get fCFG_GEN + 1)
    let s := s.evMax 0xA004 (c.mask % 256) 0 (f16OfNat (s.get fCFG_GEN))
    if c.persist then startPersist s else s

/-- A commit was aborted on the ring (R382, R389). -/
def commitAborted (c : CfgCommit) (w : EcnWait) (s : State) : State :=
  let miss := (w.need.find? fun p => !w.acked.contains p).getD 0
  let s := s.putBit fCFG_EVT_ABORTED true
  if !s.straps.manager then setRegions c.mask 0 s
  else match c.replay with
    | some p =>
      let s := s.ev 0xA005 0 miss
      let a := boundaryFrom (s.clk.tick + 400)
      let s := sendCommit a [p] c.items false true [(p : Int), 0] s
      { s with cfg := { s.cfg with applying := s.cfg.applying ++ [{ c with apply := a, gen := s.ecn.nextGen - 1 }] } }
    | none =>
      if s.cfg.tx.isSome then
        let s := (cfgAnswer c.owner 3 1 0 (setRegions c.mask 0 s)).ev 0xA005 0 miss
        s.ev 0xA002 c.owner 4
      else
        let s := setRegions c.mask 1 (setTx (some ⟨c.handle, c.owner, c.mask, c.items, s.clk.tick, none⟩) s)
        (cfgAnswer c.owner 3 0 0 s).ev 0xA005 0 miss

/-- One commit at its apply tick. -/
def commitDue (c : CfgCommit) (s : State) : State :=
  let s := { s with cfg := { s.cfg with applying := s.cfg.applying.filter fun x => x != c } }
  if !c.ring then commitApplied c s
  else match s.ecn.waits.find? fun w => w.type == 6 && w.gen == c.gen with
    | none => commitApplied c s
    | some w =>
      let t := settle w s
      if ringOk s w then commitApplied c t else commitAborted c w t

/-- The transaction commits of this frame boundary (R23, R387). -/
def commitBoundary (s : State) : State := forAll (s.cfg.applying.filter fun c => c.apply == s.clk.tick) commitDue s

/-! ## PERSIST and new images (R379, R390) -/

/-- The slot that is not in use. -/
def otherSlot (s : State) : Nat := 1 - s.get fCFG_STATUS_SLOT

def setNor (slot : Nat) (i : ImageIn) (s : State) : State :=
  { s with cfg := { s.cfg with nor := (slot, i) :: s.cfg.nor.filter fun x => x.1 != slot } }

/-- A DERIVED image write ends; one that fails leaves the slot without a valid magic (R390). -/
def execPersistDone (failed : Bool) (s : State) : Out :=
  match s.cfg.writing, s.cfg.image with
  | some g, some i =>
    let slot := otherSlot s
    let img : ImageIn := { i with kind := 1, seq := s.get fCFG_IMG_SEQ + 1, persistGen := g, overlay := i.overlay ++ s.cfg.own }
    let s := { s with cfg := { s.cfg with writing := none } }
    let s := (s.putBit fCFG_STATUS_PERSIST_BUSY false).putBit fCFG_EVT_PERSIST true
    if failed then .next (((setNor slot { img with magicOk := false } s).putBit fCFG_STATUS_PERSIST_FAIL true).ev 0xA008 slot)
    else
      let s := { s with cfg := { s.cfg with others := [] } }
      .next ((setNor slot img s).evMax 0xA007 slot 0 (f16OfNat g))
  | _, _ => .next s

/-- A new BASE image goes to the slot not in use, with the sequence number in use plus 1; REFUSED while a PERSIST write
is in progress (R379). -/
def execBaseImageWrite (image : ImageIn) (s : State) : Out :=
  if s.bit fCFG_STATUS_PERSIST_BUSY then .next (cfgAnswer 1 2 8 0 s)
  else
    let i := { image with kind := 0, seq := s.get fCFG_IMG_SEQ + 1, persistGen := 0, overlay := [] }
    .next (cfgAnswer 1 0 0 0 (setNor (otherSlot s) i s))

/-! ## Requests of the fleet (R365, R381) -/

/-- An `in/cfg` request whose signature verifies under the fleet operator key goes to the transaction machine; any other
is answered REFUSED (R365). -/
def execCfgRequest (sigOk : Bool) (op : CfgOp) (s : State) : Out :=
  match s.eth.cfgIn with
  | none => .next s
  | some _ =>
    let s := { s with eth := { s.eth with cfgIn := none } }
    if !sigOk then .next (publish 0xB [2#8, 0#8] s)
    else match op with
      | .cfgBegin m => .next (txBegin 3 m s)
      | .stage h it => .next (txStage 3 h it s)
      | .commit h p => .next (txCommit 3 h p s)
      | .rollback h => .next (txRollback 3 h s)

end Sys2Proof.Machine
end

