-- ==== Sys2Proof/Machine/PowerOps.lean ====
section
/-!
DEFINITION. What other chapters do to the power state and to the Keyhole: LOUVRED and OPEN with the services that stop
and start (R37, R427, R428), and the fall of the Keyhole level (R438).
-/
namespace Sys2Proof.Machine

/-- CLK_DOM_LOCK: the domains that run and are locked, by the bring-up step and the power state (R33, R58, R418). -/
def showDoms (s : State) : State :=
  let n := s.rst.next
  let ka := if 2 ≤ n then 0x1 else 0
  let main := if 3 ≤ n ∧ pwrState s < 2 then 0x126E else 0
  let app := if 8 ≤ n ∧ pwrState s = 0 then 0xD90 else 0
  s.wr fCLK_DOM_LOCK.addr (BitVec.ofNat 32 (ka + main + app) &&& ~~~(s.rd fCLK_DOM_FAULT.addr))

/-- A change of the power state: EVT.STATE_CHG and 0xC001 with the new state (R428). -/
def setPwr (v : Nat) (s : State) : State :=
  if pwrState s = v then s
  else showDoms (((s.put fPWR_STATUS_STATE v).putBit fPWR_EVT_STATE_CHG true).ev 0xC001 0 v)

/-- LIMP_HOLD: held in LOUVRED by LIMP. -/
def showHold (s : State) : State :=
  s.putBit fPWR_STATUS_LIMP_HOLD (s.bit fCLM_STATUS_LIMP && pwrState s == 1)

/-- The services of OPEN stop; claims, commands and loop states stay as they are (R37). -/
def servicesStop (s : State) : State := ispStop (fusStop (netStop (mapStop (canLouvred s))))

/-- The services of OPEN start again, but for those whose image failed; the map goes on from its tiles in DRAM (R428,
R436). -/
def servicesStart (s : State) : State :=
  let s := if s.wide then s.putBit fMAP_STATUS_RUN true else s
  let s := if s.sec.bootFail.testBit 3 then s else fusStart (netStart s)
  if s.sec.bootFail.testBit 5 then s else ispStart s

/-- OPEN to LOUVRED; a STAGING transaction is rolled back (R428, R382). -/
def toLouvred (s : State) : State :=
  if pwrState s ≠ 0 then showHold s else showHold (setPwr 1 (servicesStop (rollBack 3 s)))

/-- The Keyhole level falls to SEALED: 1 expiry, 2 reset, 3 power state (R438). -/
def sealKeyhole (cause : Nat) (s : State) : State :=
  if s.get fSEC_STATUS_LEVEL = 0 then s
  else
    let s := { s with sec := { s.sec with tokenEnd := 0 } }
    (((s.put fSEC_STATUS_LEVEL 0).put fSEC_TOKEN_MIN_LEFT 0).putBit fSEC_EVT_LEVEL_CHG true).ev 0xB005 0 cause

end Sys2Proof.Machine
end

