-- ==== Sys2Proof/Machine/Lanes.lean ====
section
/-!
DEFINITION. Lanes and the claim controller (R151–R173): give-ups, takeover, LIMP, recovery, take-back, Hinge swaps, and
the commands of the Jambs that act on claims.
-/
namespace Sys2Proof.Machine

/-! ## A lane's state (R154, R160, R171) -/

def State.lane (s : State) (l : Nat) : LaneSt := if l = 0 then s.clm.laneA else s.clm.laneB
def State.setLane (s : State) (l : Nat) (x : LaneSt) : State :=
  { s with clm := if l = 0 then { s.clm with laneA := x } else { s.clm with laneB := x } }

/-- 0 ACTIVE, 1 STANDBY, 2 RECOVERING, 3 BARRED. -/
def laneState (s : State) (l : Nat) : Nat := s.get (if l = 0 then fCLM_STATUS_STATE_A else fCLM_STATUS_STATE_B)

def setLaneState (l v : Nat) (s : State) : State :=
  (s.put (if l = 0 then fCLM_STATUS_STATE_A else fCLM_STATUS_STATE_B) v).setLane l
    { s.lane l with stateAt := s.clk.tick }

/-- The tick of a claim change (R162). -/
def noteSwitch (s : State) : State := s.put64 fCLM_SWITCH_TICK_LO.addr s.clk.tick

/-- A lane's claim; a change of it is dated (R171). -/
def setClaim (l v : Nat) (s : State) : State :=
  if s.get (claimFld l) = v then s else noteSwitch (s.put (claimFld l) v)

/-- ACTIVE or STANDBY. -/
def laneUp (s : State) (l : Nat) : Bool := decide (laneState s l < 2)

def homeLane (s : State) : Nat := s.get fCLM_STATUS_HOME
def inLimp (s : State) : Bool := s.bit fCLM_STATUS_LIMP

/-- Each claim state sends its own claim number (R154). -/
def claimOf (st : Nat) : Nat := if st = 0 then 12 else if st = 1 then 8 else 0

/-- A lane takes a state and its claim. -/
def takeState (l v : Nat) (s : State) : State := setClaim l (claimOf v) (setLaneState l v s)

/-- HINGE_INT seconds after the later of start-up, the last Hinge swap and the last take-back (R163). -/
def nextHinge (s : State) : State :=
  s.put64 fCLM_HINGE_NEXT_LO.addr (s.clk.tick + 20000 * s.get fCLM_CFG_HINGE_INT)

/-- The two lanes run different images during an update (R405). -/
def imagesDiffer (s : State) : Bool := s.upd.newA != s.upd.newB

/-! ## Give-up (R152, R160, R169, R170, R172) -/

/-- Counted give-ups of the lane in the last 200,000 ticks. -/
def recentGiveUps (s : State) (l : Nat) : List Nat := (s.lane l).giveUps.filter fun t => decide (s.clk.tick < t + 200000)

/-- CLM_GU_A, CLM_GU_B. -/
def fGu (l : Nat) : Fld := if l = 0 then fCLM_GU_A else fCLM_GU_B
def showGu (l : Nat) (s : State) : State := s.put ⟨(fGu l).addr, 7, 0⟩ (min (recentGiveUps s l).length 255)

/-- LIMP is entered: the DOUBLE record, no claim, LOUVRED (R170). -/
def enterLimp (l row : Nat) (s : State) : State :=
  let s := (s.putBit fCLM_STATUS_LIMP true).putBit fCLM_EVT_LIMP true
  toLouvred ((setClaim 1 0 (setClaim 0 0 s)).ev 0x2030 l row)

/-- The row of R169 for a give-up of the ACTIVE lane while the other is no STANDBY. -/
def limpRow (s : State) (o reason : Nat) : Nat :=
  let x := s.lane o
  let now := x.lastGu == some s.clk.tick
  if now && (reason == 5 || reason == 6) && (x.lastReason == 5 || x.lastReason == 6) then 6
  else if x.guFrom == 0 && (x.lastGu.elim false fun t => decide (s.clk.tick ≤ t + 2)) then 2
  else if !x.halted && laneState s o != 3 && x.guFrom == 1 && x.lastGu.isSome then 5
  else 3

/-- The registers for which `p` holds return to their reset values, with their configuration reloaded (R422). -/
def resetRegs (p : Nat → Bool) (s : State) : State :=
  let held := s.regs.filter fun c => p c.1 && imgMask c.1 != 0
  forAll held (fun c t => wrImage c.1 c.2 t) { s with regs := s.regs.filter fun c => !p c.1 }

/-- The registers of the block at base `b`. -/
def inPage (b a : Nat) : Bool := decide (0x40000000 + 0x10000 * b ≤ a) && decide (a < 0x40010000 + 0x10000 * b)

/-- The registers and the loop engine of a lane's island (R414). -/
def clearIsland (l : Nat) (s : State) : State := (resetRegs (inPage (4 + l)) s).setLoop l Loop.init

/-- A LANE reset: the island, the pending and active bits of the lane's interrupt sources, and its source in
RST_CAUSE (R414, R417, R454). -/
def laneReset (l : Nat) (s : State) : State :=
  let s := forUp 8 (fun n t => (t.setPend (96 * l + n) false).setActive (96 * l + n) false) (clearIsland l s)
  let mine (n : Nat) : Bool := decide (96 * l < n) && decide (n ≤ 96 * l + 96)
  let s := { s with pic := { s.pic with claimed := s.pic.claimed.filter fun c => !mine c.1 } }
  let s := s.setBitAt fRST_CAUSE_SRC (4 + l) true
  s.ev 0xC101 0 (s.get fRST_CAUSE_SRC)

/-- A recovery starts at a step of R161; it needs an ACTIVE lane. -/
def startRecovery (l step : Nat) (s : State) : State :=
  if laneState s (1 - l) ≠ 0 || inLimp s then s.setLane l { s.lane l with step := 0 }
  else
    let s := s.setLane l { s.lane l with step := step, since := s.clk.tick, recAt := s.clk.tick }
    if step = 1 then laneReset l s else s

/-- A give-up of either lane during a swap abandons it (R164). -/
def leaveHinge (l : Nat) (s : State) : State :=
  let s := { s with clm := { s.clm with hinge := false, takeBack := false, announced := false } }
  if !s.bit fCLM_STATUS_HINGE_RUN then s
  else
    let s := ((s.putBit fCLM_STATUS_HINGE_RUN false).put fCLM_HINGE_STAT_RES 3).putBit fCLM_EVT_HINGE_DONE true
    (nextHinge s).ev 0x2022 l

/-- The records of a give-up: CLM_LAST_GU, the counts, and 0x2001 with the reason (R152, R171). -/
def noteGiveUp (l reason : Nat) (counted : Bool) (s : State) : State :=
  let x := s.lane l
  let s := s.setLane l { x with
    lastGu := some s.clk.tick, lastReason := reason, guFrom := laneState s l, resume := []
    giveUps := if counted then s.clk.tick :: recentGiveUps s l else recentGiveUps s l }
  let s := { s with clm := { s.clm with disturb := s.clk.tick } }
  let s := ((s.put fCLM_LAST_GU_LANE l).put fCLM_LAST_GU_REASON reason).putBit fCLM_LAST_GU_COUNTED counted
  let s := showGu l (s.inc ⟨(fGu l).addr, 31, 8⟩)
  (s.putBit fCLM_EVT_GIVE_UP true).ev 0x2001 l reason

/-- A lane that gives up sends a drop frame to each die and no further frame in this tick; one that loses its clock or its supply
sends nothing (R152). -/
def sendDrop (l reason : Nat) (s : State) : State :=
  if reason = 5 ∨ reason = 6 then s
  else { s with clm := { s.clm with sent := s.clm.sent ++ [mkSent 0xFF 0 l 0#32 false false false 0] } }

/-- The STANDBY lane o takes over with claim 12 (R157, R160). The longest switch time of 0x2005 is a free value (log entry 30). -/
def takeOver (o : Nat) (s : State) : State :=
  let (w, s) := s.fresh
  (takeState o 0 s).evMax 0x2005 o 0 (w.extractLsb' 0 16)

/-- A lane gives up with a reason of R172: it holds no claim and is RECOVERING, or BARRED at the third counted give-up
in the window; a STANDBY lane takes over, and without a lane that has its claim the module enters LIMP (R152, R157, R160,
R169). -/
def giveUp (l reason : Nat) (s : State) : State :=
  let o := 1 - l
  let counted := decide (1 ≤ reason) && decide (reason ≤ 9)
  let was := laneState s l
  let row := limpRow s o reason
  let barred := counted && decide (2 ≤ (recentGiveUps s l).length)
  let s := leaveHinge l (noteGiveUp l reason counted (sendDrop l reason s))
  let s := (takeState l (if barred then 3 else 2) s).putBit (fLE_STATUS_RUN l) false
  let s := if barred then (s.putBit fCLM_EVT_BARRED true).ev 0x2004 l else s
  let s := if was ≠ 0 || laneState s o == 0 then s
    else if laneState s o = 1 then takeOver o s
    else if inLimp s then s
    else enterLimp l row s
  if barred then s.setLane l { s.lane l with step := 0 } else startRecovery l 1 s

/-- A lane fault detected after the bring-up self-test and before claims are enabled: recorded with its reason, and
taken as a failed self-test when claims are enabled (R160). -/
def bootFault (l reason : Nat) (s : State) : State :=
  (s.setLane l { s.lane l with passed := false, bootReason := reason }).ev 0x2001 l reason

/-- A lane fault of R151: ACTIVE, STANDBY and RECOVERING lanes give up. -/
def laneFault (l reason : Nat) (s : State) : State :=
  if !s.bit fRST_STATUS_CLAIMS then (if (s.lane l).passed then bootFault l reason s else s)
  else if laneState s l = 3 ∨ (s.lane l).halted ∨ inLimp s then s
  else if laneState s l = 2 ∧ (s.lane l).step = 0 then s
  else giveUp l reason s

/-- One of the lane's monitors detects a fault (R151). -/
def execLaneFault (lane : Lane) (reason : Fin 7) (s : State) : Out :=
  if reason.val = 0 then .next s else .next (laneFault (laneIx lane) reason s)

/-- The commands of the channels of a pane that has not ended are not sent (R110). -/
def unsend (l pane : Nat) (s : State) : State :=
  let chs := paneChannels s (paneAddr l pane)
  let late (f : Sent) : Bool := f.lane == l && chs.any (drives s l (f.w1.toNat % 256))
  { s with clm := { s.clm with sent := s.clm.sent.filter fun f => !late f } }

/-- A pane has not ended at cycle 17,600: the pane stops, its results are not sent, and the lane drops its claim (R110,
R114). -/
def execPaneDeadline (lane : Lane) (pane : Fin 256) (cycle : Fin 20000) (s : State) : Out :=
  if cycle.val < 17600 then .next s
  else
    let l := laneIx lane
    let s := unsend l pane s
    let s := ((s.inc (fLE_DL_CNT l)).putBit (fLE_EVT_DEADLINE l) true).putBit (fLE_STATUS_RUN l) false
    .next (laneFault l 3 (s.evx 0x3001 pane 0 (f16OfNat cycle) (f16OfNat cycle)))

/-- CLM_CTL.TEST_GU_A and TEST_GU_B: SERVED only when both lanes are up and have been undisturbed for 100,000 ticks
(R171). -/
def testGiveUp (req : Req) (l : Nat) (s : State) : State :=
  let calm (k : Nat) : Bool := laneUp s k && decide ((s.lane k).stateAt + 100000 ≤ s.clk.tick)
  if reqIsOem req || !calm 0 || !calm 1 || decide (s.clk.tick < s.clm.disturb + 100000) then s else giveUp l 10 s

def execTestGuA (req : Req) (s : State) : Out := .next (testGiveUp req 0 s)
def execTestGuB (req : Req) (s : State) : Out := .next (testGiveUp req 1 s)

/-! ## Frames at the dies (R152, R153, R155–R157) -/

/-- The channel of a stage acts on a command that changes between two tick edges: another lane's, or that of its policy (R157,
R166, R204). -/
def actStage (c : Nat) (s : State) : State :=
  if c < 16 then (if (s.vlv c).modeChg || (s.vlv c).released then s else vlvAct c s)
  else if c < 48 then showBudget (pswAct (!tickRuns s) (c - 16) s)
  else s

/-- A die has seen lane l drop: the frames it holds of that lane are discarded, its channels act on what is left, and a STANDBY
lane raises its claim on the die's report (R157). -/
def dropLane (die l : Nat) (s : State) : State :=
  let old := s
  let s := dropDie die l s
  let s := forAll (dieStages die) (fun c t => if (t.jamb c).val = (old.jamb c).val then t else actStage c t) s
  if die < 12 ∧ s.bit fRST_STATUS_CLAIMS = true ∧ inLimp s = false ∧ laneState s (1 - l) = 1 then takeOver (1 - l) s else s

/-- A drop frame: STAGE 0xFF and every other field 0 but LANE (R153). -/
def isDrop (w0 w1 : Word) (l : Nat) : Bool := w0 == 0#32 && w1 == BitVec.ofNat 32 (0xFF + 0x1000 * l)

def hingeCheck (flag : Nat) (s : State) : State :=
  if s.bit fCLM_STATUS_HINGE_RUN && s.clm.hingeFail == 0 then { s with clm := { s.clm with hingeFail := flag } } else s

/-- A frame arrives at a die on a lane's link: held for the next tick, taken as a drop, or discarded, counted and
recorded with the first test it fails (R155). -/
def execCommandFrame (die : Fin 13) (link : Lane) (w0 w1 w2 : Word) (cycle : Fin 20000) (s : State) : Out :=
  let l := laneIx link
  if die.val < 12 && s.dies.dieOff then .next s
  else
    let s := setLink die l true s
    if frameCrc w0 w1 = w2.extractLsb' 0 16 ∧ isDrop w0 w1 l = true then .next (dropLane die l s)
    else
      let f := frameFault s die l cycle w0 w1 w2
      if f = 0 then .next (holdFrame l w0 w1 s)
      else
        let s := (s.inc fCLM_FRAME_CNT).putBit fCLM_EVT_FRAME_ERR true
        .next (hingeCheck 2 (s.ev 0x2010 die f))

/-- A drop frame from a lane reaches a die (R157). -/
def execDropFrame (die : Fin 13) (lane : Lane) (s : State) : Out :=
  if die.val < 12 && s.dies.dieOff then .next s else .next (dropLane die (laneIx lane) (setLink die (laneIx lane) true s))

/-- 200 TICK cycles without a symbol on a lane's link count as a drop frame from that lane (R152). -/
def execLinkSilence (die : Fin 13) (lane : Lane) (s : State) : Out :=
  if die.val < 12 && s.dies.dieOff then .next s else .next (dropLane die (laneIx lane) (setLink die (laneIx lane) false s))

/-- A mismatch of a stage: counted and recorded, or, while the lanes run different images, counted apart (R159, R405). -/
def noteMismatch (c : Nat) (s : State) : State :=
  if imagesDiffer s then s.inc fUPD_HANDOVER_MISMATCH
  else
    let j := s.jamb c
    let s := s.setJamb c { j with mism := j.mism + 1 }
    let s := { s with clm := { s.clm with disturb := s.clk.tick } }
    let s := forUp 2 (fun l t => if (t.lane l).step = 5 then t.setLane l { t.lane l with mism := true } else t) s
    hingeCheck 3 (((s.inc fCLM_MISMATCH_CNT).putBit fCLM_EVT_MISMATCH true).ev 0x2012 c)

/-- The selection of one Jamb for the next tick (R156). During the proving period of a Hinge swap the lane selected for
the present tick must be the non-home lane (R163). -/
def selectStage (c : Nat) (s : State) : State :=
  if !dieLive s (stageDie c) then s
  else
    let j := s.jamb c
    let r := selectLane j.nextA j.nextB j.sel (homeLane s)
    let s := s.setJamb c { j with nextSel := r.1 }
    let s := if r.2 then (s.inc fCLM_TIE_CNT).ev 0x2011 c else s
    let s := if framesDiffer j.nextA j.nextB then noteMismatch c s else s.setJamb c { s.jamb c with mism := 0 }
    if j.ever && j.sel != 2 - homeLane s then hingeCheck 1 s else s

/-- The guard of the tick: every Jamb selects the command for the next tick (R156). -/
def execJambSelect (s : State) : Out := .next (forUp 64 selectStage s)

/-- The same stage mismatched in 3 consecutive ticks with one lane ACTIVE and the other STANDBY: the STANDBY lane gives
up (R159). -/
def execMismatchGiveUp (stage : Fin 64) (s : State) : Out :=
  if (s.jamb stage).mism < 3 ∨ laneUp s 0 = false ∨ laneUp s 1 = false then .next s
  else .next (giveUp (if laneState s 0 = 1 then 0 else 1) 7 s)

/-- 100 µs without a claim in force: the stage applies its policy, and 0x2031 is recorded (R165, R166). While no tick
edge falls, the die's own clock measures them. -/
def execNoclaimPolicy (stage : Fin 48) (s : State) : Out :=
  let c := stage.val
  match (s.jamb c).timer with
  | none => .next s
  | some t =>
    if tickRuns s && decide (s.clk.tick < t + 2) then .next s
    else
      let pol := s.get (fCLM_POL_POLICY c)
      .next (((actStage c (applyPolicy c pol (s.getF (fCLM_SAFE c)) s)).putBit fCLM_EVT_NOCLAIM true).ev 0x2031 c pol)

/-- HOLD_WIN ms after HOLD was applied the stage acts as OFF; while no tick edge falls, the die's own clock measures them (R166,
R345). -/
def execHoldWindowEnd (stage : Fin 64) (s : State) : Out :=
  let c := stage.val
  let j := s.jamb c
  let pol := if c < 48 then s.get (fCLM_POL_POLICY c) else s.get (fCAN_TXS_CFG_POLICY (c - 48))
  let win := if c < 48 then s.get (fCLM_POL_HOLD_WIN c) else s.get (fCAN_TXS_CFG_HOLD_WIN (c - 48))
  if j.pol = false ∨ j.off = true ∨ pol ≠ 0 ∨ (tickRuns s && decide (s.clk.tick < j.polAt + 20 * win)) = true then .next s
  else .next (actStage c (s.setJamb c { j with off := true }))

/-! ## Recovery (R161) -/

/-- The offsets inside a lane's SRAM that the state copy carries: SIG to the pane tables, and the learning memories to
the supervision words (R90, R98, R123). -/
def copied (o : Nat) : Bool := decide (o < 0x7000) || (decide (0x10000 ≤ o) && decide (o < 0x50000))

def inCopy (l a : Nat) : Bool := decide (laneBase l ≤ a) && copied (a - laneBase l)

/-- The state of the ACTIVE lane `o` is copied to lane `l` (R161 step 3). -/
def copyLane (o l : Nat) (s : State) : State :=
  let src := s.mem.filter fun c => inCopy o c.1
  let s := { s with mem := s.mem.filter fun c => !inCopy l c.1 }
  let s := forAll src (fun c t => t.wr8 (c.1 - laneBase o + laneBase l) c.2) s
  let s := forUp 3 (fun k t => t.wr (fLeDeg l (32 * k)).addr (t.rd (fLeDeg o (32 * k)).addr)) s
  let s := (s.putBit (fLE_STATUS_CFG_OK l) true).putBit (fLE_STATUS_PROOF_OK l) true
  (showLoops l s).setLoop l { s.loop o with snapNew := none, snap := [], paneCycles := 0 }

/-- A step of the recovery ends: 1 LANE reset, with the new images in an update; 2 self-test; 3 state copy; 4 the wait
for the frame boundary. -/
def execRecoveryStepDone (lane : Lane) (s : State) : Out :=
  let l := laneIx lane
  let x := s.lane l
  let next (s : State) : State := s.setLane l { s.lane l with step := x.step + 1, since := s.clk.tick }
  if laneState s l ≠ 2 ∨ x.halted = true then .next s
  else match x.step with
    | 1 =>
      let upd := s.upd.phase == 1 || s.upd.phase == 3
      let s := if upd then (if l = 0 then { s with upd := { s.upd with newA := true } }
        else { s with upd := { s.upd with newB := true } }) else s
      .next (next s)
    | 2 => .next (next s)
    | 3 =>
      if laneState s (1 - l) ≠ 0 then .next s
      else
        let s := copyLane (1 - l) l s
        .next (next (s.putBit (fLE_STATUS_RUN l) true))
    | 4 => if s.clk.tick % 400 = 0 then .next ((next s).setLane l { (next s).lane l with mism := false }) else .next s
    | _ => .next s

/-- A die has reported a mismatch in the compare frame of lane l (R161). -/
def comparedBad (s : State) (l : Nat) : Bool := (s.lane l).mism

/-- A step fails: the image load of step 1 in an update, by a DRAM error (R28); the self-test of step 2; or a mismatch in the
compare frame, which the claim controller ignores while the lanes run different images (R405). A counted give-up restarts
the recovery (R160, R161). -/
def execRecoveryStepFail (lane : Lane) (s : State) : Out :=
  let l := laneIx lane
  let x := s.lane l
  if laneState s l ≠ 2 ∨ x.halted = true then .next s
  else if x.step = 2 || (x.step == 1 && (s.upd.phase == 1 || s.upd.phase == 3)) || (x.step == 5 && comparedBad s l) then
    .next (giveUp l 9 s)
  else .next s

/-- A frame with another claim. -/
def withClaim (c : Nat) (f : Sent) : Sent :=
  let w1 := BitVec.ofNat 32 (fldPut ⟨0, 11, 8⟩ f.w1 c).toNat
  { f with w1 := w1, w2 := (frameCrc f.w0 w1).setWidth 32 }

/-- The frames of the present tick carry the claims that the lanes have now; a drop frame stays (R160, R162). -/
def reclaim (s : State) : State :=
  { s with clm := { s.clm with sent := s.clm.sent.map fun f =>
      if f.w1.toNat % 256 = 0xFF then f else withClaim (s.get (claimFld f.lane)) f } }

/-- The frame boundary that ends the compare frame: the lane is STANDBY and sends claim 8 in the frames of this tick (R160). In an
update the handover goes on (R405). The length of 0x2002 counts from the last restart of the recovery (DESIGN CHOICE, log entry
132). -/
def execRecoveryComplete (lane : Lane) (s : State) : Out :=
  let l := laneIx lane
  let x := s.lane l
  if laneState s l ≠ 2 ∨ x.halted = true ∨ x.step ≠ 5 ∨ s.clk.tick % 400 ≠ 0 ∨ s.clk.tick < x.since + 400
      ∨ laneState s (1 - l) ≠ 0 ∨ x.mism = true then .next s
  else
    let s := reclaim (takeState l 1 (s.setLane l { x with step := 0, passed := true }))
    let ph := s.upd.phase
    let s := if ph = 1 then { s with upd := { s.upd with phase := 2 } }
      else if ph = 3 then
        { s.put fUPD_HANDOVER_TICKS (min (s.clk.tick - s.get64 fUPD_GO_TICK_LO.addr) 65535) with
          upd := { s.upd with phase := 4 } }
      else s
    .next ((s.putBit fCLM_EVT_STANDBY_UP true).evMax 0x2002 l 0 (f16OfRatio false (s.clk.tick - x.recAt) 20))

/-! ## Take-back, Hinge swap and switch tick (R160, R162–R164) -/

/-- The take-back of the home lane is due at tick t: 100,000 ticks in STANDBY without a give-up or a mismatch (R160). -/
def takeBackDue (s : State) (t : Nat) : Bool :=
  let h := homeLane s
  laneState s h == 1 && laneState s (1 - h) == 0 && decide ((s.lane h).stateAt + 100000 ≤ t)
    && decide (s.clm.disturb + 100000 ≤ t) && !s.bit fCLM_STATUS_HINGE_RUN

/-- Why a Hinge swap due at tick t is DEFERRED (R164), 0 for none: 1 lane states, 2 standby not stable, 3 region APPLYING, 4
update, 5 LIMP. Where several hold, LIMP is shown first and then the lowest number (DESIGN CHOICE, log entry 133). -/
def hingeWhyAt (s : State) (t : Nat) : Nat :=
  let h := homeLane s
  if inLimp s then 5
  else if laneState s h ≠ 0 ∨ laneState s (1 - h) ≠ 1 then 1
  else if t < (s.lane (1 - h)).stateAt + 100000 then 2
  else if (List.range 9).any fun r => s.get (fRegion r) == 2 then 3
  else if 3 ≤ s.get fUPD_STATUS_STATE ∧ s.get fUPD_STATUS_STATE ≠ 5 then 4
  else 0

/-- A swap due at tick t is DEFERRED and recorded once, or waits for the coming switch tick (R164). -/
def hingeDueAt (t : Nat) (s : State) : State :=
  let why := hingeWhyAt s t
  if why = 0 then
    { (s.putBit fCLM_HINGE_STAT_DEFERRED false).put fCLM_HINGE_STAT_WHY 0 with clm := { s.clm with hinge := true } }
  else
    let told := s.bit fCLM_HINGE_STAT_DEFERRED
    let s := (s.putBit fCLM_HINGE_STAT_DEFERRED true).put fCLM_HINGE_STAT_WHY why
    let s := { s with clm := { s.clm with hinge := false } }
    if told then s else s.ev 0x2023 0 why

/-- An exchange of the claims is due at the coming switch tick: a take-back, a Hinge swap, its end, the exchange of an
update's handover, or a DEFERRED halt (R162, R405, R439). -/
def exchangeDue (s : State) : Bool :=
  s.clm.takeBack || s.clm.hinge || s.upd.phase == 2 || s.clm.haltNext.isSome
    || (s.bit fCLM_STATUS_HINGE_RUN && s.clm.hingeFail == 0 && s.clk.tick + 1 == s.clm.hingeAt + 400)

/-- What falls due by the coming switch tick `t`, of which the frames are sent in the tick before it: a take-back, a Hinge swap, and
a swap that has become due and whose conditions may have changed since (R162–R164). -/
def foresee (t : Nat) (s : State) : State :=
  let s := if takeBackDue s t then { s with clm := { s.clm with takeBack := true } } else s
  if s.bit fCLM_STATUS_HINGE_RUN || !s.bit fRST_STATUS_CLAIMS then s
  else if s.clm.hinge || s.bit fCLM_HINGE_STAT_DEFERRED then hingeDueAt t s
  else if s.get64 fCLM_HINGE_NEXT_LO.addr ≤ t && hingeWhyAt s t == 0 then hingeDueAt t s
  else s

/-- In the tick before a switch tick both lanes send their new claims (R162). -/
def announceSwap (s : State) : State :=
  if (s.clk.tick + 1) % 400 ≠ 200 || s.clm.announced then s
  else
    let s := foresee (s.clk.tick + 1) s
    if !exchangeDue s || !laneUp s 0 || !laneUp s 1 then s
    else
      let a := s.get fCLM_STATUS_CLAIM_A
      let s := (s.put fCLM_STATUS_CLAIM_A (s.get fCLM_STATUS_CLAIM_B)).put fCLM_STATUS_CLAIM_B a
      { s with clm := { s.clm with announced := true } }

/-- A change that becomes due in the tick before a switch tick is in the frames of that tick (R162). One that becomes due in the
switch tick itself and that nothing foresaw takes effect at the next one, its frames having been sent (DEDUCED, log entry
134). -/
def announceLate (s : State) : State := reclaim (announceSwap s)

/-- The home lane's take-back falls due (R160). -/
def execTakeBack (s : State) : Out :=
  if takeBackDue s s.clk.tick then .next (announceLate { s with clm := { s.clm with takeBack := true } }) else .next s

/-- The tick of CLM_HINGE_NEXT is reached, or a due swap was DEFERRED (R163, R164). -/
def execHingeSwapDue (s : State) : Out :=
  if s.bit fRST_STATUS_CLAIMS = false ∨ s.bit fCLM_STATUS_HINGE_RUN = true ∨ s.clm.hinge = true then .next s
  else if s.bit fCLM_HINGE_STAT_DEFERRED = true ∨ s.get64 fCLM_HINGE_NEXT_LO.addr ≤ s.clk.tick then
    .next (announceLate (hingeDueAt s.clk.tick s))
  else .next s

/-- CLM_CTL.HINGE_NOW makes a swap due at once (R164). -/
def execHingeNow (req : Req) (s : State) : Out :=
  if reqIsOem req || !s.bit fRST_STATUS_CLAIMS || s.bit fCLM_STATUS_HINGE_RUN then .next s
  else .next (announceLate (hingeDueAt s.clk.tick s))

/-- The lanes exchange ACTIVE and STANDBY. -/
def exchange (s : State) : State :=
  let a := laneState s 0
  noteSwitch (takeState 1 a (takeState 0 (laneState s 1) s))

/-- The switch tick: the announced exchange takes effect (R162). -/
def execSwitchTick (s : State) : Out :=
  if s.clk.tick % 400 ≠ 200 ∨ s.clm.announced = false ∨ laneUp s 0 = false ∨ laneUp s 1 = false
      ∨ s.bit fCLM_STATUS_HINGE_RUN = true then .next s
  else
    let c := s.clm
    let s := exchange { s with clm := { c with announced := false, takeBack := false, hinge := false } }
    if c.takeBack then .next (((nextHinge s).putBit fCLM_EVT_TAKE_BACK true).ev 0x2003 (homeLane s))
    else if s.upd.phase = 2 then .next { s with upd := { s.upd with phase := 3 } }
    else if c.haltNext.isSome then .next { s with clm := { s.clm with haltAt := some (s.clk.tick + 1) } }
    else
      let s := { s with clm := { s.clm with hingeAt := s.clk.tick, hingeFail := 0 } }
      .next (s.putBit fCLM_STATUS_HINGE_RUN true)

/-- A Hinge swap ends: FAILED at the first condition it misses, and the non-home lane gives up; PASSED at the switch tick
S + 400, at which the home lane is ACTIVE again (R163). -/
def execHingeSwapEnd (s : State) : Out :=
  let n := 1 - homeLane s
  let fin (res : Nat) (s : State) : State :=
    nextHinge (((s.putBit fCLM_STATUS_HINGE_RUN false).put fCLM_HINGE_STAT_RES res).putBit fCLM_EVT_HINGE_DONE true)
  if s.bit fCLM_STATUS_HINGE_RUN = false then .next s
  else if s.clm.hingeFail ≠ 0 then .next (giveUp n 8 ((fin 2 s).ev 0x2021 n s.clm.hingeFail))
  else if s.clk.tick < s.clm.hingeAt + 400 then .next s
  else .next ((fin 1 (exchange { s with clm := { s.clm with announced := false } })).ev 0x2020 n)

/-! ## Clock monitors (R57) -/

/-- A clock monitor fault: a LANE domain is a fault of that lane, TICK or REF stops both lanes' commands. -/
def execClockMonitorFault (domain : Fin 13) (s : State) : Out :=
  let s := (s.setBitAt fCLK_DOM_FAULT domain true).setBitAt fCLK_DOM_LOCK domain false
  let s := s.ev 0x1043 domain
  if domain.val = 3 then .next (laneFault 0 5 s)
  else if domain.val = 12 then .next (laneFault 1 5 s)
  else if domain.val = 1 ∨ domain.val = 2 then .next { s with clk := { s.clk with stopped := true } }
  else .next s

/-! ## Enabling of claims (R160, R331, R424) -/

/-- Both lanes take their first states; every claiming frame carries RESUME = 1 (R160, R418 step 9). -/
def enableClaims (s : State) : State :=
  let us := s.since9V
  let s := { s with rst := { s.rst with next := 10 } }
  let s := ((s.put fRST_STATUS_STEP 9).putBit fRST_STATUS_CLAIMS true).putBit fRST_EVT_CLAIMS true
  let s := (s.putBit fRST_EVT_STEP true).put (fRST_T 8) (min us 4294967295)
  let h := homeLane s
  let n := 1 - h
  let all := List.range 64
  let up (l v : Nat) (s : State) : State :=
    let s := (takeState l v s).putBit (fLE_STATUS_RUN l) true
    s.setLane l { s.lane l with resume := all }
  let fail (l : Nat) (s : State) : State :=
    giveUp l (if (s.lane l).bootReason = 0 then 9 else (s.lane l).bootReason) s
  let a := (s.lane h).passed
  let b := (s.lane n).passed
  let s := if a then up h 0 s else if b then up n 0 s else s
  let s := if a && b then up n 1 s else if a then fail n s else if b then fail h s else s
  (nextHinge s).evMax 0xC104 0 0 (f16OfNat (us / 1000))

/-- Claims may be enabled: step 8 has ended and nothing forbids a claim. -/
def claimsReady (s : State) : Bool :=
  s.rst.next == 9 && !s.rst.stuck && !claimsOn s && !inLimp s && s.pwr.parkAt.isNone && decide (pwrState s < 2)

/-- The manager enables claims when every expected position is JOINED, a worker in the tick after its join tick or after
its replay commit (R331, R424). -/
def execClaimsEnable (s : State) : Out :=
  if claimsReady s = false then .next s
  else if s.straps.manager then
    if s.ecn.firstAt.isSome = true ∧ ((expected s).all (isJoined s)) = true then .next (enableClaims s) else .next s
  else if ecnJoin s = 2 ∧ s.ecn.joinedAt + 1 ≤ s.clk.tick ∧ s.ecn.replay = false then .next (enableClaims s)
  else .next s

/-- JOIN_WAIT has passed since the manager's first frame: 0x9106 with the missing positions, and claims (R331). -/
def execJoinWaitExpire (s : State) : Out :=
  if claimsReady s = false ∨ s.straps.manager = false then .next s
  else match s.ecn.firstAt with
    | none => .next s
    | some t =>
      if s.clk.tick < t + 20 * s.get fECN_CFG_JOIN_WAIT then .next s
      else
        let missing := ((expected s).filter fun p => !isJoined s p).foldl (fun m p => m + 2 ^ p) 0
        .next (enableClaims (if missing = 0 then s else s.ev 0x9106 0 missing))

end Sys2Proof.Machine
end

