-- ==== Sys2Proof/Machine/Startup.lean ====
section
/-!
DEFINITION. What a start does (R374–R378, R418–R424, R431): the configuration is read and loaded, the output stages are
read back, and the services begin. The bring-up sequence and the resume from LATCHED share these.
-/
namespace Sys2Proof.Machine

/-! ## Straps (R3, R4, R328, R483) -/

/-- What the registers show of the straps and fuses. -/
def showStraps (s : State) : State :=
  let m := s.straps.manager
  let s := (s.putBit fSYS_STATUS_ORDER s.straps.orderB).putBit fSYS_STATUS_MANAGER m
  let s := ((s.putBit fECN_STATUS_MANAGER m).put fECN_STATUS_POS s.straps.pos).put fECN_STATUS_JOIN (if m then 2 else 0)
  s.wr fCLK_STATUS.addr (if m then 0x56#32 else 0x42#32)

/-! ## Reading the configuration (R374–R378) -/

/-- A signature by key slot k is accepted only while that key is held (R433). -/
def keyHeld (s : State) (k : Nat) : Bool := s.bitAt fSEC_KEYS_VALID k

/-- The first of the checks 1 to 6 of R376 that an image fails, 0 for none. -/
def imageFault (i : ImageIn) (s : State) : Nat :=
  let p := s.straps.pos
  let fw := s.get fUPD_RUN_VER
  if !(i.magicOk && i.version == 1 && decide (i.kind ≤ 1) && decide (i.length ≤ 31457280) && decide (1 ≤ i.sections)
      && decide (i.sections ≤ 256) && i.tableOk) then 1
  else if !(i.sigOk && keyHeld s 2 && (i.kind == 0 || (i.baseOk && keyHeld s 5))) then 2
  else if i.kind == 1 && !i.entriesOk then 3
  else if !(i.positions.testBit p && i.orders.testBit (2 * p + if s.straps.orderB then 1 else 0)) then 4
  else if fw < i.fwLo ∨ i.fwHi < fw then 5
  else if !i.hashOk then 6
  else 0

/-- The SYSTEM section and the sections of this position beside registers and lane words. -/
def loadSys (i : ImageIn) (s : State) : State :=
  let x := i.sys
  let serial := s.get64 fSEC_SERIAL_LO.addr
  let s := { s with
    ecn := { s.ecn with plan := x.plan, rx := x.uses }
    swg := { s.swg with sigs := x.swgSigs }
    mail := { s.mail with dests := x.mailDests }
    fn := { s.fn with guid := x.guid }
    att := { s.att with slots := x.slots, revoked := x.revoked } }
  let s := forUp 6 (fun p t => t.setPipe p { t.pipe p with cal := x.cams.getD p CamCal.none }) s
  forUp 6 (fun p t =>
    let nm := (x.names.find? fun n => n.1 == p).elim 0 Prod.snd
    t.setCanPort p { t.canPort p with name := nm / 2097152 * 2097152 + serial % 2097152, rawSel := x.rawSel.contains p }) s

/-- The image, with the items committed since, becomes the configuration of this position; FUN_REC_CTL.LOCK mirrors
FUN_LOCK (R84, R376, R380, R420). -/
def loadImage (i : ImageIn) (own : List CfgItem) (s : State) : State :=
  let s := forAll i.regs (fun r t => wrImage r.1 r.2 t) s
  let s := forAll i.lane (fun w t => (t.wr32 w.1 w.2).wr32 (laneBase 1 + w.1) w.2) s
  let s := loadSys i s
  let mine := (i.items ++ i.overlay ++ own).filter fun it => it.pos == s.straps.pos
  let s := { applyItems mine s with cfg := { (applyItems mine s).cfg with image := some i, own := own } }
  let s := forUp 30 (fun f t => t.putBit (fFUN_REC_CTL_LOCK f) (t.bitAt fFUN_LOCK_LOCK f)) s
  { s with map := { s.map with nom := nomKernel s } }

/-- The configuration takes effect at a start: derived words and states of the enabled channels, empty learning
memories, the presets, and the status registers (R98, R109, R123, R125, R65). -/
def startConfig (s : State) : State :=
  let s := s.put fCLM_STATUS_HOME (s.get fCLM_CFG_HOME)
  let s := forUp 2 (fun l t => forUp 96 (fun n u =>
    let a := chAddr l n
    let u := clearRep l n (deriveRec a u)
    if u.mbit (cEN a) then u.mput (tSTATE a) 1 else u) t) s
  let s := forUp 2 (fun l t => forUp 256 (freeCmd l) t) s
  let s := forUp 2 (fun l t => ((showLoops l t).putBit (fLE_STATUS_CFG_OK l) true).putBit (fLE_STATUS_PROOF_OK l) true) s
  let s := forUp 30 (fun f t => if fnHome t f then request f 0 (t.getF (fFUN_REC_PRESET f)) t else t) s
  s.putBit fFUN_STATUS_CFG_OK true

/-- What CFG_STATUS and the identity registers show of an image in force (R378). -/
def showImage (slot : Nat) (i : ImageIn) (s : State) : State :=
  let s := ((s.put fCFG_STATUS_SLOT slot).putBit fCFG_STATUS_DERIVED (i.kind == 1)).putBit fCFG_STATUS_LOADED true
  let s := (s.put (wordAt fCFG_IMG_SEQ.addr) i.seq).put (wordAt fCFG_PERSIST_GEN.addr) i.persistGen
  s.put64 fCFG_SYS_ID_LO.addr i.sysId

/-- A slot's image, or the check of R376 it fails; check 7 is that of a COMMIT on the whole content (R383). -/
def trySlot (slot : Nat) (s : State) : Except Nat State :=
  match s.cfg.nor.find? fun x => x.1 == slot with
  | none => .error 1
  | some (_, i) =>
    let f := imageFault i s
    if f ≠ 0 then .error f
    else
      let t := loadImage i [] s
      if cfgOk t then .ok (showImage slot i t) else .error 7

/-- The records of both lanes for a slot's image whose schedule disagrees with its proof (R109, R114). -/
def slotSched (slot : Nat) (s : State) : State :=
  match s.cfg.nor.find? fun x => x.1 == slot with
  | none => s
  | some (_, i) =>
    let t := loadImage i [] s
    if imageFault i s ≠ 0 || proofOk t then s else schedEvent t (schedEvent t s)

/-- A slot's sequence number + 1 where its magic and version are valid, 0 otherwise. -/
def slotSeq (s : State) (n : Nat) : Nat :=
  match s.cfg.nor.find? fun x => x.1 == n with
  | some (_, i) => if i.magicOk && i.version == 1 then i.seq + 1 else 0
  | none => 0

/-- The slot with the higher sequence number among those with a valid magic and version is read first (R376). -/
def firstSlot (s : State) : Nat := if slotSeq s 0 < slotSeq s 1 then 1 else 0

/-- The single read of the NOR: the other slot where the chosen one fails, and 0xA00A where both do (R376, R377). The
answer says whether a configuration is in force. -/
def readNor (s : State) : Bool × State :=
  let a := firstSlot s
  match trySlot a s with
  | .ok t => (true, t)
  | .error f =>
    let s := ((slotSched a s).ev 0xA009 a f).put fCFG_STATUS_FAIL_CHK f
    match trySlot (1 - a) s with
    | .ok t => (true, t)
    | .error g => (false, ((slotSched (1 - a) s).ev 0xA009 (1 - a) g).ev 0xA00A)

/-- The retained copy of a WARM or ECNIL start (R420). -/
def readKept (i : ImageIn) (s : State) : State :=
  let own := s.cfg.own
  let slot := (s.cfg.nor.find? fun x => x.2 == i).elim 0 Prod.fst
  showImage slot i (loadImage i own s)

/-! ## Output-stage handshake (R104, R421) -/

/-- A die that has started from its own power-on: its Jambs and channels hold nothing, every channel is off, and what the die
shows is at its reset values. -/
def freshDie (die : Nat) (s : State) : State :=
  let stages := dieStages die
  let s := forAll stages (fun c t => clearSel c (showPol c false (t.setJamb c Jamb.init))) s
  let s := { s with dies := { s.dies with live := s.dies.live.filter (· != die), failed := s.dies.failed.filter (· != die) } }
  if die < 4 then
    let s := ((s.setRail die Rail.init).setBitAt fVLV_STATUS_READY die false).setBitAt fVLV_STATUS_HOT die false
    let s := s.wr (fVLV_BANK_RAIL_V_RAIL die).addr 0#32
    forAll stages (fun c t =>
      let t := (t.setVlv c VlvCh.init).setBitAt fVLV_STATUS_LATCHED c false
      let t := (t.wr (fVLV_CH_STAT c).addr 0#32).wr (fVLV_CH_TPK_TPK c).addr 0xFFFF#32
      (t.wr (fVLV_CH_MOT c).addr 0xFFFF#32).wr (fVLV_CH_I_I_MEAS c).addr 0#32) s
  else if die < 12 then
    let s := s.wr (fPSW_DIE_CASE (die - 4)).addr 0#32
    forAll stages (fun c t =>
      let n := c - 16
      let t := ((t.setPsw n PswCh.init).setBitAt fPSW_STATUS n false).setBitAt fPSW_LOCK n false
      ((t.wr (fPSW_CH_STAT n).addr 0#32).wr (fPSW_CH_MEAS_I_MEAS n).addr 0#32).wr (fPSW_CH_CLAMP_SUM n).addr 0#32) s
  else s

/-- The readback of a stage in its command unit (R186, R203). -/
def readback (s : State) (c : Nat) : F32 := (stageCmd s c).getD 0#32

/-- A channel takes U_LAST from the readback of its stages, and its CMD entries hold it until the channel first writes them;
at module start U_PLAUS takes the same value, and a SIG destination starts from U_SAFE (R98, R104, R117, R167). -/
def takeReadback (start : Bool) (l n : Nat) (s : State) : State :=
  let a := chAddr l n
  let da := s.mget (cDESTA a)
  let db := s.mget (cDESTB a)
  let hold (c : Nat) (s : State) : State :=
    let s := s.putCmd l c ⟨readback s c, n, true, false, false, s.clk.tick⟩
    s.setLoop l { s.loop l with held := c :: (s.loop l).held.filter fun k => k != c }
  let set (u : F32) (s : State) : State :=
    let s := s.wr32 (a + 0x5C) u
    if start then s.wr32 (supAddr l n + 0x38) u else s
  match s.mget (cDEST a) with
  | 0 => hold da (set (readback s da) s)
  | 1 => hold db (hold da (set (f32Sub (readback s da) (readback s db)) s))
  | _ =>
    if start then (set (s.chF a 0x3C) s).putSig l (960 + da % 64) ⟨s.chF a 0x3C, 0, true, false, true⟩ else s

/-- The handshake sets the arbiter that acts, where none does yet (R196, R206). -/
def showArb (s : State) : State :=
  let q := arbQuad s
  showBudget (if s.bit fPSW_ARB_VALID || q == 8 then s else (s.put fPSW_ARB_QUAD q).putBit fPSW_ARB_VALID true)

/-- The handshake of the dies `tried`, with those that complete it, each with whether it has started from its own
power-on; the others are left out and recorded (R421). `wide` is a reset of reach WARM or wider, which clears LASTING
latches (R187, R200). -/
def handshake (tried : List Nat) (dies : List (Fin 12 × Bool)) (wide : Bool) (s : State) : State :=
  let dies := dies.filter fun d => tried.contains d.1.val
  let s := forAll dies (fun d t => if d.2 then freshDie d.1 t else t) s
  let ok := dies.map fun d => d.1.val
  let kept := s.dies.hs.filter fun d => !tried.contains d
  let s := { s with dies := { s.dies with
    hs := kept ++ ok, live := s.dies.live.filter (fun d => !ok.contains d) ++ ok, dieOff := false } }
  let s := forAll tried (fun d t => if ok.contains d then t else t.ev 0xC109 d) s
  let s := forAll s.rst.modes (fun n t => if ok.contains (n / 4) then vlvModeChange n t else t) s
  let s := { s with rst := { s.rst with modes := [] } }
  let s := if wide then
      forUp 16 (fun n t => if ok.contains (n / 4) then vlvClearWin n (vlvRelease false n t) else t) s else s
  let s := if wide then
      forUp 32 (fun n t => if ok.contains (4 + n / 4) then pswClearWin n (pswRelease false n t) else t) s else s
  let s := showArb s
  forUp 2 (fun l t =>
    let chs := (List.range 96).filter fun n => t.mbit (cEN (chAddr l n))
      && (wide || (List.range 48).any fun c => tried.contains (stageDie c) && drives t l c n)
    let t := forAll chs (fun n u => seedNext l n (takeReadback wide l n u)) t
    if wide then t.setLoop l { t.loop l with started := [] } else t) s

/-! ## Services (R423) -/

/-- Step 7: the application cluster, GNSS, ISP, fusion and the map engine start, each unless its image failed (R18,
R436). `gns` is what the GNSS start finds; `warm` is a start that kept the DRAM (R299). -/
def startServices (gns : GnssStart) (warm : Bool) (s : State) : State :=
  let bad (k : Nat) : Bool := s.sec.bootFail.testBit k
  let s := { s with rst := { s.rst with appUp := !bad 3 }, upd := { s.upd with gnsUp := !bad 4 } }
  let s := s.putBit fETH_STATUS_NO_CRED (s.get fSEC_STATUS_LC != 1)
  let s := if s.wide && !bad 4 then gnsStart gns s else s
  let s := if bad 5 then s else ispStart s
  let s := mapStart warm (if bad 3 then s else fusStart s)
  let s := forUp 6 (fun p t => if t.bit (fCAN_PORT_CFG_EN p) then canEnable p t else t) s
  if bad 3 then s else netStart s

/-- Step 8 begins: the manager listens, a worker seeks (R329, R330). -/
def startRing (s : State) : State :=
  { s with ecn := { s.ecn with listenAt := s.clk.tick, since := s.clk.tick } }

end Sys2Proof.Machine
end

