-- ==== Sys2Proof/Machine/Reset.lean ====
section
/-!
DEFINITION. Resets and the bring-up sequence (R414–R426): what each reset clears and keeps, the steps of a start, BLOCK
resets, and full service.
-/
namespace Sys2Proof.Machine

/-! ## What a reset keeps (R414, R417)

The reach of a reset is 1 for WARM and ECNIL, 2 for EXTERNAL, and 3 for POWER_ON and BROWNOUT. -/

/-- Records the intake queue and writes every unwritten record to the event flash (R461, R468). -/
def evrDrain (s : State) : State :=
  evrFlush (forAll s.evr.intake evRecord { s with evr := { s.evr with intake := [] } })

/-- Words of the eMMC, the fuses and the secure flash, which no reset reaches (R411, R443). -/
def lasting (a : Nat) : Bool :=
  a == fUPD_STATUS.addr || (decide (fUPD_RUN_VER.addr ≤ a) && decide (a ≤ fUPD_CONFIRM.addr)) || a == fUPD_CNT.addr
    || a == fSEC_STATUS.addr || (decide (fSEC_KEYS.addr ≤ a) && decide (a ≤ fSEC_SERIAL_HI.addr))
    || (decide ((fSEC_KEYID_LO 0).addr ≤ a) && decide (a ≤ (fSEC_KEYID_HI 6).addr))

/-- Words that show what an output-stage die holds: its configuration and its state, but no counter of the block (R414,
R421). -/
def dieHeld (a : Nat) : Bool :=
  let cnt := a == fVLV_EVT.addr || a == fPSW_EVT.addr || a == fPSW_BUDGET_CNT.addr
    || (List.range 4).any (fun b => a == (fVLV_BANK_CNT b).addr) || (List.range 16).any (fun n => a == (fVLV_CH_CNT n).addr)
    || (List.range 32).any fun n => a == (fPSW_CH_CNT n).addr
  ((inPage 7 a || inPage 8 a) && !cnt) || (decide ((fCLM_DIE 0).addr ≤ a) && decide (a ≤ (fCLM_DIE 12).addr))
    || (decide ((fCLM_POL 0).addr ≤ a) && decide (a ≤ (fCLM_SAFE 47).addr))

/-- Words of the keep-alive island, and the counts that only POWER_ON clears (R425, R442, R454). -/
def keepAlive (a : Nat) : Bool :=
  [fRST_CAUSE.addr, fRST_CNT.addr, fPWR_WAKE.addr, fPWR_RTC.addr, fPWR_ALARM.addr].contains a
    || (List.range 16).any fun m => a == (fPIC_MERGED m).addr

/-- Words that a reset of a reach leaves as they are; a WARM reset also keeps what the map shows (R299). The budget and its
arbiter return to their reset values at a POWER_ON (R205). -/
def survives (reach a : Nat) : Bool :=
  let arb := a == fPSW_ARB_QUAD.addr || a == fPSW_BUDGET_RESV.addr
  lasting a || (dieHeld a && !(reach == 3 && arb)) || (decide (reach ≤ 2) && keepAlive a)
    || (reach == 1 && inPage 12 a && a != fMAP_EVT.addr)

/-- The dies' own times, counted from a tick counter that starts again at 0; `d` was the count. -/
def shiftDies (d : Nat) (s : State) : State :=
  let s := forUp 48 (fun c t =>
    let j := t.jamb c
    t.setJamb c { j with timer := j.timer.map (· - d), polAt := j.polAt - d }) s
  let s := forUp 16 (fun n t =>
    let x := t.vlv n
    t.setVlv n { x with
      wait := x.wait.map (· - 50 * d), reqAt := x.reqAt - 50 * d, boostAt := x.boostAt - 50 * d
      boostEnd := x.boostEnd - 50 * d, chgAt := x.chgAt - d, faults := x.faults.map (· - d / 2000) }) s
  let s := forUp 32 (fun n t =>
    let x := t.psw n
    t.setPsw n { x with
      wait := x.wait.map (· - d), inrAt := x.inrAt.map (· - d), retryAt := x.retryAt - d
      faults := x.faults.map (· - d / 2000), pulses := x.pulses.map (fun p => (p.1 - d, p.2)), lockAt := x.lockAt - d }) s
  { s with dies := { s.dies with arbAt := s.dies.arbAt.map (· - d) } }

/-- The slot of an activation runs: the release running, and the one in the other slot. -/
def takeSlot (s : State) : State :=
  let run := s.get fUPD_RUN_VER
  let next := if s.upd.back then s.upd.oldVer else s.get fUPD_STAGED_VER
  if s.get fUPD_STATUS_SLOT = s.upd.slot then s
  else ({ s with upd := { s.upd with oldVer := run } }.put fUPD_STATUS_SLOT s.upd.slot).put fUPD_RUN_VER next

/-- What a reset during an update leaves of it (R406). The manager keeps the state on its eMMC; a module that resets
before its DONE starts on its old slot and sends FAILED, and one that falls back starts on its old slot and sends
DONE. -/
def updReset (reach : Nat) (s : State) : State :=
  let u := s.upd
  let v := { u with
    phase := 0, newA := false, newB := false, gnsUp := true, slow := 0, harvest := 0, savedAt := 0, reqAt := 0 }
  let s := s.put fUPD_CONFIRM_HARVEST_S u.saved
  match s.get fUPD_STATUS_STATE with
  | 1 =>
    if s.straps.manager && decide (2 ≤ reach) then
      { (s.put fUPD_STATUS_STATE 0).put fUPD_STAGED_VER 0 with upd := { Upd.init with saved := u.saved } }
    else { s with upd := { v with part := none, rx := [] } }
  | 3 => { s.put fUPD_STATUS_STATE 2 with upd := v }
  | 4 => { s with upd := { v with phase := if u.answered then 0 else 1 } }
  | 6 => takeSlot { s with upd := { v with newA := true, newB := true, phase := 4 } }
  | _ => { s with upd := v }

/-- Everything on the main die returns to its reset state, except what the reach keeps (R45, R414), and the register
words that `more` names. -/
def clearDie (reach : Nat) (more : Nat → Bool) (s : State) : State :=
  let old := s
  let rtc : Int := s.get fPWR_RTC
  let s := if reach = 1 then s else shiftDies s.clk.tick (forUp 12 (fun d t => dropDie d 1 (dropDie d 0 t)) s)
  let s := updReset reach s
  { s with
    regs := s.regs.filter fun c => survives reach c.1 || more c.1
    mem := if reach = 1 then s.mem.filter fun c => decide (0x100000000 ≤ c.1) else []
    clk := if reach = 1 then { Clk.init with tick := s.clk.tick, cycle := s.clk.cycle, tbase := s.clk.tbase, stopped := s.clk.stopped }
      else { Clk.init with tbase := rtc * 1000000000 }
    evr := { Evr.init with flash := s.evr.flash }
    pic := { Pic.init with latches := if reach = 3 then [] else s.pic.latches }
    fn := Fun.init
    loopA := Loop.init
    loopB := Loop.init
    mail := Mail.init
    dies := { s.dies with jambs := s.dies.jambs.filter fun j => decide (j.1 < 48), hs := [], failed := s.dies.failed }
    clm := Clm.init
    gns := { Gns.init with nav := s.gns.nav }
    isp := Isp.init
    fus := Fus.init
    ecn := { Ecn.init with wasJoined := reach == 1 && s.ecn.wasJoined }
    can := Can.init
    map := if reach = 1 then s.map else (mapCold s).map
    att := { Att.init with seen := s.att.seen }
    eth := { Eth.init with deltas := keepDeltas reach s, seq := s.eth.seq }
    swg := Swg.init
    cfg := { Cfg.init with
      nor := s.cfg.nor, fields := s.cfg.fields
      image := if reach = 1 then s.cfg.image else none
      own := if reach = 1 then s.cfg.own else []
      others := if reach = 1 then s.cfg.others else [] }
    pwr := Pwr.init
    rst := { Rst.init with
      next := if reach = 3 then 1 else 2, busy := reach, kept := reach == 1 && (old.rst.kept || decide (4 ≤ old.rst.next)) }
    sec := { s.sec with nonce := [], tokenEnd := 0, bootFail := 0 }
    pnl := Pnl.init
    sup := if reach = 3 then Sup.init else s.sup }

/-- The recorder starts: it rebuilds its records from the log, and records a log without its closing marker (R469). -/
def startRecorder (s : State) : State :=
  let s := evrRebuild s
  if s.evr.flash.closed then s
  else { s with evr := { s.evr with flash := { s.evr.flash with closed := true } } }.ev 0x1071

/-- What shows at once after a reset: the life cycle, IGN, the straps, and a map that does not run. -/
def showKept (old : State) (s : State) : State :=
  let s := s.wr fSEC_STATUS.addr (s.rd fSEC_STATUS.addr &&& 0xC3#32)
  let s := (s.putBit fPWR_STATUS_IGN (old.bit fPWR_STATUS_IGN)).putBit fMAP_STATUS_RUN false
  showDoms (showStraps s)

/-- Option loading restarts; after 15 restarts in a row the module stays in step 3 (R419). -/
def optionRestart (s : State) : State :=
  let n := min 15 (s.get fRST_STATUS_OPT_RESTARTS + 1)
  (s.put fRST_STATUS_OPT_RESTARTS n).evMax 0xC102 0 0 (f16OfNat n)

/-- A reset applies: its source in RST_CAUSE, 0xC101, and the fall of the Keyhole level (R417, R437, R438). The events of
a start from step 1 are recorded when the recorder accepts them. -/
def applyReset (reach src why : Nat) (s : State) : State :=
  let old := s
  let level := s.get fSEC_STATUS_LEVEL
  let cause := if reach = 3 then 0#32 else s.rd fRST_CAUSE.addr
  let s := showKept old (clearDie reach (fun _ => false) s)
  let s := (s.wr fRST_CAUSE.addr cause).setBitAt fRST_CAUSE_SRC src true
  let s := if why = 0 then s else s.put fRST_CAUSE_WARM_WHY why
  let s := if src = 3 then s.inc fRST_CNT_WARM else if src = 2 then s.inc fRST_CNT_EXTERNAL else s
  if reach = 3 then s
  else
    let s := (startRecorder s).ev 0xC101 0 (s.get fRST_CAUSE_SRC)
    let s := if level = 0 then s else (s.putBit fSEC_EVT_LEVEL_CHG true).ev 0xB005 0 2
    if old.rst.next = 3 ∧ old.rst.stuck = false then
      optionRestart (s.put fRST_STATUS_OPT_RESTARTS (old.get fRST_STATUS_OPT_RESTARTS))
    else s

/-- A reset source: absorbed into a reset of equal or wider reach, or applied (R417). -/
def resetBy (reach src why : Nat) (s : State) : State :=
  if reach ≤ s.rst.busy then s.setBitAt fRST_CAUSE_SRC src true else applyReset reach src why s

/-! ## Reset sources (R414, R416, R425) -/

/-- A supply of the module rises through its power-on threshold. -/
def execPowerOn (s : State) : Out := .next (resetBy 3 0 0 s)

/-- A rail stays below its monitor threshold for 2 µs or more. -/
def execBrownout (s : State) : Out := .next (resetBy 3 1 0 s)

/-- A wake: PWR_WAKE, PWR_CNT, PWR_EVT and 0xC002 (R428, R442). -/
def noteWake (src ports : Nat) (s : State) : State :=
  let s := (s.put fPWR_WAKE_SRC (2 ^ src)).put fPWR_WAKE_PORT ports
  ((s.inc fPWR_CNT_WAKES).putBit fPWR_EVT_WAKE true).ev 0xC002 0 (2 ^ src)

/-- A wake that starts the module from step 2, which RST_CAUSE shows as EXTERNAL; events that wait for the recorder stay,
and the module is in OPEN again (R428). -/
def wakeReset (src ports : Nat) (s : State) : State :=
  let waits := s.evr.intake
  let t := applyReset 2 2 0 s
  let t := forAll t.evr.intake (fun e u => u.push e) { t with evr := { t.evr with intake := waits } }
  ((noteWake src ports t).putBit fPWR_EVT_STATE_CHG true).ev 0xC001 0 0

/-- RESET_N is recognised low; in LATCHED, SHUTTERED and BOLTED it is a wake as well (R416, R428). -/
def execExternal (s : State) : Out :=
  if 2 ≤ pwrState s then .next (wakeReset 4 0 s) else .next (resetBy 2 2 0 s)

/-- RST_CTL.WARM: the recorder is flushed, and the module resets (R414, R468). -/
def execWarm (req : Req) (s : State) : Out :=
  if reqIsOem req || decide (2 ≤ pwrState s) then .next s
  else .next (resetBy 1 3 1 (if s.rst.busy = 0 then evrDrain s else s))

/-- REF is valid again after a fault of the TICK or REF monitor: a WARM reset (R57). -/
def execClockFaultRecovery (s : State) : Out :=
  if s.clk.stopped then .next (resetBy 1 3 2 s) else .next s

/-- A fatal fault of the running security core: 0xB00A and a WARM reset (R436). -/
def execSecurityCoreFatalFault (s : State) : Out :=
  if s.rst.next < 5 ∨ 2 ≤ pwrState s then .next s else .next ((resetBy 1 3 4 s).ev 0xB00A)

/-- The ECNIL reset that RESET ordered (R333, R414). -/
def ecnilReset (s : State) : State := resetBy 1 7 0 (evrDrain (s.ev 0x910A s.straps.pos 1))

/-! ## The bring-up sequence (R418–R421) -/

/-- A step ends: RST_T, STEP and the event bit; the next begins. -/
def doneStep (k us : Nat) (s : State) : State :=
  let s := { s with rst := { s.rst with next := k + 1, busy := 0, us0 := us, ticks := 0 } }
  let s := (s.put fRST_STATUS_STEP k).put (fRST_T (k - 1)) (min us 4294967295)
  showDoms (s.putBit fRST_EVT_STEP true)

/-- The module stops at a step: 0xC103, FAIL, and no further step (R418). -/
def stopAt (step fail : Nat) (s : State) : State :=
  let s := { s with rst := { s.rst with stuck := true, busy := 0 } }
  (s.put fRST_STATUS_FAIL fail).ev 0xC103 step fail

/-- Step 2: the tick runs, and what the asynchronous latches caught becomes pending (R44, R453). -/
def refValid (us : Nat) (s : State) : State :=
  let s := { s with clk := { s.clk with stopped := false } }
  let s := forAll s.pic.latches (fun n t => t.setPend n true) s
  let kept := s.rst.kept
  let s := doneStep 2 us { s with pic := { s.pic with latches := [] } }
  if kept then { s with rst := { s.rst with next := 4 } }
  else if s.get fRST_STATUS_OPT_RESTARTS = 15 then stopAt 3 6 s
  else s

/-- Step 3: the straps (R4, R328, R419). -/
def loadOptions (us : Nat) (agree manager : Bool) (pos : Nat) (s : State) : State :=
  if !agree then
    let s := optionRestart s
    if s.get fRST_STATUS_OPT_RESTARTS = 15 then stopAt 3 6 s else s
  else
    let s := showStraps { s with straps := ⟨manager, s.straps.orderB, if manager then 0 else pos⟩ }
    if manager && s.straps.orderB then stopAt 3 4 (s.ev 0x1010)
    else if !manager && pos == 0 then stopAt 3 5 (s.ev 0x1011)
    else doneStep 3 us s

/-- The keys that a life-cycle state holds, 1 per slot k (R433). -/
def keysOf (lc : Nat) : Nat := if lc = 1 then 0x6D else if lc = 2 then 0x3F else 0x33

/-- The keys held, and their identities (R433, R443). -/
def showKeys (s : State) : State :=
  let v := keysOf (s.get fSEC_STATUS_LC)
  let s := s.put fSEC_KEYS_VALID v
  let s := forUp 7 (fun k t =>
    let id := if v.testBit k then (t.sec.ids.find? fun x => x.1 == k).elim 0 Prod.snd else 0
    t.put64 (fSEC_KEYID_LO k).addr id) s
  s.putBit fSEC_STATUS_MAPKEY (s.get fSEC_STATUS_LC == 1)

/-- The configuration of a start: the retained copy, or the NOR (R376, R420). -/
def readConfig (copyOk : Bool) (s : State) : Bool × State :=
  match s.rst.kept, s.cfg.image with
  | true, some i => if copyOk then (true, readKept i s) else readNor (s.ev 0xC108)
  | _, _ => readNor s

/-- An image fails its check (R436). -/
def bootBad (k : Nat) (s : State) : State := (s.setBitAt fSEC_STATUS_BOOT_FAIL k true).ev 0xB001 0 k

/-- The staged parts are checked again at a start (R406). -/
def checkStaged (ok : Bool) (s : State) : State :=
  if s.get fUPD_STATUS_STATE = 2 ∧ ok = false then { s.put fUPD_STATUS_STATE 1 with upd := { s.upd with good := [] } } else s

/-- The images that fail their check: by their signature, or by a version below the floor (R436). -/
def bootFails (fail : Nat) (vers : List Nat) (s : State) : Nat :=
  ((List.range 6).filter fun k => fail.testBit k || decide (vers.getD k 0 < s.get fUPD_FLOOR)).foldl (fun m k => m + 2 ^ k) 0

/-- Step 4: secure boot and the configuration (R376, R377, R420, R436). -/
def bootStep (us sigs : Nat) (vers : List Nat) (copyOk stagedOk : Bool) (s : State) : State :=
  let old := s
  let fail := bootFails sigs vers s
  let s := forUp 6 (fun k t => if fail.testBit k then bootBad k t else t) s
  let s := showKeys { s with sec := { s.sec with bootFail := fail } }
  if fail.testBit 0 || fail.testBit 1 || fail.testBit 2 then stopAt 4 1 s
  else
    let r := readConfig copyOk s
    if r.1 then
      let s := checkStaged stagedOk (startConfig r.2)
      let modes := (List.range 16).filter fun n => old.get (fVLV_CH_MODE_MODE n) != s.get (fVLV_CH_MODE_MODE n)
      doneStep 4 us ({ s with rst := { s.rst with modes := modes } }.putBit fSEC_STATUS_BOOT_OK true)
    else stopAt 4 2 (bootBad 6 r.2)

/-- Step 5: the self-tests of both lanes. -/
def lanesStep (us : Nat) (a b : Bool) (s : State) : State :=
  let s := (s.setLane 0 { s.lane 0 with passed := a }).setLane 1 { s.lane 1 with passed := b }
  if a || b then doneStep 5 us s else stopAt 5 3 s

/-- A step of the bring-up sequence ends with what it found, and the next begins, or the module stops (R418). -/
def execBringupStepComplete (inp : BringIn) (s : State) : Out :=
  let n := s.rst.next
  if s.rst.stuck || decide (2 ≤ pwrState s) then .next s
  else match inp with
    | .kal us =>
      if n ≠ 1 then .next s
      else
        let s := startRecorder (doneStep 1 us s)
        .next (s.ev 0xC101 0 (s.get fRST_CAUSE_SRC))
    | .ref us => if n = 2 then .next (refValid us s) else .next s
    | .options us agree manager pos => if n = 3 then .next (loadOptions us agree manager pos s) else .next s
    | .boot us fail vers copyOk stagedOk => if n = 4 then .next (bootStep us fail vers copyOk stagedOk s) else .next s
    | .lanes us a b => if n = 5 then .next (lanesStep us a b s) else .next s
    | .stages us dies =>
      if n = 6 then .next (doneStep 6 us (handshake (List.range 12) dies true s)) else .next s
    | .services us gns => if n = 7 then .next (doneStep 7 us (startRing (startServices gns s.rst.kept s))) else .next s
    | .ring us =>
      let up := if s.straps.manager then s.ecn.firstAt.isSome else ecnJoin s == 2
      if n = 8 ∧ up = true then .next (doneStep 8 us s) else .next s

/-- The limit of a service, in µs from 9 V: application cluster, GNSS, ISP, fusion, map engine (R423). -/
def svcLimit (k : Nat) : Nat := [6000000, 2000000, 7000000, 8000000, 9000000].getD k 0

/-- Every service of the role is ready, the application cluster at `app` µs; a worker needs that cluster only (R423). -/
def execFullService (app : Nat) (s : State) : Out :=
  let ready := if s.straps.manager then s.rst.ready else []
  let all := !s.straps.manager || [1, 2, 3, 4].all fun k => ready.any fun x => x.1 == k
  if s.rst.next < 8 ∨ s.rst.appUp = false ∨ pwrState s ≠ 0 ∨ s.since9V < app ∨ all = false ∨ s.bit fRST_STATUS_FULL = true then
    .next s
  else
    let late := decide (svcLimit 0 < app) || ready.any fun x => decide (svcLimit x.1 < x.2)
    let s := (s.putBit fRST_STATUS_FULL true).putBit fRST_EVT_FULL true
    .next (s.evMax 0xC105 0 (if late then 1 else 0) (f16OfNat (s.since9V / 1000)))

/-! ## BLOCK resets (R422) -/

/-- The block of a BLOCK_ID from 0x00 to 0x10, by its page. -/
def blockPage (id : Nat) : Nat := if id ≤ 8 then 4 + id else if id ≤ 14 then 13 else if id = 15 then 14 else 22

def noClaim (s : State) : Bool := s.get fCLM_STATUS_CLAIM_A == 0 && s.get fCLM_STATUS_CLAIM_B == 0

/-- The block reports idle. -/
def blockIdle (s : State) (id : Nat) : Bool :=
  if id ≤ 4 then noClaim s
  else if id = 5 then s.gns.queue.isEmpty && s.gns.running.isEmpty && (List.range 384).all fun c => !s.bit (fGNS_TRK_CFG_EN c)
  else if id = 6 then (List.range 6).all fun n => (s.pipe n).frames.isEmpty
  else if id = 7 then guidState s == 0 && unlState s == 0
  else if id = 8 then s.map.queue.isEmpty && s.map.writing.isNone && s.get fMAP_TILES_LOADING == 0
  else if id ≤ 14 then
    let x := s.canPort (id - 9)
    x.fifo.isEmpty && x.express.isNone && x.sessions.isEmpty
  else if id = 15 then fleetState s != 2 && !s.eth.fleetTls && !s.eth.ntripTls && s.eth.services == 0
  else id == 16 && (List.range 4).all fun p => (s.attPort p).pendAt == 0

/-- RST_IDLE as it reads. -/
def idleWord (s : State) : Nat := (List.range 17).foldl (fun m id => if blockIdle s id then m + 2 ^ id else m) 0

/-- The registers of a BLOCK_ID: a page, or one CAN port's. -/
def inBlock (id a : Nat) : Bool :=
  if 9 ≤ id ∧ id ≤ 14 then decide (0x400D0100 + 64 * (id - 9) ≤ a) && decide (a < 0x400D0140 + 64 * (id - 9))
  else inPage (blockPage id) a

/-- A block returns to its reset values, with its configuration reloaded; what its dies or stores hold stays (R414,
R422), and CLM keeps LIMP, which only a reset of reach WARM or wider ends (R170). -/
def clearBlock (id : Nat) (s : State) : State :=
  let old := s
  let s := resetRegs (fun a => inBlock id a && !dieHeld a && !(id == 8 && a != fMAP_EVT.addr)) s
  let lane (l : Nat) : LaneSt := { LaneSt.init with passed := (old.lane l).passed, bootReason := (old.lane l).bootReason }
  match id with
  | 0 => s.setLoop 0 Loop.init
  | 1 => s.setLoop 1 Loop.init
  | 2 =>
    let s := { s with clm := { Clm.init with laneA := lane 0, laneB := lane 1 } }
    (s.put fCLM_STATUS_HOME (s.get fCLM_CFG_HOME)).putBit fCLM_STATUS_LIMP (inLimp old)
  | 5 => { s with gns := { Gns.init with nav := s.gns.nav } }
  | 6 => { s with isp := { Isp.init with pipes := s.isp.pipes.map fun p => (p.1, { Pipe.init with img := p.2.img, cal := p.2.cal }) } }
  | 7 => { s with fus := { Fus.init with unlItem := s.fus.unlItem, mounts := s.fus.mounts } }
  | 8 => s.putBit fMAP_STATUS_RUN false
  | 15 => { s with eth := { Eth.init with
      alertList := s.eth.alertList, gga := s.eth.gga, tls := s.eth.tls, deltas := s.eth.deltas, seq := s.eth.seq, roster := s.eth.roster, fleetId := s.eth.fleetId } }
  | 16 => { s with att := { s.att with ports := [] } }
  | _ =>
    if 9 ≤ id ∧ id ≤ 14 then
      let x := s.canPort (id - 9)
      s.setCanPort (id - 9) { CanPort.init with name := x.name, rawSel := x.rawSel }
    else s

/-- The outcome of a request: 1 SERVED, 2 REFUSED. -/
def blockRes (id out why : Nat) (busy : Bool) (s : State) : State :=
  (((s.put fRST_BLOCK_RES_OUTCOME out).putBit fRST_BLOCK_RES_BUSY busy).put fRST_BLOCK_RES_BLOCK_ID id).put
    fRST_BLOCK_RES_REASON why

def blockRefused (id why : Nat) (s : State) : State :=
  ((blockRes id 2 why false s).putBit fRST_EVT_BLOCK true).ev 0xC106 id why

/-- RST_CTL.BLOCK: the reset of an idle block begins, or is REFUSED, 1 NOT_IDLE or 2 NOT_RESETTABLE; while one is in
progress a further write is ignored (R422). -/
def execRstBlock (req : Req) (id : Fin 32) (s : State) : Out :=
  if reqIsOem req || s.bit fRST_BLOCK_RES_BUSY || decide (2 ≤ pwrState s) then .next s
  else if 17 ≤ id.val then .next (blockRefused id 2 s)
  else if s.rst.busy ≠ 0 then .next (s.setBitAt fRST_CAUSE_SRC 6 true)
  else if blockIdle s id = false then .next (blockRefused id 1 s)
  else
    let s := blockRes id 1 0 true (clearBlock id { s with rst := { s.rst with block := some id.val } })
    let s := s.setBitAt fRST_CAUSE_SRC 6 true
    .next (s.ev 0xC101 0 (s.get fRST_CAUSE_SRC))

/-- The dies of CLM, VLV and PSW (R422). -/
def blockDies (id : Nat) : List Nat :=
  if id = 2 then List.range 12 else if id = 3 then List.range 4 else if id = 4 then (List.range 8).map (· + 4) else []

/-- The block's own start; `gns` is what the GNSS start finds. -/
def startBlock (id : Nat) (gns : GnssStart) (dies : List (Fin 12)) (s : State) : State :=
  if id ≤ 1 then (if claimsOn s && laneState s id == 2 then startRecovery id 1 s else s)
  else if id ≤ 4 then
    if 6 < s.rst.next then handshake (blockDies id) (dies.map fun d => (d, false)) false s else s
  else if id = 5 then (if s.wide then gnsStart gns s else s)
  else if id = 6 then (if pwrState s = 0 then ispStart s else s)
  else if id = 7 then (if pwrState s = 0 then fusStart s else s)
  else if id = 8 then (if pwrState s = 0 then mapStart true s else s)
  else if id ≤ 14 then (if s.bit (fCAN_PORT_CFG_EN (id - 9)) then canEnable (id - 9) s else s)
  else if id = 15 then netStart (s.putBit fETH_STATUS_NO_CRED (s.get fSEC_STATUS_LC != 1))
  else s

/-- A BLOCK reset ends: 0xC107, and the block starts (R422). -/
def execBlockResetDone (gns : GnssStart) (dies : List (Fin 12)) (s : State) : Out :=
  match s.rst.block with
  | none => .next s
  | some id =>
    let s := { s with rst := { s.rst with block := none } }
    let s := ((s.putBit fRST_BLOCK_RES_BUSY false).putBit fRST_EVT_BLOCK true).ev 0xC107 id
    .next (startBlock id gns dies s)

end Sys2Proof.Machine
end

