-- ==== Sys2Proof/Machine/Power.lean ====
section
/-!
DEFINITION. Power states (R427–R431, R442): LOUVRED and OPEN, the descent with PARK, wakes and the resume from LATCHED,
and the time limits of the lower states.
-/
namespace Sys2Proof.Machine

/-! ## LOUVRED and OPEN (R428) -/

/-- PWR_CTL.LOUVRE. -/
def execLouvre (req : Req) (s : State) : Out :=
  if reqIsOem req || pwrState s != 0 then .next s else .next (toLouvred s)

/-- PWR_CTL.OPEN: REFUSED in LIMP, and ignored once PARK has been sent. -/
def execPwrOpen (req : Req) (s : State) : Out :=
  if reqIsOem req || pwrState s != 1 || s.pwr.parkAt.isSome then .next s
  else if inLimp s then .next (showHold s)
  else .next (servicesStart (setPwr 0 s))

/-! ## Descent (R429, R430) -/

/-- The descent waits, with the state that OFF_STATE selects as its target. -/
def startDescent (s : State) : State :=
  if 2 ≤ pwrState s ∨ s.bit fPWR_STATUS_DESCENT = true then s
  else
    { s.putBit fPWR_STATUS_DESCENT true with
      pwr := { s.pwr with target := 2 + s.get fPWR_CFG_OFF_STATE, journalAt := none, parkAt := none, told := false } }

/-- PWR_CTL.DESCEND. -/
def execDescend (req : Req) (s : State) : Out := if reqIsOem req then .next s else .next (startDescent s)

/-- IGN has been low for IGN_DLY × 0.1 s. -/
def execIgnLowTimeout (s : State) : Out :=
  if s.bit fPWR_STATUS_IGN || !s.bit fSEC_STATUS_BOOT_OK || decide (s.clk.tick < s.pwr.ignAt + 2000 * s.get fPWR_CFG_IGN_DLY) then
    .next s
  else .next (startDescent s)

/-- SPEED of R402, and F19 and the unloading state of UNLOAD. -/
def speedOk (s : State) : Bool := decide (400 ≤ s.upd.slow)
def unloadOk (s : State) : Bool := unlState s == 0 && f32IsZero (s.getF (fFUN_REC_SP_TGT 18))

/-- No region STAGING or APPLYING, and no PERSIST write in progress. -/
def configOk (s : State) : Bool := (List.range 9).all (fun r => s.get (fRegion r) == 0) && s.cfg.writing.isNone

/-- The first guard of R429 that fails, as in the flags of 0xC004; 0 for none. -/
def descentWhy (s : State) : Nat :=
  if s.straps.manager then
    if !speedOk s then 1
    else if !unloadOk s then 2
    else if !configOk s then 3
    else if !([0, 2, 5].contains (s.get fUPD_STATUS_STATE)) then 4
    else 0
  else if s.get fCLK_STATUS_ALIGN ≠ 2 then 5
  else if s.cfg.writing.isSome then 3
  else 0

/-- The guards hold for the first time: tick D, with the map journal requested; until then 0xC004 once (R429, R430). -/
def execDescentStart (s : State) : Out :=
  if s.bit fPWR_STATUS_DESCENT = false ∨ s.pwr.journalAt.isSome = true then .next s
  else
    let why := descentWhy s
    if why = 0 then
      .next { s with
        pwr := { s.pwr with journalAt := some s.clk.tick }
        map := { s.map with journalNow := if s.wide && s.bit fMAP_STATUS_RUN then some s.clk.tick else s.map.journalNow } }
    else if s.pwr.told then .next s
    else .next ({ s with pwr := { s.pwr with told := true } }.ev 0xC004 0 why)

/-- PARK reaches a stage: no claim and no policy; the channel is off until it resumes (R430). -/
def parkStage (c : Nat) (s : State) : State :=
  let j := s.jamb c
  let s := s.setJamb c { Jamb.init with mism := j.mism }
  showVal c (clearSel c (if j.pol then showPol c false s else s))

/-- PARK: LOUVRED, every stage off, every valve channel at 0 A with FAST, no frames, and the event records flushed. -/
def park (s : State) : State :=
  let s := forUp 64 parkStage (toLouvred s)
  let s := forUp 16 (fun n t => if t.get (fVLV_CH_STAT_PHASE n) = 6 then t else vlvStop n 0 (t.setVlv n { t.vlv n with cmd := 0#32, on := false })) s
  let s := forUp 32 (fun n t =>
    if pswLasting t n || pswLocked t n then t else pswStop n 0 (t.setPsw n { t.psw n with cmd := 0#32, duty := 0#32, act := 0#32 })) s
  let s := setClaim 1 0 (setClaim 0 0 (showBudget s))
  evrDrain { s with pwr := { s.pwr with parkAt := some s.clk.tick } }

/-- The first frame boundary after the journal commit, or after 5 s (R430). -/
def execPark (s : State) : Out :=
  match s.pwr.journalAt with
  | none => .next s
  | some d =>
    let done := (s.map.journalNow.isNone || !(s.wide && s.bit fMAP_STATUS_RUN)) && s.map.writing.isNone
    if s.pwr.parkAt.isSome || s.clk.tick % 400 != 0 || decide (s.clk.tick ≤ d) || (!done && decide (s.clk.tick < d + 100000)) then
      .next s
    else .next (park s)

/-- P + 400 ticks: the output-stage dies lose their supply. -/
def execDieSupplyOff (s : State) : Out :=
  match s.pwr.parkAt with
  | none => .next s
  | some p =>
    if s.clk.tick < p + 400 ∨ s.dies.dieOff = true then .next s
    else
      let s := forUp 12 (fun d t => freshDie d (setLink d 1 false (setLink d 0 false t))) s
      .next { s with dies := { s.dies with dieOff := true, hs := [], live := [] } }

/-- Every halt is released, and a FULL session ends; entry to SHUTTERED or BOLTED also ends a PEEP token (R438,
R440). -/
def endSession (v : Nat) (s : State) : State :=
  let s := forUp 10 (fun k t =>
    if t.bitAt fSEC_HALT_CORES k then ((t.setBitAt fSEC_HALT_CORES k false).putBit fSEC_EVT_HALT true).ev 0xB008 k else t) s
  let s := forUp 2 (fun l t => t.setLane l { t.lane l with halted := false }) s
  if s.get fSEC_STATUS_LEVEL = 2 ∨ 3 ≤ v then sealKeyhole 3 s else s

/-- The main die enters LATCHED, SHUTTERED or BOLTED; the SRAM of the lanes is lost, and below LATCHED the DRAM (R427,
R431). -/
def enterLow (v : Nat) (s : State) : State :=
  let s := evrDrain (setPwr v (endSession v s))
  { (s.putBit fPWR_STATUS_DESCENT false).putBit fPWR_STATUS_LIMP_HOLD false with
    mem := if v = 2 then s.mem.filter fun c => decide (0x100000000 ≤ c.1) else []
    map := if v = 2 then s.map else (mapCold s).map
    ecn := { Ecn.init with wasJoined := false }
    pwr := { s.pwr with journalAt := none, parkAt := none, told := false, enteredAt := s.get fPWR_RTC } }

/-! ## Wakes (R428, R431) -/

/-- The source wakes the module in its present state: 0 IGN, 1 CAN edge, 2 CAN frame, 3 RTC alarm, 4 RESET_N (R354,
R427). -/
def wakeOk (src port : Nat) (inp : WakeIn) (s : State) : Bool :=
  let w := s.get (fCAN_PORT_CFG_WAKE port)
  let low := pwrState s == 4
  match src with
  | 1 => w == 1 || (w == 2 && low)
  | 2 =>
    let m := s.get (fCAN_WAKE_MASK_MASK port)
    w == 2 && !low && match inp.frame with
      | some (id, ide) => ide == s.bit (fCAN_WAKE_ID_IDE port) && (id &&& m) == (s.get (fCAN_WAKE_ID_ID port) &&& m)
      | none => true
  | 3 => !low && s.get fPWR_ALARM != 0 && s.get fPWR_RTC + inp.elapsed / 20000 == s.get fPWR_ALARM
  | 4 => decide (2 ≤ pwrState s)
  | _ => true

/-- The words a resume from LATCHED finds: the recorder, the security core, the power controller and the panel (R427). -/
def latchedKeeps (a : Nat) : Bool := inPage 18 a || inPage 19 a || inPage 20 a || inPage 21 a

/-- The die as it comes out of LATCHED: what the powered domain held, and the tick count advanced on the manager
(R431). -/
def latchedDie (inp : WakeIn) (s : State) : State :=
  let t := clearDie 1 latchedKeeps s
  { t with
    evr := s.evr, sec := s.sec, pnl := s.pnl
    ecn := Ecn.init
    clk := { t.clk with tick := if t.straps.manager then t.clk.tick + inp.elapsed else t.clk.tick, cycle := 0 } }

/-- Edges that the asynchronous latches hold become pending, and the bring-up stands at step 4 (R431, R453). -/
def wakeLatches (s : State) : State :=
  let t := forAll s.pic.latches (fun n t => t.setPend n true) s
  { t with pic := { t.pic with latches := [] }, rst := { t.rst with next := 4, busy := 0, kept := true } }

/-- Steps 2 to 6 of R431 once the retained configuration has authenticated. -/
def resumeWith (i : ImageIn) (inp : WakeIn) (s : State) : State :=
  let s := startConfig (readKept i s)
  let s := lanesStep inp.us inp.passA inp.passB { s with rst := { s.rst with next := 5 } }
  if s.rst.stuck then s
  else
    let s := handshake (List.range 12) (inp.dies.map fun d => (d, true)) true s
    let s := startRing (startServices inp.gns true s)
    showDoms { s.put fRST_STATUS_STEP 7 with rst := { s.rst with next := 9, us0 := inp.us, ticks := 0 } }

/-- A start from LATCHED: steps 1 to 6 of R431. On the manager the tick count advances by the time in LATCHED; a worker
joins again with a jump. A retained configuration that fails leads to step 4 of the bring-up sequence. -/
def resumeLatched (inp : WakeIn) (s : State) : State :=
  let s := setPwr 0 (wakeLatches (showStraps ((latchedDie inp s).putBit fMAP_STATUS_RUN false)))
  match inp.copyOk, s.cfg.image with
  | true, some i => resumeWith i inp s
  | _, _ => showDoms ({ s with rst := { s.rst with kept := false } }.ev 0xC108)

/-- A wake takes effect: from LATCHED a resume, otherwise a start from step 2 (R428). -/
def wake (src port : Nat) (inp : WakeIn) (s : State) : State :=
  let ports := if src = 1 ∨ src = 2 then 2 ^ port else 0
  let s := s.put fPWR_RTC (s.get fPWR_RTC + inp.elapsed / 20000)
  let s := if src = 0 then s.putBit fPWR_STATUS_IGN true else s
  let s := { s with pwr := { s.pwr with held := none } }
  if pwrState s = 2 ∧ src ≠ 4 then resumeLatched inp (noteWake src ports s)
  else wakeReset src ports s

/-- P + 1,000 ticks: Ecnil stops, and the main die enters the target state, SHUTTERED in place of LATCHED in LIMP. A
wake that was held acts at once (R428, R430). -/
def execDescentComplete (s : State) : Out :=
  match s.pwr.parkAt with
  | none => .next s
  | some p =>
    if s.clk.tick < p + 1000 then .next s
    else
      let v := if s.pwr.target = 2 ∧ inLimp s = true then 3 else s.pwr.target
      let s := enterLow v s
      match s.pwr.held with
      | none => .next s
      | some (src, port, inp) => .next (wake src port inp s)

/-- A wake source: it ends a waiting descent, is held from PARK on, and in the lower states starts the module (R428,
R430). -/
def execWake (src : Fin 5) (port : Fin 6) (inp : WakeIn) (s : State) : Out :=
  if wakeOk src port inp s = false then .next s
  else if 2 ≤ pwrState s then .next (wake src port inp s)
  else if s.bit fPWR_STATUS_DESCENT = false then .next s
  else if s.pwr.parkAt.isSome then .next { s with pwr := { s.pwr with held := some (src, port, inp) } }
  else
    let s := { s.putBit fPWR_STATUS_DESCENT false with pwr := { s.pwr with journalAt := none, told := false } }
    let s := if src.val = 0 then s.putBit fPWR_STATUS_IGN true else s
    let s := noteWake src (if src.val = 1 ∨ src.val = 2 then 2 ^ port.val else 0) s
    .next (((s.inc fPWR_CNT_ABORTS).putBit fPWR_EVT_DESC_ABORT true).ev 0xC003)

/-! ## Time limits and the battery (R428) -/

/-- KAL in volts. -/
def kalVolts (s : State) : F16 := f16OfF32 (f32Div (f32OfNat (s.get fPWR_KAL_MV10)) 0x42C80000#32)

/-- KAL lies below BATT_LOW × 0.5 V. -/
def kalLow (s : State) : Bool := decide (s.get fPWR_KAL_MV10 < 50 * s.get fPWR_CFG_BATT_LOW)

/-- LATCH_MAX, or 60 s with KAL below BATT_LOW: LATCHED to SHUTTERED, which takes the supply of the DRAM. -/
def execLatchMaxExpire (battery : Bool) (s : State) : Out :=
  let set := if battery then s.get fPWR_CFG_BATT_LOW else s.get fPWR_CFG_LATCH_MAX
  if pwrState s ≠ 2 ∨ set = 0 ∨ (battery && !kalLow s) = true then .next s else .next ((enterLow 3 s).ev 0xC006 0 2)

/-- SHUT_MAX, or 60 s with KAL below BATT_LOW: SHUTTERED to BOLTED. -/
def execShutMaxExpire (battery : Bool) (s : State) : Out :=
  let set := if battery then s.get fPWR_CFG_BATT_LOW else s.get fPWR_CFG_SHUT_MAX
  if pwrState s ≠ 3 ∨ set = 0 ∨ (battery && !kalLow s) = true then .next s
  else
    let s := enterLow 4 s
    .next (if battery then s.evx 0xC005 0 0 (kalVolts s) f16NaN else s.ev 0xC006 0 3)

/-- KAL falls below BATT_LOW × 0.5 V; `kal` is in units of 10 mV. -/
def execBatteryLow (kal : Fin 4096) (s : State) : Out :=
  let lim := s.get fPWR_CFG_BATT_LOW
  if lim = 0 ∨ 50 * lim ≤ kal.val then .next s
  else
    let s := (s.put fPWR_KAL_MV10 kal).putBit fPWR_EVT_BATT_LOW true
    .next (s.evx 0xC005 0 0 (kalVolts s) f16NaN)

end Sys2Proof.Machine
end

