-- ==== Sys2Proof/Machine/Security.lean ====
section
/-!
DEFINITION. Life cycle, keys and the Keyhole (R432–R440, R443): provisioning and return, tokens, and halts.
-/
namespace Sys2Proof.Machine

/-! ## Life cycle (R432, R434, R435) -/

/-- The security core has booted, and the main die has its supply (R427, R436). -/
def secRuns (s : State) : Bool := decide (pwrState s < 2) && decide (4 ≤ s.rst.next)

/-- A token or command is refused: 1 signature, 2 serial, 3 nonce, 4 life cycle, 0 a guard (R444). -/
def authRefused (why : Nat) (s : State) : State :=
  ((s.inc fSEC_CNT_AUTH_FAIL).putBit fSEC_EVT_AUTH_FAIL true).ev 0xB004 0 why

/-- A nonce that is the latest one fetched (R432, R438). -/
def nonceOk (n : List Word) (s : State) : Bool := n.length == 8 && n == s.sec.nonce

/-- The life-cycle state changes, with the keys it holds (R432, R433). -/
def setLifeCycle (lc : Nat) (s : State) : State :=
  (showKeys ((s.put fSEC_STATUS_LC lc).putBit fSEC_EVT_LC_CHG true)).ev 0xB002 0 lc

/-- PROVISION, signed by the Dusavi provisioning key or not; `ids` are the identities of the keys it generates and
loads. A new map-encryption key and field credential come with it (R434). -/
def execProvision (sigOk : Bool) (nonce : List Word) (ids : List (Fin 7 × Nat)) (s : State) : Out :=
  let lc := s.get fSEC_STATUS_LC
  if !secRuns s then .next s
  else if !sigOk then .next (authRefused 1 s)
  else if !nonceOk nonce s then .next (authRefused 3 s)
  else if lc = 1 ∨ (lc = 2 ∧ 3 ≤ s.get fSEC_STATUS_RETURNS) then .next (authRefused 4 s)
  else
    let s := if lc = 2 then s.put fSEC_STATUS_RETURNS (s.get fSEC_STATUS_RETURNS + 1) else s
    let old := s.sec.ids.filter fun x => !ids.any fun y => y.1.val == x.1
    let s := { s with sec := { s.sec with ids := ids.map (fun y => (y.1.val, y.2)) ++ old } }
    .next ((setLifeCycle 1 s).putBit fETH_STATUS_NO_CRED false)

/-- RETURN, signed by the maker debug key or not: the field secret and the credentials are destroyed, no stored map
block can be read again, and the module resets (R432, R434). -/
def execSecReturn (sigOk : Bool) (nonce : List Word) (s : State) : Out :=
  if !secRuns s then .next s
  else if !sigOk || !keyHeld s 3 then .next (authRefused 1 s)
  else if !nonceOk nonce s then .next (authRefused 3 s)
  else if s.get fSEC_STATUS_LC ≠ 1 then .next (authRefused 4 s)
  else if !speedOk s || s.get fUPD_STATUS_STATE != 0 then .next (authRefused 0 s)
  else
    let s := { s with
      sec := { s.sec with ids := s.sec.ids.filter fun x => x.1 != 6 }
      map := { s.map with store := [] } }
    let s := ((setLifeCycle 2 s).putBit fETH_STATUS_NO_CRED true).ev 0xB009
    .next (resetBy 1 3 1 (evrDrain s))

/-! ## Tokens (R437, R438) -/

/-- The Keyhole fetches a nonce: eight words of the security core's choice. -/
def execNonceFetch (s : State) : Out :=
  if !secRuns s then .next s
  else
    let r := freshWords 8 s
    .next { r.2 with sec := { r.2.sec with nonce := r.1 } }

/-- Why a token is refused, 0 if it is not. -/
def tokenFault (k : TokenIn) (s : State) : Nat :=
  let lc := s.get fSEC_STATUS_LC
  let keyOk := keyHeld s k.key && (if k.full then k.key.val == 4 else (k.key.val == 3 && lc != 0) || (k.key.val == 4 && lc != 1))
  if k.full && lc == 1 then 4
  else if !keyOk then 1
  else if k.serial ≠ s.get64 fSEC_SERIAL_LO.addr then 2
  else if !nonceOk k.nonce s then 3
  else if k.lc ≠ lc then 4
  else 0

/-- A token raises the level, or is refused; a PEEP token serves 8 h of keep-alive time. -/
def execTokenPresent (tok : TokenIn) (s : State) : Out :=
  let why := tokenFault tok s
  if !secRuns s then .next s
  else if why ≠ 0 then .next (authRefused why s)
  else
    let v := if tok.full then 2 else max 1 (s.get fSEC_STATUS_LEVEL)
    let s := { s with sec := { s.sec with tokenEnd := if v = 1 then s.get fPWR_RTC + 28800 else 0 } }
    let s := (s.put fSEC_STATUS_LEVEL v).put fSEC_TOKEN_MIN_LEFT (if v = 1 then 480 else 0)
    .next ((s.putBit fSEC_EVT_LEVEL_CHG true).ev 0xB003 0 v)

/-- The 8 h of a PEEP token end. -/
def execTokenExpire (s : State) : Out :=
  if s.get fSEC_STATUS_LEVEL ≠ 1 ∨ s.get fPWR_RTC < s.sec.tokenEnd then .next s else .next (sealKeyhole 1 s)

/-! ## Halts (R439) -/

/-- SEC_HALT_RES: 1 SERVED, 2 DEFERRED, 3 REFUSED. -/
def haltRes (core out why : Nat) (s : State) : State :=
  (((s.put fSEC_HALT_RES_OUTCOME out).put fSEC_HALT_RES_CORE core).put fSEC_HALT_RES_REASON why).putBit fSEC_EVT_HALT true

def haltRefused (core why : Nat) (s : State) : State := (haltRes core 3 why s).ev 0xB007 core why

/-- The lane of a core, for the cores of a lane. -/
def coreLane (core : Nat) : Option Nat := if core = 4 ∨ core = 5 then some 0 else if core = 6 ∨ core = 7 then some 1 else none

def haltNote (core : Nat) (s : State) : State := ((haltRes core 1 0 s).inc fSEC_CNT_HALTS).ev 0xB006 core

/-- A lane gives up with reason HALT, and both of its cores are halted. -/
def haltLane (l core : Nat) (s : State) : State :=
  let s := if laneUp s l then giveUp l 11 s else s
  let s := s.setLane l { s.lane l with halted := true, step := 0 }
  haltNote core ((s.setBitAt fSEC_HALT_CORES (4 + 2 * l) true).setBitAt fSEC_HALT_CORES (5 + 2 * l) true)

/-- In the tick after the switch tick the DEFERRED halt takes effect. -/
def haltDeferred (s : State) : State :=
  match s.clm.haltAt, s.clm.haltNext with
  | some t, some core =>
    if s.clk.tick < t then s
    else
      let s := { s with clm := { s.clm with haltAt := none, haltNext := none } }
      if laneState s (1 - (coreLane core).getD 0) ≠ 0 then haltRefused core 2 s else haltLane ((coreLane core).getD 0) core s
  | _, _ => s

/-- A core of the application cluster or of GNSS runs: a stopped block cannot be halted (R441). -/
def coreRuns (s : State) (core : Nat) : Bool := if core ≤ 3 then pwrState s == 0 else s.wide

/-- A halt of a core under FULL is SERVED, DEFERRED or REFUSED: 1 LEVEL, 2 OTHER_LANE, 3 HINGE, 4 LIMP, 5 POWER. -/
def execSecHalt (core : Fin 10) (s : State) : Out :=
  if 2 ≤ pwrState s then .next s
  else if s.get fSEC_STATUS_LEVEL ≠ 2 then .next (haltRefused core 1 s)
  else if s.bitAt fSEC_HALT_CORES core then .next (haltRes core 1 0 s)
  else match coreLane core with
    | none =>
      if coreRuns s core then .next (haltNote core (s.setBitAt fSEC_HALT_CORES core true)) else .next (haltRefused core 5 s)
    | some l =>
      if inLimp s then .next (haltRefused core 4 s)
      else if s.bit fCLM_STATUS_HINGE_RUN then .next (haltRefused core 3 s)
      else if laneState s (1 - l) = 0 then .next (haltLane l core s)
      else if laneState s l = 0 ∧ laneState s (1 - l) = 1 ∧ (s.lane (1 - l)).stateAt + 100000 ≤ s.clk.tick then
        .next (haltRes core 2 0 { s with clm := { s.clm with haltNext := some core.val } })
      else .next (haltRefused core 2 s)

/-- A release; that of a lane restarts its recovery from step 2. -/
def execHaltRelease (core : Fin 10) (s : State) : Out :=
  if s.get fSEC_STATUS_LEVEL ≠ 2 ∨ s.bitAt fSEC_HALT_CORES core = false then .next s
  else
    let told (s : State) : State := (s.putBit fSEC_EVT_HALT true).ev 0xB008 core
    match coreLane core with
    | none => .next (told (s.setBitAt fSEC_HALT_CORES core false))
    | some l =>
      let s := (s.setBitAt fSEC_HALT_CORES (4 + 2 * l) false).setBitAt fSEC_HALT_CORES (5 + 2 * l) false
      let s := told (s.setLane l { s.lane l with halted := false })
      .next (if laneState s l = 2 then startRecovery l 2 s else s)

end Sys2Proof.Machine
end

