-- ==== Sys2Proof/Machine/Update.lean ====
section
/-!
DEFINITION. Firmware update (R394–R413): reception on the manager, the operations of R399, activation with the lane
handover, confirmation and fall-back.
-/
namespace Sys2Proof.Machine

/-! ## State, results and requests (R401, R411, R412) -/

/-- 0 IDLE, 1 RECEIVING, 2 STAGED, 3 ARMED, 4 ACTIVATING, 5 UNCONFIRMED, 6 FALLING_BACK. -/
def updState (s : State) : Nat := s.get fUPD_STATUS_STATE

def setUpd (v : Nat) (s : State) : State :=
  if updState s = v then s else (s.put fUPD_STATUS_STATE v).putBit fUPD_EVT_STATE_CHG true

/-- UPD_RESULT: 0 SERVED, 2 REFUSED, 3 ABORTED. -/
def updResult (out why entry : Nat) (s : State) : State :=
  ((s.put fUPD_RESULT_OUTCOME out).put fUPD_RESULT_REASON why).put fUPD_RESULT_ENTRY entry

def updRefused (why entry : Nat) (s : State) : State := (updResult 2 why entry s).putBit fUPD_EVT_REFUSED true

/-- Requests arrive through the service protocol, which runs in OPEN (R394, R427); each restarts the 600 s of R398. -/
def updHears (s : State) : Bool := cfgServed s
def updTouch (s : State) : State := { s with upd := { s.upd with reqAt := s.clk.tick } }

/-- The positions of ECN_CFG.EXPECT, the manager's among them. -/
def updPositions (s : State) : List Nat := 0 :: expected s

def manEntry (s : State) (e : Nat) : Option ManEntry := s.upd.man.bind fun m => m.entries[e]?

/-! ## Reception (R395–R398) -/

/-- The manifest obeys R395. -/
def manifestOk (m : ManifestIn) (s : State) : Bool :=
  let has (k p : Nat) : Bool := m.entries.any fun e => e.kind == k && e.pos == p
  m.formOk && m.sigOk && decide (3 ≤ m.entries.length) && decide (m.entries.length ≤ 64)
    && m.entries.all (fun e => decide (1 ≤ e.kind) && decide (e.kind ≤ 5))
    && (updPositions s).all (fun p => has 1 p && has 2 p && has 3 p) && has 4 0 && has 5 0

/-- MANIFEST: accepted into RECEIVING, or REFUSED. -/
def execManifest (man : ManifestIn) (s : State) : Out :=
  if !updHears s then .next s
  else if !s.straps.manager || updState s != 0 then .next (updRefused 12 0 s)
  else if !manifestOk man s then .next (updRefused 14 0 s)
  else
    let u := s.upd
    let s := { s with upd := { u with man := some man, part := none, good := [], held := [], sent := [], fails := [] } }
    let s := updTouch (updResult 0 0 0 (setUpd 1 s))
    .next (((s.wr fUPD_POS.addr 0#32).wr fUPD_PROGRESS.addr 0#32).evMax 0xA101 0 0 (f16OfNat man.release))

/-- The largest payload of a kind (R394). -/
def partMax (kind : Nat) : Nat := match kind with
  | 1 => 655360
  | 2 => 65536
  | 3 => 268435456
  | 4 => 2097152
  | _ => 16777216

/-- The first check of R397 that a part header fails, with the entry it names. -/
def partFault (p : PartIn) (s : State) : Nat × Nat :=
  match s.upd.man.bind fun m => m.entries.findIdx? fun e => e.hash == p.hash with
  | none => (if p.magicOk then 2 else 1, 0)
  | some i =>
    let e := (manEntry s i).getD ⟨0, 0, 0, 0, 0, 0⟩
    let lc := if p.pos = 0 then s.get fSEC_STATUS_LC else p.targetLc
    let code := if p.pos = 0 then s.straps.orderB else (s.ecn.orders.find? fun o => o.1 == p.pos).elim false Prod.snd
    let key (k : Nat) : Bool := (keysOf lc).testBit k && s.sec.ids.contains (k, p.keyId)
    let why :=
      if !p.magicOk then 1
      else if !(updPositions s).contains p.pos then 3
      else if !p.orders.testBit (if code then 1 else 0) then 4
      else if !p.states.testBit lc then 5
      else if !(key 0 || key 1) then 6
      else if p.version != e.version || decide (p.version < s.get fUPD_FLOOR) then 7
      else if p.length != e.length || decide (partMax p.kind < p.length) then 8
      else if !p.sigOk then 9
      else 0
    (why, i)

/-- PART_HEADER: the part is accepted, or REFUSED before any byte of its payload (R397). -/
def execPartHeader (part : PartIn) (s : State) : Out :=
  if !updHears s then .next s
  else if !s.straps.manager || updState s != 1 then .next (updRefused 12 0 s)
  else
    let r := partFault part s
    let s := updTouch s
    if r.1 ≠ 0 then .next ((updRefused r.1 r.2 s).ev 0xA102 part.pos r.1)
    else
      let s := { s with upd := { s.upd with part := some (r.2, part.payHash) } }
      .next (updResult 0 0 r.2 ((s.put fUPD_PROGRESS_ENTRY r.2).put fUPD_PROGRESS_KIB 0))

/-- Every entry of a position is verified there. -/
def positionStaged (s : State) (p : Nat) : Bool :=
  (List.range 64).all fun e => match manEntry s e with
    | some x => x.pos != p || s.upd.good.contains e
    | none => true

/-- UPD_POS.STAGED, and STAGED once the last part is verified on every module (R401). -/
def showStaged (s : State) : State :=
  let m := (updPositions s).foldl (fun m p => if positionStaged s p then m + 2 ^ p else m) 0
  let s := s.put fUPD_POS_STAGED m
  if updState s = 1 ∧ ((updPositions s).all (positionStaged s)) = true then
    let s := ((setUpd 2 s).putBit fUPD_EVT_STAGED true).ev 0xA104
    s.put fUPD_STAGED_VER (s.upd.man.elim 0 fun m => m.release)
  else s

/-- A payload has arrived, and hashes to `hash` (R398). -/
def execPartPayload (hash : Nat) (s : State) : Out :=
  if !updHears s then .next s
  else match s.upd.part with
    | none => .next (updRefused 12 0 s)
    | some (e, h) =>
      let x := (manEntry s e).getD ⟨0, 0, 0, 0, 0, 0⟩
      let s := updTouch { s with upd := { s.upd with part := none } }
      let s := s.put fUPD_PROGRESS_KIB (x.length / 1024)
      if hash ≠ h then .next ((updRefused 10 e s).ev 0xA103 x.pos)
      else
        let s := updResult 0 0 e s
        if x.pos = 0 then .next (showStaged { s with upd := { s.upd with good := e :: s.upd.good.filter (· != e) } })
        else
          let u := s.upd
          .next { s with upd := { u with
            held := u.held.filter (· != e) ++ [e], sent := (e, 0) :: u.sent.filter fun y => y.1 != e } }

/-- The staging slots are cleared (R401). -/
def clearStaging (s : State) : State :=
  let u := s.upd
  let s := { s with upd := { u with man := none, part := none, good := [], held := [], sent := [], fails := [], rx := [] } }
  (setUpd 0 s).put fUPD_STAGED_VER 0

def abandonReception (s : State) : State := (clearStaging s).ev 0xA10E

/-- 600 s without a request. -/
def execReceptionTimeout (s : State) : Out :=
  if (updState s = 1 ∨ updState s = 2) ∧ s.upd.reqAt + 12000000 ≤ s.clk.tick then .next (abandonReception s) else .next s

/-- ABANDON. -/
def execUpdAbandon (s : State) : Out :=
  if !updHears s then .next s
  else if !s.straps.manager || (updState s != 1 && updState s != 2) then .next (updRefused 12 0 s)
  else .next (abandonReception (updResult 0 0 0 s))

/-! ## Parts for the workers (R399, R400) -/

/-- Message type 0x0B with an operation (R399). -/
def sendOp (op : Nat) (args : List Int) (s : State) : State := sendMsg 0x0B ((op : Int) :: args) s

/-- DATA: on the manager 22 bytes of the part served first go out in a tick with a free slot; a worker writes them, and
at the end of the part checks it and answers STAGED. `check` is that check's result with the release of the part. -/
def execUpdData (entry : Fin 64) (offset : Nat) (bytes : List Byte) (check : Option (Bool × Nat)) (s : State) : Out :=
  let e := entry.val
  if s.straps.manager then
    if updState s ≠ 1 ∨ s.upd.held.head? ≠ some e ∨ s.upd.sent.lookup e ≠ some offset ∨ 22 < bytes.length
        ∨ slotBusy s s.clk.tick = true then .next s
    else
      let s := { s with upd := { s.upd with sent := (e, offset + bytes.length) :: s.upd.sent.filter fun y => y.1 != e } }
      let s := { s with ecn := { s.ecn with slotFree := s.clk.tick + 1 } }
      .next (sendOp 1 ((e : Int) :: (offset : Int) :: bytes.map fun b => (b.toNat : Int)) s)
  else if ecnJoin s ≠ 2 then .next s
  else
    let have' := (s.upd.rx.lookup e).getD 0
    let answer (r : Nat) (s : State) : State := sendOp 2 [(s.straps.pos : Int), e, r, (s.upd.rx.lookup e).getD 0] s
    let put (n : Nat) (s : State) : State := { s with upd := { s.upd with rx := (e, n) :: s.upd.rx.filter fun y => y.1 != e } }
    if offset = 0 ∨ offset = have' then
      let s := put (offset + bytes.length) s
      match check with
      | none => .next s
      | some (true, ver) =>
        .next (answer 0 ({ s with upd := { s.upd with good := e :: s.upd.good.filter (· != e) } }.put fUPD_STAGED_VER ver))
      | some (false, _) => .next (answer 1 (put 0 s))
    else .next (answer 2 s)

/-- STAGED: the manager takes the result, 0 verified, 1 hash failed, 2 gap; a part that fails three times is REFUSED. -/
def execStaged (pos : Fin 8) (entry : Fin 64) (result : Fin 3) (offset : Nat) (s : State) : Out :=
  let e := entry.val
  let mine := (manEntry s e).any fun x => x.pos == pos.val
  if !s.straps.manager || updState s != 1 || !mine then .next s
  else
    let u := s.upd
    if result.val = 0 then
      .next (showStaged { s with upd := { u with good := e :: u.good.filter (· != e), held := u.held.filter (· != e) } })
    else
      let n := (u.fails.lookup e).getD 0 + 1
      let fails := (e, n) :: u.fails.filter fun y => y.1 != e
      if 3 ≤ n then .next (updRefused 13 e { s with upd := { u with fails := fails, held := u.held.filter (· != e) } })
      else
        let at' := if result.val = 2 then offset else 0
        .next { s with upd := { u with fails := fails, sent := (e, at') :: u.sent.filter fun y => y.1 != e } }

/-! ## Activation (R402–R405) -/

/-- The interlocks of R402 that fail; `remote` holds those that other modules report. -/
def interlocks (remote : Nat) (s : State) : Nat :=
  let bad (p : Nat) : Bool :=
    let w := (tabGet (fun _ => 0#32) s.ecn.slots p).toNat
    w.testBit 3 || w.testBit 5
  let compat := match s.upd.man, s.cfg.image with
    | some m, some i =>
      decide (m.cfgLo ≤ i.version) && decide (i.version ≤ m.cfgHi) && decide (i.fwLo ≤ m.release) && decide (m.release ≤ i.fwHi)
    | _, _ => false
  let ok : List Bool := [speedOk s, unloadOk s, (expected s).all (isAligned s), (updPositions s).all (positionStaged s), configOk s,
    laneUp s 0 && laneUp s 1 && !inLimp s && !(expected s).any bad, pwrState s == 0, compat]
  ((List.range 8).filter fun b => !ok.getD b true || remote.testBit b).foldl (fun m b => m + 2 ^ b) 0

/-- The apply tick of an activation ordered now (R403). -/
def goTick (s : State) : Nat := boundaryFrom (s.clk.tick + 2000)

def showGo (g : Nat) (s : State) : State := s.put64 fUPD_GO_TICK_LO.addr g

/-- ACTIVATE: ARMED with the apply tick G, or REFUSED by an interlock. -/
def execUpdateActivate (remote : Fin 256) (s : State) : Out :=
  if !updHears s then .next s
  else if !s.straps.manager || updState s != 2 then .next (updRefused 12 0 s)
  else
    let f := interlocks remote s
    let s := updTouch (s.put fUPD_INTERLOCK_FAIL f)
    if f ≠ 0 then .next ((updRefused 11 0 s).ev 0xA105 0 f)
    else
      let g := goTick s
      let slot := 1 - s.get fUPD_STATUS_SLOT
      let s := { s with upd := { s.upd with slot := slot, back := false } }
      let s := showGo g (updResult 0 0 0 (setUpd 3 s))
      .next (sendApply 0x0B g (expected s) [3, slot] (((s.put fUPD_POS_READY 0).put fUPD_POS_DONE 0).put fUPD_POS_FAILED 0))

/-- GO: a worker keeps the slot and the apply tick (R403). -/
def execUpdGo (gen apply : Nat) (slot : Fin 2) (s : State) : Out :=
  if s.straps.manager ∨ apply ≤ s.clk.tick then .next s
  else .next (holdMsg 0x0B gen apply (showGo apply { s with upd := { s.upd with slot := slot, back := false } }))

/-- An interlock that fails while ARMED, up to G − 3, sets ABORT in the headers of G − 2 and G − 1 (R402, R403). -/
def watchInterlocks (s : State) : State :=
  let g := s.get64 fUPD_GO_TICK_LO.addr
  if !s.straps.manager || updState s != 3 || decide (g < s.clk.tick + 3) then s
  else
    let f := interlocks 0 s
    let s := s.put fUPD_INTERLOCK_FAIL f
    if f = 0 then s
    else { s with ecn := { s.ecn with
      haltAt := some g, waits := s.ecn.waits.map fun w => if w.type = 0x0B then { w with halt := true } else w } }

/-- What each module starts at T of G: the STANDBY lane gives up for the images of `slot`, and the application cluster
and GNSS restart (R404, R405). A module that cannot hand over in a fall-back makes a WARM reset instead (R410). -/
def startHandover (s : State) : State :=
  let u := { s.upd with phase := 1, newA := false, newB := false, answered := false }
  let s := { s with upd := u }
  let barred := laneState s 0 == 3 || laneState s 1 == 3
  if u.back && (inLimp s || barred) then resetBy 1 3 3 { s with upd := { s.upd with fellBack := true } }
  else
    let s := if laneState s 0 = 1 then giveUp 0 12 s else if laneState s 1 = 1 then giveUp 1 12 s else s
    let s := fusStop (netStop { s with rst := { s.rst with appUp := false } })
    if s.wide then { s with upd := { s.upd with gnsUp := false } } else s

/-- The fall-back begins: the old slots, with an apply tick G as in R403; flags 0 command, 1 failure (R401, R410). -/
def startFallback (flags : Nat) (s : State) : State :=
  let g := goTick s
  let s := { s with upd := { s.upd with slot := 1 - s.upd.slot, back := true, fellBack := false, answered := false } }
  let s := (((setUpd 6 s).put fUPD_POS_READY 0).put fUPD_POS_DONE 0).put fUPD_POS_FAILED 0
  sendApply 0x0B g (expected s) [6] ((showGo g s).ev 0xA10C 0 flags)

/-- At G the activation or fall-back begins on every module; aborted, an activation returns to STAGED with 0xA107, and a
fall-back is ordered again (R401, R403, R404). -/
def execActivationGoTick (s : State) : Out :=
  match waitAt s 0x0B with
  | none => .next s
  | some w =>
    let ok := ringOk s w
    let s := settle w s
    if ok then .next (startHandover (if s.upd.back then setUpd 6 s else setUpd 4 s))
    else if !s.straps.manager then .next s
    else if s.upd.back then
      let g := goTick s
      .next (sendApply 0x0B g (expected s) [6] (showGo g s))
    else
      let missing := (w.need.find? fun p => !w.acked.contains p).getD 0
      .next ((updResult 3 0 0 (setUpd 2 { s with ecn := { s.ecn with haltAt := none } })).ev 0xA107 0 missing)

/-- In the tick after the exchange the other lane gives up for the new images (R405). -/
def handoverSecond (s : State) : State :=
  if s.upd.phase ≠ 3 ∨ s.clk.tick % 400 ≠ 201 then s
  else if laneState s 0 = 1 ∧ s.upd.newA = false then giveUp 0 12 s
  else if laneState s 1 = 1 ∧ s.upd.newB = false then giveUp 1 12 s
  else s

/-! ## DONE, COMMIT and FAILED (R401, R404, R407) -/

/-- Every module has sent DONE. -/
def allDone (s : State) : Bool := (updPositions s).all fun p => s.bitAt fUPD_POS_DONE p

/-- On the manager, DONE from every module ends an activation in UNCONFIRMED, with COMMIT sent, or a fall-back in IDLE; a
FAILED starts the fall-back (R401). -/
def judgeDone (s : State) : State :=
  let changed := s.upd.man.elim 0 fun m => m.changed
  if updState s = 4 then
    if s.get fUPD_POS_FAILED ≠ 0 then startFallback 1 s
    else if allDone s then
      let s := (setUpd 5 s).evMax 0xA10A 0 0 (f16OfNat (s.get fUPD_HANDOVER_TICKS))
      let s := ((s.put fUPD_CONFIRM_HARVEST_S 0).putBit fUPD_STATUS_DUAL (changed % 32 != 0)).inc fUPD_CNT_UPDATES
      sendOp 5 [] { s with upd := { s.upd with harvest := 0, saved := 0, savedAt := s.clk.tick } }
    else s
  else if updState s = 6 ∧ allDone s = true then
    let s := ((clearStaging s).ev 0xA10D).inc fUPD_CNT_FALLBACKS
    { s.putBit fUPD_STATUS_DUAL false with upd := { s.upd with back := false, oldVer := 0 } }
  else s

/-- The result of a module, DONE or FAILED. -/
def takeDone (pos result : Nat) (s : State) : State :=
  let s := s.setBitAt (if result = 0 then fUPD_POS_DONE else fUPD_POS_FAILED) pos true
  judgeDone (s.ev (if result = 0 then 0xA108 else 0xA109) pos)

/-- DONE: a worker's result, 0 done, 1 FAILED. -/
def execUpdDone (pos : Fin 8) (result : Fin 2) (s : State) : Out :=
  if !s.straps.manager || (updState s != 4 && updState s != 6) then .next s else .next (takeDone pos result s)

/-- The module's restart after G ends, with the application cluster and GNSS running within their limits or not: it
sends DONE if both lanes run the images of the slot, and FAILED otherwise (R404). -/
def execActivationRestartEnd (appOk gnsOk : Bool) (s : State) : Out :=
  if s.upd.answered ∨ s.upd.phase = 0 ∨ (updState s ≠ 4 ∧ updState s ≠ 6) then .next s
  else
    let lanes := s.upd.phase == 4 && laneUp s 0 && laneUp s 1
    let ok := (lanes || s.upd.fellBack) && appOk && gnsOk
    let s := { s with rst := { s.rst with appUp := appOk || s.rst.appUp }, upd := { s.upd with answered := true, gnsUp := gnsOk } }
    let s := if ok then takeSlot s else s
    let s := if fleetState s = 0 ∧ s.rst.appUp = true then netStart s else s
    let s := if s.rst.appUp = true ∧ pwrState s = 0 ∧ s.bit fFUS_STATUS_RUN = false then fusStart s else s
    let r := if ok then 0 else 1
    if s.straps.manager then .next (takeDone 0 r s)
    else .next ((sendOp 4 [(s.straps.pos : Int), r] s).ev (if ok then 0xA108 else 0xA109) s.straps.pos)

/-- On the manager a FAILED, or a DONE missing at G + 200,000 ticks, starts the fall-back. -/
def execActivationTimeout (s : State) : Out :=
  let late := decide (s.get64 fUPD_GO_TICK_LO.addr + 200000 ≤ s.clk.tick)
  if !s.straps.manager || updState s != 4 || (s.get fUPD_POS_FAILED == 0 && !late) then .next s
  else .next (startFallback 1 s)

/-- COMMIT: the worker's new slot is its start slot; `dual` says that the manifest marks a data class as changed (R407,
R408). -/
def execUpdCommit (dual : Bool) (s : State) : Out :=
  if s.straps.manager ∨ updState s ≠ 4 then .next s
  else .next ((setUpd 5 s).putBit fUPD_STATUS_DUAL dual)

/-- FALLBACK: the worker keeps the order to run its old slot from G on (R410). -/
def execUpdFallbackOp (gen apply : Nat) (s : State) : Out :=
  if s.straps.manager ∨ apply ≤ s.clk.tick then .next s
  else
    let slot := if s.upd.back then s.upd.slot else 1 - s.upd.slot
    .next (holdMsg 0x0B gen apply (showGo apply { s with upd := { s.upd with slot := slot, back := true, fellBack := false } }))

/-- FALLBACK of the operator: every interlock but STAGED must hold (R401). -/
def execUpdateFallback (remote : Fin 256) (s : State) : Out :=
  if !updHears s then .next s
  else if !s.straps.manager || updState s != 5 then .next (updRefused 12 0 s)
  else
    let f := interlocks remote s
    let f := if f.testBit 3 then f - 8 else f
    let s := s.put fUPD_INTERLOCK_FAIL f
    if f ≠ 0 then .next ((updRefused 11 0 s).ev 0xA105 0 f) else .next (startFallback 0 (updResult 0 0 0 s))

/-! ## Confirmation (R409) -/

/-- The old slot is freed, and the floor taken. -/
def confirmHere (floor : Nat) (s : State) : State :=
  let s := ((setUpd 0 s).putBit fUPD_STATUS_DUAL false).put fUPD_FLOOR floor
  let s := (s.put fUPD_STAGED_VER 0).put fUPD_CONFIRM_HARVEST_S 0
  { s with upd := { s.upd with man := none, good := [], rx := [], phase := 0, oldVer := 0, saved := 0, harvest := 0 } }

/-- The manager confirms: flags 0 command, 1 harvesting time. -/
def confirmAll (flags : Nat) (s : State) : State :=
  let floor := s.upd.man.elim 0 fun m => m.floor
  (sendOp 8 [] (confirmHere floor s)).ev 0xA10B 0 flags

/-- The CONFIRM command. -/
def execUpdateConfirm (s : State) : Out :=
  if !updHears s then .next s
  else if !s.straps.manager || updState s != 5 then .next (updRefused 12 0 s)
  else .next (confirmAll 0 (updResult 0 0 0 s))

/-- CONFIRM reaches a worker, with the floor of the manifest. -/
def execUpdConfirmed (floor : Word) (s : State) : Out :=
  if s.straps.manager ∨ updState s ≠ 5 then .next s else .next (confirmHere floor.toNat s)

/-- 1,800 s of harvesting without a new LASTING fault. -/
def execHarvestConfirm (s : State) : Out :=
  if s.straps.manager = false ∨ updState s ≠ 5 ∨ s.get fUPD_CONFIRM_HARVEST_S < 1800 then .next s else .next (confirmAll 1 s)

/-- LASTING: a worker's LASTING fault starts the count again. -/
def execUpdLasting (pos : Fin 8) (code : Word) (s : State) : Out :=
  if s.straps.manager = false ∨ updState s ≠ 5 then .next s
  else
    let s := { s.put fUPD_CONFIRM_HARVEST_S 0 with upd := { s.upd with harvest := 0 } }
    .next (s.evMax 0xA10F pos 0 (f16OfNat code.toNat))

/-- Every 60 s the count goes to the eMMC. -/
def execConfirmCountSave (s : State) : Out :=
  if updState s ≠ 5 ∨ s.clk.tick < s.upd.savedAt + 1200000 then .next s
  else .next { s with upd := { s.upd with saved := s.get fUPD_CONFIRM_HARVEST_S, savedAt := s.clk.tick } }

/-- Each tick: the SPEED condition of R402, and the harvesting time of R409. -/
def updTick (s : State) : State :=
  let l := topLane s
  let g := s.sig l (s.get (fFUN_REC_MEAS_SIG 25))
  let slow := g.valid && f32Lt (f32Abs g.val) 0x3D4CCCCD#32
  let s := { s with upd := { s.upd with slow := if slow then s.upd.slow + 1 else 0 } }
  let s := watchInterlocks s
  let m := s.sig l 148
  if s.straps.manager && updState s == 5 && m.valid && f32Lt 0#32 m.val && decide (s.get fUPD_CONFIRM_HARVEST_S < 1800) then
    let n := s.upd.harvest + 1
    if n < 20000 then { s with upd := { s.upd with harvest := n } }
    else { s.inc fUPD_CONFIRM_HARVEST_S with upd := { s.upd with harvest := 0 } }
  else s

end Sys2Proof.Machine
end

