-- ==== Sys2Proof/Machine/Access.lean ====
section
/-!
DEFINITION. Accesses to registers and memory (R6–R9, R26–R31, R437, R439, R482–R485): writes of plain fields, reads as
the Keyhole makes them, bus errors, rights on SRAM, and ECC.
-/
namespace Sys2Proof.Machine

/-! ## Pages that read 0 (R3, R14, R371) -/

/-- A register of a block or page that is held in reset on this module. -/
def heldZero (s : State) (a : Nat) : Bool :=
  !s.wide && a != fGNS_TP0_CFG.addr && a != fGNS_TP0_STAT.addr
    && (inPage 9 a || inPage 10 a || inPage 11 a || inPage 12 a
      || (decide (0x400E0200 ≤ a) && decide (a < 0x400E0380)))

/-! ## Writes (R7–R9) -/

/-- The bits of a word under the access codes: RW bits take the value, a 1 clears a W1C bit, and a W1C bit that an event
sets in the same cycle ends set (R8, R9). -/
def mergeWord (d : RegDesc) (old v hw : Word) : Word :=
  let rw := BitVec.ofNat 32 d.rw
  let w1c := BitVec.ofNat 32 d.w1c
  ((old &&& ~~~rw) ||| (v &&& rw)) &&& ~~~(v &&& w1c) ||| (hw &&& w1c)

/-- A field of a new word goes back to its old value where the new one is not `ok`. -/
def keepField (f : Fld) (ok : Nat → Bool) (old w : Word) : Word :=
  if ok (fldOf f w) then w else fldPut f w (fldOf f old)

/-- The requester may write the register; the OEM partition writes only the target pages of its own cores, a threshold
is written only by its core, a tracking channel only by its GNSS core, and the registers of a lane never by the
application cluster (R8, R17, R234, R455, R456). -/
def mayWrite (req : Req) (a : Nat) : Bool :=
  if inDims 0x40034000 [(0x10, 11)] a then reqCore req == some ((a - 0x40034000) / 16)
  else if reqIsOem req then false
  else if (inPage 4 a || inPage 5 a) && reqIsApp req then false
  else if inDims 0x40091000 [(0x40, 384)] a then trkOwner req ((a - 0x40091000) / 64)
  else true

/-- A register whose write is a command of its own. -/
def ownRow (a : Nat) : Bool :=
  inDims 0x40031000 [(4, 512)] a || inDims 0x40091004 [(0x40, 384), (4, 2)] a || inDims 0x400A0100 [(0x1000, 6), (4, 11)] a
    || a == fEVR_RD_AREA.addr || a == fEVR_RD_SEL.addr

/-- Reserved values that a field refuses (R218, R234, R235, R480); an interval too
long for the signal keeps both fields as they were. -/
def legalWord (a : Nat) (old w : Word) : Word :=
  if a = fPNL_CFG.addr then
    keepField fPNL_CFG_DCB_LIM (fun v => decide (1 ≤ v)) old
      (keepField fPNL_CFG_VLCD (fun v => decide (27 ≤ v) && decide (v ≤ 50)) old w)
  else if inDims 0x40091000 [(0x40, 384)] a then
    let c := (a - 0x40091000) / 64
    let w := keepField (fGNS_TRK_CFG_SIG c) (fun v => decide (v ≤ 11)) old
      (keepField (fGNS_TRK_CFG_SP c) (fun v => decide (1 ≤ v) && decide (v ≤ 20)) old w)
    let i := fldOf (fGNS_TRK_CFG_INT c) w
    if decide (1 ≤ i) && decide (i ≤ intMax (fldOf (fGNS_TRK_CFG_SIG c) w)) then w
    else fldPut (fGNS_TRK_CFG_INT c) (fldPut (fGNS_TRK_CFG_SIG c) w (fldOf (fGNS_TRK_CFG_SIG c) old))
      (fldOf (fGNS_TRK_CFG_INT c) old)
  else w

/-- A write to the fields of a register that have no command of their own. -/
def writeReg (req : Req) (a : Nat) (v hw : Word) (s : State) : State :=
  if !regAddrOk a then s.busError
  else if heldZero s a then s
  else
    let d := descOf a
    let old := s.rd a
    let w := if mayWrite req a && !ownRow a then legalWord a old (mergeWord d old v hw) else old ||| (hw &&& BitVec.ofNat 32 d.w1c)
    let s := s.wr a w
    if inDims 0x40091000 [(0x40, 384)] a then showNtrk s else s

/-- A register write; the Keyhole's writes are DEBUG_ACCESS. -/
def execRegisterWrite (req : Req) (addr : Nat) (value hwSet : Word) (s : State) : Out :=
  .next (writeReg req addr value hwSet s)

/-! ## Reads (R7–R9, R47, R112, R233, R261, R470, R485) -/

/-- The lane address that an offset of the snapshot windows shows. -/
def snapOffset (o : Nat) : Nat :=
  if o < 0xA000 then o - 0x8000 else if o < 0xA800 then o - 0xA000 + 0x2000
  else if o < 0xB000 then 0x100000 else if o < 0xE000 then o - 0xB000 + 0x3000 else o - 0xE000 + 0x6000

/-- A word of a lane's snapshot windows. -/
def snapWord (s : State) (l o : Nat) : Word :=
  let b (k : Nat) : Byte := tabGet memDefault (s.loop l).snap (laneBase l + snapOffset o + k)
  if snapOffset o = 0x100000 then 0#32 else b 3 ++ (b 2 ++ (b 1 ++ b 0 : BitVec 16) : BitVec 24)

/-- The word at index k of a list, at word addresses from `a0` on. -/
def wordOf (ws : List Word) (a0 a : Nat) : Word := ws.getD ((a - a0) / 4) 0#32

/-- A register as bank b reads it. -/
def viewReg (s : State) (b a : Nat) : Word :=
  let lt := s.clkLatch b
  let port := s.evrPort b
  if heldZero s a then 0#32
  else if a = fCLK_TICK_LO.addr then BitVec.ofNat 32 s.clk.tick
  else if a = fCLK_TICK_HI.addr then BitVec.ofNat 32 (lt.tick / 4294967296)
  else if a = fCLK_CYCLE.addr then BitVec.ofNat 32 lt.cycle
  else if a = fCLK_TIME_LO.addr then BitVec.ofNat 32 lt.time
  else if a = fCLK_TIME_HI.addr then BitVec.ofNat 32 (lt.time / 4294967296)
  else if a = fPIC_STATUS.addr then picStatusWord s
  else if a = fRST_IDLE.addr then BitVec.ofNat 32 (idleWord s)
  else if a = fEVR_STATUS.addr then evrStatusWord s
  else if a = fEVR_SILL_HEAD.addr then BitVec.ofNat 32 s.evr.head
  else if a = fEVR_SILL_TAIL.addr then BitVec.ofNat 32 (evrTail s.evr)
  else if a = fEVR_RD_AREA.addr then BitVec.ofNat 32 port.area
  else if a = fEVR_RD_SEL.addr then BitVec.ofNat 32 port.sel
  else if a = fEVR_RD_STAT.addr then BitVec.ofNat 32 port.res
  else if inDims (fEVR_RD_DATA 0).addr [(4, 8)] a then wordOf port.data (fEVR_RD_DATA 0).addr a
  else if decide (0x40048000 ≤ a) && decide (a < 0x4004F000) then snapWord s 0 (a - 0x40040000)
  else if decide (0x40058000 ≤ a) && decide (a < 0x4005F000) then snapWord s 1 (a - 0x40050000)
  else if a = fGNS_SOL_TICK_LO.addr then s.rd a
  else if inDims fGNS_SOL_TICK_LO.addr [(4, 18)] a then
    wordOf (tabGet (fun _ => []) s.gns.latch b) fGNS_SOL_TICK_LO.addr a
  else if a ≠ fFUS_RES_FRAME_LO.addr ∧ fusLatched a = true then
    tabGet (fun _ => 0#32) (tabGet (fun _ => []) s.fus.latch b) a
  else s.rd a

/-- What a read does: it latches a set, or clears the RC bits it returns; an event in the cycle of the read is kept for
the next (R8, R9, R47). -/
def readEffect (b a : Nat) (hw : Word) (s : State) : State :=
  let rc := BitVec.ofNat 32 (descOf a).rc
  if heldZero s a then s
  else if a = fCLK_TICK_LO.addr then latchClk b s
  else if a = fGNS_SOL_TICK_LO.addr then latchSol b s
  else if a = fFUS_RES_FRAME_LO.addr then latchRes b s
  else s.wr a ((s.rd a &&& ~~~rc) ||| (hw &&& rc))

/-- A read of a register. -/
def readReg (b a : Nat) (hw : Word) (s : State) : State :=
  if !regAddrOk a then s.busError else (readEffect b a hw s).answer (viewReg s b a)

/-- A read of a register with an RC field. -/
def execRcFieldRead (req : Req) (addr : Nat) (hwSet : Word) (s : State) : Out :=
  .next (readReg (reqBank req) addr hwSet s)

/-! ## Bus errors (R7, R482) -/

/-- Register space, between the SRAM and the DRAM. -/
def inRegSpace (a : Nat) : Bool := decide (0x40000000 ≤ a) && decide (a < 0x100000000)

/-- An access outside every assigned block, or at an address that is not a multiple of 4. -/
def execBusErrorAccess (_req : Req) (addr : Nat) (_write : Bool) (s : State) : Out :=
  if inRegSpace addr && !regAddrOk addr then .next s.busError else .next s

/-! ## SRAM and DRAM (R26–R30, R32) -/

def inSram (a : Nat) : Bool := decide (a < 0x800000)
def inDram (a : Nat) : Bool := decide (0x100000000 ≤ a) && decide (a < 0x200000000)

/-- The holder of an SRAM address, by the rows of R26. -/
def sramHolder (a : Nat) : Nat :=
  if a < 0x100000 then 0 else if a < 0x200000 then 1 else if a < 0x300000 then 2 else if a < 0x500000 then 3
  else if a < 0x680000 then 4 else if a < 0x6C0000 then 5 else if a < 0x700000 then 6 else 7

/-- The range of a DRAM address, by the rows of R28. -/
def dramRange (a : Nat) : Nat :=
  if a < 0x140000000 then 0 else if a < 0x160000000 then 1 else if a < 0x180000000 then 2 else if a < 0x1C0000000 then 3
  else if a < 0x1D0000000 then 4 else if a < 0x1E0000000 then 5 else 6

/-- A requester may read, or write, an SRAM holder's part (R26, R27). -/
def sramMay (req : Req) (h : Nat) (write : Bool) : Bool :=
  match req with
  | .core c =>
    if c = 4 ∨ c = 5 then h == 0 || h == 7 || (h == 1 && !write)
    else if c = 6 ∨ c = 7 then h == 1 || h == 7 || (h == 0 && !write)
    else if c.val ≤ 3 then h == 3 || h == 7
    else if c = 10 then h == 6
    else false
  | .dma d => (d == 0 && h == 2) || (d == 1 && h == 3) || (d == 2 && h == 4) || (d == 3 && h == 7)
  | .oem _ => false
  | .keyhole => false

/-- An SRAM access outside its rights. The Keyhole has no requester code, and its accesses are DEBUG_ACCESS. -/
def execSramAccessViolation (req : Req) (addr : Nat) (write : Bool) (s : State) : Out :=
  if !inSram addr || sramMay req (sramHolder addr) write || req == .keyhole then .next s
  else .next ((s.busError.putBit fSYS_EVT_BUS_ERR true).ev 0x1030 (reqBank req) (sramHolder addr))

/-- An ECC error is counted and recorded; `scrub` is 1 for a finding of the scrubber (R30–R32). -/
def noteEcc (addr : Nat) (double : Bool) (scrub : Nat) (s : State) : State :=
  let s := if double then (s.inc fSYS_ECC_DB).putBit fSYS_EVT_ECC_DB true else (s.inc fSYS_ECC_SB).putBit fSYS_EVT_ECC_SB true
  let n := if double then 1 else 0
  if inSram addr then s.ev (0x1020 + n) (sramHolder addr) scrub else s.ev (0x1022 + n) (dramRange addr) scrub

/-- A double-bit error in lane SRAM is a fault of that lane (R30, R151). -/
def eccLane (addr : Nat) (double : Bool) (s : State) : State :=
  if double && decide (addr < 0x200000) then laneFault (addr / 0x100000) 4 s else s

/-- A read finds an error: a single-bit one is corrected and written back; a double-bit one outside lane SRAM ends in a
bus error to the requester. -/
def execEccError (_req : Req) (addr : Nat) (double : Bool) (s : State) : Out :=
  if !inSram addr && !inDram addr then .next s
  else
    let s := eccLane addr double (noteEcc addr double 0 s)
    .next (if double && !decide (addr < 0x200000) then s.busError else s)

/-- The scrubber's findings in one pass (R31). -/
def execScrubPass (found : List (Nat × Bool)) (s : State) : Out :=
  .next (forAll found (fun f t =>
    if inSram f.1 || inDram f.1 then eccLane f.1 f.2 (noteEcc f.1 f.2 1 t) else t) s)

/-! ## The Keyhole (R437, R439, R441) -/

/-- Memory the Keyhole reads: not lane SRAM, not the SRAM of the security core, and not the range of DRAM that is
refused to every other requester (R28, R437). -/
def debugReads (a : Nat) : Bool :=
  (inSram a && decide (2 ≤ sramHolder a) && sramHolder a != 6) || (inDram a && dramRange a != 6)

/-- Memory the Keyhole writes under FULL: a lane's SRAM only while that lane is halted, and nothing that is written by
its holder alone. -/
def debugWrites (s : State) (a : Nat) : Bool :=
  (inSram a && (if sramHolder a < 2 then (s.lane (sramHolder a)).halted else sramHolder a != 5 && sramHolder a != 6))
    || (inDram a && dramRange a != 6)

/-- The registers of a lane, or the lane, are closed to writes while it is not halted. -/
def laneClosed (s : State) (a : Nat) : Bool :=
  (inPage 4 a && !(s.lane 0).halted) || (inPage 5 a && !(s.lane 1).halted)

/-- A Keyhole read, under PEEP and FULL. -/
def debugRead (a : Nat) (s : State) : State :=
  if inRegSpace a then readReg (reqBank .keyhole) a 0#32 s
  else if debugReads a then s.answer (s.rd32 a) else s.busError

/-- A Keyhole write, under FULL. -/
def debugWrite (a : Nat) (v : Word) (s : State) : State :=
  if inRegSpace a then (if laneClosed s a then s else writeReg .keyhole a v 0#32 s)
  else if debugWrites s a then s.wr32 a v else s

/-- A Keyhole access at the level in force; the TAP is unpowered in LATCHED and below. -/
def execDebugAccess (addr : Nat) (write : Option Word) (s : State) : Out :=
  if 2 ≤ pwrState s ∨ s.get fSEC_STATUS_LEVEL = 0 then .next s
  else match write with
    | none => .next (debugRead addr s)
    | some v => if s.get fSEC_STATUS_LEVEL = 2 then .next (debugWrite addr v s) else .next s

end Sys2Proof.Machine
end

