-- ==== Sys2Proof/Machine/Panel.lean ====
section
/-!
DEFINITION. The limp panel (R472–R481): composition of its content, drive frames with the frame-memory check, and the DC
balance.
-/
namespace Sys2Proof.Machine

/-! ## Content (R472, R474, R475) -/

/-- The code of a bring-up stop, by FAIL: 1 SEC, 2 CFG, 3 LANE, 4 ROLE, 5 POS, 6 OPT. -/
def failCode (n : Nat) : List Nat := match n with
  | 1 => [0x53, 0x45, 0x43]
  | 2 => [0x43, 0x46, 0x47]
  | 3 => [0x4C, 0x41, 0x4E, 0x45]
  | 4 => [0x52, 0x4F, 0x4C, 0x45]
  | 5 => [0x50, 0x4F, 0x53]
  | _ => [0x4F, 0x50, 0x54]

/-- The letter of a lane state: A, S, R or B. -/
def laneLetter (v : Nat) : Nat := match v with
  | 0 => 0x41
  | 1 => 0x53
  | 2 => 0x52
  | _ => 0x42

/-- The source of the content: 1 BRINGUP, 2 LIMP, 3 MESSAGE, 4 STATE. -/
def panelSource (s : State) : Nat :=
  if s.get fRST_STATUS_FAIL ≠ 0 then 1 else if inLimp s then 2 else if s.bit fPNL_CTL_MSG_EN then 3 else 4

/-- The characters of the content, as ASCII codes. -/
def panelText (s : State) : List Nat := match panelSource s with
  | 1 => failCode (s.get fRST_STATUS_FAIL)
  | 2 => [0x4C, 0x49, 0x4D, 0x50, 0x20, 0x44, 0x30 + (s.evr.dbl.elim 0 fun r => r.flags) % 10]
  | 3 => (wordBytes (s.rd fPNL_TEXT0.addr) ++ wordBytes (s.rd fPNL_TEXT1.addr)).map BitVec.toNat
  | _ => [0x50, 0x30 + s.straps.pos, 0x20, laneLetter (laneState s 0), laneLetter (laneState s 1)]

/-- The 14 segments of a character, a in bit 0; a code outside 0x20–0x5F is drawn as a space. -/
def glyphOf (c : Nat) : Nat := (Config.glyph (if 0x20 ≤ c ∧ c ≤ 0x5F then c else 0x20)).toNat

/-- A stage of the function is under its no-claim policy (R475). -/
def fnUnderPolicy (s : State) (f : Nat) : Bool :=
  fnHome s f && (fnOutFlds f).any fun x => decide (s.get x < 48) && (s.jamb (s.get x)).pol

/-- The frame memory of the content. The own marker blinks at 1 Hz in LIMP. -/
def panelFrame (s : State) : BitVec 192 :=
  let limp := panelSource s == 2
  let chars := (List.range 8).map fun k => glyphOf ((panelText s).getD k 0x20) * 2 ^ (14 * k)
  let fns := (List.range 30).map fun f => if limp && fnUnderPolicy s f then 2 ^ (112 + f) else 0
  let mark (p : Nat) : Bool :=
    if p = s.straps.pos then !limp || s.clk.tick / 10000 % 2 == 0 else limp && s.bitAt fECN_MEMBERS_LIMP p
  let marks := (List.range 8).map fun p => if mark p then 2 ^ (142 + p) else 0
  BitVec.ofNat 192 (chars.sum + fns.sum + marks.sum)

/-- The CRC over the 24 bytes of a frame memory (R476). -/
def frameMemCrc (b : BitVec 192) : BitVec 16 :=
  (List.range 24).foldl (fun c k => crcByte c (b.extractLsb' (8 * k) 8)) 0xFFFF#16

/-- Step 5 of R23: the driver composes the content to the shadow, with its CRC. -/
def composePanel (s : State) : State :=
  let b := panelFrame s
  { s.put fPNL_STATUS_SRC (panelSource s) with pnl := { s.pnl with shadow := b, ref := frameMemCrc b, retry := true } }

/-- PNL_LED, the panel backlight: on in OPEN and LOUVRED (R498). -/
def panelLed (s : State) : Bool := decide (pwrState s ≤ 1)

/-! ## Drive frames (R473, R476–R478) -/

/-- The active frame memory. -/
def activeFrame (s : State) : BitVec 192 :=
  BitVec.ofNat 192 ((List.range 6).map fun w => s.get (fPNL_FRAME w) * 2 ^ (32 * w)).sum

def putFrame (b : BitVec 192) (s : State) : State :=
  forUp 6 (fun w t => t.wr (fPNL_FRAME w).addr (b.extractLsb' (32 * w) 32)) s

/-- The level difference of segment n from its COM line in slot i, in units of VLCD/3 (R473). -/
def slotLevel (on : Bool) (n i : Nat) : Int :=
  let sign : Int := if i % 2 = 0 then 1 else -1
  if on && i / 2 == n % 4 then 3 * sign else sign

/-- The accumulator of segment n. -/
def dcbAcc (s : State) (n : Nat) : Int := tabGet (fun _ => (0 : Int)) s.pnl.acc n

/-- The slots of the present frame that last 52 KA cycles: every fifth slot of the pattern. -/
def longSlots (s : State) : List Nat := (List.range 8).filter fun i => (s.pnl.phase + i) % 5 == 4

/-- The lines are held at level 0 for 1 ms or more: every accumulator is 0 (R477). -/
def restLines (s : State) : State := { s with pnl := { s.pnl with acc := [], rev := false } }

/-- The segment with the largest accumulator in magnitude. -/
def worstSeg (s : State) : Nat × Nat :=
  (List.range 192).foldl (fun m n => if m.2 < (dcbAcc s n).natAbs then (n, (dcbAcc s n).natAbs) else m) (0, 0)

/-- The balance check at the end of a drive frame (R477). -/
def checkBalance (s : State) : State :=
  let w := worstSeg s
  let lim := s.get fPNL_CFG_DCB_LIM
  let s := if s.get fPNL_DCB_MAX < w.2 then (s.put fPNL_DCB_MAX (min w.2 65535)).put fPNL_DCB_SEG w.1 else s
  let s := { s with pnl := { s.pnl with rev := decide (lim ≤ w.2) } }
  if 8 * lim ≤ w.2 then
    let s := { restLines s with pnl := { (restLines s).pnl with holdAt := some s.clk.tick } }
    (s.putBit fPNL_EVT_DCB true).evMax 0xE003 w.1 0 (f16OfNat w.2)
  else s

/-- In KA timing the long slots add to the accumulators, with the sign of the frame. -/
def accumulateDc (shown : BitVec 192) (rev : Bool) (s : State) : State :=
  let ls := longSlots s
  let add (n : Nat) (t : State) : State :=
    let d := (ls.map fun i => slotLevel (shown.getLsbD n) n i).sum
    { t with pnl := { t.pnl with acc := tabSet (fun _ => (0 : Int)) t.pnl.acc n (dcbAcc t n + if rev then -d else d) } }
  let s := forUp 192 add s
  { s with pnl := { s.pnl with phase := (s.pnl.phase + 8) % 5 } }

/-- The frame-memory check: a mismatch is counted and recorded, and the third in a row blanks the panel until a check
passes (R476). -/
def checkFrame (s : State) : State :=
  let c := frameMemCrc (activeFrame s)
  let s := (s.put fPNL_CRC_LAST c.toNat).put fPNL_CRC_REF s.pnl.ref.toNat
  if c = s.pnl.ref then { s.putBit fPNL_STATUS_FAULT false with pnl := { s.pnl with bad := 0 } }
  else
    let n := s.pnl.bad + 1
    let s := { s with pnl := { s.pnl with bad := n } }
    let s := ((s.inc fPNL_CNT_MISMATCH).putBit fPNL_EVT_CRC true).evMax 0xE001 0 0 (f16OfNat n)
    if n = 3 then ((s.putBit fPNL_STATUS_FAULT true).putBit fPNL_EVT_FAULT true).ev 0xE002 else s

/-- The driver drives the glass: it has started, no supply is lost, and no balance fault holds the lines (R474, R478,
R479). -/
def driverOn (s : State) : Bool :=
  decide (2 ≤ s.rst.next) && !s.pnl.dark && s.pnl.holdAt.isNone
    && (decide (pwrState s < 2) || (pwrState s == 2 && s.bit fPNL_CFG_LATCH_SHOW))

/-- A drive frame: it takes the shadow unless a composition is in progress, checks the active memory, in which `flips`
are the bits that changed by themselves, and drives the glass; blanked, it checks again once per frame boundary. -/
def execDriveFrame (composing : Bool) (flips : BitVec 192) (s : State) : Out :=
  if !driverOn s then .next (if pwrState s < 2 then s else restLines s)
  else
    let ka := pwrState s == 2
    let rev := s.pnl.rev
    let s := (s.putBit fPNL_STATUS_KA_TIMING ka).putBit fPNL_STATUS_REVERSED rev
    let s := if rev then s.inc fPNL_CNT_REVERSALS else s
    let s := if composing && s.pnl.bad == 0 then s else putFrame s.pnl.shadow s
    let s := putFrame (activeFrame s ^^^ flips) s
    let wait := s.bit fPNL_STATUS_FAULT && !s.pnl.retry
    let s := if wait then s else checkFrame { s with pnl := { s.pnl with retry := false } }
    let shown := if s.bit fPNL_STATUS_FAULT then 0#192 else activeFrame s
    .next (checkBalance (if ka then accumulateDc shown rev s else s))

/-- After 1 s at level 0 the driver resumes (R477). -/
def execDcbHoldEnd (s : State) : Out :=
  match s.pnl.holdAt with
  | none => .next s
  | some t =>
    if pwrState s < 2 ∧ s.clk.tick < t + 20000 then .next s
    else .next { restLines s with pnl := { (restLines s).pnl with holdAt := none } }

end Sys2Proof.Machine
end

