-- ==== Sys2Proof/Machine/FrameBoundary.lean ====
section
/-!
DEFINITION. The frame boundary (R23, R24): what takes effect at T of a tick whose count is a multiple of 400, in its
order.
-/
namespace Sys2Proof.Machine

/-- Step 1 of R23: internal commits, then the transaction commits, the ring mode, and the locks that were requested
(R66, R309, R310, R387). -/
def boundaryCommits (s : State) : State :=
  let s := applyMode (commitBoundary (forUp 4 calCommit s))
  guidLockCheck (forUp 4 attRelock (applyLocks s))

/-- The actions of R23 in their order, after the step of module time (R52). -/
def boundaryActions (s : State) : State :=
  let s := boundaryCommits (frameStep s)
  let s := applySet (ringSet s)
  composePanel (exposureStart (shadowTransfer s))

/-- The boundary of the next tick edge: its actions come before everything else at that T, with the tick count and
module time of that T. The command stands directly before the tick edge. -/
def execFrameBoundary (s : State) : Out :=
  if tickRuns s = false ∨ (s.clk.tick + 1) % 400 ≠ 0 then .next s
  else
    let t := boundaryActions { s with clk := { s.clk with tick := s.clk.tick + 1, cycle := 0 } }
    .next { t with clk := { t.clk with tick := s.clk.tick, cycle := s.clk.cycle } }

end Sys2Proof.Machine
end

