-- ==== Sys2Proof/Machine/Supply.lean ====
section
/-!
DEFINITION. Supply and temperature (R488–R491, R504–R506).
-/
namespace Sys2Proof.Machine

/-! ## Logic supply (R488, R489) -/

/-- VLOG has stayed below 6.0 V for 50 µs: the panel discharges, and the recorder flushes, with its closing marker if the
hold-up lasts. The store is not refilled before the next reset, and BROWNOUT follows. -/
def execSupplyLoss (vlog : F32) (flushed : Bool) (s : State) : Out :=
  if s.sup.lost ∨ 2 ≤ pwrState s ∨ s.evrOn = false then .next s
  else
    let s := { restLines s with sup := { s.sup with lost := true }, pnl := { (restLines s).pnl with dark := true } }
    let s := (s.evx 0x1083 0 0 (f16OfF32 vlog) f16NaN).ev 0xE004
    let s := if flushed then evrDrain s else s
    .next { s with evr := { s.evr with flash := { s.evr.flash with closed := flushed } } }

/-- The supply falls below 9 V; `v` is the lowest voltage. -/
def execSupplyLow (v : F32) (s : State) : Out :=
  if s.sup.low || !f32Lt v 0x41100000#32 then .next s
  else .next ({ s with sup := { s.sup with low := true } }.evx 0x1082 0 0 (f16OfF32 v) f16NaN)

/-- The supply rises above 36 V. -/
def execSupplyHigh (v : F32) (s : State) : Out :=
  if s.sup.high || !f32Lt 0x42100000#32 v then .next s
  else .next ({ s with sup := { s.sup with high := true } }.evMax 0x1084 0 0 (f16OfF32 v))

/-! ## Load supply (R491) -/

/-- The channels stop without a change of their commands; the next T takes each command as a new one. -/
def restartStages (s : State) : State :=
  let s := forUp 16 (fun n t =>
    let t := if 1 ≤ vlvPhase t n ∧ vlvPhase t n ≤ 5 then vlvStop n 0 t else t
    t.setVlv n { t.vlv n with cmd := 0#32, on := false, offCmd := false }) s
  forUp 32 (fun n t =>
    if pswLasting t n || pswLocked t n then t
    else (pswStop n 0 t).setPsw n { (pswStop n 0 t).psw n with act := 0#32, again := 2 }) s

/-- VBAT_OUT falls below 6.0 V: no output carries current, and the boost converters stop. Jambs, selection and claims go
on. -/
def execLoadSupplyLoss (s : State) : Out :=
  if s.dies.loadOff then .next s
  else .next (showBudget (restartStages { s with dies := { s.dies with loadOff := true } }))

/-- VBAT_OUT returns: the stages follow their applied commands from the next T. -/
def execLoadSupplyReturn (s : State) : Out :=
  if s.dies.loadOff then .next (restartStages { s with dies := { s.dies with loadOff := false } }) else .next s

/-! ## Temperature (R505) -/

/-- The case temperature of SIG[161]. -/
def caseTemp (s : State) : F32 := (s.sig (topLane s) 161).val

/-- The case exceeds +88 °C at T: the APP clock is capped at 1.0 GHz. -/
def execAppClockCap (s : State) : Out :=
  if s.sup.cap || !f32Lt 0x42B00000#32 (caseTemp s) then .next s
  else .next ({ s with sup := { s.sup with cap := true } }.evMax 0x1080 0 1 (f16OfF32 (caseTemp s)))

/-- The case has stayed at or below +85 °C for 10 s: the APP clock returns to 1.6 GHz. -/
def execAppClockRestore (s : State) : Out :=
  match s.sup.coolAt with
  | none => .next s
  | some t =>
    if s.sup.cap = false ∨ s.clk.tick < t + 200000 then .next s
    else .next ({ s with sup := { s.sup with cap := false } }.evMax 0x1080 0 0 (f16OfF32 (caseTemp s)))

/-- The case exceeds +108 °C: 0x1081 once until it has fallen to +105 °C. -/
def execCaseOvertemp (s : State) : Out :=
  if s.sup.hot || !f32Lt 0x42D80000#32 (caseTemp s) then .next s
  else .next ({ s with sup := { s.sup with hot := true } }.evMax 0x1081 0 0 (f16OfF32 (caseTemp s)))

/-- Each tick: how long the case has been cool, and the ends of the conditions that the events above record once;
`v` is the supply, `svc` the service plug detect (R498). -/
def supTick (v : F32) (svc : Bool) (s : State) : State :=
  let c := caseTemp s
  let u := s.sup
  { s with sup := { u with
    svc := svc
    low := u.low && f32Lt v 0x41100000#32
    high := u.high && f32Lt 0x42100000#32 v
    coolAt := if f32Le c 0x42AA0000#32 then (if u.coolAt.isSome then u.coolAt else some s.clk.tick) else none
    hot := u.hot && f32Lt 0x42D20000#32 c } }

end Sys2Proof.Machine
end

