-- ==== Sys2Proof/Machine/TickEdge.lean ====
section
/-!
DEFINITION. The tick edge (R20, R34, R38, R39, R82): the Jambs apply, the inputs are latched and frozen, and both lanes
fill their signal tables, run their panes and send their commands.
-/
namespace Sys2Proof.Machine

/-! ## The count and what follows it (R38, R43, R428, R438) -/

/-- The tick counter, the RTC that counts seconds beside it, and the IGN line. -/
def edgeTime (ign : Bool) (s : State) : State :=
  let t := s.clk.tick + 1
  let s := { s with clk := { s.clk with tick := t, cycle := 0 }, rst := { s.rst with ticks := s.rst.ticks + 1 } }
  let s := if s.bit fPWR_STATUS_IGN && !ign then { s with pwr := { s.pwr with ignAt := t } } else s
  let s := s.putBit fPWR_STATUS_IGN ign
  if t % 20000 ≠ 0 then s
  else
    let s := s.put fPWR_RTC (s.get fPWR_RTC + 1)
    if s.get fSEC_STATUS_LEVEL = 1 then
      s.put fSEC_TOKEN_MIN_LEFT ((s.sec.tokenEnd - s.get fPWR_RTC + 59) / 60)
    else s

/-! ## Output stages at T (R156, R163, R167, R186, R203) -/

/-- The stage's readback agrees with its applied command; that of a transmit signal always has the same bits (R345). -/
def stageAgrees (inp : TickIn) (s : State) (c : Nat) : Bool :=
  if !(s.jamb c).ever || !dieUp s (stageDie c) then true
  else if c < 16 then vlvAgrees s c (inp.vlv.getD c ⟨0, 0, 0#32⟩).mean
  else if c < 48 then
    let i := inp.psw.getD (c - 16) ⟨0, 0, 0, 0, 0, false⟩
    pswAgrees s (c - 16) i.mean i.pin
  else true

/-- The readback condition of a Hinge swap. -/
def hingeReadback (inp : TickIn) (s : State) : State :=
  if s.bit fCLM_STATUS_HINGE_RUN && !((List.range 64).all (stageAgrees inp s)) then hingeCheck 4 s else s

/-- The dies report the past tick, and every stage applies its command. -/
def edgeStages (inp : TickIn) (s : State) : State :=
  let s := pswReport inp (vlvReport inp (hingeReadback inp s))
  let s := forUp 64 (fun c t => (applyJamb c t).2) s
  showBudget (forUp 32 pswTick (forUp 16 vlvTick s))

/-! ## Inputs at T (R68–R76, R81) -/

/-- The inputs of the past tick are latched and frozen for both lanes. -/
def edgeInputs (inp : TickIn) (s : State) : State :=
  let s := forUp 24 (latchPair inp) s
  let s := forUp 48 (latchUin inp) s
  let s := forUp 24 clearFirst (forUp 4 latchAngle s)
  let s := forUp 16 latchLoss s
  let s := forUp 8 (fun i t => t.putNews (136 + i) ⟨inp.imu.getD i 0#32, 0, true, false, false⟩) s
  let amps := (inp.psw.map fun i => i.mean).sum
  let vals := inp.supply.take 2 ++ (List.range 4).map (fun b => f32OfRatio false (s.get (fVLV_BANK_RAIL_V_RAIL b)) 100)
    ++ [f32OfRatio false amps 1000]
  let s := forUp 7 (fun i t => t.putNews (160 + i) ⟨vals.getD i 0#32, 0, true, false, false⟩) s
  mailSwap (takeWindows s)

/-! ## The lanes (R82, R104, R107, R167) -/

/-- A lane fills its table: it has passed step 5, is not BARRED, halted, or in the first three steps of a recovery. -/
def laneFills (s : State) (l : Nat) : Bool :=
  let x := s.lane l
  decide (6 ≤ s.rst.next) && !x.halted && laneState s l != 3 && !(decide (1 ≤ x.step) && decide (x.step ≤ 3))

/-- The SIG entries of a lane that does not fill them stay as they are. -/
def keepSig (old : State) (l : Nat) (s : State) : State :=
  if laneFills old l then s
  else forUp 2048 (fun k t => t.wr32 (laneBase l + 4 * k) (old.rd32 (laneBase l + 4 * k))) s

/-- A GUIDANCE target that is usable and not too old becomes the target of its function; a function at home on a module
that runs no guidance takes its source with it (R65, R67, R272). -/
def guidTarget (f : Nat) (s : State) : State :=
  match s.fn.guid.find? fun x => x.1 == f with
  | none => s
  | some (_, e) =>
    let g := s.sig (topLane s) e
    if fnHome s f && !fnLocked s f && sigUsable g (s.get fFUS_CFG_GUID_AGE_MAX)
        && (s.get (fFUN_REC_CTL_SP_SRC f) == 3 || !s.wide) then
      setTarget f g.val (s.put (fFUN_REC_CTL_SP_SRC f) 3)
    else s

/-- The signal tables of both lanes in the order of R82, with the targets of R65 and R138 and their ramps. -/
def edgeFill (inp : TickIn) (s : State) : State :=
  let s := forUp 2 (fun l t => fillMail l (fillCan l t)) s
  let s := forUp 2 (fun l t => forUp 4 (deriveGroup l) (deriveCrop inp.headerRaised l t)) s
  let s := ditherTick (forAll guidFns guidTarget s)
  forUp 2 (fun l t => forUp 30 (rampFn l) t) s

/-- The stage waits for a claiming frame with RESUME = 1. -/
def stageWaits (s : State) (c : Nat) : Bool :=
  let j := s.jamb c
  (j.pol || !j.ever) && dieUp s (stageDie c)

/-- Lane l has read a waiting stage back: its channel takes U_LAST from the readback and is seeded, and the lane's
frames for the stage carry RESUME = 1 until the stage has resumed. -/
def resumeStage (l c : Nat) (s : State) : State :=
  let x := s.lane l
  if !laneUp s l then s
  else if !stageWaits s c then s.setLane l { x with resume := x.resume.filter fun k => k != c }
  else if x.resume.contains c then s
  else
    let chs := (List.range 96).filter (drives s l c)
    let s := forAll chs (fun n t => seedNext l n (takeReadback false l n t)) s
    s.setLane l { s.lane l with resume := c :: x.resume }

/-- Lane l sends command frames in this tick: with its claim, or with claim 0 in the last steps of a recovery (R161). -/
def laneSends (s : State) (l : Nat) : Bool :=
  s.bit fRST_STATUS_CLAIMS && !inLimp s && s.pwr.parkAt.isNone
    && (laneUp s l || (laneState s l == 2 && ((s.lane l).step == 4 || (s.lane l).step == 5)))

/-- The frame of one CMD entry; one that no channel writes is sent with value 0 and VALID = 1 (R104, R153). -/
def frameFor (s : State) (l c : Nat) : Sent :=
  let x := s.cmd l c
  let resume := (s.lane l).resume.contains c
  let claim := s.get (claimFld l)
  if (List.range 96).any (drives s l c) then
    mkSent c claim l x.val x.valid x.degraded resume (s.clk.tick + 1)
  else mkSent c claim l 0#32 true false resume (s.clk.tick + 1)

/-- The commands of the channels that lane l has computed leave at once (R104). -/
def sendDone (l : Nat) (chs : List Nat) (s : State) : State :=
  let out := if laneSends s l then
      ((List.range 64).filter fun c => chs.any (drives s l c)).map (frameFor s l)
    else []
  { s with clm := { s.clm with sent := s.clm.sent ++ out } }

/-- The panes of lane l; a residue mismatch stops its pane, and nothing of the failed operation is written (R89). -/
def edgePanes (residue : Option (Lane × Fin 96)) (l : Nat) (s : State) : State :=
  let s := if laneFills s l then forUp 96 (countWarm l) (forUp 64 (ageLoopSig l) s) else s
  if !s.bit (fLE_STATUS_RUN l) || (s.lane l).halted then s
  else
    let chs := tickChannels s l s.clk.tick
    match residue with
    | some (r, n) =>
      if laneIx r = l ∧ chs.contains n.val = true then
        let done := chs.takeWhile fun k => k != n.val
        let s := sendDone l done (runPanes l done s)
        let s := ((s.inc (fLE_RES_CNT l)).putBit (fLE_EVT_RESIDUE l) true).ev 0x3002 n
        laneFault l 2 (s.putBit (fLE_STATUS_RUN l) false)
      else runPanes l chs s
    | none => runPanes l chs s

/-- The frames of both lanes for the next tick. -/
def edgeSend (s : State) : State :=
  let of (l : Nat) : List Sent := if laneSends s l then (List.range 64).map (frameFor s l) else []
  { s with clm := { s.clm with sent := s.clm.sent ++ of 0 ++ of 1 } }

/-! ## Ring messages of the manager that a tick brings (R52, R324, R325) -/

def edgeMessages (s : State) : State :=
  let t := s.clk.tick
  if !s.straps.manager || s.ecn.firstAt.isNone then s
  else
    let s := if t % 400 = 0 then sendMsg 0x01 [(s.get64 fSEC_SERIAL_LO.addr : Int)] s else s
    let s := if t % 1000 = 0 then sendMsg 0x09 [(s.get fCLK_LEAP : Int), (s.get64 fCLK_LEAP_AT_LO.addr : Int)] s else s
    if t % 400 = 399 ∧ s.bit fCLK_STATUS_STEP_PEND = true then sendMsg 0x08 [-s.clk.err, (t : Int) + 1] s else s

/-- All that happens in the tick that the edge begins. -/
def edgeAll (inp : TickIn) (s : State) : State :=
  let old := s
  let s := { s with clm := { s.clm with sent := [] } }
  let s := edgeInputs inp (edgeStages inp s)
  let s := edgeFill inp s
  let s := keepSig old 1 (keepSig old 0 s)
  let s := slewTick (zeroTick s)
  let s := if s.clk.tick % 400 = 0 then swgBoundary s else s
  let s := forUp 2 (fun l t => forUp 64 (resumeStage l) t) s
  let s := fillWindow s
  let s := forUp 2 (edgePanes inp.residue) s
  let s := handoverSecond (haltDeferred (announceSwap s))
  let s := edgeSend s
  let s := forUp 2 (fun l t => showGu l (takeSnap l t)) (forUp 30 showFn s)
  let s := ntripTick (hoqTick (edgeMessages s))
  supTick (s.sig (topLane s) 160).val inp.svc (updTick (forUp 4 impactTick s))

/-- The tick edge T. While no tick edge falls there is none; an ECNIL reset that is due at this T takes the place of
the rest (R333). -/
def execTickEdge (inp : TickIn) (s : State) : Out :=
  if tickRuns s = false then .next s
  else
    let s := edgeTime inp.ign s
    match s.ecn.resetAt with
    | some t => if t ≤ s.clk.tick then .next (ecnilReset s) else .next (edgeAll inp s)
    | none => .next (edgeAll inp s)

end Sys2Proof.Machine
end

