-- ==== Sys2Proof/Machine/Dispatch.lean ====
section
/-!
DEFINITION. The dispatch: one arm per command of the opcode table, each the direct call of its meaning.
-/
namespace Sys2Proof.Machine

def exec (i : Instr) (s : State) : Host.Outcome State Fault Refusal :=
  match i with
  | .registerWrite req addr value hwSet => Sys2Proof.Machine.execRegisterWrite req addr value hwSet s
  | .busErrorAccess req addr write => Sys2Proof.Machine.execBusErrorAccess req addr write s
  | .rcFieldRead req addr hwSet => Sys2Proof.Machine.execRcFieldRead req addr hwSet s
  | .tickEdge inp => Sys2Proof.Machine.execTickEdge inp s
  | .channelRecovered n => Sys2Proof.Machine.execChannelRecovered n s
  | .warmupEnd n => Sys2Proof.Machine.execWarmupEnd n s
  | .paneDeadline lane pane cycle => Sys2Proof.Machine.execPaneDeadline lane pane cycle s
  | .commandFrame die link w0 w1 w2 cycle => Sys2Proof.Machine.execCommandFrame die link w0 w1 w2 cycle s
  | .dropFrame die lane => Sys2Proof.Machine.execDropFrame die lane s
  | .linkSilence die lane => Sys2Proof.Machine.execLinkSilence die lane s
  | .jambSelect => Sys2Proof.Machine.execJambSelect s
  | .mismatchGiveUp stage => Sys2Proof.Machine.execMismatchGiveUp stage s
  | .laneFault lane reason => Sys2Proof.Machine.execLaneFault lane reason s
  | .recoveryStepDone lane => Sys2Proof.Machine.execRecoveryStepDone lane s
  | .recoveryStepFail lane => Sys2Proof.Machine.execRecoveryStepFail lane s
  | .recoveryComplete lane => Sys2Proof.Machine.execRecoveryComplete lane s
  | .takeBack => Sys2Proof.Machine.execTakeBack s
  | .switchTick => Sys2Proof.Machine.execSwitchTick s
  | .hingeSwapDue => Sys2Proof.Machine.execHingeSwapDue s
  | .hingeSwapEnd => Sys2Proof.Machine.execHingeSwapEnd s
  | .hingeNow req => Sys2Proof.Machine.execHingeNow req s
  | .testGuA req => Sys2Proof.Machine.execTestGuA req s
  | .testGuB req => Sys2Proof.Machine.execTestGuB req s
  | .noclaimPolicy stage => Sys2Proof.Machine.execNoclaimPolicy stage s
  | .holdWindowEnd stage => Sys2Proof.Machine.execHoldWindowEnd stage s
  | .frameBoundary => Sys2Proof.Machine.execFrameBoundary s
  | .mailboxPost values => Sys2Proof.Machine.execMailboxPost values s
  | .sramAccessViolation req addr write => Sys2Proof.Machine.execSramAccessViolation req addr write s
  | .eccError req addr double => Sys2Proof.Machine.execEccError req addr double s
  | .scrubPass found => Sys2Proof.Machine.execScrubPass found s
  | .clkTickRead req cycle => Sys2Proof.Machine.execClkTickRead req cycle s
  | .holdoverEntry => Sys2Proof.Machine.execHoldoverEntry s
  | .holdoverLimit => Sys2Proof.Machine.execHoldoverLimit s
  | .stepSettle => Sys2Proof.Machine.execStepSettle s
  | .leapSecond => Sys2Proof.Machine.execLeapSecond s
  | .alignReached => Sys2Proof.Machine.execAlignReached s
  | .alignLost => Sys2Proof.Machine.execAlignLost s
  | .clockMonitorFault domain => Sys2Proof.Machine.execClockMonitorFault domain s
  | .lockRequest req bits => Sys2Proof.Machine.execLockRequest req bits s
  | .unlockRequest req bits => Sys2Proof.Machine.execUnlockRequest req bits s
  | .quadIllegalTransition p => Sys2Proof.Machine.execQuadIllegalTransition p s
  | .uinFault n value => Sys2Proof.Machine.execUinFault n value s
  | .uinFaultCleared n => Sys2Proof.Machine.execUinFaultCleared n s
  | .edgeTimeout n => Sys2Proof.Machine.execEdgeTimeout n s
  | .indexMissing p => Sys2Proof.Machine.execIndexMissing p s
  | .indexEdge p pulses => Sys2Proof.Machine.execIndexEdge p pulses s
  | .lossImpact n peak rise gap => Sys2Proof.Machine.execLossImpact n peak rise gap s
  | .lossSilent n => Sys2Proof.Machine.execLossSilent n s
  | .flowZero req => Sys2Proof.Machine.execFlowZero req s
  | .flowZeroDone => Sys2Proof.Machine.execFlowZeroDone s
  | .loadClr req lane => Sys2Proof.Machine.execLoadClr req lane s
  | .snapReq req lane => Sys2Proof.Machine.execSnapReq req lane s
  | .snapDone lane => Sys2Proof.Machine.execSnapDone lane s
  | .swgEnable req disable => Sys2Proof.Machine.execSwgEnable req disable s
  | .swgDisable req => Sys2Proof.Machine.execSwgDisable req s
  | .swgRestart req => Sys2Proof.Machine.execSwgRestart req s
  | .costFrame frame => Sys2Proof.Machine.execCostFrame frame s
  | .steadyReached => Sys2Proof.Machine.execSteadyReached s
  | .swingUpdate => Sys2Proof.Machine.execSwingUpdate s
  | .setPost => Sys2Proof.Machine.execSetPost s
  | .setMissed => Sys2Proof.Machine.execSetMissed s
  | .leaseLost => Sys2Proof.Machine.execLeaseLost s
  | .ditherEnd j => Sys2Proof.Machine.execDitherEnd j s
  | .operatorSetpoint f value => Sys2Proof.Machine.execOperatorSetpoint f value s
  | .boostDecision bank us flow drawn => Sys2Proof.Machine.execBoostDecision bank us flow drawn s
  | .boostRequestRefused n us flow drawn => Sys2Proof.Machine.execBoostRequestRefused n us flow drawn s
  | .boostEnd n us reached flow => Sys2Proof.Machine.execBoostEnd n us reached flow s
  | .peakEnd n us flow => Sys2Proof.Machine.execPeakEnd n us flow s
  | .motionKink n time => Sys2Proof.Machine.execMotionKink n time s
  | .motionTimeout n us => Sys2Proof.Machine.execMotionTimeout n us s
  | .vlvOpenLoad n offTest meas => Sys2Proof.Machine.execVlvOpenLoad n offTest meas s
  | .vlvOvercurrent n peak => Sys2Proof.Machine.execVlvOvercurrent n peak s
  | .holdCurrentLow n current => Sys2Proof.Machine.execHoldCurrentLow n current s
  | .boostConverterFailure bank => Sys2Proof.Machine.execBoostConverterFailure bank s
  | .vlvDieOvertemp n junction => Sys2Proof.Machine.execVlvDieOvertemp n junction s
  | .propCurrentFault n => Sys2Proof.Machine.execPropCurrentFault n s
  | .vlvClr req bits => Sys2Proof.Machine.execVlvClr req bits s
  | .budgetDecision => Sys2Proof.Machine.execBudgetDecision s
  | .switchOnRefused n => Sys2Proof.Machine.execSwitchOnRefused n s
  | .arbiterChange => Sys2Proof.Machine.execArbiterChange s
  | .inrushEnd n => Sys2Proof.Machine.execInrushEnd n s
  | .pswShort n peak => Sys2Proof.Machine.execPswShort n peak s
  | .pswOverload n current ovr again => Sys2Proof.Machine.execPswOverload n current ovr again s
  | .dtLimit n caseT dt => Sys2Proof.Machine.execDtLimit n caseT dt s
  | .junctionOvertemp n junction => Sys2Proof.Machine.execJunctionOvertemp n junction s
  | .pswOpenLoad n onState meas => Sys2Proof.Machine.execPswOpenLoad n onState meas s
  | .caseRise q start stop => Sys2Proof.Machine.execCaseRise q start stop s
  | .pswRetry n dt junction => Sys2Proof.Machine.execPswRetry n dt junction s
  | .pswClr req bits => Sys2Proof.Machine.execPswClr req bits s
  | .clampPulse n energy => Sys2Proof.Machine.execClampPulse n energy s
  | .clampLockRelease n => Sys2Proof.Machine.execClampLockRelease n s
  | .antennaShort a mA low => Sys2Proof.Machine.execAntennaShort a mA low s
  | .antennaTrial a => Sys2Proof.Machine.execAntennaTrial a s
  | .antennaOpen a mA => Sys2Proof.Machine.execAntennaOpen a mA s
  | .antennaOk a mA => Sys2Proof.Machine.execAntennaOk a mA s
  | .antRetry req => Sys2Proof.Machine.execAntRetry req s
  | .coldStartRequest req => Sys2Proof.Machine.execColdStartRequest req s
  | .ant1Substitute => Sys2Proof.Machine.execAnt1Substitute s
  | .ant0Restore => Sys2Proof.Machine.execAnt0Restore s
  | .notchEngage a b freq level => Sys2Proof.Machine.execNotchEngage a b freq level s
  | .notchRelease a b k level => Sys2Proof.Machine.execNotchRelease a b k level s
  | .gnssEpoch meas bands => Sys2Proof.Machine.execGnssEpoch meas bands s
  | .bandReturn a b => Sys2Proof.Machine.execBandReturn a b s
  | .searchComplete sig sv ant power carr code => Sys2Proof.Machine.execSearchComplete sig sv ant power carr code s
  | .navDataSave failed => Sys2Proof.Machine.execNavDataSave failed s
  | .dumpLatch c sums => Sys2Proof.Machine.execDumpLatch c sums s
  | .trackingLoopPeriod upds plan => Sys2Proof.Machine.execTrackingLoopPeriod upds plan s
  | .ncoWrite req c codeNco value => Sys2Proof.Machine.execNcoWrite req c codeNco value s
  | .lockLoss c => Sys2Proof.Machine.execLockLoss c s
  | .coastExpire c => Sys2Proof.Machine.execCoastExpire c s
  | .solutionReady sol => Sys2Proof.Machine.execSolutionReady sol s
  | .gnsSolRead req => Sys2Proof.Machine.execGnsSolRead req s
  | .rtcmMessage ntrip => Sys2Proof.Machine.execRtcmMessage ntrip s
  | .rtcmCanFrame port ext id data => Sys2Proof.Machine.execRtcmCanFrame port ext id data s
  | .corrSourceSwitch => Sys2Proof.Machine.execCorrSourceSwitch s
  | .corrAgeOut => Sys2Proof.Machine.execCorrAgeOut s
  | .tp0Edge cycle => Sys2Proof.Machine.execTp0Edge cycle s
  | .streamFrame n inp => Sys2Proof.Machine.execStreamFrame n inp s
  | .frameLate n frame => Sys2Proof.Machine.execFrameLate n frame s
  | .portAbsent n => Sys2Proof.Machine.execPortAbsent n s
  | .camLinkDown n => Sys2Proof.Machine.execCamLinkDown n s
  | .exposureCommand n => Sys2Proof.Machine.execExposureCommand n s
  | .statsWritten n frame => Sys2Proof.Machine.execStatsWritten n frame s
  | .ispShadowWrite req n r value => Sys2Proof.Machine.execIspShadowWrite req n r value s
  | .lidarSweep u offset => Sys2Proof.Machine.execLidarSweep u offset s
  | .resultIssue inp => Sys2Proof.Machine.execResultIssue inp s
  | .lateSample t obs => Sys2Proof.Machine.execLateSample t obs s
  | .fusResRead req => Sys2Proof.Machine.execFusResRead req s
  | .engage req disengage => Sys2Proof.Machine.execEngage req disengage s
  | .disengage req => Sys2Proof.Machine.execDisengage req s
  | .resume req => Sys2Proof.Machine.execResume req s
  | .guidanceFallback f => Sys2Proof.Machine.execGuidanceFallback f s
  | .unlReq req stop => Sys2Proof.Machine.execUnlReq req stop s
  | .unlConfirm req stop => Sys2Proof.Machine.execUnlConfirm req stop s
  | .unlStop req => Sys2Proof.Machine.execUnlStop req s
  | .unloadEndingDone => Sys2Proof.Machine.execUnloadEndingDone s
  | .mapUpdateBoundary drained => Sys2Proof.Machine.execMapUpdateBoundary drained s
  | .mapUpdateProcess deferred => Sys2Proof.Machine.execMapUpdateProcess deferred s
  | .journalCommit failed full => Sys2Proof.Machine.execJournalCommit failed full s
  | .tileLoaded n bad => Sys2Proof.Machine.execTileLoaded n bad s
  | .journalNow req => Sys2Proof.Machine.execJournalNow req s
  | .kerReset req => Sys2Proof.Machine.execKerReset req s
  | .fieldClose req => Sys2Proof.Machine.execFieldClose req s
  | .tileExport field tx ty => Sys2Proof.Machine.execTileExport field tx ty s
  | .fieldDelete field => Sys2Proof.Machine.execFieldDelete field s
  | .presencePoll present => Sys2Proof.Machine.execPresencePoll present s
  | .authentication p elem => Sys2Proof.Machine.execAuthentication p elem s
  | .periodicReauth p => Sys2Proof.Machine.execPeriodicReauth p s
  | .reauth req bits => Sys2Proof.Machine.execReauth req bits s
  | .counterWrite confirmed => Sys2Proof.Machine.execCounterWrite confirmed s
  | .ecnilFrame port frame => Sys2Proof.Machine.execEcnilFrame port frame s
  | .announce port serial => Sys2Proof.Machine.execAnnounce port serial s
  | .join pos serial orderB fw sysId persistGen => Sys2Proof.Machine.execJoin pos serial orderB fw sysId persistGen s
  | .ecnAdmit pos tick tbase replay => Sys2Proof.Machine.execEcnAdmit pos tick tbase replay s
  | .ecnRefuse pos reason => Sys2Proof.Machine.execEcnRefuse pos reason s
  | .ecnSet gen apply items => Sys2Proof.Machine.execEcnSet gen apply items s
  | .commitMessage part => Sys2Proof.Machine.execCommitMessage part s
  | .ecnAck pos gen => Sys2Proof.Machine.execEcnAck pos gen s
  | .ecnStep amount boundary => Sys2Proof.Machine.execEcnStep amount boundary s
  | .ecnLeap table => Sys2Proof.Machine.execEcnLeap table s
  | .ecnReset pos => Sys2Proof.Machine.execEcnReset pos s
  | .ecnMode gen apply => Sys2Proof.Machine.execEcnMode gen apply s
  | .abortCheck => Sys2Proof.Machine.execAbortCheck s
  | .genCheck => Sys2Proof.Machine.execGenCheck s
  | .portDown port down => Sys2Proof.Machine.execPortDown port down s
  | .portUp port down => Sys2Proof.Machine.execPortUp port down s
  | .workerResetRequest req pos => Sys2Proof.Machine.execWorkerResetRequest req pos s
  | .managerListenEnd => Sys2Proof.Machine.execManagerListenEnd s
  | .joinSend port => Sys2Proof.Machine.execJoinSend port s
  | .joinTimeout => Sys2Proof.Machine.execJoinTimeout s
  | .refusedTimeout => Sys2Proof.Machine.execRefusedTimeout s
  | .joinTick => Sys2Proof.Machine.execJoinTick s
  | .rejoin => Sys2Proof.Machine.execRejoin s
  | .claimsEnable => Sys2Proof.Machine.execClaimsEnable s
  | .joinWaitExpire => Sys2Proof.Machine.execJoinWaitExpire s
  | .joinLate => Sys2Proof.Machine.execJoinLate s
  | .canFrameReceive port frame => Sys2Proof.Machine.execCanFrameReceive port frame s
  | .signalTimeout k => Sys2Proof.Machine.execSignalTimeout k s
  | .txMessageDue m => Sys2Proof.Machine.execTxMessageDue m s
  | .canTxComplete port express tec => Sys2Proof.Machine.execCanTxComplete port express tec s
  | .canTxRetry port express error tec => Sys2Proof.Machine.execCanTxRetry port express error tec s
  | .hoqLimit port => Sys2Proof.Machine.execHoqLimit port s
  | .busOff port tec => Sys2Proof.Machine.execBusOff port tec s
  | .busOffHoldEnd port => Sys2Proof.Machine.execBusOffHoldEnd port s
  | .busOffRecovered port => Sys2Proof.Machine.execBusOffRecovered port s
  | .canRecover req bits => Sys2Proof.Machine.execCanRecover req bits s
  | .canFlush req bits => Sys2Proof.Machine.execCanFlush req bits s
  | .addressClaimed port => Sys2Proof.Machine.execAddressClaimed port s
  | .contendingClaim port addr name => Sys2Proof.Machine.execContendingClaim port addr name s
  | .cannotClaimSend port => Sys2Proof.Machine.execCannotClaimSend port s
  | .commandedAddress port name addr => Sys2Proof.Machine.execCommandedAddress port name addr s
  | .noAddressTimeout port => Sys2Proof.Machine.execNoAddressTimeout port s
  | .j1939Transport port ev => Sys2Proof.Machine.execJ1939Transport port ev s
  | .dm1Send port content => Sys2Proof.Machine.execDm1Send port content s
  | .canSleep port => Sys2Proof.Machine.execCanSleep port s
  | .txsNoclaimPolicy sig => Sys2Proof.Machine.execTxsNoclaimPolicy sig s
  | .ethLinkChange p up sqi => Sys2Proof.Machine.execEthLinkChange p up sqi s
  | .ptpForeign p => Sys2Proof.Machine.execPtpForeign p s
  | .ptpSync p => Sys2Proof.Machine.execPtpSync p s
  | .tlsHandshake conn ok alert => Sys2Proof.Machine.execTlsHandshake conn ok alert s
  | .fleetConnect => Sys2Proof.Machine.execFleetConnect s
  | .fleetDisconnect why => Sys2Proof.Machine.execFleetDisconnect why s
  | .reconnectAttempt ntrip => Sys2Proof.Machine.execReconnectAttempt ntrip s
  | .fleetReconnect req => Sys2Proof.Machine.execFleetReconnect req s
  | .ntripReconnect req => Sys2Proof.Machine.execNtripReconnect req s
  | .tileSync req => Sys2Proof.Machine.execTileSync req s
  | .fleetInbound payload => Sys2Proof.Machine.execFleetInbound payload s
  | .uoffer hdr capacity arrival => Sys2Proof.Machine.execUoffer hdr capacity arrival s
  | .uend hdr reason => Sys2Proof.Machine.execUend hdr reason s
  | .tget hdr field tx ty => Sys2Proof.Machine.execTget hdr field tx ty s
  | .cfgRequest sigOk op => Sys2Proof.Machine.execCfgRequest sigOk op s
  | .cartPos hdr lat lon height heading speed fix stat => Sys2Proof.Machine.execCartPos hdr lat lon height heading speed fix stat s
  | .puback seq chunk => Sys2Proof.Machine.execPuback seq chunk s
  | .periodicPublish tank fill mass => Sys2Proof.Machine.execPeriodicPublish tank fill mass s
  | .ureqLapse => Sys2Proof.Machine.execUreqLapse s
  | .publicationExpire => Sys2Proof.Machine.execPublicationExpire s
  | .ntripReply ok status => Sys2Proof.Machine.execNtripReply ok status s
  | .ntripSilence => Sys2Proof.Machine.execNtripSilence s
  | .ggaSend => Sys2Proof.Machine.execGgaSend s
  | .cfgBegin owner mask => Sys2Proof.Machine.execCfgBegin owner mask s
  | .stage owner handle item => Sys2Proof.Machine.execStage owner handle item s
  | .commit owner handle persist => Sys2Proof.Machine.execCommit owner handle persist s
  | .validationDone remote => Sys2Proof.Machine.execValidationDone remote s
  | .rollback owner handle => Sys2Proof.Machine.execRollback owner handle s
  | .stagingTimeout => Sys2Proof.Machine.execStagingTimeout s
  | .requesterDisconnect owner => Sys2Proof.Machine.execRequesterDisconnect owner s
  | .persistDone failed => Sys2Proof.Machine.execPersistDone failed s
  | .baseImageWrite image => Sys2Proof.Machine.execBaseImageWrite image s
  | .manifest man => Sys2Proof.Machine.execManifest man s
  | .partHeader part => Sys2Proof.Machine.execPartHeader part s
  | .partPayload hash => Sys2Proof.Machine.execPartPayload hash s
  | .receptionTimeout => Sys2Proof.Machine.execReceptionTimeout s
  | .updAbandon => Sys2Proof.Machine.execUpdAbandon s
  | .updateActivate remote => Sys2Proof.Machine.execUpdateActivate remote s
  | .updateConfirm => Sys2Proof.Machine.execUpdateConfirm s
  | .updateFallback remote => Sys2Proof.Machine.execUpdateFallback remote s
  | .updData entry offset bytes check => Sys2Proof.Machine.execUpdData entry offset bytes check s
  | .staged pos entry result offset => Sys2Proof.Machine.execStaged pos entry result offset s
  | .updGo gen apply slot => Sys2Proof.Machine.execUpdGo gen apply slot s
  | .updDone pos result => Sys2Proof.Machine.execUpdDone pos result s
  | .updCommit dual => Sys2Proof.Machine.execUpdCommit dual s
  | .updFallbackOp gen apply => Sys2Proof.Machine.execUpdFallbackOp gen apply s
  | .updLasting pos code => Sys2Proof.Machine.execUpdLasting pos code s
  | .updConfirmed floor => Sys2Proof.Machine.execUpdConfirmed floor s
  | .activationGoTick => Sys2Proof.Machine.execActivationGoTick s
  | .activationTimeout => Sys2Proof.Machine.execActivationTimeout s
  | .harvestConfirm => Sys2Proof.Machine.execHarvestConfirm s
  | .powerOn => Sys2Proof.Machine.execPowerOn s
  | .brownout => Sys2Proof.Machine.execBrownout s
  | .external => Sys2Proof.Machine.execExternal s
  | .warm req => Sys2Proof.Machine.execWarm req s
  | .rstBlock req id => Sys2Proof.Machine.execRstBlock req id s
  | .blockResetDone gns dies => Sys2Proof.Machine.execBlockResetDone gns dies s
  | .bringupStepComplete inp => Sys2Proof.Machine.execBringupStepComplete inp s
  | .fullService app => Sys2Proof.Machine.execFullService app s
  | .louvre req => Sys2Proof.Machine.execLouvre req s
  | .pwrOpen req => Sys2Proof.Machine.execPwrOpen req s
  | .descend req => Sys2Proof.Machine.execDescend req s
  | .ignLowTimeout => Sys2Proof.Machine.execIgnLowTimeout s
  | .descentStart => Sys2Proof.Machine.execDescentStart s
  | .park => Sys2Proof.Machine.execPark s
  | .dieSupplyOff => Sys2Proof.Machine.execDieSupplyOff s
  | .descentComplete => Sys2Proof.Machine.execDescentComplete s
  | .wake src port inp => Sys2Proof.Machine.execWake src port inp s
  | .latchMaxExpire battery => Sys2Proof.Machine.execLatchMaxExpire battery s
  | .shutMaxExpire battery => Sys2Proof.Machine.execShutMaxExpire battery s
  | .provision sigOk nonce ids => Sys2Proof.Machine.execProvision sigOk nonce ids s
  | .secReturn sigOk nonce => Sys2Proof.Machine.execSecReturn sigOk nonce s
  | .nonceFetch => Sys2Proof.Machine.execNonceFetch s
  | .tokenPresent tok => Sys2Proof.Machine.execTokenPresent tok s
  | .tokenExpire => Sys2Proof.Machine.execTokenExpire s
  | .secHalt core => Sys2Proof.Machine.execSecHalt core s
  | .haltRelease core => Sys2Proof.Machine.execHaltRelease core s
  | .debugAccess addr write => Sys2Proof.Machine.execDebugAccess addr write s
  | .interruptRaise n => Sys2Proof.Machine.execInterruptRaise n s
  | .picClaim req t rivals => Sys2Proof.Machine.execPicClaim req t rivals s
  | .picComplete req t num => Sys2Proof.Machine.execPicComplete req t num s
  | .pendSet req m bits => Sys2Proof.Machine.execPendSet req m bits s
  | .pendClr req m bits raised => Sys2Proof.Machine.execPendClr req m bits raised s
  | .enSet req m bits => Sys2Proof.Machine.execEnSet req m bits s
  | .enClr req m bits sets => Sys2Proof.Machine.execEnClr req m bits sets s
  | .picSrcWrite req n value => Sys2Proof.Machine.execPicSrcWrite req n value s
  | .edgeLatch n => Sys2Proof.Machine.execEdgeLatch n s
  | .eventIntake => Sys2Proof.Machine.execEventIntake s
  | .sillClr req => Sys2Proof.Machine.execSillClr req s
  | .evrRdSel req index => Sys2Proof.Machine.execEvrRdSel req index s
  | .evrRdArea req area => Sys2Proof.Machine.execEvrRdArea req area s
  | .eventFlashWrite failed => Sys2Proof.Machine.execEventFlashWrite failed s
  | .driveFrame composing flips => Sys2Proof.Machine.execDriveFrame composing flips s
  | .dcbHoldEnd => Sys2Proof.Machine.execDcbHoldEnd s
  | .supplyLoss vlog flushed => Sys2Proof.Machine.execSupplyLoss vlog flushed s
  | .supplyLow v => Sys2Proof.Machine.execSupplyLow v s
  | .supplyHigh v => Sys2Proof.Machine.execSupplyHigh v s
  | .loadSupplyLoss => Sys2Proof.Machine.execLoadSupplyLoss s
  | .appClockCap => Sys2Proof.Machine.execAppClockCap s
  | .appClockRestore => Sys2Proof.Machine.execAppClockRestore s
  | .caseOvertemp => Sys2Proof.Machine.execCaseOvertemp s
  | .loadSupplyReturn => Sys2Proof.Machine.execLoadSupplyReturn s
  | .boostFailureCleared bank => Sys2Proof.Machine.execBoostFailureCleared bank s
  | .vlvDieCooled bank junction => Sys2Proof.Machine.execVlvDieCooled bank junction s
  | .peakReachedLate n us => Sys2Proof.Machine.execPeakReachedLate n us s
  | .peakNotReached n us => Sys2Proof.Machine.execPeakNotReached n us s
  | .errorPassive port enter tec recv => Sys2Proof.Machine.execErrorPassive port enter tec recv s
  | .ntripDisconnect link => Sys2Proof.Machine.execNtripDisconnect link s
  | .pdelayExchange p delay => Sys2Proof.Machine.execPdelayExchange p delay s
  | .securityCoreFatalFault => Sys2Proof.Machine.execSecurityCoreFatalFault s
  | .clockFaultRecovery => Sys2Proof.Machine.execClockFaultRecovery s
  | .activationRestartEnd appOk gnsOk => Sys2Proof.Machine.execActivationRestartEnd appOk gnsOk s
  | .confirmCountSave => Sys2Proof.Machine.execConfirmCountSave s
  | .ma20ShuntReclose n => Sys2Proof.Machine.execMa20ShuntReclose n s
  | .batteryLow kal => Sys2Proof.Machine.execBatteryLow kal s

end Sys2Proof.Machine
end

