-- ==== Sys2Proof/WellFormed.lean ====
section
/-!
DEFINITION. Well-formed commands: what the types of the operands do not already say. Indices are `Fin`, so a command
names a thing that exists; the checks here are those of lengths, of bus addresses and of identifiers.
-/
namespace Sys2Proof

/-- An address on the bus has 40 bits (R6). -/
def inBus (a : Nat) : Bool := decide (a < 2 ^ 40)

/-- A CAN identifier has 11 bits, or 29 in the extended format (R341). -/
def canIdOk (ide : Bool) (id : Nat) : Bool := decide (id < (if ide then 2 ^ 29 else 2 ^ 11))

/-- A tick brings one value for every input of the module (R68, R81, R186, R203). -/
def TickIn.wf (i : TickIn) : Bool :=
  i.uin.length == 48 && i.imu.length == 8 && i.supply.length == 3 && i.vlv.length == 16 && i.rails.length == 4
    && i.psw.length == 32 && i.cases.length == 8

/-- A track has twelve estimates (R262). -/
def TrackObs.wf (o : TrackObs) : Bool := o.est.length == 12 && o.estNo.length == 12

/-- The tracks of a result are distinct records; ego-motion has nine values (R262, R268). -/
def ResultIn.wf (r : ResultIn) : Bool :=
  r.tracks.all TrackObs.wf && r.fresh.all (fun n => n.est.length == 12 && n.estNo.all (·.length == 12)) && r.ego.vals.length == 9
    && r.ego.valsNo.length == 9
    && decide (r.tracks.map (·.t)).Nodup

/-- Position and velocity have three components, the inter-system offsets three systems; a channel stands once; there
is a clock for each of four systems, and after two exclusions no further test (R222, R223). -/
def Solution.wf (s : Solution) : Bool :=
  s.pos.length == 3 && s.vel.length == 3 && s.iso.length == 3 && s.clk.length == 4 && decide (s.tests.length ≤ 3)
    && decide (s.sats.map (·.ch)).Nodup

/-- A stream ID has 64 bits; a frame has as many lines as its height says, each of its width, of 12-bit pixels (R238). -/
def StreamIn.wf (i : StreamIn) : Bool :=
  decide (i.stream < 2 ^ 64) && i.lines.length == i.height
    && i.lines.all fun l => match l with
      | none => true
      | some r => r.length == i.width && r.all fun v => decide (v < 4096)

/-- A J1939 transport message carries 9 to 1,785 bytes (R352). -/
def TpEvent.wf : TpEvent → Bool
  | .start src size pgn _ => decide (src < 256) && decide (size ≤ 1785) && decide (pgn < 2 ^ 18)
  | .done src bytes => decide (src < 256) && decide (bytes.length ≤ 1785)
  | .stop src => decide (src < 256)

/-- The header fields of an item have the widths of R383; its bytes are as many as its header says. -/
def CfgItem.wf (i : CfgItem) : Bool :=
  decide (i.pos < 256) && decide (i.region < 256) && decide (i.code < 65536) && decide (i.index < 65536)
    && (match i.val with
        | .bytes b => b.length == i.length
        | _ => true)

/-- The item of a STAGE request is well formed (R382). -/
def CfgOp.wf : CfgOp → Bool
  | .cfgBegin _ => true
  | .stage _ item => item.wf
  | .commit _ _ => true
  | .rollback _ => true

/-- The register words of an image lie on the bus, its items are well formed (R375, R376). -/
def ImageIn.wf (i : ImageIn) : Bool :=
  i.regs.all (fun p => inBus p.1) && i.lane.all (fun p => inBus p.1) && i.items.all CfgItem.wf && i.overlay.all CfgItem.wf

/-- A well-formed command. -/
def Instr.wf : Instr → Bool
  | .registerWrite _ addr _ _ => inBus addr
  | .busErrorAccess _ addr _ => inBus addr
  | .rcFieldRead _ addr _ => inBus addr
  | .sramAccessViolation _ addr _ => inBus addr
  | .eccError _ addr _ => inBus addr
  | .scrubPass found => found.all fun p => inBus p.1
  | .clkTickRead _ _ | .holdoverEntry | .holdoverLimit | .stepSettle | .leapSecond | .alignReached | .alignLost
  | .clockMonitorFault _ | .clockFaultRecovery | .interruptRaise _ | .picClaim _ _ _ | .picComplete _ _ _
  | .pendSet _ _ _ | .pendClr _ _ _ _ | .enSet _ _ _ | .enClr _ _ _ _ | .picSrcWrite _ _ _ | .edgeLatch _
  | .eventIntake | .sillClr _ | .evrRdSel _ _ | .evrRdArea _ _ | .eventFlashWrite _ => true
  | .tickEdge inp => TickIn.wf inp
  | .lockRequest _ _ | .unlockRequest _ _ | .quadIllegalTransition _ | .uinFault _ _ | .uinFaultCleared _
  | .edgeTimeout _ | .indexMissing _ | .indexEdge _ _ => true
  | .lossImpact _ peak _ _ => decide (peak ≤ 32768)
  | .lossSilent _ | .flowZero _ | .flowZeroDone | .ma20ShuntReclose _ | .channelRecovered _ | .warmupEnd _
  | .paneDeadline _ _ _ | .loadClr _ _ | .snapReq _ _ | .snapDone _ => true
  | .mailboxPost values => values.all fun v => decide (v.1 < 1024)
  | .commandFrame _ _ _ _ _ _ | .dropFrame _ _ | .linkSilence _ _ | .jambSelect | .mismatchGiveUp _
  | .laneFault _ _ | .recoveryStepDone _ | .recoveryStepFail _ | .recoveryComplete _ | .takeBack | .switchTick
  | .hingeSwapDue | .hingeSwapEnd | .hingeNow _ | .testGuA _ | .testGuB _ | .noclaimPolicy _ | .holdWindowEnd _ => true
  | .boostDecision _ _ _ drawn => drawn.length == 4
  | .boostRequestRefused _ _ _ _ | .boostEnd _ _ _ _ | .peakEnd _ _ _ | .peakReachedLate _ _
  | .peakNotReached _ _ | .motionKink _ _ | .motionTimeout _ _ | .vlvOpenLoad _ _ _ | .vlvOvercurrent _ _
  | .holdCurrentLow _ _ | .boostConverterFailure _ | .boostFailureCleared _ | .vlvDieOvertemp _ _
  | .vlvDieCooled _ _ | .propCurrentFault _ | .vlvClr _ _ | .budgetDecision | .switchOnRefused _
  | .arbiterChange | .inrushEnd _ | .pswShort _ _ | .pswOverload _ _ _ _ | .dtLimit _ _ _
  | .junctionOvertemp _ _ | .pswOpenLoad _ _ _ | .caseRise _ _ _ | .pswRetry _ _ _ | .pswClr _ _
  | .clampPulse _ _ | .clampLockRelease _ | .antennaShort _ _ _ | .antennaTrial _ | .antennaOpen _ _
  | .antennaOk _ _ | .antRetry _ | .coldStartRequest _ | .ant1Substitute | .ant0Restore | .notchEngage _ _ _ _
  | .notchRelease _ _ _ _ => true
  | .gnssEpoch meas bands => bands.length == 6 && meas.length == 384
  | .bandReturn _ _ | .searchComplete _ _ _ _ _ _ | .navDataSave _ => true
  | .dumpLatch _ sums => sums.length == 7
  | .trackingLoopPeriod _ _ | .ncoWrite _ _ _ _ | .lockLoss _ | .coastExpire _ => true
  | .solutionReady sol => Solution.wf sol
  | .gnsSolRead _ => true
  | .rtcmMessage ntrip => match ntrip with | none => true | some l => decide (l.length ≤ 1029)
  | .rtcmCanFrame _ ext id data => canIdOk ext id && decide (data.length ≤ 64)
  | .corrSourceSwitch | .corrAgeOut | .tp0Edge _ => true
  | .streamFrame _ inp => StreamIn.wf inp
  | .frameLate _ _ | .portAbsent _ | .camLinkDown _ | .exposureCommand _ | .statsWritten _ _
  | .ispShadowWrite _ _ _ _ | .lidarSweep _ _ => true
  | .resultIssue inp => ResultIn.wf inp
  | .lateSample _ obs => obs.all TrackObs.wf
  | .fusResRead _ | .engage _ _ | .disengage _ | .resume _ | .guidanceFallback _ | .unlReq _ _ | .unlConfirm _ _
  | .unlStop _ | .unloadEndingDone | .mapUpdateBoundary _ | .mapUpdateProcess _ | .journalCommit _ _
  | .tileLoaded _ _ | .journalNow _ | .kerReset _ | .fieldClose _ | .tileExport _ _ _ | .fieldDelete _
  | .presencePoll _ => true
  | .authentication _ elem => elem.counters.length == 4
  | .periodicReauth _ | .reauth _ _ | .counterWrite _ | .swgEnable _ _ | .swgDisable _ | .swgRestart _
  | .costFrame _ | .steadyReached | .swingUpdate | .setPost | .setMissed | .leaseLost | .ditherEnd _
  | .operatorSetpoint _ _ => true
  | .canFrameReceive _ frame => canIdOk frame.ide frame.id && decide (frame.data.length ≤ (if frame.fdf then 64 else 8))
  | .signalTimeout _ | .txMessageDue _ | .canTxComplete _ _ _ | .canTxRetry _ _ _ _ | .hoqLimit _ | .busOff _ _
  | .busOffHoldEnd _ | .busOffRecovered _ | .canRecover _ _ | .canFlush _ _ | .addressClaimed _ => true
  | .contendingClaim _ _ name => decide (name < 2 ^ 64)
  | .cannotClaimSend _ => true
  | .commandedAddress _ name _ => decide (name < 2 ^ 64)
  | .noAddressTimeout _ => true
  | .j1939Transport _ ev => TpEvent.wf ev
  | .dm1Send _ _ | .canSleep _ | .txsNoclaimPolicy _ | .errorPassive _ _ _ _ | .ethLinkChange _ _ _
  | .ptpForeign _ | .ptpSync _ | .pdelayExchange _ _ | .tlsHandshake _ _ _ | .fleetConnect | .fleetDisconnect _
  | .reconnectAttempt _ | .fleetReconnect _ | .ntripReconnect _ | .tileSync _ | .fleetInbound _ | .uoffer _ _ _
  | .uend _ _ | .tget _ _ _ _ | .cartPos _ _ _ _ _ _ _ _ | .puback _ _ | .periodicPublish _ _ _ | .ureqLapse
  | .publicationExpire | .ntripReply _ _ | .ntripSilence | .ntripDisconnect _ | .ggaSend => true
  | .ecnilFrame _ frame => frame.slots.all fun p => decide (p.1 < 8)
  | .announce _ _ | .join _ _ _ _ _ _ => true
  | .ecnAdmit _ tick _ _ => decide (tick < 2 ^ 64)
  | .ecnRefuse _ _ => true
  | .ecnSet _ _ items => items.length == 8
  | .commitMessage part => decide (part.index < part.count) && part.items.all CfgItem.wf
  | .ecnAck _ _ | .ecnStep _ _ | .ecnLeap _ | .ecnReset _ | .ecnMode _ _ | .abortCheck | .genCheck
  | .portDown _ _ | .portUp _ _ | .workerResetRequest _ _ | .managerListenEnd | .joinSend _ | .joinTimeout
  | .refusedTimeout | .joinTick | .rejoin | .claimsEnable | .joinWaitExpire | .joinLate | .cfgBegin _ _ => true
  | .stage _ _ item => CfgItem.wf item
  | .commit _ _ _ | .validationDone _ | .rollback _ _ | .stagingTimeout | .requesterDisconnect _
  | .persistDone _ => true
  | .baseImageWrite image => ImageIn.wf image
  | .cfgRequest _ op => CfgOp.wf op
  | .powerOn | .brownout | .external | .warm _ | .rstBlock _ _ | .blockResetDone _ _ | .bringupStepComplete _
  | .fullService _ | .securityCoreFatalFault | .louvre _ | .pwrOpen _ | .descend _ | .ignLowTimeout
  | .descentStart | .park | .dieSupplyOff | .descentComplete | .wake _ _ _ | .latchMaxExpire _
  | .shutMaxExpire _ | .batteryLow _ => true
  | .provision _ nonce _ => nonce.length == 8
  | .secReturn _ nonce => nonce.length == 8
  | .nonceFetch => true
  | .tokenPresent tok => tok.nonce.length == 8
  | .tokenExpire | .secHalt _ | .haltRelease _ => true
  | .manifest man => man.entries.all fun e => decide (e.hash < 2 ^ 384)
  | .partHeader part => decide (part.hash < 2 ^ 384)
  | .partPayload hash => decide (hash < 2 ^ 384)
  | .receptionTimeout | .updAbandon | .updateActivate _ | .updateConfirm | .updateFallback _ | .updData _ _ _ _
  | .staged _ _ _ _ | .updGo _ _ _ | .updDone _ _ | .updCommit _ | .updFallbackOp _ _ | .updLasting _ _
  | .updConfirmed _ | .activationGoTick | .activationTimeout | .activationRestartEnd _ _ | .harvestConfirm
  | .confirmCountSave | .driveFrame _ _ | .dcbHoldEnd | .supplyLoss _ _ | .supplyLow _ | .supplyHigh _
  | .loadSupplyLoss | .loadSupplyReturn | .appClockCap | .appClockRestore | .caseOvertemp | .frameBoundary => true
  | .debugAccess addr _ => inBus addr

end Sys2Proof
end

