-- ==== Sys2Proof/Safety.lean ====
section
/-!
DEFINITION. The terms in which statements about the machine are made: what every step keeps, and what a command
changes and leaves alone.
-/
namespace Sys2Proof.Machine

/-! ## What every step keeps -/

/-- The register words are in canonical form. -/
def RegsOk (r : List (Nat × Word)) : Prop := tabWf resetWord r = true

/-- The bytes of memory are in canonical form. -/
abbrev Memory.wf (m : List Host.Cell) : Prop := tabWf memDefault m = true

def MemOk (m : List Host.Cell) : Prop := Memory.wf m

/-- The intake queue holds at most 256 events (R461), the Sill 4,096 records and the Lintel 512, in the recorder and in
the event flash (R464, R468); a sequence number has 32 bits (R470). -/
def EvrOk (v : Evr) : Prop :=
  v.intake.length ≤ 256 ∧ v.sill.length ≤ 4096 ∧ v.lintel.length ≤ 512 ∧ v.head < 4294967296
    ∧ v.flash.sill.length ≤ 4096 ∧ v.flash.lintel.length ≤ 512 ∧ v.flash.head < 4294967296

/-- A tick has 20,000 TICK cycles (R38). -/
def CycleOk (c : Nat) : Prop := c < 20000

/-- The manager is position 0 (R3, R4). -/
def StrapsOk (p : Straps) : Prop := p.manager = true → p.pos = 0

/-- A CAN transmit FIFO holds at most 32 frames (R346). -/
def FifoOk (ports : List (Nat × CanPort)) : Prop := ∀ p, (tabGet (fun _ => CanPort.init) ports p).fifo.length ≤ 32

/-- What every step keeps: registers and memory in canonical form, and every bound of the block that the state does not
carry in its types. -/
def Inv (s : State) : Prop :=
  RegsOk s.regs ∧ MemOk s.mem ∧ EvrOk s.evr ∧ CycleOk s.clk.cycle ∧ StrapsOk s.straps ∧ FifoOk s.can.ports

/-! ## What a command changes -/

/-- The parts of the state beside registers, memory and the event recorder. -/
inductive Part where
  | straps | bus | free | clk | pic | fn | loopA | loopB | mail | dies | clm | gns | isp | fus | ecn | can | map | att
  | eth | swg | cfg | pwr | rst | upd | sec | pnl | sup | pending
  deriving DecidableEq, Repr

/-- Part `p` of the state is the same in `s` and `t`. -/
def Part.Same (s t : State) : Part → Prop
  | .straps => t.straps = s.straps
  | .bus => t.bus = s.bus
  | .free => t.free = s.free
  | .clk => t.clk = s.clk
  | .pic => t.pic = s.pic
  | .fn => t.fn = s.fn
  | .loopA => t.loopA = s.loopA
  | .loopB => t.loopB = s.loopB
  | .mail => t.mail = s.mail
  | .dies => t.dies = s.dies
  | .clm => t.clm = s.clm
  | .gns => t.gns = s.gns
  | .isp => t.isp = s.isp
  | .fus => t.fus = s.fus
  | .ecn => t.ecn = s.ecn
  | .can => t.can = s.can
  | .map => t.map = s.map
  | .att => t.att = s.att
  | .eth => t.eth = s.eth
  | .swg => t.swg = s.swg
  | .cfg => t.cfg = s.cfg
  | .pwr => t.pwr = s.pwr
  | .rst => t.rst = s.rst
  | .upd => t.upd = s.upd
  | .sec => t.sec = s.sec
  | .pnl => t.pnl = s.pnl
  | .sup => t.sup = s.sup
  | .pending => t.pending = s.pending

/-- The fields named are written in order. -/
def putAll (ws : List (Fld × Nat)) (s : State) : State := ws.foldl (fun t p => t.put p.1 p.2) s

/-- The word at `a` after the fields named are written in order. -/
def wordAfter (s : State) (ws : List (Fld × Nat)) (a : Nat) : Word :=
  ws.foldl (fun w p => if p.1.addr = a then fldPut p.1 w p.2 else w) (s.rd a)

/-- An event that the state would stamp (R458, R459). -/
def State.evOf (s : State) (code : Nat) (src : Nat := 0) (flags : Nat := 0) (mn : F16 := f16NaN) (mx : F16 := f16NaN) : Ev :=
  ⟨code, src, flags, mn, mx, s.clk.tick, s.now⟩

/-- The recorder accepts `k` more events: step 2 of the bring-up is reached and the intake queue has room (R461). -/
abbrev Room (s : State) (k : Nat) : Prop := 2 ≤ s.rst.next ∧ s.evr.intake.length + k ≤ 256

/-- The registers of `t` are those of `s` but for the fields of `ws`, written in order. -/
def RegsBut (s t : State) (ws : List (Fld × Nat)) : Prop := ∀ a, t.rd a = wordAfter s ws a

/-- Every byte of memory reads as before. -/
def SameMem (s t : State) : Prop := ∀ a, t.rd8 a = s.rd8 a

/-- The recorder's intake queue takes these events, and nothing else of the recorder changes. -/
def Records (s t : State) (es : List Ev) : Prop := t.evr = { s.evr with intake := s.evr.intake ++ es }

/-- Every part of the state but those of `ps` is unchanged. -/
def PartsBut (s t : State) (ps : List Part) : Prop := ∀ p : Part, p ∉ ps → p.Same s t

/-- What a command does to the registers and the recorder; memory and every part but those of `ps` stay. -/
structure Does (s t : State) (ws : List (Fld × Nat)) (es : List Ev) (ps : List Part) : Prop where
  regs : RegsBut s t ws
  mem : SameMem s t
  evs : Records s t es
  parts : PartsBut s t ps

/-- What a command whose registers depend on its data leaves alone: every register but those of `as`, and every part but
those of `ps`. -/
structure Touches (s t : State) (as : List Nat) (ps : List Part) : Prop where
  regs : ∀ a, a ∉ as → t.rd a = s.rd a
  parts : PartsBut s t ps

/-- Bit `n` of a field that is an array of bits. -/
abbrev bitFld (f : Fld) (n : Nat) : Fld := ⟨f.addr, f.lo + n, f.lo + n⟩

/-- A counter field one up, staying at its all-ones value. -/
def State.up (s : State) (f : Fld) : Nat := min (s.get f + 1) (2 ^ fldWidth f - 1)

end Sys2Proof.Machine
end

