-- ==== Sys2Proof/Certificates/Slice0/Obligations.lean ====
section
/-!
DEFINITION. The statements about the machine. Those of the form "exec answers a next state" say, for every command of a
family, under which conditions on the state and the operands it has its own effect, what that effect is, and what it
leaves alone.
-/
open Sys2Proof Sys2Proof.Machine

/-- A write to a register of an assigned block that is not held in reset, by a requester that may write it, and whose
write is no command of its own, completes: bit by bit, an RW bit takes the value written, a W1C bit written 1 is
cleared unless a hardware event sets it in the same cycle, and every other bit keeps its value. Without the right to
write, and where the write is a command of its own, only the W1C bits that a hardware event sets change. The
configuration word of a tracking channel takes its enable and satellite number, and its spacing, signal and
integration time where the new values are legal; the two limited fields of PNL_CFG take their new value where it is
legal; each keeps its value otherwise. A write to a block held in reset changes nothing, and an address without a
register gives a bus error. A read of a register answers its word without a bus error, clears the RC bits it
returned, and keeps those that an event sets in the same cycle for the next read; a read of CLK_TICK_LO,
GNS_SOL_TICK_LO or FUS_RES_FRAME_LO changes no register. A register of a block held in reset answers 0 and keeps its
value. No other register but the count of tracking channels after a write to one, no byte of memory, no event and no
other part of the state changes. That a command whose conditions do not hold changes nothing is the model's reading
(log entry 15). Where the spec leaves the choice open or has to be read by inference, the clauses state the model's,
of log entries 24, 25. (R7, R8, R9, R14, R480) -/
def Obligations.AccessRegisterWrite : Prop :=
  -- regwr
  (∀ (s : State) (req : Req) (a : Nat) (v hw : Word), regAddrOk a = true → heldZero s a = false →
    mayWrite req a = true → ownRow a = false → a ≠ fPNL_CFG.addr → inDims 0x40091000 [(0x40, 384)] a = false →
    ∃ t, exec (.registerWrite req a v hw) s = .next t ∧ (∀ i,
      (t.rd a).getLsbD i = (((if (BitVec.ofNat 32 (descOf a).rw).getLsbD i then v.getLsbD i else (s.rd a).getLsbD i)
    && !(v.getLsbD i && (BitVec.ofNat 32 (descOf a).w1c).getLsbD i))
    || (hw.getLsbD i && (BitVec.ofNat 32 (descOf a).w1c).getLsbD i)))
    ∧ (∀ b, b ≠ a → t.rd b = s.rd b) ∧ SameMem s t ∧ Records s t [] ∧ PartsBut s t [])
  ∧
  -- regwrNoRight
  (∀ (s : State) (req : Req) (a : Nat) (v hw : Word), regAddrOk a = true → heldZero s a = false →
    (mayWrite req a = false ∨ ownRow a = true) → a ≠ fGNS_STATUS_NTRK.addr →
    ∃ t, exec (.registerWrite req a v hw) s = .next t ∧
      t.rd a = s.rd a ||| (hw &&& BitVec.ofNat 32 (descOf a).w1c) ∧ (∀ b, b ≠ a → b ≠ fGNS_STATUS_NTRK.addr →
      t.rd b = s.rd b)
    ∧ SameMem s t ∧ Records s t [] ∧ PartsBut s t [])
  ∧
  -- regwrPanel
  (∀ (s : State) (req : Req) (v hw : Word), reqIsOem req = false →
    ∃ t, exec (.registerWrite req fPNL_CFG.addr v hw) s = .next t ∧ (v.toNat % 64 < 27 ∨ 50 < v.toNat % 64 →
      t.get fPNL_CFG_VLCD = s.get fPNL_CFG_VLCD)
    ∧ (27 ≤ v.toNat % 64 ∧ v.toNat % 64 ≤ 50 → t.get fPNL_CFG_VLCD = v.toNat % 64)
    ∧
      t.get fPNL_CFG_DCB_LIM = (if fldOf fPNL_CFG_DCB_LIM v = 0 then s.get fPNL_CFG_DCB_LIM else fldOf fPNL_CFG_DCB_LIM v)
    ∧ (∀ b, b ≠ fPNL_CFG.addr → t.rd b = s.rd b) ∧ SameMem s t ∧ Records s t [] ∧ PartsBut s t [])
  ∧
  -- regwrHeld
  (∀ (s : State) (req : Req) (a : Nat) (v hw : Word), regAddrOk a = true → heldZero s a = true →
    ∃ t, exec (.registerWrite req a v hw) s = .next t ∧ t = s)
  ∧
  -- regwrChannel
  (∀ (s : State) (req : Req) (c : Fin 384) (v hw : Word), s.wide = true → trkOwner req c = true →
    reqIsOem req = false →
    ∃ t, exec (.registerWrite req (fGNS_TRK_CFG_EN c).addr v hw) s = .next t ∧
      (let sig := if fldOf (fGNS_TRK_CFG_SIG c) v ≤ 11 then fldOf (fGNS_TRK_CFG_SIG c) v else s.get (fGNS_TRK_CFG_SIG c)
     let ok := 1 ≤ fldOf (fGNS_TRK_CFG_INT c) v ∧ fldOf (fGNS_TRK_CFG_INT c) v ≤ intMax sig
     let sp := fldOf (fGNS_TRK_CFG_SP c) v
     t.get (fGNS_TRK_CFG_SIG c) = (if ok then sig else s.get (fGNS_TRK_CFG_SIG c))
       ∧ t.get (fGNS_TRK_CFG_INT c) = (if ok then fldOf (fGNS_TRK_CFG_INT c) v else s.get (fGNS_TRK_CFG_INT c))
       ∧ t.get (fGNS_TRK_CFG_SP c) = (if 1 ≤ sp ∧ sp ≤ 20 then sp else s.get (fGNS_TRK_CFG_SP c)))
    ∧ t.get (fGNS_TRK_CFG_EN c) = fldOf (fGNS_TRK_CFG_EN c) v ∧
      t.get (fGNS_TRK_CFG_SV c) = fldOf (fGNS_TRK_CFG_SV c) v
    ∧ (∀ b, b ≠ (fGNS_TRK_CFG_EN c).addr → b ≠ fGNS_STATUS_NTRK.addr → t.rd b = s.rd b) ∧ SameMem s t ∧
      Records s t [] ∧ PartsBut s t [])
  ∧
  -- regwrNone
  (∀ (s : State) (req : Req) (a : Nat) (v hw : Word), regAddrOk a = false →
    ∃ t, exec (.registerWrite req a v hw) s = .next t ∧ t = { s with bus := ⟨0#32, true⟩ })
  ∧
  -- rcreadLatch
  (∀ (s : State) (req : Req) (a : Nat) (hw : Word), heldZero s a = false → (a = fCLK_TICK_LO.addr ∨
    a = fGNS_SOL_TICK_LO.addr ∨ a = fFUS_RES_FRAME_LO.addr) →
    ∃ t, exec (.rcFieldRead req a hw) s = .next t ∧ t.bus = ⟨viewReg s (reqBank req) a, false⟩ ∧ RegsBut s t []
      ∧ SameMem s t ∧ Records s t [] ∧ PartsBut s t [.bus, .clk, .gns, .fus])
  ∧
  -- rcreadNone
  (∀ (s : State) (req : Req) (a : Nat) (hw : Word), regAddrOk a = false →
    ∃ t, exec (.rcFieldRead req a hw) s = .next t ∧ t = { s with bus := ⟨0#32, true⟩ })
  ∧
  -- rcread
  (∀ (s : State) (req : Req) (a : Nat) (hw : Word), regAddrOk a = true → heldZero s a = false →
    a ≠ fCLK_TICK_LO.addr → a ≠ fGNS_SOL_TICK_LO.addr → a ≠ fFUS_RES_FRAME_LO.addr →
    ∃ t, exec (.rcFieldRead req a hw) s = .next t ∧ t.bus = ⟨viewReg s (reqBank req) a, false⟩
    ∧ (∀ i, (t.rd a).getLsbD i = (((s.rd a).getLsbD i && !(BitVec.ofNat 32 (descOf a).rc).getLsbD i)
      || (hw.getLsbD i && (BitVec.ofNat 32 (descOf a).rc).getLsbD i)))
    ∧ (∀ b, b ≠ a → t.rd b = s.rd b) ∧ SameMem s t ∧ Records s t [] ∧ PartsBut s t [.bus])
  ∧
  -- rcreadHeld
  (∀ (s : State) (req : Req) (a : Nat) (hw : Word), regAddrOk a = true → heldZero s a = true →
    ∃ t, exec (.rcFieldRead req a hw) s = .next t ∧ t = { s with bus := ⟨0#32, false⟩ })

/-- An access in register space outside every assigned block, or not a multiple of 4, ends in a bus error and changes
nothing else. An SRAM access outside the requester's rights ends in a bus error, sets SYS_EVT.BUS_ERR and records
0x1030 with the requester and the holder. A single-bit ECC error adds 1 to SYS_ECC_SB (a count that stays at its
largest value), sets its event bit and records 0x1020 (SRAM, source the holder) or 0x1022 (DRAM, source the range);
a double-bit error outside lane SRAM does the same with SYS_ECC_DB, 0x1021 or 0x1023 and a bus error; in lane SRAM
it is a fault of that lane with reason 4. The scrubber's findings are recorded with flag 1, one after the other.
That a command whose conditions do not hold changes nothing is the model's reading (log entry 15). Where the spec
leaves the choice open or has to be read by inference, the clauses state the model's, of log entries 23, 25. (R7,
R26, R27, R30, R31, R32, R482) -/
def Obligations.AccessErrors : Prop :=
  -- busErr
  (∀ (s : State) (req : Req) (a : Nat) (w : Bool), inRegSpace a = true → regAddrOk a = false →
    ∃ t, exec (.busErrorAccess req a w) s = .next t ∧ t = { s with bus := ⟨0#32, true⟩ })
  ∧
  -- sramViol
  (∀ (s : State) (req : Req) (a : Nat) (w : Bool), inSram a = true → sramMay req (sramHolder a) w = false →
    req ≠ .keyhole → Room s 1 →
    ∃ t, exec (.sramAccessViolation req a w) s = .next t ∧ t.bus = ⟨0#32, true⟩ ∧ Does s t [(fSYS_EVT_BUS_ERR,
      1)] [s.evOf 0x1030 (reqBank req) (sramHolder a)] [.bus])
  ∧
  -- sramOk
  (∀ (s : State) (req : Req) (a : Nat) (w : Bool), sramMay req (sramHolder a) w = true →
    ∃ t, exec (.sramAccessViolation req a w) s = .next t ∧ t = s)
  ∧
  -- eccSingle
  (∀ (s : State) (req : Req) (a : Nat), (inSram a = true ∨ inDram a = true) → Room s 1 →
    ∃ t, exec (.eccError req a false) s = .next t ∧ Does s t [(fSYS_ECC_SB, s.up fSYS_ECC_SB), (fSYS_EVT_ECC_SB,
      1)]
    [if inSram a = true then s.evOf 0x1020 (sramHolder a) 0 else s.evOf 0x1022 (dramRange a) 0] [])
  ∧
  -- eccDouble
  (∀ (s : State) (req : Req) (a : Nat), (inSram a = true ∨ inDram a = true) → 0x200000 ≤ a → Room s 1 →
    ∃ t, exec (.eccError req a true) s = .next t ∧ t.bus = ⟨0#32, true⟩ ∧ Does s t [(fSYS_ECC_DB,
      s.up fSYS_ECC_DB), (fSYS_EVT_ECC_DB, 1)]
    [if inSram a = true then s.evOf 0x1021 (sramHolder a) 0 else s.evOf 0x1023 (dramRange a) 0] [.bus])
  ∧
  -- eccLaneSram
  (∀ (s : State) (req : Req) (a : Nat), a < 0x200000 → Room s 1 →
    ∃ t, exec (.eccError req a true) s = .next t ∧ ∃ u, t = laneFault (a / 0x100000) 4 u
    ∧ Does s u [(fSYS_ECC_DB, s.up fSYS_ECC_DB), (fSYS_EVT_ECC_DB, 1)] [s.evOf 0x1021 (sramHolder a) 0] [])
  ∧
  -- scrubOne
  (∀ (s : State) (a : Nat) (d : Bool), (inSram a = true ∨ inDram a = true) → 0x200000 ≤ a → Room s 1 →
    ∃ t, exec (.scrubPass [(a, d)]) s = .next t ∧ Does s t (if d then [(fSYS_ECC_DB, s.up fSYS_ECC_DB),
      (fSYS_EVT_ECC_DB, 1)] else [(fSYS_ECC_SB, s.up fSYS_ECC_SB), (fSYS_EVT_ECC_SB, 1)])
    [if inSram a = true then s.evOf (0x1020 + (if d then 1 else 0)) (sramHolder a) 1
     else s.evOf (0x1022 + (if d then 1 else 0)) (dramRange a) 1] [])
  ∧
  -- scrubMore
  (∀ (s : State) (f : Nat × Bool) (fs : List (Nat × Bool)),
    ∃ t, exec (.scrubPass (f :: fs)) s = .next t ∧ ∃ u, exec (.scrubPass [f]) s = .next u ∧
      exec (.scrubPass fs) u = .next t)

/-- A Keyhole read at level PEEP or FULL answers the register at a register address (as requester 15 reads it, with the
effect of any register read) and the little-endian word at a memory address it may read, and is refused with a bus
error elsewhere. A write under FULL at a register address has the effect of a register write, but for the registers
of a lane that is not halted, which it leaves as they are. A write under FULL at a memory address it may write
stores the four bytes of the word there, and every other byte and register stays; a write under PEEP changes
nothing; without a level, or with the main die unpowered, the access has no effect. That a command whose conditions
do not hold changes nothing is the model's reading (log entry 15). Where the spec leaves the choice open or has to
be read by inference, the clauses state the model's, of log entry 23. (R437, R439, R441) -/
def Obligations.AccessDebugRead : Prop :=
  -- dbgReadMem
  (∀ (s : State) (a : Nat), pwrState s < 2 → s.get fSEC_STATUS_LEVEL ≠ 0 → inRegSpace a = false →
    ∃ t, exec (.debugAccess a none) s = .next t ∧
      t = { s with bus := if debugReads a = true then ⟨s.rd32 a, false⟩ else ⟨0#32, true⟩ })
  ∧
  -- dbgReadReg
  (∀ (s : State) (a : Nat), pwrState s < 2 → s.get fSEC_STATUS_LEVEL ≠ 0 → inRegSpace a = true →
    regAddrOk a = true →
    ∃ t, exec (.debugAccess a none) s = .next t ∧ t.bus = ⟨viewReg s 15 a, false⟩ ∧ (∀ b, b ≠ a →
      t.rd b = s.rd b) ∧ SameMem s t ∧ Records s t [])
  ∧
  -- dbgWrite
  (∀ (s : State) (a : Nat) (v : Word), pwrState s < 2 → s.get fSEC_STATUS_LEVEL = 2 → inRegSpace a = false →
    debugWrites s a = true →
    ∃ t, exec (.debugAccess a (some v)) s = .next t ∧ (∀ b, t.rd8 b = if a ≤ b ∧
      b < a + 4 then v.extractLsb' (8 * (b - a)) 8 else s.rd8 b)
    ∧ RegsBut s t [] ∧ Records s t [] ∧ PartsBut s t [])
  ∧
  -- dbgRegs
  (∀ (s : State) (a : Nat), pwrState s < 2 → s.get fSEC_STATUS_LEVEL ≠ 0 → inRegSpace a = true →
    ∃ t, exec (.debugAccess a none) s = .next t ∧ exec (.rcFieldRead .keyhole a 0#32) s = .next t)
  ∧
  -- dbgWriteReg
  (∀ (s : State) (a : Nat) (v : Word), pwrState s < 2 → s.get fSEC_STATUS_LEVEL = 2 → inRegSpace a = true →
    ∃ t, exec (.debugAccess a (some v)) s = .next t ∧
      if laneClosed s a = true then t = s else exec (.registerWrite .keyhole a v 0#32) s = .next t)
  ∧
  -- dbgNone
  (∀ (s : State) (a : Nat) (w : Option Word), (s.get fSEC_STATUS_LEVEL = 0 ∨ 2 ≤ pwrState s ∨
    (s.get fSEC_STATUS_LEVEL = 1 ∧ w.isSome = true)) →
    ∃ t, exec (.debugAccess a w) s = .next t ∧ t = s)

/-- A read of CLK_TICK_LO answers the low word of the tick count and latches the tick count, the cycle and the module
time of that cycle in the requester's own latch set, which the reads of CLK_TICK_HI, CLK_CYCLE, CLK_TIME_LO and
CLK_TIME_HI show. Every other requester's latch set, every register, memory and the recorder are unchanged. (R47) -/
def Obligations.ClockTickRead : Prop :=
  -- tickRead
  (∀ (s : State) (req : Req) (cyc : Fin 20000),
    ∃ t, exec (.clkTickRead req cyc) s = .next t ∧ t.bus = ⟨BitVec.ofNat 32 s.clk.tick, false⟩
    ∧ t.clkLatch (reqBank req) = ⟨s.clk.tick, cyc,
      u64 (s.clk.tbase + s.clk.tick * 50000 + (cyc.val : Int) * 5 / 2)⟩
    ∧ (∀ b, b ≠ reqBank req → t.clkLatch b = s.clkLatch b)
    ∧ viewReg t (reqBank req) fCLK_TICK_HI.addr = BitVec.ofNat 32 (s.clk.tick / 4294967296)
    ∧ viewReg t (reqBank req) fCLK_CYCLE.addr = BitVec.ofNat 32 cyc
    ∧ Does s t [] [] [.bus, .clk]
    ∧ t.clk = { s.clk with cycle := cyc, latch := t.clk.latch })

/-- In LOCKED, the manager after ten epochs without a valid solution, and a worker that has been LOST for 500 ms, go to
HOLDOVER; when the time in HOLDOVER reaches CLK_HOLD_LIM the status goes to FREE_RUN; 400 ticks after the step was
applied STEP goes to LOCKED and an error measured meanwhile stays to be slewed. The limit and the end of STEP apply
to the manager and to a worker that is LOST; on any other worker, which copies the manager's status, they change
nothing. Each change sets CLK_EVT.STATUS_CHG and records 0x1050 with the new status as flags, and no other register,
memory or part changes. Where the spec leaves the choice open or has to be read by inference, the clauses state the
model's, of log entry 38. (R51, R59, R231) -/
def Obligations.ClockTimeStatus : Prop :=
  -- holdMgr
  (∀ (s : State), s.straps.manager = true → s.get fCLK_STATUS_TIME_STAT = 0 → 10 ≤ s.clk.noSol → Room s 1 →
    ∃ t, exec (.holdoverEntry) s = .next t ∧ Does s t [(fCLK_STATUS_TIME_STAT, 1), (fCLK_EVT_STATUS_CHG, 1)]
      [s.evOf 0x1050 0 1] [.clk]
    ∧ t.clk = { s.clk with holdAt := s.clk.tick, bound0 := terrBound s, caseAt := (s.sig (topLane s) 161).val })
  ∧
  -- holdWorker
  (∀ (s : State), s.straps.manager = false → s.get fCLK_STATUS_TIME_STAT = 0 → s.get fCLK_STATUS_ALIGN = 2 →
    s.clk.lostAt + 10000 ≤ s.clk.tick → Room s 1 →
    ∃ t, exec (.holdoverEntry) s = .next t ∧ Does s t [(fCLK_STATUS_TIME_STAT, 1), (fCLK_EVT_STATUS_CHG, 1)]
      [s.evOf 0x1050 0 1] [.clk]
    ∧ t.clk = { s.clk with holdAt := s.clk.tick, bound0 := terrBound s, caseAt := (s.sig (topLane s) 161).val })
  ∧
  -- holdLimit
  (∀ (s : State), (s.straps.manager = true ∨ s.get fCLK_STATUS_ALIGN = 2) → s.get fCLK_STATUS_TIME_STAT = 1 →
    s.clk.holdAt + 20000 * s.get fCLK_HOLD_LIM_SEC ≤ s.clk.tick → Room s 1 →
    ∃ t, exec (.holdoverLimit) s = .next t ∧ Does s t [(fCLK_STATUS_TIME_STAT, 2), (fCLK_EVT_STATUS_CHG, 1)]
      [s.evOf 0x1050 0 2] [])
  ∧
  -- stepSettle
  (∀ (s : State), (s.straps.manager = true ∨ s.get fCLK_STATUS_ALIGN = 2) → s.get fCLK_STATUS_TIME_STAT = 3 →
    s.bit fCLK_STATUS_STEP_PEND = false → s.clk.stepAt + 400 ≤ s.clk.tick → Room s 1 →
    ∃ t, exec (.stepSettle) s = .next t ∧ Does s t [(fCLK_STATUS_TIME_STAT, 0), (fCLK_EVT_STATUS_CHG, 1)]
      [s.evOf 0x1050 0 0] [.clk]
    ∧ t.clk = { s.clk with resid := if s.clk.measured then s.clk.resid else 0, measured := false })
  ∧
  -- statusCopied
  (∀ (s : State), s.straps.manager = false → s.get fCLK_STATUS_ALIGN ≠ 2 →
    ∃ t, exec (.holdoverLimit) s = .next t ∧ t = s ∧ exec .stepSettle s = .next s)

/-- At the leap time GPS_UTC gains 1, or loses 1 for a deleted second (an 8-bit value), PEND and NEG clear, CLK_EVT.LEAP
is set and 0x1052 recorded. A worker that is ACQUIRING with 400 consecutive ticks within 12 ns becomes ALIGNED and
records 0x1042; one that is not LOST and has had no tick edge for 4 ticks becomes LOST and records 0x1041. Before
the leap time, and on the manager, nothing changes. UTC is module time less GPS_UTC seconds; the last second before
a positive leap that is pending is second 60 and carries the number of the second before it. That a command whose
conditions do not hold changes nothing is the model's reading (log entry 15). Where the spec leaves the choice open
or has to be read by inference, the clauses state the model's, of log entries 38, 51, 164. (R49, R55, R59) -/
def Obligations.ClockLeapAndAlignment : Prop :=
  -- leap
  (∀ (s : State), s.bit fCLK_LEAP_PEND = true → (s.get64 fCLK_LEAP_AT_LO.addr : Int) ≤ s.now → Room s 1 →
    ∃ t, exec (.leapSecond) s = .next t ∧ Does s t [(fCLK_LEAP_GPS_UTC,
      if s.bit fCLK_LEAP_NEG = true then s.get fCLK_LEAP_GPS_UTC + 255 else s.get fCLK_LEAP_GPS_UTC + 1),
    (fCLK_LEAP_PEND, 0), (fCLK_LEAP_NEG, 0), (fCLK_EVT_LEAP, 1)] [s.evOf 0x1052] [])
  ∧
  -- leapNotYet
  (∀ (s : State), (s.bit fCLK_LEAP_PEND = false ∨ s.now < (s.get64 fCLK_LEAP_AT_LO.addr : Int)) →
    ∃ t, exec (.leapSecond) s = .next t ∧ t = s)
  ∧
  -- utcPlain
  (∀ (s : State), s.bit fCLK_LEAP_PEND = false →
    s.utc.sixty = false ∧ s.utc.ns < 1000000000
    ∧ s.utc.sec * 1000000000 + (s.utc.ns : Int) = s.now - 1000000000 * (s.get fCLK_LEAP_GPS_UTC : Int))
  ∧
  -- utcSixty
  (∀ (s : State), s.bit fCLK_LEAP_PEND = true → s.bit fCLK_LEAP_NEG = false →
    (s.get64 fCLK_LEAP_AT_LO.addr : Int) ≤ s.now + 1000000000 → s.now < (s.get64 fCLK_LEAP_AT_LO.addr : Int) →
    s.utc.sixty = true ∧ s.utc.ns < 1000000000
    ∧ s.utc.sec * 1000000000 + (s.utc.ns : Int) = s.now - 1000000000 * ((s.get fCLK_LEAP_GPS_UTC : Int) + 1))
  ∧
  -- alignUp
  (∀ (s : State), s.straps.manager = false → s.get fCLK_STATUS_ALIGN = 0 → 400 ≤ s.clk.alignRun → Room s 1 →
    ∃ t, exec (.alignReached) s = .next t ∧ Does s t [(fCLK_STATUS_ALIGN, 1), (fCLK_EVT_ALIGN_CHG, 1)]
      [s.evOf 0x1042] [])
  ∧
  -- alignDown
  (∀ (s : State), s.straps.manager = false → s.get fCLK_STATUS_ALIGN ≠ 2 → s.clk.edgeAt + 4 ≤ s.clk.tick →
    Room s 1 →
    ∃ t, exec (.alignLost) s = .next t ∧ Does s t [(fCLK_STATUS_ALIGN, 2), (fCLK_EVT_ALIGN_CHG, 1)]
      [s.evOf 0x1041] [.clk]
    ∧ t.clk = { s.clk with lostAt := s.clk.tick, alignRun := 0 })

/-- A monitor fault of a domain sets its bit of CLK_DOM_FAULT, clears its bit of CLK_DOM_LOCK and records 0x1043 with
the domain as source. A fault of TICK or REF stops both lanes' commands; a fault of a LANE domain is a fault of that
lane alone, with reason 5; any other domain has no more effect. Once REF is valid again the module performs a WARM
reset with cause 2. (R57) -/
def Obligations.ClockMonitorFaults : Prop :=
  -- monTick
  (∀ (s : State) (d : Fin 13), (d.val = 1 ∨ d.val = 2) → Room s 1 →
    ∃ t, exec (.clockMonitorFault d) s = .next t ∧ Does s t [(bitFld fCLK_DOM_FAULT d, 1),
      (bitFld fCLK_DOM_LOCK d, 0)] [s.evOf 0x1043 d] [.clk] ∧ t.clk = { s.clk with stopped := true })
  ∧
  -- monOther
  (∀ (s : State) (d : Fin 13), d.val ≠ 1 → d.val ≠ 2 → d.val ≠ 3 → d.val ≠ 12 → Room s 1 →
    ∃ t, exec (.clockMonitorFault d) s = .next t ∧ Does s t [(bitFld fCLK_DOM_FAULT d, 1),
      (bitFld fCLK_DOM_LOCK d, 0)] [s.evOf 0x1043 d] [])
  ∧
  -- monLane
  (∀ (s : State) (d : Fin 13), (d.val = 3 ∨ d.val = 12) → Room s 1 →
    ∃ t, exec (.clockMonitorFault d) s = .next t ∧ ∃ u, t = laneFault (if d.val = 3 then 0 else 1) 5 u
    ∧ Does s u [(bitFld fCLK_DOM_FAULT d, 1), (bitFld fCLK_DOM_LOCK d, 0)] [s.evOf 0x1043 d] [])
  ∧
  -- monRecover
  (∀ (s : State), s.clk.stopped = true →
    ∃ t, exec (.clockFaultRecovery) s = .next t ∧ t = resetBy 1 3 2 s)

/-- A read of PIC_CLAIM[t] by core t, when source n is eligible for t and every other eligible source has a lower
priority, or the same priority and a higher number, answers n: n becomes active, its pending bit clears, and the
count of claims goes up by one (staying at its largest value). When a lower target reads the same source in the same
cycle it answers 511, claims nothing and adds to the spurious count. With nothing eligible, and for any other core,
it answers 0 and claims nothing. (R447, R448, R456) -/
def Obligations.PicClaims : Prop :=
  -- picClaim
  (∀ (s : State) (req : Req) (c : Fin 11) (rivals : List (Fin 11)) (n : Nat), reqCore req = some c.val → 1 ≤ n →
    n < 511 → picEligible s c n = true → ((∀ m : Fin 511, picEligible s c m = true → m.val = n ∨
    s.get (fPIC_SRC_PRIO m) < s.get (fPIC_SRC_PRIO n)
    ∨ (s.get (fPIC_SRC_PRIO m) = s.get (fPIC_SRC_PRIO n) ∧ n < m))) → ((∀ r ∈ rivals, c ≤ r ∨
      picBest s r ≠ n)) →
    ∃ t, exec (.picClaim req c rivals) s = .next t ∧ t.bus = ⟨BitVec.ofNat 32 n, false⟩
    ∧ Does s t [(picBit fPIC_ACTIVE n, 1), (picBit fPIC_PEND n, 0), (fPIC_CNT_CLAIMS c,
      s.up (fPIC_CNT_CLAIMS c))] [] [.bus, .pic]
    ∧ t.pic = { s.pic with claimed := (n, c.val) :: s.pic.claimed })
  ∧
  -- picSpurious
  (∀ (s : State) (req : Req) (c : Fin 11) (rivals : List (Fin 11)), reqCore req = some c.val → picBest s c ≠ 0 →
    ((∃ r ∈ rivals, r < c ∧ picBest s r = picBest s c)) →
    ∃ t, exec (.picClaim req c rivals) s = .next t ∧ t.bus = ⟨511#32, false⟩ ∧ Does s t [(fPIC_CNT_SPURIOUS c,
      s.up (fPIC_CNT_SPURIOUS c))] [] [.bus])
  ∧
  -- picNone
  (∀ (s : State) (req : Req) (c : Fin 11) (rivals : List (Fin 11)), (reqCore req ≠ some c.val ∨
    picBest s c = 0) →
    ∃ t, exec (.picClaim req c rivals) s = .next t ∧ t = { s with bus := ⟨0#32, false⟩ })

/-- Core t writes to PIC_COMPLETE[t] the number of a source it claimed: the source's active bit clears, and a level
source whose condition still holds is pending again in the same cycle; nothing else of the registers or the recorder
changes. A number t has not claimed changes only PIC_EVT.BAD_COMPLETE and records 0x1060 with the target as source
and the number as maximum. A write by a core other than t changes nothing. A source raised while active has its
pending bit set, whether or not it was set before, and stays active; a source of a lane is raised for both lanes,
each level source while its own condition holds; a source that is not raised keeps its bit. That a command whose
conditions do not hold changes nothing is the model's reading (log entry 15). (R449) -/
def Obligations.PicCompletion : Prop :=
  -- picDone
  (∀ (s : State) (req : Req) (c : Fin 11) (n : Fin 1024), reqCore req = some c.val →
    s.pic.claimed.contains (n.val, c.val) = true →
    ∃ t, exec (.picComplete req c n) s = .next t ∧ Does s t ((picBit fPIC_ACTIVE n, 0) :: if picEdge n = false ∧
      picLevel s n = true then [(picBit fPIC_PEND n, 1)] else []) [] [.pic]
    ∧ t.pic = { s.pic with claimed := s.pic.claimed.filter fun q => q != (n.val, c.val) })
  ∧
  -- picBad
  (∀ (s : State) (req : Req) (c : Fin 11) (n : Fin 1024), reqCore req = some c.val →
    s.pic.claimed.contains (n.val, c.val) = false → Room s 1 →
    ∃ t, exec (.picComplete req c n) s = .next t ∧ Does s t [(fPIC_EVT_BAD_COMPLETE, 1)]
      [s.evOf 0x1060 c 0 f16NaN (f16OfNat n)] [])
  ∧
  -- picOtherCore
  (∀ (s : State) (req : Req) (c : Fin 11) (n : Fin 1024), reqCore req ≠ some c.val →
    ∃ t, exec (.picComplete req c n) s = .next t ∧ t = s)
  ∧
  -- picRaise
  (∀ (s : State) (n : Fin 512), picAssigned n = true → (picEdge n = true ∨ picLevel s n = true) →
    (picEdge (raisePartner n) = true ∨ picLevel s (raisePartner n) = true) →
    ∃ t, exec (.interruptRaise n) s = .next t ∧ Does s t [(picBit fPIC_PEND n, 1),
      (picBit fPIC_PEND (raisePartner n), 1)] [] [])
  ∧
  -- picRaiseOne
  (∀ (s : State) (n : Fin 512), picAssigned n = true → picLevel s n = true → (picEdge (raisePartner n) = false ∧
    picLevel s (raisePartner n) = false) →
    ∃ t, exec (.interruptRaise n) s = .next t ∧ Does s t [(picBit fPIC_PEND n, 1)] [] [])
  ∧
  -- picNotRaised
  (∀ (s : State) (n : Fin 512), (picAssigned n = false ∨ (picEdge n = false ∧ picLevel s n = false)) →
    (picAssigned (raisePartner n) = false ∨ (picEdge (raisePartner n) = false ∧
    picLevel s (raisePartner n) = false)) →
    ∃ t, exec (.interruptRaise n) s = .next t ∧ t = s)

/-- A 1 written to a SET register sets the bit of an assigned source, a 1 written to a CLR register clears it unless a
SET or a raise falls on it in the same cycle, and a 0 leaves it unchanged; the bits of reserved numbers stay. A
change of pending bits leaves the enable and active bits, and a change of enable bits leaves the pending and active
bits of every source: no other register, no memory, no event and no other part changes. A write by the OEM partition
sets and clears no bit. (R451) -/
def Obligations.PicPendingAndEnable : Prop :=
  -- pendSet
  (∀ (s : State) (req : Req) (m : Fin 16) (bits : Word), reqIsOem req = false →
    ∃ t, exec (.pendSet req m bits) s = .next t ∧ (∀ i : Fin 32,
      (t.rd (fPIC_PEND m).addr).getLsbD i = ((s.rd (fPIC_PEND m).addr).getLsbD i || (bits.getLsbD i && picAssigned (32 * m + i))))
    ∧ (∀ a, a ≠ (fPIC_PEND m).addr → t.rd a = s.rd a) ∧ SameMem s t ∧ Records s t [] ∧ PartsBut s t [])
  ∧
  -- pendClr
  (∀ (s : State) (req : Req) (m : Fin 16) (bits raised : Word), reqIsOem req = false →
    ∃ t, exec (.pendClr req m bits raised) s = .next t ∧ (∀ i : Fin 32,
      (t.rd (fPIC_PEND m).addr).getLsbD i = (((s.rd (fPIC_PEND m).addr).getLsbD i && !(bits.getLsbD i && picAssigned (32 * m + i)))
      || (raised.getLsbD i && picAssigned (32 * m + i))))
    ∧ (∀ a, a ≠ (fPIC_PEND m).addr → t.rd a = s.rd a) ∧ SameMem s t ∧ Records s t [] ∧ PartsBut s t [])
  ∧
  -- enSet
  (∀ (s : State) (req : Req) (m : Fin 16) (bits : Word), reqIsOem req = false →
    ∃ t, exec (.enSet req m bits) s = .next t ∧ (∀ i : Fin 32,
      (t.rd (fPIC_EN m).addr).getLsbD i = ((s.rd (fPIC_EN m).addr).getLsbD i || (bits.getLsbD i && picAssigned (32 * m + i))))
    ∧ (∀ a, a ≠ (fPIC_EN m).addr → t.rd a = s.rd a) ∧ SameMem s t ∧ Records s t [] ∧ PartsBut s t [])
  ∧
  -- enClr
  (∀ (s : State) (req : Req) (m : Fin 16) (bits sets : Word), reqIsOem req = false →
    ∃ t, exec (.enClr req m bits sets) s = .next t ∧ (∀ i : Fin 32,
      (t.rd (fPIC_EN m).addr).getLsbD i = (((s.rd (fPIC_EN m).addr).getLsbD i && !(bits.getLsbD i && picAssigned (32 * m + i)))
      || (sets.getLsbD i && picAssigned (32 * m + i))))
    ∧ (∀ a, a ≠ (fPIC_EN m).addr → t.rd a = s.rd a) ∧ SameMem s t ∧ Records s t [] ∧ PartsBut s t [])
  ∧
  -- setOem
  (∀ (s : State) (c : Fin 4) (m : Fin 16) (bits : Word),
    exec (.pendSet (.oem c) m bits) s = .next s ∧ exec (.enSet (.oem c) m bits) s = .next s)
  ∧
  -- clrOem
  (∀ (s : State) (c : Fin 4) (m : Fin 16) (bits raised : Word),
    ∃ t, exec (.pendClr (.oem c) m bits raised) s = .next t ∧ (∀ i : Fin 32,
      (t.rd (fPIC_PEND m).addr).getLsbD i = ((s.rd (fPIC_PEND m).addr).getLsbD i || (raised.getLsbD i && picAssigned (32 * m + i))))
    ∧ (∀ a, a ≠ (fPIC_PEND m).addr → t.rd a = s.rd a) ∧ SameMem s t ∧ Records s t [] ∧ PartsBut s t []
    ∧ ∃ u, exec (.enClr (.oem c) m bits 0#32) s = .next u ∧ RegsBut s u [])

/-- A write to PIC_SRC[n] of an assigned source whose entry is not locked, by a requester that may write it, takes the
priority, the mask bits inside the allowed targets, and sets LOCK for a 1; a locked entry ignores every write. While
TICK is stopped a latched source holds one edge; a further edge sets its bit of PIC_MERGED and PIC_EVT.MERGED and
records 0x1061 with the low byte of the number as source and bit 8 as flags; when TICK runs again, at step 2 of a
start, the latches set the pending bits and clear, and an edge while TICK runs makes its source pending. A write by
another requester, or to a reserved number, changes nothing. That a command whose conditions do not hold changes
nothing is the model's reading (log entry 15). (R446, R453, R455, R456) -/
def Obligations.PicSourcesAndLatches : Prop :=
  -- srcWrite
  (∀ (s : State) (req : Req) (n : Fin 512) (v : Word), picAssigned n = true → s.bit (fPIC_SRC_LOCK n) = false →
    picSrcMay req n = true →
    ∃ t, exec (.picSrcWrite req n v) s = .next t ∧ Does s t [(fPIC_SRC_PRIO n, v.toNat % 16), (fPIC_SRC_TMASK n,
      v.toNat / 16 % 2048 &&& picAllowed n),
    (fPIC_SRC_LOCK n, v.toNat / 32768 % 2)] [] [])
  ∧
  -- srcLocked
  (∀ (s : State) (req : Req) (n : Fin 512) (v : Word), s.bit (fPIC_SRC_LOCK n) = true →
    ∃ t, exec (.picSrcWrite req n v) s = .next t ∧ t = s)
  ∧
  -- srcNoRight
  (∀ (s : State) (req : Req) (n : Fin 512) (v : Word), (picAssigned n = false ∨ picSrcMay req n = false) →
    ∃ t, exec (.picSrcWrite req n v) s = .next t ∧ t = s)
  ∧
  -- latchFirst
  (∀ (s : State) (n : Fin 512), tickRuns s = false → picLatched n = true →
    s.pic.latches.contains n.val = false →
    ∃ t, exec (.edgeLatch n) s = .next t ∧
      t = { s with pic := { s.pic with latches := n.val :: s.pic.latches } })
  ∧
  -- latchMore
  (∀ (s : State) (n : Fin 512), tickRuns s = false → picLatched n = true → s.pic.latches.contains n.val = true →
    Room s 1 →
    ∃ t, exec (.edgeLatch n) s = .next t ∧ Does s t [(picBit fPIC_MERGED n, 1), (fPIC_EVT_MERGED, 1)]
      [s.evOf 0x1061 (n.val % 256) (n.val / 256)] [])
  ∧
  -- latchTick
  (∀ (s : State) (n : Fin 512), tickRuns s = true → picLatched n = true →
    ∃ t, exec (.edgeLatch n) s = .next t ∧ Does s t [(picBit fPIC_PEND n, 1)] [] [])
  ∧
  -- latchRelease
  (∀ (s : State) (us : Nat), s.rst.next = 2 → s.rst.stuck = false → pwrState s < 2 → s.rst.kept = true →
    ∃ t, exec (.bringupStepComplete (.ref us)) s = .next t ∧ t.pic = { s.pic with latches := [] } ∧
      (∀ n ∈ s.pic.latches, n < 512 → t.pend n = true))

/-- From step 2 of the bring-up on, an event raised while fewer than 256 entries wait is put at the end of the intake
queue with the tick and module time of its raising, and nothing else changes; one that finds 256 entries is counted
in EVR_LOST (a count that stays at its largest value), sets EVR_EVT.LOST, and is not recorded; before step 2 it
changes nothing. (R461) -/
def Obligations.RecorderQueue : Prop :=
  -- pushRoom
  (∀ (s : State) (e : Ev), 2 ≤ s.rst.next → s.evr.intake.length < 256 →
    Does s (s.push e) [] [e] [])
  ∧
  -- pushFull
  (∀ (s : State) (e : Ev), 2 ≤ s.rst.next → 256 ≤ s.evr.intake.length →
    RegsBut s (s.push e) [(fEVR_LOST, s.up fEVR_LOST), (fEVR_EVT_LOST, 1)] ∧ SameMem s (s.push e) ∧
      PartsBut s (s.push e) []
    ∧ (s.push e).evr = { s.evr with lostNow := s.evr.lostNow + 1 })
  ∧
  -- pushOff
  (∀ (s : State) (e : Ev), s.rst.next < 2 →
    s.push e = s)

/-- The recorder takes the oldest intake entry. Under repeat counting it adds the event to the newest Sill record of the
same code and source when that opened less than 72,000,000 ticks before and its COUNT is below its limit; otherwise
it opens a record with the next sequence number, which is also copied to the Lintel while that holds fewer than 512.
A rate-limited event opens a record when fewer than 4 of its code opened in the last 20,000 ticks, and is otherwise
counted in EVR_SUPPR and added to the newest record of its code. The DOUBLE record is opened by the first 0x2030 and
counts every later one, which the Sill records under the rate limit. The 512th Lintel record records 0x1073, and a
full Lintel takes none. A reserved code is discarded. When events were lost, 0x1074 follows with their number. Where
the spec leaves the choice open or has to be read by inference, the clauses state the model's, of log entry 42.
(R458, R459, R460, R461, R462, R463, R464, R465) -/
def Obligations.RecorderIntake : Prop :=
  -- inRepeat
  (∀ (s : State) (e : Ev) (rest : List Ev) (r : EvRec), s.evr.intake = e :: rest → evIsAssigned e.code = true →
    e.code ≠ 0x2030 → evRateLimited e.code = false →
    s.evr.sill.find? (fun x => x.code == e.code && x.src == e.src) = some r → e.tick - r.firstTick < 72000000 →
    r.count < 0xFFFFFFFF → s.evr.lostNow = 0 →
    ∃ t, exec (.eventIntake) s = .next t ∧
      t.evr.sill = updFirst (fun x => x.code == e.code && x.src == e.src) (fun x => evAdd x e) s.evr.sill
    ∧ t.evr.head = s.evr.head ∧ t.evr.lintel = s.evr.lintel ∧ t.evr.dbl = s.evr.dbl
    ∧ (s.eth.alertList.contains e.code = false → t.evr.intake = rest))
  ∧
  -- inOpen
  (∀ (s : State) (e : Ev) (rest : List Ev), s.evr.intake = e :: rest → evIsAssigned e.code = true →
    e.code ≠ 0x2030 → evRateLimited e.code = false →
    s.evr.sill.find? (fun x => x.code == e.code && x.src == e.src) = none → s.evr.lostNow = 0 →
    s.evr.lintel.length < 511 →
    ∃ t, exec (.eventIntake) s = .next t ∧ t.evr.sill = (evOpenRec e s.evr.head :: s.evr.sill).take 4096 ∧
      t.evr.head = (s.evr.head + 1) % 4294967296
    ∧ t.evr.lintel = s.evr.lintel ++ [evOpenRec e s.evr.head] ∧ t.evr.dbl = s.evr.dbl
    ∧ (s.eth.alertList.contains e.code = false → t.evr.intake = rest))
  ∧
  -- inLimited
  (∀ (s : State) (e : Ev) (rest : List Ev), s.evr.intake = e :: rest → evIsAssigned e.code = true →
    e.code ≠ 0x2030 → evRateLimited e.code = true →
    (s.evr.opens.filter fun o => o.1 == e.code && decide (s.clk.tick < o.2 + 20000)).length < 4 →
    s.evr.lostNow = 0 → s.evr.lintel.length < 511 →
    ∃ t, exec (.eventIntake) s = .next t ∧ t.evr.sill = (evOpenRec e s.evr.head :: s.evr.sill).take 4096 ∧
      t.evr.head = (s.evr.head + 1) % 4294967296
    ∧ t.get fEVR_SUPPR = s.get fEVR_SUPPR
    ∧ (s.eth.alertList.contains e.code = false → t.evr.intake = rest))
  ∧
  -- inSuppressed
  (∀ (s : State) (e : Ev) (rest : List Ev), s.evr.intake = e :: rest → evIsAssigned e.code = true →
    e.code ≠ 0x2030 → evRateLimited e.code = true →
    4 ≤ (s.evr.opens.filter fun o => o.1 == e.code && decide (s.clk.tick < o.2 + 20000)).length →
    s.evr.lostNow = 0 →
    ∃ t, exec (.eventIntake) s = .next t ∧
      t.evr.sill = updFirst (fun x => x.code == e.code) (fun x => evAdd x e) s.evr.sill ∧
      t.evr.head = s.evr.head
    ∧ t.get fEVR_SUPPR = s.up fEVR_SUPPR
    ∧ (s.eth.alertList.contains e.code = false → t.evr.intake = rest))
  ∧
  -- inDouble
  (∀ (s : State) (e : Ev) (rest : List Ev), s.evr.intake = e :: rest → e.code = 0x2030 → s.evr.lostNow = 0 →
    s.evr.lintel.length < 511 →
    ∃ t, exec (.eventIntake) s = .next t ∧
      t.evr.dbl = some (match s.evr.dbl with | none => evOpenRec e 0 | some r => evAdd r e)
    ∧ (if (s.evr.opens.filter fun o => o.1 == e.code && decide (s.clk.tick < o.2 + 20000)).length < 4 then
        t.evr.sill = (evOpenRec e s.evr.head :: s.evr.sill).take 4096 ∧
          t.evr.head = (s.evr.head + 1) % 4294967296
          ∧ t.get fEVR_SUPPR = s.get fEVR_SUPPR
      else t.evr.sill = updFirst (fun x => x.code == e.code) (fun x => evAdd x e) s.evr.sill ∧
        t.evr.head = s.evr.head
        ∧ t.get fEVR_SUPPR = s.up fEVR_SUPPR))
  ∧
  -- inLintelFull
  (∀ (s : State) (e : Ev) (rest : List Ev), s.evr.intake = e :: rest → evIsAssigned e.code = true →
    e.code ≠ 0x2030 → evRateLimited e.code = false →
    s.evr.sill.find? (fun x => x.code == e.code && x.src == e.src) = none → s.evr.lostNow = 0 →
    511 ≤ s.evr.lintel.length → s.eth.alertList.contains e.code = false → Room s 1 →
    ∃ t, exec (.eventIntake) s = .next t ∧ t.evr.sill = (evOpenRec e s.evr.head :: s.evr.sill).take 4096 ∧
      t.evr.dbl = s.evr.dbl
    ∧ (if s.evr.lintel.length = 511 then
        t.evr.lintel = s.evr.lintel ++ [evOpenRec e s.evr.head] ∧ t.evr.intake = rest ++ [s.evOf 0x1073]
          ∧ RegsBut s t [(fEVR_EVT_LINTEL_FULL, 1)]
      else t.evr.lintel = s.evr.lintel ∧ t.evr.intake = rest ∧ RegsBut s t []))
  ∧
  -- inReserved
  (∀ (s : State) (e : Ev) (rest : List Ev), s.evr.intake = e :: rest → evIsAssigned e.code = false →
    s.evr.lostNow ≠ 0 → s.eth.alertList.contains e.code = false → 2 ≤ s.rst.next → s.evr.intake.length ≤ 256 →
    ∃ t, exec (.eventIntake) s = .next t ∧
      t.evr = { s.evr with intake := rest ++ [s.evOf 0x1074 0 0 f16NaN (f16OfNat s.evr.lostNow)], lostNow := 0 }
    ∧ SameMem s t)

/-- A clear of the Sill by any requester leaves one record in it, 0x1070 with the requester and the number discarded,
which also goes to the Lintel while there is room, moves the tail to the head of before, counts the clear and leaves
the DOUBLE record; the 512th Lintel record records 0x1073, and a write while a clear is in progress is ignored. A
selection latches the eight words of the held record, or the reason it is not held, into the port of that requester
alone; the reserved area is ignored. A flash write that succeeds writes every record and clears FLASH_ERR; a failed
one sets it and records 0x1072 with the number unwritten. That a command whose conditions do not hold changes
nothing is the model's reading (log entry 15). Where the spec leaves the choice open or has to be read by inference,
the clauses state the model's, of log entries 3, 40, 41. (R466, R467, R468, R469, R470, R471) -/
def Obligations.RecorderClearAndRead : Prop :=
  -- sillClr
  (∀ (s : State) (req : Req), s.evr.clearing = false → s.evr.lintel.length < 511 →
    ∃ t, exec (.sillClr req) s = .next t ∧
      t.evr.sill = [evOpenRec (s.evOf 0x1070 (sillClrSrc req) 0 f16NaN (f16OfNat s.evr.sill.length)) s.evr.head]
    ∧ t.evr.tail = s.evr.head ∧ t.evr.head = (s.evr.head + 1) % 4294967296 ∧ t.evr.dbl = s.evr.dbl
    ∧ t.evr.lintel = s.evr.lintel ++ t.evr.sill ∧ t.evr.intake = s.evr.intake
    ∧ RegsBut s t [(fEVR_CLR_CNT, s.up fEVR_CLR_CNT), (fEVR_EVT_CLEARED, 1)] ∧ SameMem s t ∧ PartsBut s t [])
  ∧
  -- sillClrFull
  (∀ (s : State) (req : Req), s.evr.clearing = false → 511 ≤ s.evr.lintel.length → Room s 1 →
    ∃ t, exec (.sillClr req) s = .next t ∧
      t.evr.sill = [evOpenRec (s.evOf 0x1070 (sillClrSrc req) 0 f16NaN (f16OfNat s.evr.sill.length)) s.evr.head]
    ∧ t.evr.tail = s.evr.head ∧ t.evr.dbl = s.evr.dbl ∧ SameMem s t ∧ PartsBut s t []
    ∧ t.evr.lintel = (if s.evr.lintel.length = 511 then s.evr.lintel ++ t.evr.sill else s.evr.lintel)
    ∧ t.evr.intake = s.evr.intake ++ (if s.evr.lintel.length = 511 then [s.evOf 0x1073] else [])
    ∧ RegsBut s t ([(fEVR_CLR_CNT, s.up fEVR_CLR_CNT), (fEVR_EVT_CLEARED, 1)]
      ++ (if s.evr.lintel.length = 511 then [(fEVR_EVT_LINTEL_FULL, 1)] else [])))
  ∧
  -- sillClrBusy
  (∀ (s : State) (req : Req), s.evr.clearing = true →
    ∃ t, exec (.sillClr req) s = .next t ∧ t = s)
  ∧
  -- rdSelHeld
  (∀ (s : State) (req : Req) (ix : Word) (r : EvRec),
    evrSelect s.evr (s.evrPort (reqBank req)).area ix.toNat = .ok r →
    ∃ t, exec (.evrRdSel req ix) s = .next t ∧ t.evrPort (reqBank req) = ⟨(s.evrPort (reqBank req)).area,
      ix.toNat, 0, evWords r⟩
    ∧ (∀ b, b ≠ reqBank req → t.evrPort b = s.evrPort b) ∧ RegsBut s t [] ∧ SameMem s t
    ∧ t.evr = { s.evr with ports := t.evr.ports } ∧ PartsBut s t [])
  ∧
  -- rdSelNotHeld
  (∀ (s : State) (req : Req) (ix : Word) (e : Nat),
    evrSelect s.evr (s.evrPort (reqBank req)).area ix.toNat = .error e →
    ∃ t, exec (.evrRdSel req ix) s = .next t ∧ (t.evrPort (reqBank req)).res = e ∧
      (t.evrPort (reqBank req)).area = (s.evrPort (reqBank req)).area
    ∧ (∀ b, b ≠ reqBank req → t.evrPort b = s.evrPort b) ∧ RegsBut s t [] ∧ SameMem s t
    ∧ t.evr = { s.evr with ports := t.evr.ports } ∧ PartsBut s t [.free])
  ∧
  -- rdArea
  (∀ (s : State) (req : Req) (k : Fin 4), k ≠ 3 →
    ∃ t, exec (.evrRdArea req k) s = .next t ∧
      t.evrPort (reqBank req) = { s.evrPort (reqBank req) with area := k }
    ∧ (∀ b, b ≠ reqBank req → t.evrPort b = s.evrPort b) ∧ RegsBut s t [] ∧ SameMem s t
    ∧ t.evr = { s.evr with ports := t.evr.ports } ∧ PartsBut s t [])
  ∧
  -- rdAreaReserved
  (∀ (s : State) (req : Req),
    ∃ t, exec (.evrRdArea req 3) s = .next t ∧ t = s)
  ∧
  -- flashOk
  (∀ (s : State),
    ∃ t, exec (.eventFlashWrite false) s = .next t ∧ RegsBut s t [(fEVR_STATUS_FLASH_ERR, 0)] ∧ SameMem s t ∧
      PartsBut s t []
    ∧
      t.evr = { s.evr with unwritten := [], flash := ⟨s.evr.sill, s.evr.lintel, s.evr.dbl, s.evr.head, s.evr.tail, s.get fEVR_CLR_CNT, s.evr.flash.closed⟩ })
  ∧
  -- flashFail
  (∀ (s : State), Room s 1 →
    ∃ t, exec (.eventFlashWrite true) s = .next t ∧ Does s t [(fEVR_STATUS_FLASH_ERR, 1), (fEVR_EVT_FLASH_ERR,
      1)] [s.evOf 0x1072 0 0 f16NaN (f16OfNat s.evr.unwritten.length)] [])

/-- An input that reads out of the range of its mode and is not faulty becomes faulty: its latched fault bit and
FUN_EVT.UIN_FLT are set and 0x3800 records the value in both fields; above 25 mA the shunt of an MA20 input opens,
and closes again 1 s later. After 400 consecutive ticks in range the fault ends with 0x3801, the latched bit staying
set. Both lines of a quadrature pair changing at once blinds both entries for the tick, latches both bits and
records 0x3802. 2 N pulses without an index edge fail both entries of the pair; an index edge restarts the pulse
count, adds one to the index count and marks the entry FIRST. Once no edge has arrived for TOUT × 0.1 s (2,000 ticks
each) the frequency is 0, and before that it is not touched. Nothing else changes. That a command whose conditions
do not hold changes nothing is the model's reading (log entry 15). Where the spec leaves the choice open or has to
be read by inference, the clauses state the model's, of log entries 26, 118, 119, 121, 157. (R68, R69, R70, R71,
R72, R499) -/
def Obligations.InputFaults : Prop :=
  -- uinFault
  (∀ (s : State) (n : Fin 48) (x : F32), uinOut (uinMode s n) x = true → (s.uin n).fault = false → Room s 1 →
    ∃ t, exec (.uinFault n x) s = .next t ∧ Does s t [(fUinFlt n, 1), (fFUN_EVT_UIN_FLT, 1)]
      [s.evOf 0x3800 n 0 (f16OfF32 x) (f16OfF32 x)] [.fn]
    ∧ t.fn = { (s.setUin n { s.uin n with fault := true, good := 0 }).fn with
        shuntOpen := if uinMode s n = 3 ∧ f32Lt 0x41C80000#32 x = true ∧ isShuntOpen s n = false then (n.val,
          s.clk.tick) :: s.fn.shuntOpen else s.fn.shuntOpen })
  ∧
  -- uinClear
  (∀ (s : State) (n : Fin 48), (s.uin n).fault = true → 400 ≤ (s.uin n).good → Room s 1 →
    ∃ t, exec (.uinFaultCleared n) s = .next t ∧ Does s t [] [s.evOf 0x3801 n] [.fn] ∧
      t.fn = (s.setUin n { s.uin n with fault := false, good := 0 }).fn)
  ∧
  -- edgeTimeout
  (∀ (s : State) (n : Fin 48), (uinMode s n = 5 ∨ (uinMode s n = 7 ∧ n.val % 2 = 0)) →
    40000000 * s.get (fFUN_UIN_CFG_TOUT n) ≤ s.clk.tick * 20000 - ((s.uin n).edge.getD 0) →
    ∃ t, exec (.edgeTimeout n) s = .next t ∧ t = s.setUin n { s.uin n with noEdge := true } ∧ (∀ v,
      edgeFreq (t.uin n) v [] t.clk.tick = 0#32))
  ∧
  -- edgeStillTime
  (∀ (s : State) (n : Fin 48), (¬ (uinMode s n = 5 ∨ (uinMode s n = 7 ∧ n.val % 2 = 0)) ∨
    s.clk.tick * 20000 - ((s.uin n).edge.getD 0) < 40000000 * s.get (fFUN_UIN_CFG_TOUT n)) →
    ∃ t, exec (.edgeTimeout n) s = .next t ∧ t = s)
  ∧
  -- quadIllegal
  (∀ (s : State) (p : Fin 24), uinMode s (2 * p.val) = 6 → Room s 1 →
    ∃ t, exec (.quadIllegalTransition p) s = .next t ∧ Does s t [(fUinFlt (2 * p.val), 1),
      (fUinFlt (2 * p.val + 1), 1), (fFUN_EVT_UIN_FLT, 1)] [s.evOf 0x3802 p] [.fn]
    ∧ (t.uin (2 * p.val)).blind = true ∧ (t.uin (2 * p.val + 1)).blind = true
    ∧ (∀ n, n ≠ 2 * p.val → n ≠ 2 * p.val + 1 → t.uin n = s.uin n))
  ∧
  -- indexMissing
  (∀ (s : State) (p : Fin 24), uinMode s (2 * p.val) = 7 → 2 * (match angleOf s p with
    | some a => s.get (fFUN_ANG_PPR a)
    | none => if (s.pair p).idx < 2 then 32767 else (s.pair p).between) ≤ (s.pair p).pulses →
      ((s.uin (2 * p.val)).fault = false ∨ (s.uin (2 * p.val + 1)).fault = false) → Room s 2 →
    ∃ t, exec (.indexMissing p) s = .next t ∧ Does s t [(fUinFlt (2 * p.val), 1), (fFUN_EVT_UIN_FLT, 1),
      (fUinFlt (2 * p.val + 1), 1), (fFUN_EVT_UIN_FLT, 1)]
      [s.evOf 0x3800 (2 * p.val), s.evOf 0x3800 (2 * p.val + 1)] [.fn]
    ∧ (t.uin (2 * p.val)).fault = true ∧ (t.uin (2 * p.val + 1)).fault = true)
  ∧
  -- indexEdge
  (∀ (s : State) (p : Fin 24) (k : Nat), uinMode s (2 * p.val) = 7 →
    ∃ t, exec (.indexEdge p k) s = .next t ∧
      t = s.setPair p { s.pair p with idx := (s.pair p).idx + 1, between := (s.pair p).pulses + (k - (s.pair p).pre), pulses := 0, pre := k, first := true })
  ∧
  -- shuntClose
  (∀ (s : State) (n : Fin 48),
    ∃ t, exec (.ma20ShuntReclose n) s = .next t ∧ t = { s with fn := { s.fn with shuntOpen := t.fn.shuntOpen } }
    ∧ (∀ k o, (k, o) ∈ t.fn.shuntOpen ↔ (k, o) ∈ s.fn.shuntOpen ∧ ¬ (k = n.val ∧ o + 20000 ≤ s.clk.tick)))

/-- An impact of an enabled loss input outside the dead time and above half the minimum is counted once: KERNEL
(amplitude and rise inside the limits) in its total and in the tick's count, ending silence; OTHER otherwise; at or
above full scale as OTHER with 0x3810 and the amplitude. 60 s without a KERNEL impact at a high grain flow marks the
sensor silent: its fault bit and FUN_EVT.LOSS_FLT are set, both entries of both lanes lose VALID, and 0x3811 records
the flow. An impact inside the dead time, or below half the minimum, changes nothing. That a command whose
conditions do not hold changes nothing is the model's reading (log entry 15). Where the spec leaves the choice open
or has to be read by inference, the clauses state the model's, of log entries 27, 120. (R74, R75, R76) -/
def Obligations.LossSensors : Prop :=
  -- lossKernel
  (∀ (s : State) (n : Fin 16) (peak rise gap : Nat), s.bit (fFUN_LOSS_CFG_EN n) = true →
    s.get (fFUN_LOSS_CFG_DEAD n) ≤ gap → 128 * s.get (fFUN_LOSS_CFG_A_MIN n) < 2 * peak → peak < 32768 →
    128 * s.get (fFUN_LOSS_CFG_A_MIN n) ≤ peak → peak ≤ 128 * s.get (fFUN_LOSS_CFG_A_MAX n) →
    rise ≤ s.get (fFUN_LOSS_CFG_RISE_MAX n) →
    ∃ t, exec (.lossImpact n peak rise gap) s = .next t ∧ Does s t [(fFUN_LOSS_TOTAL n,
      s.up (fFUN_LOSS_TOTAL n))] [] [.fn]
    ∧ t.fn = (s.setLossIn n { s.lossIn n with kern := (s.lossIn n).kern + 1, quiet := 0, silent := false }).fn)
  ∧
  -- lossOther
  (∀ (s : State) (n : Fin 16) (peak rise gap : Nat), s.bit (fFUN_LOSS_CFG_EN n) = true →
    s.get (fFUN_LOSS_CFG_DEAD n) ≤ gap → 128 * s.get (fFUN_LOSS_CFG_A_MIN n) < 2 * peak → peak < 32768 →
    (peak < 128 * s.get (fFUN_LOSS_CFG_A_MIN n) ∨ 128 * s.get (fFUN_LOSS_CFG_A_MAX n) < peak ∨
    s.get (fFUN_LOSS_CFG_RISE_MAX n) < rise) →
    ∃ t, exec (.lossImpact n peak rise gap) s = .next t ∧ Does s t [(fFUN_LOSS_OTHER n,
      s.up (fFUN_LOSS_OTHER n))] [] [])
  ∧
  -- lossSat
  (∀ (s : State) (n : Fin 16) (peak rise gap : Nat), s.bit (fFUN_LOSS_CFG_EN n) = true →
    s.get (fFUN_LOSS_CFG_DEAD n) ≤ gap → 128 * s.get (fFUN_LOSS_CFG_A_MIN n) < 2 * peak → 32768 ≤ peak →
    Room s 1 →
    ∃ t, exec (.lossImpact n peak rise gap) s = .next t ∧ Does s t [(fFUN_LOSS_OTHER n,
      s.up (fFUN_LOSS_OTHER n))] [s.evOf 0x3810 n 0 (f16OfRatio false peak 32768) (f16OfRatio false peak 32768)]
      [])
  ∧
  -- lossDead
  (∀ (s : State) (n : Fin 16) (peak rise gap : Nat), (s.bit (fFUN_LOSS_CFG_EN n) = false ∨
    gap < s.get (fFUN_LOSS_CFG_DEAD n) ∨ 2 * peak ≤ 128 * s.get (fFUN_LOSS_CFG_A_MIN n)) →
    ∃ t, exec (.lossImpact n peak rise gap) s = .next t ∧ t = s)
  ∧
  -- lossSilent
  (∀ (s : State) (n : Fin 16), s.bit (fFUN_LOSS_CFG_EN n) = true → 1200000 ≤ (s.lossIn n).quiet →
    (s.lossIn n).silent = false → Room s 1 →
    ∃ t, exec (.lossSilent n) s = .next t ∧ RegsBut s t [(bitFld fFUN_LOSS_FLT_FLT n, 1), (fFUN_EVT_LOSS_FLT,
      1)]
    ∧
      Records s t [s.evOf 0x3811 n 0 (f16OfF32 (s.sig (topLane s) 144).val) (f16OfF32 (s.sig (topLane s) 144).val)]
    ∧ PartsBut s t [.fn] ∧ (t.lossIn n).silent = true
    ∧ (∀ l, l < 2 → (t.sig l (96 + n)).valid = false ∧ (t.sig l (112 + n)).valid = false))

/-- A request starts a capture of 400 ticks unless one runs. At its end ZERO_BUSY falls and FUN_EVT.ZERO_DONE rises; a
VALID capture whose mean gives a flow below 10 % of full scale is SERVED: the mean is the new zero and 0x3823
records it; otherwise it is REFUSED, the zero stays, and 0x3822 records the flow. A lock request and an unlock
request mark their functions for the next frame boundary, the later of the two standing; at the boundary a function
whose lock changes shows it in FUN_LOCK and in its own register, sets FUN_EVT.LOCK_CHG and records 0x3820 with the
function and the new lock. Writes by the OEM partition change nothing. That a command whose conditions do not hold
changes nothing is the model's reading (log entry 15). Where the spec leaves the choice open or has to be read by
inference, the clauses state the model's, of log entries 7, 31. (R66, R78, R79) -/
def Obligations.ZeroCaptureAndLocks : Prop :=
  -- zeroStart
  (∀ (s : State) (req : Req), reqIsOem req = false → s.bit fFUN_STATUS_ZERO_BUSY = false →
    ∃ t, exec (.flowZero req) s = .next t ∧ Does s t [(fFUN_STATUS_ZERO_BUSY, 1)] [] [.fn] ∧
      t.fn = { s.fn with zeroTicks := 0, zeroSum := 0#32, zeroBad := false })
  ∧
  -- zeroBusy
  (∀ (s : State) (req : Req), (reqIsOem req = true ∨ s.bit fFUN_STATUS_ZERO_BUSY = true) →
    ∃ t, exec (.flowZero req) s = .next t ∧ t = s)
  ∧
  -- zeroServed
  (∀ (s : State), s.bit fFUN_STATUS_ZERO_BUSY = true → 400 ≤ s.fn.zeroTicks → s.fn.zeroBad = false →
    f32Lt (grainFlow s (f32Div s.fn.zeroSum (f32OfNat 400))) (f32Mul 0x3DCCCCCD#32 (s.getF fFUN_FLOW_FS)) = true →
    Room s 1 →
    ∃ t, exec (.flowZeroDone) s = .next t ∧ Does s t [(fFUN_STATUS_ZERO_BUSY, 0), (fFUN_EVT_ZERO_DONE, 1),
      (fFUN_STATUS_ZERO_RES, 1),
      (fFUN_FLOW_ZERO, (f32Div s.fn.zeroSum (f32OfNat 400)).toNat)]
    [s.evOf 0x3823 0 0 (f16OfF32 (f32Div s.fn.zeroSum (f32OfNat 400))) (f16OfF32 (f32Div s.fn.zeroSum (f32OfNat 400)))]
      [])
  ∧
  -- zeroRefused
  (∀ (s : State), s.bit fFUN_STATUS_ZERO_BUSY = true → 400 ≤ s.fn.zeroTicks → (s.fn.zeroBad = true ∨
    f32Lt (grainFlow s (f32Div s.fn.zeroSum (f32OfNat 400))) (f32Mul 0x3DCCCCCD#32 (s.getF fFUN_FLOW_FS)) = false) →
    Room s 1 →
    ∃ t, exec (.flowZeroDone) s = .next t ∧ Does s t [(fFUN_STATUS_ZERO_BUSY, 0), (fFUN_EVT_ZERO_DONE, 1),
      (fFUN_STATUS_ZERO_RES, 2)]
    [s.evOf 0x3822 0 0 (f16OfF32 (grainFlow s (f32Div s.fn.zeroSum (f32OfNat 400)))) (f16OfF32 (grainFlow s (f32Div s.fn.zeroSum (f32OfNat 400))))]
      [])
  ∧
  -- lockReq
  (∀ (s : State) (req : Req) (bits : Word), reqIsOem req = false →
    ∃ t, exec (.lockRequest req bits) s = .next t ∧
      t = { s with fn := { s.fn with lockSet := t.fn.lockSet, lockClr := t.fn.lockClr, opLocks := t.fn.opLocks } } ∧
      (∀ f : Fin 30, (t.fn.lockSet.testBit f = (s.fn.lockSet.testBit f || bits.getLsbD f))
      ∧ (t.fn.lockClr.testBit f = (s.fn.lockClr.testBit f && !bits.getLsbD f))))
  ∧
  -- unlockReq
  (∀ (s : State) (req : Req) (bits : Word), reqIsOem req = false →
    ∃ t, exec (.unlockRequest req bits) s = .next t ∧
      t = { s with fn := { s.fn with lockSet := t.fn.lockSet, lockClr := t.fn.lockClr, opLocks := t.fn.opLocks } } ∧
      (∀ f : Fin 30, (t.fn.lockClr.testBit f = (s.fn.lockClr.testBit f || bits.getLsbD f))
      ∧ (t.fn.lockSet.testBit f = (s.fn.lockSet.testBit f && !bits.getLsbD f))))
  ∧
  -- lockApply
  (∀ (s : State) (f : Fin 30), s.fn.lockSet.testBit f = true → s.bitAt fFUN_LOCK_LOCK f = false → Room s 1 →
    Does s (applyLock f s) [(bitFld fFUN_LOCK_LOCK f, 1), (fFUN_REC_CTL_LOCK f, 1), (fFUN_EVT_LOCK_CHG, 1)]
      [s.evOf 0x3820 (f.val + 1) 1] [])

/-- A snapshot request that is not busy sets BUSY, clears VALID and asks for the copy of the next tick; when the copy
has been taken, its completion shows it in the windows with its tick, clears BUSY, sets VALID and the event bit.
LOAD_CLR clears MAX. Writes of the OEM partition and of the application cluster change nothing. The last warm-up
tick of a channel leaves WARM_LEFT 0 in both lanes. A DEGRADED channel that is not LASTING and has been good for 400
ticks is RUNNING again in both lanes, with 0x3104 recorded once by the lane of the higher claim; one whose other
source has been good for 400 ticks while the selected one is not also changes its source, with 0x3102 before;
otherwise it stays as it is. A pane that has not ended at cycle 17,600 is counted, stops the engine, is recorded as
0x3001 with the cycle, its commands are not sent, and it is a fault of the lane with reason 3. Before that cycle
nothing changes. A posted value of an entry that the configuration assigns to the mailbox stands in the inactive
buffer with its VALID bit and its tick, and the buffer is ready; a value of any other entry, and a post while the
application cluster is stopped, change nothing. Values are placed in order. A diagnostic read of a supervision
record returns that of the lane with the higher claim. The signal tables, the registers and the recorder do not
change until the lanes swap at T. That a command whose conditions do not hold changes nothing is the model's reading
(log entry 15). Where the spec leaves the choice open or has to be read by inference, the clauses state the model's,
of log entries 9, 34, 35, 126. (R17, R18, R81, R110, R112, R113, R114, R118, R124, R125, R126) -/
def Obligations.LoopEngineCommands : Prop :=
  -- snapReq
  (∀ (s : State) (req : Req) (lane : Lane), reqIsOem req = false → reqIsApp req = false →
    s.bit (fLE_SNAP_BUSY (laneIx lane)) = false →
    ∃ t, exec (.snapReq req lane) s = .next t ∧ Does s t [(fLE_SNAP_BUSY (laneIx lane), 1),
      (fLE_SNAP_VALID (laneIx lane), 0)] [] [.loopA, .loopB]
    ∧ t.loop (laneIx lane) = { s.loop (laneIx lane) with snapAt := s.clk.tick + 1, snapNew := none }
    ∧ t.loop (1 - laneIx lane) = s.loop (1 - laneIx lane))
  ∧
  -- snapBusy
  (∀ (s : State) (req : Req) (lane : Lane), (s.bit (fLE_SNAP_BUSY (laneIx lane)) = true ∨ reqIsOem req = true ∨
    reqIsApp req = true) →
    ∃ t, exec (.snapReq req lane) s = .next t ∧ t = s)
  ∧
  -- snapDone
  (∀ (s : State) (lane : Lane) (cells : List Host.Cell) (k : Nat), (s.loop (laneIx lane)).snapNew = some (cells,
    k) → s.bit (fLE_SNAP_BUSY (laneIx lane)) = true →
    ∃ t, exec (.snapDone lane) s = .next t ∧ Does s t [(fLE_SNAP_BUSY (laneIx lane), 0),
      (fLE_SNAP_VALID (laneIx lane), 1), (fLE_EVT_SNAP_DONE (laneIx lane), 1),
      (wordAt (fLE_SNAP_TICK_LO (laneIx lane)).addr, k), (wordAt ((fLE_SNAP_TICK_LO (laneIx lane)).addr + 4),
        k / 4294967296)] [] [.loopA, .loopB]
    ∧ t.loop (laneIx lane) = { s.loop (laneIx lane) with snapNew := none, snap := cells }
    ∧ t.loop (1 - laneIx lane) = s.loop (1 - laneIx lane))
  ∧
  -- loadClr
  (∀ (s : State) (req : Req) (lane : Lane), reqIsOem req = false → reqIsApp req = false →
    ∃ t, exec (.loadClr req lane) s = .next t ∧ Does s t [(fLE_LOAD_MAX (laneIx lane), 0)] [] [])
  ∧
  -- loadClrNoRight
  (∀ (s : State) (req : Req) (lane : Lane), (reqIsOem req = true ∨ reqIsApp req = true) →
    ∃ t, exec (.loadClr req lane) s = .next t ∧ t = s)
  ∧
  -- warmEnd
  (∀ (s : State) (n : Fin 96), (s.rd32 (winAddr 0 n + 0x14)).toNat ≤ 1 →
    (s.rd32 (winAddr 1 n + 0x14)).toNat ≤ 1 →
    ∃ t, exec (.warmupEnd n) s = .next t ∧ t.rd32 (winAddr 0 n + 0x14) = 0#32 ∧
      t.rd32 (winAddr 1 n + 0x14) = 0#32
    ∧ (∀ a, (a < winAddr 0 n + 0x14 ∨ winAddr 0 n + 0x18 ≤ a) → (a < winAddr 1 n + 0x14 ∨
      winAddr 1 n + 0x18 ≤ a) → t.rd8 a = s.rd8 a)
    ∧ RegsBut s t [] ∧ Records s t [] ∧ PartsBut s t [])
  ∧
  -- chanRecovered
  (∀ (s : State) (n : Fin 96), s.mget (tSTATE (chAddr 0 n)) = 2 → s.mget (tSTATE (chAddr 1 n)) = 2 →
    s.mbit (uLASTING (chAddr 0 n)) = false → s.mbit (uLASTING (chAddr 1 n)) = false →
    400 ≤ s.mget (uGOOD (chAddr 0 n)) → 400 ≤ s.mget (uGOOD (chAddr 1 n)) → Room s 1 →
    ∃ t, exec (.channelRecovered n) s = .next t ∧ t.mget (tSTATE (chAddr 0 n)) = 1 ∧
      t.mget (tSTATE (chAddr 1 n)) = 1
    ∧ RegsBut s t [(fLeDeg 0 n, 0), (fLeDeg 1 n, 0)]
    ∧ Records s t [s.evOf 0x3104 n (fbSel s (chAddr (topLane s) n)) f16NaN f16NaN]
    ∧ PartsBut s t [.loopA, .loopB]
    ∧ (∀ a, (a < chAddr 0 n + 0x64 ∨ chAddr 0 n + 0x68 ≤ a) → (a < chAddr 1 n + 0x64 ∨ chAddr 1 n + 0x68 ≤ a) →
      t.rd8 a = s.rd8 a))
  ∧
  -- chanOther
  (∀ (s : State) (n : Fin 96), ((∀ l, l < 2 → s.mget (tSTATE (chAddr l n)) = 2 ∧
    s.mbit (uLASTING (chAddr l n)) = false ∧ s.mget (uGOOD (chAddr l n)) = 0
    ∧ 400 ≤ tabGet (fun _ => 0) (s.loop l).otherGood n)) → Room s 2 →
    ∃ t, exec (.channelRecovered n) s = .next t ∧ (∀ l, l < 2 → t.mget (tSTATE (chAddr l n)) = 1 ∧
      fbSel t (chAddr l n) = 3 - fbSel s (chAddr l n))
    ∧ RegsBut s t [(fLeDeg 0 n, 0), (fLeDeg 1 n, 0)]
    ∧ Records s t (let l := topLane s
        let k := fbSel s (chAddr l n)
        [s.evOf 0x3102 n (3 - k) (f16OfF32 (s.rd32 (rfAddr l n k))) (f16OfF32 (s.rd32 (rfAddr l n k))),
          s.evOf 0x3104 n (3 - k) f16NaN f16NaN])
    ∧ PartsBut s t [.loopA, .loopB])
  ∧
  -- chanNotYet
  (∀ (s : State) (n : Fin 96), ((∀ l, l < 2 → s.mget (uGOOD (chAddr l n)) < 400 ∧
    (s.mget (uGOOD (chAddr l n)) ≠ 0 ∨ tabGet (fun _ => 0) (s.loop l).otherGood n < 400))) →
    ∃ t, exec (.channelRecovered n) s = .next t ∧ t = s)
  ∧
  -- chanLasting
  (∀ (s : State) (n : Fin 96), (s.mget (tSTATE (chAddr 0 n)) ≠ 2 ∨ s.mbit (uLASTING (chAddr 0 n)) = true) →
    (s.mget (tSTATE (chAddr 1 n)) ≠ 2 ∨ s.mbit (uLASTING (chAddr 1 n)) = true) →
    ∃ t, exec (.channelRecovered n) s = .next t ∧ t = s)
  ∧
  -- paneDeadline
  (∀ (s : State) (lane : Lane) (k : Fin 256) (cyc : Fin 20000), 17600 ≤ cyc.val → Room s 1 →
    ∃ t, exec (.paneDeadline lane k cyc) s = .next t ∧ ∃ u, t = laneFault (laneIx lane) 3 u
    ∧ Does s u [(fLE_DL_CNT (laneIx lane), s.up (fLE_DL_CNT (laneIx lane))), (fLE_EVT_DEADLINE (laneIx lane),
      1), (fLE_STATUS_RUN (laneIx lane), 0)]
      [s.evOf 0x3001 k 0 (f16OfNat cyc) (f16OfNat cyc)] [.clm]
    ∧ u.clm = { s.clm with sent := u.clm.sent }
    ∧ (∀ f, f ∈ u.clm.sent ↔ f ∈ s.clm.sent ∧ ¬ (f.lane = laneIx lane
      ∧ ∃ n ∈ paneChannels s (paneAddr (laneIx lane) k), drives s (laneIx lane) (f.w1.toNat % 256) n = true)))
  ∧
  -- paneInTime
  (∀ (s : State) (lane : Lane) (k : Fin 256) (cyc : Fin 20000), cyc.val < 17600 →
    ∃ t, exec (.paneDeadline lane k cyc) s = .next t ∧ t = s)
  ∧
  -- mailOne
  (∀ (s : State) (e : Nat) (v : F32) (ok : Bool) (k : Nat), appOn s = true → s.mail.dests.contains e = true →
    ∃ t, exec (.mailboxPost [(e, v, ok, k)]) s = .next t ∧ t = { s with mail := t.mail } ∧ t.mail.ready = true ∧
      tabGet mailVal0 t.mail.buf e = ⟨v, ok, k⟩
    ∧ (∀ d, d ≠ e → tabGet mailVal0 t.mail.buf d = tabGet mailVal0 s.mail.buf d)
    ∧ t.mail.copy = s.mail.copy ∧ t.mail.dests = s.mail.dests)
  ∧
  -- mailOther
  (∀ (s : State) (e : Nat) (v : F32) (ok : Bool) (k : Nat), (s.mail.dests.contains e = false ∨
    appOn s = false) →
    ∃ t, exec (.mailboxPost [(e, v, ok, k)]) s = .next t ∧ t = s)
  ∧
  -- supRead
  (∀ (s : State) (n : Fin 96),
    diagSup s n = (if s.get fCLM_STATUS_CLAIM_A < s.get fCLM_STATUS_CLAIM_B then
      (s.rdBytes (supAddr 1 n) 64, s.rdBytes (winAddr 1 n) 32)
    else (s.rdBytes (supAddr 0 n) 64, s.rdBytes (winAddr 0 n) 32)))
  ∧
  -- mailMore
  (∀ (s : State) (x : Nat × F32 × Bool × Nat) (xs : List (Nat × F32 × Bool × Nat)), appOn s = true →
    ∃ t, exec (.mailboxPost (x :: xs)) s = .next t ∧ ∃ u, exec (.mailboxPost [x]) s = .next u ∧
      exec (.mailboxPost xs) u = .next t)

/-- A fault before claims are enabled, of a lane that passed its self-test, records 0x2001 and counts as a failed self-
test. Once claims are enabled, a fault of a lane with fewer than two counted give-ups in its window makes it
RECOVERING with no claim, stops its engine, shows the lane, reason and count, dates the claim change, sends a drop
frame unless the clock or the supply is lost, records 0x2001 and starts a recovery with a LANE reset. A fault of the
STANDBY lane leaves the other lane as it is; after one of the ACTIVE lane the STANDBY lane is ACTIVE with claim 12
and records 0x2005, and with no lane to take over the module enters LIMP with 0x2030 and no claim. The third counted
give-up makes the lane BARRED, with 0x2004 and no recovery. A BARRED or halted lane, and a module in LIMP, change
nothing. TEST_GU gives up with reason 10 only when both lanes are up and have been undisturbed for 100,000 ticks; a
stage that mismatched in 3 consecutive ticks makes the STANDBY lane give up with reason 7. That a command whose
conditions do not hold changes nothing is the model's reading (log entry 15). Where the spec leaves the choice open
or has to be read by inference, the clauses state the model's, of log entries 30, 80, 81, 153. (R151, R152, R154,
R160, R169, R171, R172) -/
def Obligations.LaneGiveUps : Prop :=
  -- faultBoot
  (∀ (s : State) (lane : Lane) (k : Fin 7), k ≠ 0 → s.bit fRST_STATUS_CLAIMS = false →
    (s.lane (laneIx lane)).passed = true → Room s 1 →
    ∃ t, exec (.laneFault lane k) s = .next t ∧ Does s t [] [s.evOf 0x2001 (laneIx lane) k] [.clm]
    ∧ t.lane (laneIx lane) = { s.lane (laneIx lane) with passed := false, bootReason := k }
    ∧ t.lane (1 - laneIx lane) = s.lane (1 - laneIx lane))
  ∧
  -- faultStandby
  (∀ (s : State) (lane : Lane) (k : Fin 7), k ≠ 0 → s.bit fRST_STATUS_CLAIMS = true →
    laneState s (laneIx lane) = 1 → (s.lane (laneIx lane)).halted = false → s.bit fCLM_STATUS_LIMP = false →
    s.bit fCLM_STATUS_HINGE_RUN = false → (recentGiveUps s (laneIx lane)).length < 2 → Room s 1 →
    ∃ t, exec (.laneFault lane k) s = .next t ∧ ∃ u, t = startRecovery (laneIx lane) 1 u
    ∧ Does s u ([(fCLM_LAST_GU_LANE, laneIx lane), (fCLM_LAST_GU_REASON, k), (fCLM_LAST_GU_COUNTED, 1),
        (⟨(fGu (laneIx lane)).addr, 31, 8⟩, s.up ⟨(fGu (laneIx lane)).addr, 31, 8⟩),
        (⟨(fGu (laneIx lane)).addr, 7, 0⟩, (recentGiveUps s (laneIx lane)).length + 1), (fCLM_EVT_GIVE_UP, 1),
        (if laneIx lane = 0 then fCLM_STATUS_STATE_A else fCLM_STATUS_STATE_B, 2), (claimFld (laneIx lane), 0),
        (fLE_STATUS_RUN (laneIx lane), 0)] ++ (if s.get (claimFld (laneIx lane)) = 0 then []
          else [(wordAt fCLM_SWITCH_TICK_LO.addr, s.clk.tick), (wordAt (fCLM_SWITCH_TICK_LO.addr + 4),
          s.clk.tick / 4294967296)]))
      [s.evOf 0x2001 (laneIx lane) k] [.clm]
    ∧ (u.lane (laneIx lane)).giveUps = s.clk.tick :: recentGiveUps s (laneIx lane)
    ∧ u.lane (1 - laneIx lane) = s.lane (1 - laneIx lane)
    ∧ u.clm.sent = s.clm.sent ++ (if k.val = 5 ∨ k.val = 6 then []
      else [mkSent 0xFF 0 (laneIx lane) 0#32 false false false 0]))
  ∧
  -- faultActive
  (∀ (s : State) (lane : Lane) (k : Fin 7), k ≠ 0 → s.bit fRST_STATUS_CLAIMS = true →
    laneState s (laneIx lane) = 0 → (s.lane (laneIx lane)).halted = false → s.bit fCLM_STATUS_LIMP = false →
    s.bit fCLM_STATUS_HINGE_RUN = false → laneState s (1 - laneIx lane) = 1 →
    (recentGiveUps s (laneIx lane)).length < 2 → Room s 2 →
    ∃ t, exec (.laneFault lane k) s = .next t ∧ ∃ u, t = startRecovery (laneIx lane) 1 u
    ∧ laneState u (laneIx lane) = 2 ∧ u.get (claimFld (laneIx lane)) = 0 ∧
      u.bit (fLE_STATUS_RUN (laneIx lane)) = false
    ∧ laneState u (1 - laneIx lane) = 0 ∧ u.get (claimFld (1 - laneIx lane)) = 12
    ∧ (∃ w, Records s u [s.evOf 0x2001 (laneIx lane) k, s.evOf 0x2005 (1 - laneIx lane) 0 f16NaN w])
    ∧ SameMem s u ∧ PartsBut s u [.clm, .free])
  ∧
  -- faultLimp
  (∀ (s : State) (lane : Lane) (k : Fin 7), k ≠ 0 → s.bit fRST_STATUS_CLAIMS = true →
    laneState s (laneIx lane) = 0 → (s.lane (laneIx lane)).halted = false → s.bit fCLM_STATUS_LIMP = false →
    s.bit fCLM_STATUS_HINGE_RUN = false → 2 ≤ laneState s (1 - laneIx lane) →
    (recentGiveUps s (laneIx lane)).length < 2 → Room s 8 →
    ∃ t, exec (.laneFault lane k) s = .next t ∧ t.bit fCLM_STATUS_LIMP = true ∧ t.bit fCLM_EVT_LIMP = true ∧
      t.get fCLM_STATUS_CLAIM_A = 0 ∧ t.get fCLM_STATUS_CLAIM_B = 0
    ∧ laneState t (laneIx lane) = 2 ∧ pwrState t = max 1 (pwrState s)
    ∧ s.evOf 0x2001 (laneIx lane) k ∈ t.evr.intake ∧
      s.evOf 0x2030 (laneIx lane) (limpRow s (1 - laneIx lane) k) ∈ t.evr.intake)
  ∧
  -- recoveryStarts
  (∀ (s : State) (l : Fin 2), laneState s (1 - l.val) = 0 → s.bit fCLM_STATUS_LIMP = false → Room s 1 →
    (let t := startRecovery l 1 s
    t.lane l = { s.lane l with step := 1, since := s.clk.tick, recAt := s.clk.tick } ∧
      t.lane (1 - l.val) = s.lane (1 - l.val)
      ∧ t.bitAt fRST_CAUSE_SRC (4 + l) = true ∧ Records s t [s.evOf 0xC101 0 (t.get fRST_CAUSE_SRC)]
      ∧ t.loop l = Loop.init ∧ t.loop (1 - l.val) = s.loop (1 - l.val)
      ∧ (∀ a, inPage (4 + l) a = false → inPage 3 a = false → a ≠ fRST_CAUSE_SRC.addr → t.rd a = s.rd a)
      ∧ SameMem s t ∧ PartsBut s t [.clm, .pic, .loopA, .loopB]))
  ∧
  -- faultBarred
  (∀ (s : State) (lane : Lane) (k : Fin 7), k ≠ 0 → s.bit fRST_STATUS_CLAIMS = true →
    laneState s (laneIx lane) = 1 → (s.lane (laneIx lane)).halted = false → s.bit fCLM_STATUS_LIMP = false →
    s.bit fCLM_STATUS_HINGE_RUN = false → (recentGiveUps s (laneIx lane)).length = 2 → Room s 2 →
    ∃ t, exec (.laneFault lane k) s = .next t ∧ Does s t ([(fCLM_LAST_GU_LANE, laneIx lane),
      (fCLM_LAST_GU_REASON, k), (fCLM_LAST_GU_COUNTED, 1),
        (⟨(fGu (laneIx lane)).addr, 31, 8⟩, s.up ⟨(fGu (laneIx lane)).addr, 31, 8⟩),
        (⟨(fGu (laneIx lane)).addr, 7, 0⟩, 3), (fCLM_EVT_GIVE_UP, 1),
        (if laneIx lane = 0 then fCLM_STATUS_STATE_A else fCLM_STATUS_STATE_B, 3), (claimFld (laneIx lane), 0),
        (fLE_STATUS_RUN (laneIx lane), 0), (fCLM_EVT_BARRED, 1)]
          ++ (if s.get (claimFld (laneIx lane)) = 0 then [] else [(wordAt fCLM_SWITCH_TICK_LO.addr, s.clk.tick),
          (wordAt (fCLM_SWITCH_TICK_LO.addr + 4), s.clk.tick / 4294967296)]))
      [s.evOf 0x2001 (laneIx lane) k, s.evOf 0x2004 (laneIx lane)] [.clm]
    ∧ (t.lane (laneIx lane)).step = 0)
  ∧
  -- faultNone
  (∀ (s : State) (lane : Lane) (k : Fin 7), s.bit fRST_STATUS_CLAIMS = true → (laneState s (laneIx lane) = 3 ∨
    (s.lane (laneIx lane)).halted = true ∨ s.bit fCLM_STATUS_LIMP = true) →
    ∃ t, exec (.laneFault lane k) s = .next t ∧ t = s)
  ∧
  -- testGuA
  (∀ (s : State) (req : Req), reqIsOem req = false → laneUp s 0 = true → laneUp s 1 = true →
    (s.lane 0).stateAt + 100000 ≤ s.clk.tick → (s.lane 1).stateAt + 100000 ≤ s.clk.tick →
    s.clm.disturb + 100000 ≤ s.clk.tick →
    ∃ t, exec (.testGuA req) s = .next t ∧ t = giveUp 0 10 s)
  ∧
  -- testGuB
  (∀ (s : State) (req : Req), reqIsOem req = false → laneUp s 0 = true → laneUp s 1 = true →
    (s.lane 0).stateAt + 100000 ≤ s.clk.tick → (s.lane 1).stateAt + 100000 ≤ s.clk.tick →
    s.clm.disturb + 100000 ≤ s.clk.tick →
    ∃ t, exec (.testGuB req) s = .next t ∧ t = giveUp 1 10 s)
  ∧
  -- testGuEarly
  (∀ (s : State) (req : Req), (s.clk.tick < s.clm.disturb + 100000 ∨ reqIsOem req = true) →
    exec (.testGuA req) s = .next s ∧ exec (.testGuB req) s = .next s)
  ∧
  -- mismBelow
  (∀ (s : State) (c : Fin 64), ((s.jamb c).mism < 3 ∨ laneUp s 0 = false ∨ laneUp s 1 = false) →
    ∃ t, exec (.mismatchGiveUp c) s = .next t ∧ t = s)
  ∧
  -- mismGiveUp
  (∀ (s : State) (c : Fin 64), 3 ≤ (s.jamb c).mism → laneUp s 0 = true → laneUp s 1 = true →
    ∃ t, exec (.mismatchGiveUp c) s = .next t ∧ t = giveUp (if laneState s 0 = 1 then 0 else 1) 7 s)

/-- A frame that passes every test of R155 is held by the Jamb of its stage for the next tick, on its lane's side, and
every other stage and the lane's other side stay; its link shows as alive. One that fails is discarded:
CLM_FRAME_CNT and the event bit, and 0x2010 with the die as source and the first failed test as flags. A drop frame,
or 200 cycles of silence, removes both frames of the lane at every stage of the die: a stage whose command came from
that lane takes the other lane's claim, or keeps its value and starts its no-claim timer; the stages of other dies
stay. A STANDBY other lane becomes ACTIVE with claim 12 on the report of the die. In the guard of the tick every
Jamb of a die that is up selects by claim, keeping the selection on equal claims. When a stage's no-claim timer has
run its time (two ticks; while no tick falls, the die's own clock measures it), the stage applies its policy and its
channel acts on it: it shows NOCLAIM, the event bit and STATUS.NOCLAIM are set, 0x2031 is recorded with the stage
and the policy, and the value held by the stage stays for HOLD, is the safe value for SAFE_VALUE, and is off for
OFF. HOLD_WIN ms after HOLD was applied the stage acts as OFF. A stage whose timer does not run, or has not run its
time, does not change. That a command whose conditions do not hold changes nothing is the model's reading (log entry
15). Where the spec leaves the choice open or has to be read by inference, the clauses state the model's, of log
entries 39, 44, 153. (R152, R153, R155, R156, R157, R165, R166, R171, R345) -/
def Obligations.JambFrames : Prop :=
  -- frameHeld
  (∀ (s : State) (d : Fin 13) (link : Lane) (w0 w1 w2 : Word) (cyc : Fin 20000), (12 ≤ d.val ∨
    s.dies.dieOff = false) → isDrop w0 w1 (laneIx link) = false →
    frameFault s d (laneIx link) cyc w0 w1 w2 = 0 →
    ∃ t, exec (.commandFrame d link w0 w1 w2 cyc) s = .next t ∧
      RegsBut s t (if d.val < 12 then [(if laneIx link = 0 then fCLM_DIE_LINK_A d else fCLM_DIE_LINK_B d, 1)]
      else [])
    ∧ SameMem s t ∧ Records s t [] ∧ PartsBut s t [.dies]
    ∧
      t.jamb (w1.toNat % 256) = (if laneIx link = 0 then { s.jamb (w1.toNat % 256) with nextA := some (frameOf w0 w1) }
        else { s.jamb (w1.toNat % 256) with nextB := some (frameOf w0 w1) })
    ∧ (∀ c, c ≠ w1.toNat % 256 → t.jamb c = s.jamb c))
  ∧
  -- frameBad
  (∀ (s : State) (d : Fin 13) (link : Lane) (w0 w1 w2 : Word) (cyc : Fin 20000), (12 ≤ d.val ∨
    s.dies.dieOff = false) → isDrop w0 w1 (laneIx link) = false →
    frameFault s d (laneIx link) cyc w0 w1 w2 ≠ 0 → s.bit fCLM_STATUS_HINGE_RUN = false → Room s 1 →
    ∃ t, exec (.commandFrame d link w0 w1 w2 cyc) s = .next t ∧
      Does s t ((if d.val < 12 then [(if laneIx link = 0 then fCLM_DIE_LINK_A d else fCLM_DIE_LINK_B d, 1)]
      else [])
      ++ [(fCLM_FRAME_CNT, s.up fCLM_FRAME_CNT), (fCLM_EVT_FRAME_ERR, 1)])
    [s.evOf 0x2010 d (frameFault s d (laneIx link) cyc w0 w1 w2)] [])
  ∧
  -- frameDrop
  (∀ (s : State) (d : Fin 13) (link : Lane) (w0 w1 w2 : Word) (cyc : Fin 20000), (12 ≤ d.val ∨
    s.dies.dieOff = false) → isDrop w0 w1 (laneIx link) = true → frameCrc w0 w1 = w2.extractLsb' 0 16 →
    ∃ t, exec (.commandFrame d link w0 w1 w2 cyc) s = .next t ∧ exec (.dropFrame d link) s = .next t)
  ∧
  -- frameNoDie
  (∀ (s : State) (d : Fin 13) (link : Lane) (w0 w1 w2 : Word) (cyc : Fin 20000), d.val < 12 →
    s.dies.dieOff = true →
    ∃ t, exec (.commandFrame d link w0 w1 w2 cyc) s = .next t ∧ t = s)
  ∧
  -- dropFrame
  (∀ (s : State) (d : Fin 13) (lane : Lane), (12 ≤ d.val ∨ s.dies.dieOff = false) →
    ∃ t, exec (.dropFrame d lane) s = .next t ∧ (∀ c ∈ dieStages d, (laneIx lane = 0 → (t.jamb c).curA = none ∧
      (t.jamb c).nextA = none)
      ∧ (laneIx lane = 1 → (t.jamb c).curB = none ∧ (t.jamb c).nextB = none) ∧ (t.jamb c).sel ≠ laneIx lane + 1
      ∧ ((s.jamb c).sel = laneIx lane + 1 →
        match asClaim (if laneIx lane = 0 then (s.jamb c).curB else (s.jamb c).curA) with
        | some f => (t.jamb c).sel = 2 - laneIx lane ∧ ((s.jamb c).pol = false → (t.jamb c).val = f.val)
        | none => (t.jamb c).sel = 0 ∧ (t.jamb c).val = (s.jamb c).val
            ∧ ((s.jamb c).ever = true → (s.jamb c).pol = false →
              (t.jamb c).timer = some ((s.jamb c).timer.getD s.clk.tick)))
      ∧ ((s.jamb c).sel ≠ laneIx lane + 1 → (t.jamb c).sel = (s.jamb c).sel ∧ (t.jamb c).val = (s.jamb c).val))
    ∧ (∀ c, c ∉ dieStages d → t.jamb c = s.jamb c) ∧ SameMem s t ∧ PartsBut s t [.dies, .clm, .free]
    ∧ laneState t (laneIx lane) = laneState s (laneIx lane)
    ∧ (if d.val < 12 ∧ s.bit fRST_STATUS_CLAIMS = true ∧ s.bit fCLM_STATUS_LIMP = false ∧
      laneState s (1 - laneIx lane) = 1 then
        laneState t (1 - laneIx lane) = 0 ∧ t.get (claimFld (1 - laneIx lane)) = 12
      else t.clm = s.clm ∧ t.free = s.free ∧ t.get fCLM_STATUS_STATE_A = s.get fCLM_STATUS_STATE_A ∧
        t.get fCLM_STATUS_STATE_B = s.get fCLM_STATUS_STATE_B)
    ∧ (d.val < 12 → t.bit (if laneIx lane = 0 then fCLM_DIE_LINK_A d else fCLM_DIE_LINK_B d) = true))
  ∧
  -- silence
  (∀ (s : State) (d : Fin 13) (lane : Lane), (12 ≤ d.val ∨ s.dies.dieOff = false) →
    ∃ t, exec (.linkSilence d lane) s = .next t ∧ (∀ c ∈ dieStages d, (laneIx lane = 0 →
      (t.jamb c).curA = none ∧ (t.jamb c).nextA = none)
      ∧ (laneIx lane = 1 → (t.jamb c).curB = none ∧ (t.jamb c).nextB = none) ∧ (t.jamb c).sel ≠ laneIx lane + 1
      ∧ ((s.jamb c).sel = laneIx lane + 1 →
        match asClaim (if laneIx lane = 0 then (s.jamb c).curB else (s.jamb c).curA) with
        | some f => (t.jamb c).sel = 2 - laneIx lane ∧ ((s.jamb c).pol = false → (t.jamb c).val = f.val)
        | none => (t.jamb c).sel = 0 ∧ (t.jamb c).val = (s.jamb c).val
            ∧ ((s.jamb c).ever = true → (s.jamb c).pol = false →
              (t.jamb c).timer = some ((s.jamb c).timer.getD s.clk.tick)))
      ∧ ((s.jamb c).sel ≠ laneIx lane + 1 → (t.jamb c).sel = (s.jamb c).sel ∧ (t.jamb c).val = (s.jamb c).val))
    ∧ (∀ c, c ∉ dieStages d → t.jamb c = s.jamb c) ∧ SameMem s t ∧ PartsBut s t [.dies, .clm, .free]
    ∧ laneState t (laneIx lane) = laneState s (laneIx lane)
    ∧ (if d.val < 12 ∧ s.bit fRST_STATUS_CLAIMS = true ∧ s.bit fCLM_STATUS_LIMP = false ∧
      laneState s (1 - laneIx lane) = 1 then
        laneState t (1 - laneIx lane) = 0 ∧ t.get (claimFld (1 - laneIx lane)) = 12
      else t.clm = s.clm ∧ t.free = s.free ∧ t.get fCLM_STATUS_STATE_A = s.get fCLM_STATUS_STATE_A ∧
        t.get fCLM_STATUS_STATE_B = s.get fCLM_STATUS_STATE_B)
    ∧ (d.val < 12 → t.bit (if laneIx lane = 0 then fCLM_DIE_LINK_A d else fCLM_DIE_LINK_B d) = false))
  ∧
  -- jambSelect
  (∀ (s : State),
    ∃ t, exec (.jambSelect) s = .next t ∧ (∀ c : Fin 64, dieLive s (stageDie c) = true →
      (t.jamb c).nextSel = (selectLane (s.jamb c).nextA (s.jamb c).nextB (s.jamb c).sel (homeLane s)).1)
    ∧ (∀ c : Fin 64, dieLive s (stageDie c) = false → t.jamb c = s.jamb c) ∧ SameMem s t ∧ PartsBut s t [.dies,
      .clm])
  ∧
  -- noclaim
  (∀ (s : State) (c : Fin 48) (t0 : Nat), (s.jamb c).timer = some t0 → (tickRuns s = false ∨
    t0 + 2 ≤ s.clk.tick) →
    ∃ t, exec (.noclaimPolicy c) s = .next t ∧ ∃ u,
      t = ((actStage c u).putBit fCLM_EVT_NOCLAIM true).ev 0x2031 c (s.get (fCLM_POL_POLICY c))
    ∧ Does s u ([(bitFld (fCLM_DIE_NOCLAIM (stageDie c)) (c % 4), 1), (fCLM_STATUS_NOCLAIM, 1)]
      ++ (if s.get (fCLM_POL_POLICY c) = 0 then [] else [(bitFld (fCLM_DIE_SEL_B (stageDie c)) (c % 4), 0)])) []
        [.dies]
    ∧
      u.jamb c = { s.jamb c with pol := true, polAt := s.clk.tick, timer := none, val := if s.get (fCLM_POL_POLICY c) = 2 then s.getF (fCLM_SAFE c) else (s.jamb c).val, off := if s.get (fCLM_POL_POLICY c) = 0 ∨ s.get (fCLM_POL_POLICY c) = 2 then (s.jamb c).off else true }
    ∧ (∀ k, k ≠ c.val → u.jamb k = s.jamb k))
  ∧
  -- noclaimIdle
  (∀ (s : State) (c : Fin 48),
    (s.jamb c).timer.all (fun t0 => tickRuns s && decide (s.clk.tick < t0 + 2)) = true →
    ∃ t, exec (.noclaimPolicy c) s = .next t ∧ t = s)
  ∧
  -- holdEnd
  (∀ (s : State) (c : Fin 64), (s.jamb c).pol = true → (s.jamb c).off = false →
    (if c.val < 48 then s.get (fCLM_POL_POLICY c) else s.get (fCAN_TXS_CFG_POLICY (c - 48))) = 0 →
    (tickRuns s = false ∨
    (s.jamb c).polAt + 20 * (if c.val < 48 then s.get (fCLM_POL_HOLD_WIN c) else s.get (fCAN_TXS_CFG_HOLD_WIN (c - 48))) ≤ s.clk.tick) →

    ∃ t, exec (.holdWindowEnd c) s = .next t ∧ t = actStage c (s.setJamb c { s.jamb c with off := true }))
  ∧
  -- actStageFrame
  (∀ (s : State) (c : Nat),
    SameMem s (actStage c s) ∧ PartsBut s (actStage c s) [.dies] ∧ (∀ k, (actStage c s).jamb k = s.jamb k)
    ∧ (48 ≤ c → actStage c s = s))

/-- A RECOVERING lane that is not halted ends steps 1 and 2, and at a frame boundary step 4, by going on to the next
step at the present tick. Step 3 copies the state of the ACTIVE lane: every byte of the copied areas of its SRAM
reads as that of the other lane, every other byte stays, the engine runs, and the step is 4. A failed self-test
(step 2), a failed load of the new images (step 1 of an update's handover) and a mismatch in the compare frame are
give-ups with reason 9. At the frame boundary that ends a compare frame without a mismatch the lane is STANDBY with
claim 8 and step 0, which the frames of this tick carry, CLM_EVT.STANDBY_UP is set, and 0x2002 records the recovery
time in ms; before, nothing changes. That a command whose conditions do not hold changes nothing is the model's
reading (log entry 15). Where the spec leaves the choice open or has to be read by inference, the clauses state the
model's, of log entries 36, 81, 132. (R160, R161, R405) -/
def Obligations.LaneRecovery : Prop :=
  -- recStep12
  (∀ (s : State) (lane : Lane), laneState s (laneIx lane) = 2 → (s.lane (laneIx lane)).halted = false →
    ((s.lane (laneIx lane)).step = 2 ∨ ((s.lane (laneIx lane)).step = 1 ∧ s.upd.phase ≠ 1 ∧ s.upd.phase ≠ 3)
    ∨ ((s.lane (laneIx lane)).step = 4 ∧ s.clk.tick % 400 = 0)) →
    ∃ t, exec (.recoveryStepDone lane) s = .next t ∧ Does s t [] [] [.clm]
    ∧
      t.lane (laneIx lane) = { s.lane (laneIx lane) with step := (s.lane (laneIx lane)).step + 1, since := s.clk.tick, mism := if (s.lane (laneIx lane)).step = 4 then false else (s.lane (laneIx lane)).mism }
    ∧ t.lane (1 - laneIx lane) = s.lane (1 - laneIx lane))
  ∧
  -- recStepNew
  (∀ (s : State) (lane : Lane), laneState s (laneIx lane) = 2 → (s.lane (laneIx lane)).halted = false →
    (s.lane (laneIx lane)).step = 1 → (s.upd.phase = 1 ∨ s.upd.phase = 3) →
    ∃ t, exec (.recoveryStepDone lane) s = .next t ∧ Does s t [] [] [.clm, .upd] ∧
      (t.lane (laneIx lane)).step = 2
    ∧ t.upd = (if laneIx lane = 0 then { s.upd with newA := true } else { s.upd with newB := true }))
  ∧
  -- recCopy
  (∀ (s : State) (lane : Lane), laneState s (laneIx lane) = 2 → (s.lane (laneIx lane)).halted = false →
    (s.lane (laneIx lane)).step = 3 → laneState s (1 - laneIx lane) = 0 → Memory.wf s.mem →
    ∃ t, exec (.recoveryStepDone lane) s = .next t ∧ (∀ o, copied o = true →
      t.rd8 (laneBase (laneIx lane) + o) = s.rd8 (laneBase (1 - laneIx lane) + o))
    ∧ (∀ a, inCopy (laneIx lane) a = false → t.rd8 a = s.rd8 a)
    ∧ (t.lane (laneIx lane)).step = 4 ∧ t.bit (fLE_STATUS_RUN (laneIx lane)) = true ∧ Records s t []
    ∧ PartsBut s t [.clm, .loopA, .loopB])
  ∧
  -- recFail
  (∀ (s : State) (lane : Lane), laneState s (laneIx lane) = 2 → (s.lane (laneIx lane)).halted = false →
    ((s.lane (laneIx lane)).step = 2 ∨ ((s.lane (laneIx lane)).step = 1 ∧ (s.upd.phase = 1 ∨ s.upd.phase = 3))
    ∨ ((s.lane (laneIx lane)).step = 5 ∧ (s.lane (laneIx lane)).mism = true)) →
    ∃ t, exec (.recoveryStepFail lane) s = .next t ∧ t = giveUp (laneIx lane) 9 s)
  ∧
  -- recDone
  (∀ (s : State) (lane : Lane), laneState s (laneIx lane) = 2 → laneState s (1 - laneIx lane) = 0 →
    (s.lane (laneIx lane)).halted = false → (s.lane (laneIx lane)).step = 5 →
    (s.lane (laneIx lane)).mism = false → s.clk.tick % 400 = 0 →
    (s.lane (laneIx lane)).since + 400 ≤ s.clk.tick → s.upd.phase = 0 → Room s 1 →
    ∃ t, exec (.recoveryComplete lane) s = .next t ∧
      Does s t ([(if laneIx lane = 0 then fCLM_STATUS_STATE_A else fCLM_STATUS_STATE_B, 1),
      (claimFld (laneIx lane), 8), (fCLM_EVT_STANDBY_UP, 1)]
        ++ (if s.get (claimFld (laneIx lane)) = 8 then [] else [(wordAt fCLM_SWITCH_TICK_LO.addr, s.clk.tick),
          (wordAt (fCLM_SWITCH_TICK_LO.addr + 4), s.clk.tick / 4294967296)]))
      [s.evOf 0x2002 (laneIx lane) 0 f16NaN (f16OfRatio false (s.clk.tick - (s.lane (laneIx lane)).recAt) 20)]
        [.clm]
    ∧ t.lane (laneIx lane) = { s.lane (laneIx lane) with step := 0, passed := true, stateAt := s.clk.tick }
    ∧ t.lane (1 - laneIx lane) = s.lane (1 - laneIx lane)
    ∧ t.clm.sent = s.clm.sent.map (fun f => if f.w1.toNat % 256 = 0xFF then f
        else withClaim (if f.lane = laneIx lane then 8 else s.get (claimFld f.lane)) f))
  ∧
  -- recWaits
  (∀ (s : State) (lane : Lane), (laneState s (laneIx lane) ≠ 2 ∨ (s.lane (laneIx lane)).step ≠ 5 ∨
    s.clk.tick % 400 ≠ 0 ∨ s.clk.tick < (s.lane (laneIx lane)).since + 400 ∨
    (s.lane (laneIx lane)).mism = true) →
    ∃ t, exec (.recoveryComplete lane) s = .next t ∧ t = s)

/-- A home lane in STANDBY, undisturbed for 100,000 ticks, makes a take-back due, not before; one that falls due in the
tick before a switch tick is announced at once, and both lanes send their new claims. A due Hinge swap that nothing
defers waits for the switch tick; one that something defers shows DEFERRED and why, and records 0x2023 once. At an
announced switch tick the lanes exchange their states and take the claims of their new states, CLM_SWITCH_TICK shows
the tick, and a take-back also sets its event bit, records 0x2003 and sets the tick of the next swap, while a Hinge
swap starts its 400 ticks of proving. With nothing announced nothing changes. A swap that fails a condition ends
with result 2, 0x2021 and a give-up of the non-home lane with reason 8; one that passes exchanges back with result 1
and 0x2020. That a command whose conditions do not hold changes nothing is the model's reading (log entry 15). Where
the spec leaves the choice open or has to be read by inference, the clauses state the model's, of log entries 55,
133, 134. (R154, R160, R162, R163, R164) -/
def Obligations.LaneSwaps : Prop :=
  -- takeBack
  (∀ (s : State), laneState s (homeLane s) = 1 → laneState s (1 - homeLane s) = 0 →
    (s.lane (homeLane s)).stateAt + 100000 ≤ s.clk.tick → s.clm.disturb + 100000 ≤ s.clk.tick →
    s.bit fCLM_STATUS_HINGE_RUN = false → (s.clk.tick + 1) % 400 ≠ 200 →
    ∃ t, exec (.takeBack) s = .next t ∧
      t = { s with clm := { s.clm with takeBack := true, sent := (reclaim s).clm.sent } })
  ∧
  -- takeBackAnnounced
  (∀ (s : State), laneState s (homeLane s) = 1 → laneState s (1 - homeLane s) = 0 →
    (s.lane (homeLane s)).stateAt + 100000 ≤ s.clk.tick → s.clm.disturb + 100000 ≤ s.clk.tick →
    s.bit fCLM_STATUS_HINGE_RUN = false → (s.clk.tick + 1) % 400 = 200 → s.clm.announced = false →
    ∃ t, exec (.takeBack) s = .next t ∧ t.clm.takeBack = true ∧ t.clm.announced = true ∧
      t.get fCLM_STATUS_CLAIM_A = s.get fCLM_STATUS_CLAIM_B
    ∧ t.get fCLM_STATUS_CLAIM_B = s.get fCLM_STATUS_CLAIM_A ∧ SameMem s t ∧ PartsBut s t [.clm]
    ∧ (∀ f ∈ t.clm.sent, f.w1.toNat % 256 ≠ 0xFF → f.w1.toNat / 256 % 16 = t.get (claimFld f.lane)))
  ∧
  -- takeBackEarly
  (∀ (s : State), (s.clk.tick < (s.lane (homeLane s)).stateAt + 100000 ∨ s.clk.tick < s.clm.disturb + 100000) →
    ∃ t, exec (.takeBack) s = .next t ∧ t = s)
  ∧
  -- hingeNow
  (∀ (s : State) (req : Req), reqIsOem req = false → s.bit fRST_STATUS_CLAIMS = true →
    s.bit fCLM_STATUS_HINGE_RUN = false → hingeWhyAt s s.clk.tick = 0 → (s.clk.tick + 1) % 400 ≠ 200 →
    ∃ t, exec (.hingeNow req) s = .next t ∧ Does s t [(fCLM_HINGE_STAT_DEFERRED, 0), (fCLM_HINGE_STAT_WHY, 0)]
      [] [.clm] ∧ t.clm = { s.clm with hinge := true, sent := (reclaim s).clm.sent })
  ∧
  -- hingeDefer
  (∀ (s : State) (req : Req), reqIsOem req = false → s.bit fRST_STATUS_CLAIMS = true →
    s.bit fCLM_STATUS_HINGE_RUN = false → hingeWhyAt s s.clk.tick ≠ 0 → s.bit fCLM_HINGE_STAT_DEFERRED = false →
    (s.clk.tick + 1) % 400 ≠ 200 → Room s 1 →
    ∃ t, exec (.hingeNow req) s = .next t ∧ Does s t [(fCLM_HINGE_STAT_DEFERRED, 1), (fCLM_HINGE_STAT_WHY,
      hingeWhyAt s s.clk.tick)] [s.evOf 0x2023 0 (hingeWhyAt s s.clk.tick)] [.clm]
    ∧ t.clm = { s.clm with hinge := false, sent := (reclaim s).clm.sent })
  ∧
  -- hingeWhys
  (∀ (s : State), s.bit fCLM_STATUS_LIMP = false → laneState s (homeLane s) = 0 →
    laneState s (1 - homeLane s) = 1 → (s.lane (1 - homeLane s)).stateAt + 100000 ≤ s.clk.tick →
    (hingeWhyAt s s.clk.tick = 0 ↔ (∀ r < 9, s.get (fRegion r) ≠ 2) ∧ (s.get fUPD_STATUS_STATE < 3 ∨
      s.get fUPD_STATUS_STATE = 5)))
  ∧
  -- hingeSwapDue
  (∀ (s : State), s.bit fRST_STATUS_CLAIMS = true → s.bit fCLM_STATUS_HINGE_RUN = false → s.clm.hinge = false →
    (s.bit fCLM_HINGE_STAT_DEFERRED = true ∨ s.get64 fCLM_HINGE_NEXT_LO.addr ≤ s.clk.tick) →
    hingeWhyAt s s.clk.tick = 0 → (s.clk.tick + 1) % 400 ≠ 200 →
    ∃ t, exec (.hingeSwapDue) s = .next t ∧ Does s t [(fCLM_HINGE_STAT_DEFERRED, 0), (fCLM_HINGE_STAT_WHY, 0)]
      [] [.clm] ∧ t.clm = { s.clm with hinge := true, sent := (reclaim s).clm.sent })
  ∧
  -- hingeSwapNotDue
  (∀ (s : State), s.bit fCLM_HINGE_STAT_DEFERRED = false → s.clk.tick < s.get64 fCLM_HINGE_NEXT_LO.addr →
    ∃ t, exec (.hingeSwapDue) s = .next t ∧ t = s)
  ∧
  -- switchTakeBack
  (∀ (s : State), s.clk.tick % 400 = 200 → s.clm.announced = true → laneUp s 0 = true → laneUp s 1 = true →
    s.bit fCLM_STATUS_HINGE_RUN = false → s.clm.takeBack = true → Room s 1 →
    ∃ t, exec (.switchTick) s = .next t ∧ Does s t [(fCLM_STATUS_STATE_A, laneState s 1), (fCLM_STATUS_CLAIM_A,
      claimOf (laneState s 1)),
      (fCLM_STATUS_STATE_B, laneState s 0), (fCLM_STATUS_CLAIM_B, claimOf (laneState s 0)),
      (wordAt fCLM_SWITCH_TICK_LO.addr, s.clk.tick), (wordAt (fCLM_SWITCH_TICK_LO.addr + 4),
        s.clk.tick / 4294967296),
      (wordAt fCLM_HINGE_NEXT_LO.addr, s.clk.tick + 20000 * s.get fCLM_CFG_HINGE_INT),
      (wordAt (fCLM_HINGE_NEXT_LO.addr + 4), (s.clk.tick + 20000 * s.get fCLM_CFG_HINGE_INT) / 4294967296),
        (fCLM_EVT_TAKE_BACK, 1)]
    [s.evOf 0x2003 (homeLane s)] [.clm])
  ∧
  -- switchHinge
  (∀ (s : State), s.clk.tick % 400 = 200 → s.clm.announced = true → laneUp s 0 = true → laneUp s 1 = true →
    s.bit fCLM_STATUS_HINGE_RUN = false → s.clm.takeBack = false → s.upd.phase ≠ 2 → s.clm.haltNext = none →
    ∃ t, exec (.switchTick) s = .next t ∧ Does s t [(fCLM_STATUS_STATE_A, laneState s 1), (fCLM_STATUS_CLAIM_A,
      claimOf (laneState s 1)),
      (fCLM_STATUS_STATE_B, laneState s 0), (fCLM_STATUS_CLAIM_B, claimOf (laneState s 0)),
      (wordAt fCLM_SWITCH_TICK_LO.addr, s.clk.tick), (wordAt (fCLM_SWITCH_TICK_LO.addr + 4),
        s.clk.tick / 4294967296),
      (fCLM_STATUS_HINGE_RUN, 1)]
    [] [.clm] ∧ t.clm.hingeAt = s.clk.tick ∧ t.clm.hingeFail = 0 ∧ t.clm.announced = false)
  ∧
  -- switchNone
  (∀ (s : State), (s.clk.tick % 400 ≠ 200 ∨ s.clm.announced = false) →
    ∃ t, exec (.switchTick) s = .next t ∧ t = s)
  ∧
  -- hingeFailed
  (∀ (s : State), s.bit fCLM_STATUS_HINGE_RUN = true → s.clm.hingeFail ≠ 0 → Room s 1 →
    ∃ t, exec (.hingeSwapEnd) s = .next t ∧ ∃ u, t = giveUp (1 - homeLane s) 8 u
    ∧ Does s u [(fCLM_STATUS_HINGE_RUN, 0), (fCLM_HINGE_STAT_RES, 2), (fCLM_EVT_HINGE_DONE, 1),
      (wordAt fCLM_HINGE_NEXT_LO.addr, s.clk.tick + 20000 * s.get fCLM_CFG_HINGE_INT),
      (wordAt (fCLM_HINGE_NEXT_LO.addr + 4), (s.clk.tick + 20000 * s.get fCLM_CFG_HINGE_INT) / 4294967296)]
    [s.evOf 0x2021 (1 - homeLane s) s.clm.hingeFail] [])
  ∧
  -- hingePassed
  (∀ (s : State), s.bit fCLM_STATUS_HINGE_RUN = true → s.clm.hingeFail = 0 → s.clm.hingeAt + 400 ≤ s.clk.tick →
    Room s 1 →
    ∃ t, exec (.hingeSwapEnd) s = .next t ∧ Does s t [(fCLM_STATUS_STATE_A, laneState s 1),
      (fCLM_STATUS_CLAIM_A, claimOf (laneState s 1)),
      (fCLM_STATUS_STATE_B, laneState s 0), (fCLM_STATUS_CLAIM_B, claimOf (laneState s 0)),
      (wordAt fCLM_SWITCH_TICK_LO.addr, s.clk.tick), (wordAt (fCLM_SWITCH_TICK_LO.addr + 4),
        s.clk.tick / 4294967296),
      (fCLM_STATUS_HINGE_RUN, 0), (fCLM_HINGE_STAT_RES, 1), (fCLM_EVT_HINGE_DONE, 1),
      (wordAt fCLM_HINGE_NEXT_LO.addr, s.clk.tick + 20000 * s.get fCLM_CFG_HINGE_INT),
      (wordAt (fCLM_HINGE_NEXT_LO.addr + 4), (s.clk.tick + 20000 * s.get fCLM_CFG_HINGE_INT) / 4294967296)]
    [s.evOf 0x2020 (1 - homeLane s)] [.clm])

/-- After step 8, with nothing forbidding a claim, the manager enables claims when every expected position is JOINED,
and a worker in the tick after its join. Claims enabled with both lanes tested well: step 9 ends, the home lane is
ACTIVE with claim 12, the other STANDBY with claim 8, every claiming frame carries RESUME, both engines run, the
tick of the change and of the next Hinge swap are set, and 0xC104 records the time since power-on in ms. With one
lane tested well that lane is ACTIVE, and the other gives up and recovers. JOIN_WAIT after its first frame the
manager records 0x9106 with the missing positions and enables claims. Before that nothing changes. That a command
whose conditions do not hold changes nothing is the model's reading (log entry 15). Where the spec leaves the choice
open or has to be read by inference, the clauses state the model's, of log entry 80. (R160, R331, R418, R424) -/
def Obligations.ClaimsEnabling : Prop :=
  -- claimsMgr
  (∀ (s : State), claimsReady s = true → s.straps.manager = true → s.ecn.firstAt.isSome = true →
    (expected s).all (isJoined s) = true →
    ∃ t, exec (.claimsEnable) s = .next t ∧ t = enableClaims s)
  ∧
  -- claimsMgrWaits
  (∀ (s : State), s.straps.manager = true → (s.ecn.firstAt = none ∨ (expected s).all (isJoined s) = false) →
    ∃ t, exec (.claimsEnable) s = .next t ∧ t = s)
  ∧
  -- claimsBoth
  (∀ (s : State) (k : Fin 2), homeLane s = k.val → (s.lane 0).passed = true → (s.lane 1).passed = true →
    Room s 1 →
    (let t := enableClaims s
    Does s t ([(fRST_STATUS_STEP, 9), (fRST_STATUS_CLAIMS, 1), (fRST_EVT_CLAIMS, 1), (fRST_EVT_STEP, 1),
      (fRST_T 8, min s.since9V 4294967295),
      (fCLM_STATUS_STATE_A, if k.val = 0 then 0 else 1), (fCLM_STATUS_CLAIM_A, if k.val = 0 then 12 else 8),
        (fLE_STATUS_RUN 0, 1),
      (fCLM_STATUS_STATE_B, if k.val = 0 then 1 else 0), (fCLM_STATUS_CLAIM_B, if k.val = 0 then 8 else 12),
        (fLE_STATUS_RUN 1, 1),
      (wordAt fCLM_HINGE_NEXT_LO.addr, s.clk.tick + 20000 * s.get fCLM_CFG_HINGE_INT),
      (wordAt (fCLM_HINGE_NEXT_LO.addr + 4), (s.clk.tick + 20000 * s.get fCLM_CFG_HINGE_INT) / 4294967296)]
      ++ (if s.get fCLM_STATUS_CLAIM_A = (if k.val = 0 then 12 else 8) ∧
        s.get fCLM_STATUS_CLAIM_B = (if k.val = 0 then 8 else 12) then []
        else [(wordAt fCLM_SWITCH_TICK_LO.addr, s.clk.tick), (wordAt (fCLM_SWITCH_TICK_LO.addr + 4),
        s.clk.tick / 4294967296)]))
    [s.evOf 0xC104 0 0 f16NaN (f16OfNat (s.since9V / 1000))] [.rst, .clm]
    ∧ t.rst = { s.rst with next := 10 } ∧ (t.lane 0).resume = List.range 64 ∧
      (t.lane 1).resume = List.range 64))
  ∧
  -- claimsOneLane
  (∀ (s : State) (k : Fin 2), (s.lane k).passed = true → (s.lane (1 - k.val)).passed = false → homeLane s < 2 →
    s.bit fCLM_STATUS_LIMP = false → s.bit fCLM_STATUS_HINGE_RUN = false →
    (recentGiveUps s (1 - k.val)).length < 2 → Room s 4 →
    (let t := enableClaims s
    laneState t k = 0 ∧ t.get (claimFld k) = 12 ∧ (t.lane k).resume = List.range 64
      ∧ laneState t (1 - k.val) = 2 ∧ t.get (claimFld (1 - k.val)) = 0 ∧ (t.lane (1 - k.val)).step = 1 ∧
        t.rst = { s.rst with next := 10 }
      ∧
        s.evOf 0x2001 (1 - k.val) (if (s.lane (1 - k.val)).bootReason = 0 then 9 else (s.lane (1 - k.val)).bootReason) ∈ t.evr.intake))
  ∧
  -- claimsWorker
  (∀ (s : State), claimsReady s = true → s.straps.manager = false → ecnJoin s = 2 →
    s.ecn.joinedAt + 1 ≤ s.clk.tick → s.ecn.replay = false →
    ∃ t, exec (.claimsEnable) s = .next t ∧ t = enableClaims s)
  ∧
  -- claimsNotReady
  (∀ (s : State), claimsReady s = false →
    exec .claimsEnable s = .next s ∧ exec .joinWaitExpire s = .next s)
  ∧
  -- joinWait
  (∀ (s : State) (t0 : Nat), claimsReady s = true → s.straps.manager = true → s.ecn.firstAt = some t0 →
    t0 + 20 * s.get fECN_CFG_JOIN_WAIT ≤ s.clk.tick →
    ∃ t, exec (.joinWaitExpire) s = .next t ∧ t = enableClaims (if (expected s).all (isJoined s) then s
    else s.ev 0x9106 0 (((expected s).filter fun p => !isJoined s p).foldl (fun m p => m + 2 ^ p) 0)))
  ∧
  -- joinWaits
  (∀ (s : State) (t0 : Nat), s.straps.manager = true → s.ecn.firstAt = some t0 →
    s.clk.tick < t0 + 20 * s.get fECN_CFG_JOIN_WAIT →
    ∃ t, exec (.joinWaitExpire) s = .next t ∧ t = s)

/-- In PROFILE mode a rise to 0.5 or more, or another value of 0.5 or more, is a new request, which keeps the place and
the window of one it replaces; the same value changes nothing; a fall below 0.5 ends the profile with the switch-off
mode of its phase. A command that is not finite or is negative records 0x400D and acts as 0. A single waiting
request within its window whose energy fits is served: BOOST, the channel's count up, the reservation entered,
e_free shown, OUTCOME 1 at its own T, and at a later step 2, the DEFERRED count up and 0x4002 with the wait. One
that does not fit blocks the lower priorities while its window is open. At the end of DEFER_WIN it is refused: off
until its next new command, OUTCOME 3, counted, and 0x4001 with e_free and e_res in mJ; a failed converter or a
missing load supply refuses every request of the bank. BOOST ends at I_PEAK or at T_BOOST, with PEAK next, or HOLD
when T_PEAK is 0, and time to peak recorded when it was reached; PEAK ends T_PEAK later in HOLD, a RECOVER switch-
off with the rail high being counted as DIVERT. A time to peak outside its window is a fault 0x4003 with flags 1 or
2, one not reached within twice TPK_MAX one with flags 3, and one later than that is recorded without a second
fault. The motion kink is recorded inside its window, and its absence is a fault 0x4004 with MOT at all ones. In
every other phase, and before its time, each of these commands changes nothing. That a command whose conditions do
not hold changes nothing is the model's reading (log entry 15). Where the spec leaves the choice open or has to be
read by inference, the clauses state the model's, of log entries 45, 128, 130, 131. (R174, R175, R177, R178, R179,
R180, R181, R182, R183, R184, R189) -/
def Obligations.ValveProfilePhases : Prop :=
  -- profileRise
  (∀ (s : State) (n : Fin 16) (v : F32), (s.vlv n).modeChg = false → (s.vlv n).released = false →
    s.get (fVLV_CH_MODE_MODE n) = 1 → stageCmd s n = some v → vlvBad v = false → f32Le 0x3F000000#32 v = true →
    ((s.vlv n).on = false ∨ v ≠ (s.vlv n).cmd) → vlvLatched s n = false → vlvHot s n = false →
    Does s (vlvTick n s) [(fVLV_CH_STAT_PHASE n, 1)] [] [.dies]
    ∧ (vlvTick n s).vlv n = { s.vlv n with
        cmd := v, on := true, wait := some ((s.vlv n).wait.getD (usAt s 0)), reqAt := usAt s 0, eRes := 0#32,
        chop := (if vlvPhase s n = 2 ∨
          vlvPhase s n = 3 then 1 else if vlvPhase s n = 4 then 2 else if vlvPhase s n = 1 then (s.vlv n).chop else 0),
        motWait := false, peaked := true, late := true, offCmd := false }
    ∧ (∀ k, k ≠ n.val → (vlvTick n s).vlv k = s.vlv k))
  ∧
  -- profileSame
  (∀ (s : State) (n : Fin 16) (v : F32), (s.vlv n).modeChg = false → (s.vlv n).released = false →
    s.get (fVLV_CH_MODE_MODE n) = 1 → stageCmd s n = some v → f32Le 0x3F000000#32 v = true → vlvBad v = false →
    (s.vlv n).on = true → v = (s.vlv n).cmd → vlvLatched s n = false → vlvHot s n = false →
    Does s (vlvTick n s) [] [] [.dies] ∧ (∀ k, (vlvTick n s).vlv k = s.vlv k))
  ∧
  -- profileFall
  (∀ (s : State) (n : Fin 16) (v : F32), (s.vlv n).modeChg = false → (s.vlv n).released = false →
    s.get (fVLV_CH_MODE_MODE n) = 1 → stageCmd s n = some v → vlvBad v = false → f32Le 0x3F000000#32 v = false →
    vlvLatched s n = false → vlvHot s n = false →
    Does s (vlvTick n s) ((if 1 ≤ vlvPhase s n ∧ vlvPhase s n ≤ 4 ∧ offMode s n = 2 ∧
      105 * vBoost s (bankOf n) ≤ s.get (fVLV_BANK_RAIL_V_RAIL (bankOf n)) then
      [(fVLV_BANK_CNT_DIVERT (bankOf n), s.up (fVLV_BANK_CNT_DIVERT (bankOf n)))]
        else []) ++ [(fVLV_CH_STAT_PHASE n, 0)]) [] [.dies]
    ∧ (vlvTick n s).vlv n = { s.vlv n with
        cmd := v, on := false, wait := none, chop := 0, eRes := 0#32, motWait := false, peaked := true,
          late := true, lowTicks := 0, offCmd := false }
    ∧ (∀ k, k ≠ n.val → (vlvTick n s).vlv k = s.vlv k))
  ∧
  -- valveBadCommand
  (∀ (s : State) (n : Fin 16) (v : F32), (s.vlv n).modeChg = false → (s.vlv n).released = false →
    s.get (fVLV_CH_MODE_MODE n) = 1 → stageCmd s n = some v → vlvBad v = true → v ≠ (s.vlv n).cmd →
    vlvPhase s n = 0 → vlvLatched s n = false → vlvHot s n = false → Room s 1 →
    Does s (vlvTick n s) [(fVLV_CH_STAT_FAULT n, 13)] [s.evOf 0x400D n] [.dies]
    ∧ ((vlvTick n s).vlv n).cmd = v ∧ ((vlvTick n s).vlv n).on = false ∧ ((vlvTick n s).vlv n).wait = none
    ∧ (∀ k, k ≠ n.val → (vlvTick n s).vlv k = s.vlv k))
  ∧
  -- boostServed
  (∀ (s : State) (bank : Fin 4) (n : Nat) (us : Fin 50) (flow : RailIn) (drawn : List F32), n / 4 = bank →
    bankRefuses s bank = false → ((∀ i : Fin 4,
    (s.vlv (4 * bank + i)).wait.isSome = decide (4 * bank + i = n))) → boostWaited s n us ≤ deferUs s n →
    f32Le (eResNow s n) (eFree s bank (railVolt (railAt s bank us flow)) drawn) = true → Room s 1 →
    ∃ t, exec (.boostDecision bank us flow drawn) s = .next t ∧ Does s t ([(fVLV_BANK_RAIL_V_RAIL bank,
      railVolt (railAt s bank us flow)),
        (bitFld fVLV_STATUS_READY bank, if railReady s bank (railVolt (railAt s bank us flow)) then 1 else 0),
        (fVLV_CH_STAT_PHASE n, 2), (fVLV_CH_CNT n, s.up (fVLV_CH_CNT n)), (fVLV_CH_TPK_WAIT n,
          min 65535 (boostWaited s n us)),
        (fVLV_BANK_RAIL_E_FREE bank,
          min 65535 (max 0 (f32Floor (f32Mul (eFree t bank (railVolt (railAt s bank us flow)) (drawn.set (n % 4) 0#32))
          (f32OfNat 100000)))).toNat)]
      ++ (if usAt s us = (s.vlv n).reqAt then [(fVLV_CH_STAT_OUTCOME n, 1)]
        else [(fVLV_CH_STAT_OUTCOME n, 2), (fVLV_BANK_CNT_DEFERRED bank, s.up (fVLV_BANK_CNT_DEFERRED bank))]))
    (if usAt s us = (s.vlv n).reqAt then []
      else [s.evOf 0x4002 n 0 f16NaN (f16OfNat (boostWaited s n us))]) [.dies]
    ∧ t.vlv n = { s.vlv n with
        wait := none, chop := 0, eRes := eResNow s n, prof := profNow s n, boostAt := usAt s us,
        boostEnd := 0, peaked := false, late := false, motWait := s.bit (fVLV_CH_MODE_MOT_EN n) }
    ∧ (∀ k, k ≠ n → t.vlv k = s.vlv k))
  ∧
  -- boostBlocked
  (∀ (s : State) (bank : Fin 4) (n : Nat) (us : Fin 50) (flow : RailIn) (drawn : List F32), n / 4 = bank →
    bankRefuses s bank = false → (s.vlv n).wait.isSome = true → ((∀ i : Fin 4, 4 * bank + i ≠ n →
    (s.vlv (4 * bank + i)).wait.isSome = true →
    s.get (fVLV_CH_MODE_PRIO (4 * bank + i)) < s.get (fVLV_CH_MODE_PRIO n))) →
    boostWaited s n us < deferUs s n →
    f32Le (eResNow s n) (eFree s bank (railVolt (railAt s bank us flow)) drawn) = false →
    ∃ t, exec (.boostDecision bank us flow drawn) s = .next t ∧ Does s t [(fVLV_BANK_RAIL_V_RAIL bank,
      railVolt (railAt s bank us flow)),
      (bitFld fVLV_STATUS_READY bank, if railReady s bank (railVolt (railAt s bank us flow)) then 1 else 0),
      (fVLV_BANK_RAIL_E_FREE bank,
        min 65535 (max 0 (f32Floor (f32Mul (eFree s bank (railVolt (railAt s bank us flow)) drawn)
        (f32OfNat 100000)))).toNat)] [] [])
  ∧
  -- boostBankRefused
  (∀ (s : State) (bank : Fin 4) (us : Fin 50) (flow : RailIn) (drawn : List F32), bankRefuses s bank = true →
    ∃ t, exec (.boostDecision bank us flow drawn) s = .next t ∧ (∀ i : Fin 4,
      (s.vlv (4 * bank + i)).wait.isSome = true → vlvPhase t (4 * bank + i) = 0
        ∧ t.get (fVLV_CH_STAT_OUTCOME (4 * bank + i)) = 3 ∧ (t.vlv (4 * bank + i)).wait = none ∧
          (t.vlv (4 * bank + i)).offCmd = true)
    ∧ (∀ k : Fin 16, (k.val / 4 ≠ bank.val ∨ (s.vlv k).wait.isSome = false) → t.vlv k = s.vlv k ∧
      vlvPhase t k = vlvPhase s k)
    ∧ t.get (fVLV_BANK_CNT_REFUSED bank) = min 0xFFF (s.get (fVLV_BANK_CNT_REFUSED bank)
        + ((List.range 4).filter fun i => (s.vlv (4 * bank + i)).wait.isSome).length)
    ∧ SameMem s t)
  ∧
  -- boostRefused
  (∀ (s : State) (n : Fin 16) (us : Fin 50) (flow : RailIn) (drawn : List F32), (s.vlv n).wait.isSome = true →
    deferUs s n ≤ boostWaited s n us → Room s 1 →
    ∃ t, exec (.boostRequestRefused n us flow drawn) s = .next t ∧ Does s t ([(fVLV_CH_TPK_WAIT n,
      min 65535 (boostWaited s n us))]
      ++ (if 1 ≤ (s.vlv n).chop ∧ offMode s n = 2 ∧
        105 * vBoost s (bankOf n) ≤ s.get (fVLV_BANK_RAIL_V_RAIL (bankOf n)) then
        [(fVLV_BANK_CNT_DIVERT (bankOf n), s.up (fVLV_BANK_CNT_DIVERT (bankOf n)))] else [])
      ++ [(fVLV_CH_STAT_PHASE n, 0), (fVLV_CH_STAT_FAULT n, 1), (fVLV_CH_STAT_OUTCOME n, 3),
        (fVLV_BANK_CNT_REFUSED (bankOf n), s.up (fVLV_BANK_CNT_REFUSED (bankOf n))), (fVLV_EVT_REFUSED, 1)])
    [s.evOf 0x4001 n 0 (f16OfF32 (f32Mul (eFree s (bankOf n) (railVolt (railAt s (bankOf n) us flow)) drawn) (f32OfNat 1000)))
      (f16OfF32 (f32Mul (eResNow s n) (f32OfNat 1000)))] [.dies]
    ∧
      t.vlv n = { s.vlv n with wait := none, chop := 0, eRes := 0#32, motWait := false, peaked := true, late := true, lowTicks := 0, offCmd := true }
    ∧ (∀ k, k ≠ n.val → t.vlv k = s.vlv k))
  ∧
  -- boostStillWaits
  (∀ (s : State) (n : Fin 16) (us : Fin 50) (flow : RailIn) (drawn : List F32), ((s.vlv n).wait = none ∨
    boostWaited s n us < deferUs s n) →
    ∃ t, exec (.boostRequestRefused n us flow drawn) s = .next t ∧ t = s)
  ∧
  -- boostEndPeak
  (∀ (s : State) (n : Fin 16) (us : Fin 50) (flow : RailIn), vlvPhase s n = 2 → ((s.vlv n).late = true ∨
    (pTpkMin (s.vlv n) ≤ usAt s us - (s.vlv n).boostAt ∧ usAt s us - (s.vlv n).boostAt ≤ pTpkMax (s.vlv n))) →
    ∃ t, exec (.boostEnd n us true flow) s = .next t ∧ Does s t ((if pTPeak (s.vlv n) = 0 ∧
      pOffPeak (s.vlv n) = 2 ∧ 105 * vBoost s (bankOf n) ≤ railVolt (railAt s (bankOf n) us flow) then
        [(fVLV_BANK_CNT_DIVERT (bankOf n), s.up (fVLV_BANK_CNT_DIVERT (bankOf n)))] else [])
      ++ [(fVLV_CH_STAT_PHASE n, if pTPeak (s.vlv n) = 0 then 4 else 3), (fVLV_CH_TPK_TPK n,
        min (usAt s us - (s.vlv n).boostAt) 65535)]) [] [.dies]
    ∧ t.vlv n = { s.vlv n with eRes := 0#32, boostEnd := usAt s us, peaked := true } ∧ (∀ k, k ≠ n.val →
      t.vlv k = s.vlv k))
  ∧
  -- boostEndOut
  (∀ (s : State) (n : Fin 16) (us : Fin 50) (flow : RailIn), vlvPhase s n = 2 → (s.vlv n).late = false →
    (usAt s us - (s.vlv n).boostAt < pTpkMin (s.vlv n) ∨ pTpkMax (s.vlv n) < usAt s us - (s.vlv n).boostAt) →
    Room s 1 →
    ∃ t, exec (.boostEnd n us true flow) s = .next t ∧ ∃ u, t = vlvFault n 0x4003 u
    ∧ Does s u ((if pTPeak (s.vlv n) = 0 ∧ pOffPeak (s.vlv n) = 2 ∧
      105 * vBoost s (bankOf n) ≤ railVolt (railAt s (bankOf n) us flow) then
        [(fVLV_BANK_CNT_DIVERT (bankOf n), s.up (fVLV_BANK_CNT_DIVERT (bankOf n)))] else [])
      ++ [(fVLV_CH_STAT_PHASE n, if pTPeak (s.vlv n) = 0 then 4 else 3), (fVLV_CH_TPK_TPK n,
        min (usAt s us - (s.vlv n).boostAt) 65535), (fVLV_EVT_TPK, 1)])
      [s.evOf 0x4003 n (if usAt s us - (s.vlv n).boostAt < pTpkMin (s.vlv n) then 1 else 2) f16NaN (f16OfNat (usAt s us - (s.vlv n).boostAt))]
        [.dies]
    ∧ u.vlv n = { s.vlv n with eRes := 0#32, boostEnd := usAt s us, peaked := true } ∧ (∀ k, k ≠ n.val →
      u.vlv k = s.vlv k))
  ∧
  -- boostEndTime
  (∀ (s : State) (n : Fin 16) (us : Fin 50) (flow : RailIn), vlvPhase s n = 2 →
    pTBoost (s.vlv n) ≤ usAt s us - (s.vlv n).boostAt →
    ∃ t, exec (.boostEnd n us false flow) s = .next t ∧ Does s t ((if pTPeak (s.vlv n) = 0 ∧
      pOffPeak (s.vlv n) = 2 ∧ 105 * vBoost s (bankOf n) ≤ railVolt (railAt s (bankOf n) us flow) then
        [(fVLV_BANK_CNT_DIVERT (bankOf n), s.up (fVLV_BANK_CNT_DIVERT (bankOf n)))] else [])
      ++ [(fVLV_CH_STAT_PHASE n, if pTPeak (s.vlv n) = 0 then 4 else 3)]) [] [.dies]
    ∧ t.vlv n = { s.vlv n with eRes := 0#32, boostEnd := usAt s us } ∧ (∀ k, k ≠ n.val → t.vlv k = s.vlv k))
  ∧
  -- boostEndNotYet
  (∀ (s : State) (n : Fin 16) (us : Fin 50) (r : Bool) (flow : RailIn), (vlvPhase s n ≠ 2 ∨ (r = false ∧
    usAt s us - (s.vlv n).boostAt < pTBoost (s.vlv n))) →
    ∃ t, exec (.boostEnd n us r flow) s = .next t ∧ t = s)
  ∧
  -- peakEnd
  (∀ (s : State) (n : Fin 16) (us : Fin 50) (flow : RailIn),
    ∃ t, exec (.peakEnd n us flow) s = .next t ∧ if vlvPhase s n = 3 ∧
      (s.vlv n).boostEnd + pTPeak (s.vlv n) ≤ usAt s us then
      Does s t ((if pOffPeak (s.vlv n) = 2 ∧
        105 * vBoost s (bankOf n) ≤ railVolt (railAt s (bankOf n) us flow) then
        [(fVLV_BANK_CNT_DIVERT (bankOf n), s.up (fVLV_BANK_CNT_DIVERT (bankOf n)))]
          else []) ++ [(fVLV_CH_STAT_PHASE n, 4)]) [] []
    else t = s)
  ∧
  -- peakLate
  (∀ (s : State) (n : Fin 16) (us : Fin 50), vlvPhase s n = 3 → (s.vlv n).peaked = false →
    ((s.vlv n).late = true ∨ (pTpkMin (s.vlv n) ≤ usAt s us - (s.vlv n).boostAt ∧
    usAt s us - (s.vlv n).boostAt ≤ pTpkMax (s.vlv n))) →
    ∃ t, exec (.peakReachedLate n us) s = .next t ∧ Does s t [(fVLV_CH_TPK_TPK n,
      min (usAt s us - (s.vlv n).boostAt) 65535)] [] [.dies]
    ∧ t.vlv n = { s.vlv n with peaked := true } ∧ (∀ k, k ≠ n.val → t.vlv k = s.vlv k))
  ∧
  -- peakLateOut
  (∀ (s : State) (n : Fin 16) (us : Fin 50), vlvPhase s n = 3 → (s.vlv n).peaked = false →
    (s.vlv n).late = false → (usAt s us - (s.vlv n).boostAt < pTpkMin (s.vlv n) ∨
    pTpkMax (s.vlv n) < usAt s us - (s.vlv n).boostAt) → Room s 1 →
    ∃ t, exec (.peakReachedLate n us) s = .next t ∧ ∃ u, t = vlvFault n 0x4003 u
    ∧ Does s u [(fVLV_CH_TPK_TPK n, min (usAt s us - (s.vlv n).boostAt) 65535), (fVLV_EVT_TPK, 1)]
      [s.evOf 0x4003 n (if usAt s us - (s.vlv n).boostAt < pTpkMin (s.vlv n) then 1 else 2) f16NaN (f16OfNat (usAt s us - (s.vlv n).boostAt))]
        [.dies]
    ∧ u.vlv n = { s.vlv n with peaked := true } ∧ (∀ k, k ≠ n.val → u.vlv k = s.vlv k))
  ∧
  -- peakMissing
  (∀ (s : State) (n : Fin 16) (us : Fin 50), 2 ≤ vlvPhase s n → vlvPhase s n ≤ 4 → (s.vlv n).peaked = false →
    (s.vlv n).late = false → (s.vlv n).boostAt + 2 * pTpkMax (s.vlv n) ≤ usAt s us → Room s 1 →
    ∃ t, exec (.peakNotReached n us) s = .next t ∧ ∃ u, t = vlvFault n 0x4003 u ∧ Does s u [(fVLV_EVT_TPK, 1)]
      [s.evOf 0x4003 n 3] [.dies]
    ∧ u.vlv n = { s.vlv n with late := true } ∧ (∀ k, k ≠ n.val → u.vlv k = s.vlv k))
  ∧
  -- peakNothing
  (∀ (s : State) (n : Fin 16) (us : Fin 50), (vlvPhase s n < 2 ∨ 4 < vlvPhase s n ∨ (s.vlv n).peaked = true ∨
    (s.vlv n).late = true ∨ usAt s us < (s.vlv n).boostAt + 2 * pTpkMax (s.vlv n)) →
    ∃ t, exec (.peakNotReached n us) s = .next t ∧ t = s)
  ∧
  -- peakLateNothing
  (∀ (s : State) (n : Fin 16) (us : Fin 50), (vlvPhase s n ≠ 3 ∨ (s.vlv n).peaked = true) →
    ∃ t, exec (.peakReachedLate n us) s = .next t ∧ t = s)
  ∧
  -- motKink
  (∀ (s : State) (n : Fin 16) (k : Nat), vlvPhase s n = 4 → (s.vlv n).motWait = true → pMotMin (s.vlv n) ≤ k →
    k ≤ pMotMax (s.vlv n) →
    ∃ t, exec (.motionKink n k) s = .next t ∧ Does s t [(fVLV_CH_MOT n, min k 65535)] [] [.dies] ∧
      t.vlv n = { s.vlv n with motWait := false } ∧ (∀ k, k ≠ n.val → t.vlv k = s.vlv k))
  ∧
  -- motNoKink
  (∀ (s : State) (n : Fin 16) (k : Nat), (vlvPhase s n ≠ 4 ∨ (s.vlv n).motWait = false ∨ k < pMotMin (s.vlv n) ∨
    pMotMax (s.vlv n) < k) →
    ∃ t, exec (.motionKink n k) s = .next t ∧ t = s)
  ∧
  -- motTimeout
  (∀ (s : State) (n : Fin 16) (us : Fin 50), 2 ≤ vlvPhase s n → vlvPhase s n ≤ 4 → (s.vlv n).motWait = true →
    (s.vlv n).boostAt + pMotMax (s.vlv n) ≤ usAt s us → Room s 1 →
    ∃ t, exec (.motionTimeout n us) s = .next t ∧ ∃ u, t = vlvFault n 0x4004 u ∧ Does s u [(fVLV_CH_MOT n,
      0xFFFF)] [s.evOf 0x4004 n] [.dies]
    ∧ u.vlv n = { s.vlv n with motWait := false } ∧ (∀ k, k ≠ n.val → u.vlv k = s.vlv k))
  ∧
  -- motNothing
  (∀ (s : State) (n : Fin 16) (us : Fin 50), (vlvPhase s n < 2 ∨ 4 < vlvPhase s n ∨ (s.vlv n).motWait = false ∨
    usAt s us < (s.vlv n).boostAt + pMotMax (s.vlv n)) →
    ∃ t, exec (.motionTimeout n us) s = .next t ∧ t = s)

/-- A fault event of a channel is entered in its window and shows its code, class and FAULT event bit; with fewer events
in the window than KCNT the channel goes on, otherwise it is latched: phase 6, LATCHED, EVT.LASTING and 0x400B with
the count. KCNT and W are those of the running profile, otherwise those in force. Open load (a current below 0.3 A
at the end of BOOST with I_PEAK of 1 A or more, or above 20 kΩ in the off-state test) and a switch current above 15
A record 0x4005 and 0x4006, take the channel off until its next new command (a LATCHED channel stays LATCHED), and
are fault events. A holding current below 0.9 × I_HOLD for 20 ticks and a proportional current out of tolerance for
400 ticks record 0x4007 and 0x400C and are fault events; the counts of those ticks then begin again. A rail below
half of V_BOOST for 200 ticks with no reservation records 0x4009 and its bank's requests are refused until the rail
has been ready for 200 ticks; a hot junction sets HOT, records 0x400A and takes the bank's channels off, and a cool
one clears HOT. VLV_CLR releases latched channels, and a write by the OEM partition changes nothing. Where its
condition does not hold, each of these commands changes nothing. That a code of 0x400A shows in STAT.FAULT is the
model's reading (log entry 128). That a command whose conditions do not hold changes nothing is the model's reading
(log entry 15). Where the spec leaves the choice open or has to be read by inference, the clauses state the model's,
of log entries 46, 47, 48, 128, 129. (R127, R185, R187, R188, R189) -/
def Obligations.ValveFaults : Prop :=
  -- vlvFaultPass
  (∀ (s : State) (n : Fin 16) (code : Nat),
    (windowAdd s (s.vlv n).faults (vlvKcnt s n) (vlvW s n)).2.2 = false →
    Does s (vlvFault n code s) [(fVLV_CH_STAT_FAULT n, code % 16), (fVLV_CH_STAT_CLASS n, 0), (fVLV_EVT_FAULT,
      1)] [] [.dies]
    ∧
      (vlvFault n code s).vlv n = { s.vlv n with faults := (windowAdd s (s.vlv n).faults (vlvKcnt s n) (vlvW s n)).1 }
    ∧ (∀ k, k ≠ n.val → (vlvFault n code s).vlv k = s.vlv k))
  ∧
  -- vlvFaultLast
  (∀ (s : State) (n : Fin 16) (code : Nat), (windowAdd s (s.vlv n).faults (vlvKcnt s n) (vlvW s n)).2.2 = true →
    s.get fUPD_STATUS_STATE ≠ 5 → Room s 1 →
    Does s (vlvFault n code s) [(fVLV_CH_STAT_FAULT n, code % 16), (fVLV_CH_STAT_CLASS n, 1), (fVLV_EVT_FAULT,
      1),
      (fVLV_CH_STAT_PHASE n, 6), (bitFld fVLV_STATUS_LATCHED n, 1), (fVLV_EVT_LASTING, 1)]
    [s.evOf 0x400B n 0 f16NaN (f16OfNat (windowAdd s (s.vlv n).faults (vlvKcnt s n) (vlvW s n)).2.1)] [.dies]
    ∧ ((vlvFault n code s).vlv n).wait = none ∧ ((vlvFault n code s).vlv n).eRes = 0#32
    ∧ (∀ k, k ≠ n.val → (vlvFault n code s).vlv k = s.vlv k))
  ∧
  -- vlvOpen
  (∀ (s : State) (n : Fin 16) (test : Bool) (meas : F32), ((test = false ∧ (vlvPhase s n = 2 ∨
    vlvPhase s n = 3) ∧ 20 ≤ pIPeak (s.vlv n) ∧ f32Lt meas (f32OfRatio false 3 10) = true)
    ∨ (test = true ∧ s.bit (fVLV_CH_MODE_OL_TEST n) = true ∧ (vlvPhase s n = 0 ∨ vlvPhase s n = 7) ∧
      f32Lt (f32OfNat 20) meas = true)) → vlvLatched s n = false → Room s 1 →
    ∃ t, exec (.vlvOpenLoad n test meas) s = .next t ∧ ∃ u, t = vlvFault n 0x4005 u ∧
      Does s u [(fVLV_CH_STAT_PHASE n, 7)] [s.evOf 0x4005 n (if test then 2 else 1)] [.dies]
    ∧ (u.vlv n).offCmd = true ∧ (u.vlv n).wait = none ∧ (u.vlv n).faults = (s.vlv n).faults ∧ (∀ k, k ≠ n.val →
      u.vlv k = s.vlv k))
  ∧
  -- vlvNotOpen
  (∀ (s : State) (n : Fin 16) (test : Bool) (meas : F32), ((test = false ∧ (¬(vlvPhase s n = 2 ∨
    vlvPhase s n = 3) ∨ pIPeak (s.vlv n) < 20 ∨ f32Lt meas (f32OfRatio false 3 10) = false))
    ∨ (test = true ∧ (s.bit (fVLV_CH_MODE_OL_TEST n) = false ∨ ¬(vlvPhase s n = 0 ∨ vlvPhase s n = 7) ∨
      f32Lt (f32OfNat 20) meas = false))) →
    ∃ t, exec (.vlvOpenLoad n test meas) s = .next t ∧ t = s)
  ∧
  -- vlvOc
  (∀ (s : State) (n : Fin 16) (i : F32), f32Lt (f32OfNat 15) i = true → Room s 1 →
    ∃ t, exec (.vlvOvercurrent n i) s = .next t ∧ ∃ u, t = vlvFault n 0x4006 u ∧
      Does s u [(fVLV_CH_STAT_PHASE n, if vlvLatched s n then 6 else 7)] [s.evOf 0x4006 n 0 f16NaN (f16OfF32 i)]
      [.dies]
    ∧ (u.vlv n).offCmd = true ∧ (u.vlv n).wait = none ∧ (u.vlv n).faults = (s.vlv n).faults ∧ (∀ k, k ≠ n.val →
      u.vlv k = s.vlv k))
  ∧
  -- vlvNoOc
  (∀ (s : State) (n : Fin 16) (i : F32), f32Lt (f32OfNat 15) i = false →
    ∃ t, exec (.vlvOvercurrent n i) s = .next t ∧ t = s)
  ∧
  -- holdLow
  (∀ (s : State) (n : Fin 16) (i : F32), vlvPhase s n = 4 → 20 ≤ (s.vlv n).lowTicks → Room s 1 →
    ∃ t, exec (.holdCurrentLow n i) s = .next t ∧ ∃ u, t = vlvFault n 0x4007 u ∧ Does s u []
      [s.evOf 0x4007 n 0 (f16OfF32 i) f16NaN] [.dies]
    ∧ u.vlv n = { s.vlv n with lowTicks := 0 } ∧ (∀ k, k ≠ n.val → u.vlv k = s.vlv k))
  ∧
  -- holdNotLow
  (∀ (s : State) (n : Fin 16) (i : F32), (vlvPhase s n ≠ 4 ∨ (s.vlv n).lowTicks < 20) →
    ∃ t, exec (.holdCurrentLow n i) s = .next t ∧ t = s)
  ∧
  -- propFault
  (∀ (s : State) (n : Fin 16), vlvPhase s n = 5 → 400 ≤ (s.vlv n).outTicks → Room s 1 →
    ∃ t, exec (.propCurrentFault n) s = .next t ∧ ∃ u, t = vlvFault n 0x400C u
    ∧ Does s u []
      [s.evOf 0x400C n 0 (f16OfRatio false (s.get (fVLV_CH_I_I_MEAS n)) 1000) (f16OfRatio false (s.get (fVLV_CH_I_I_MEAS n)) 1000)]
      [.dies]
    ∧ u.vlv n = { s.vlv n with outTicks := 0 } ∧ (∀ k, k ≠ n.val → u.vlv k = s.vlv k))
  ∧
  -- propNoFault
  (∀ (s : State) (n : Fin 16), (vlvPhase s n ≠ 5 ∨ (s.vlv n).outTicks < 400) →
    ∃ t, exec (.propCurrentFault n) s = .next t ∧ t = s)
  ∧
  -- boostFail
  (∀ (s : State) (bank : Fin 4), s.dies.failed.contains bank.val = false → 200 ≤ (s.rail bank).low →
    ((∀ i : Fin 4, (s.vlv (4 * bank + i)).wait = none)) → Room s 1 →
    ∃ t, exec (.boostConverterFailure bank) s = .next t ∧ Does s t []
      [s.evOf 0x4009 bank 0 (f16OfRatio false (s.get (fVLV_BANK_RAIL_V_RAIL bank)) 100) f16NaN] [.dies]
    ∧ t.dies = { s.dies with failed := bank.val :: s.dies.failed })
  ∧
  -- boostFailWaiting
  (∀ (s : State) (bank : Fin 4), s.dies.failed.contains bank.val = false → 200 ≤ (s.rail bank).low →
    ∃ t, exec (.boostConverterFailure bank) s = .next t ∧ bankRefuses t bank = true ∧ SameMem s t ∧
      PartsBut s t [.dies]
    ∧ (∀ i : Fin 4, (s.vlv (4 * bank + i)).wait.isSome = true → vlvPhase t (4 * bank + i) = 0
        ∧ t.get (fVLV_CH_STAT_OUTCOME (4 * bank + i)) = 3 ∧ (t.vlv (4 * bank + i)).wait = none ∧
          (t.vlv (4 * bank + i)).offCmd = true)
    ∧ (∀ k : Fin 16, (k.val / 4 ≠ bank.val ∨ (s.vlv k).wait.isSome = false) → t.vlv k = s.vlv k ∧
      vlvPhase t k = vlvPhase s k))
  ∧
  -- boostNoFail
  (∀ (s : State) (bank : Fin 4), (s.dies.failed.contains bank.val = true ∨ (s.rail bank).low < 200) →
    ∃ t, exec (.boostConverterFailure bank) s = .next t ∧ t = s)
  ∧
  -- boostClear
  (∀ (s : State) (bank : Fin 4),
    ∃ t, exec (.boostFailureCleared bank) s = .next t ∧
      t = if 200 ≤ (s.rail bank).ready then { s with dies := { s.dies with failed := s.dies.failed.filter fun b => b != bank.val } } else s)
  ∧
  -- vlvHot
  (∀ (s : State) (n : Fin 16) (j : F32), f32Lt (f32OfNat 175) j = true → vlvHot s n = false → Room s 1 →
    ∃ t, exec (.vlvDieOvertemp n j) s = .next t ∧ Does s t ((bitFld fVLV_STATUS_HOT (bankOf n),
      1) :: (List.range 4).flatMap fun i =>
        [(fVLV_CH_STAT_PHASE (4 * bankOf n + i), if vlvLatched s (4 * bankOf n + i) then 6 else 7),
          (fVLV_CH_STAT_FAULT (4 * bankOf n + i), 10)])
      [s.evOf 0x400A n 0 f16NaN (f16OfF32 j)] [.dies]
    ∧ (∀ i : Fin 4, (t.vlv (4 * bankOf n + i)).offCmd = true ∧ (t.vlv (4 * bankOf n + i)).wait = none)
    ∧ (∀ k, k / 4 ≠ bankOf n → t.vlv k = s.vlv k))
  ∧
  -- vlvNotHot
  (∀ (s : State) (n : Fin 16) (j : F32), (f32Lt (f32OfNat 175) j = false ∨ vlvHot s n = true) →
    ∃ t, exec (.vlvDieOvertemp n j) s = .next t ∧ t = s)
  ∧
  -- vlvCool
  (∀ (s : State) (bank : Fin 4) (j : F32),
    ∃ t, exec (.vlvDieCooled bank j) s = .next t ∧
      if f32Lt j (f32OfNat 150) then Does s t [(bitFld fVLV_STATUS_HOT bank, 0)] [] [] else t = s)
  ∧
  -- vlvClr
  (∀ (s : State) (req : Req) (bits : Word), reqIsOem req = false →
    ∃ t, exec (.vlvClr req bits) s = .next t ∧ (∀ n : Fin 16, bits.getLsbD n = true → vlvLatched s n = true →
      vlvLatched t n = false ∧ vlvPhase t n = 0 ∧
        t.vlv n = { s.vlv n with faults := [], on := false, offCmd := false, released := false })
    ∧ (∀ n : Fin 16, (bits.getLsbD n = false ∨ vlvLatched s n = false) →
      vlvLatched t n = vlvLatched s n ∧ vlvPhase t n = vlvPhase s n ∧ t.vlv n = s.vlv n)
    ∧ SameMem s t ∧ Records s t [] ∧ PartsBut s t [.dies])
  ∧
  -- vlvClrOem
  (∀ (s : State) (req : Req) (bits : Word), reqIsOem req = true →
    ∃ t, exec (.vlvClr req bits) s = .next t ∧ t = s)

/-- A new arbiter shows in PSW_ARB and is recorded as 0x500E with the quad that acted last and the new one (8 for none),
and nothing changes while the same quad acts. At T the budget limit follows the case temperature (while SIG[161] is
not VALID it keeps its last value, log entry 10), with the reserved sum and the number of waiting requests shown; a
lone waiting request of a live die, within its window, whose nominal current fits is served: state 2, its count up,
its current reserved, its inrush window open if the T is a period start, and OUTCOME 1 at its own T, otherwise
OUTCOME 2, counted and 0x5002 with the wait. One that does not fit waits while its window is open and blocks the
lower priorities. With no arbiter that acts, and in the T in which it changed, nothing is decided. A request not
served within DEFER_WIN is refused: off, OUTCOME 3, counted, and 0x5001 with the free budget and the nominal
current. INR_WIN after the window opened the state is 3, and not before. That a command whose conditions do not hold
changes nothing is the model's reading (log entry 15). Where the spec leaves the choice open or has to be read by
inference, the clauses state the model's, of log entries 10, 45, 46, 50, 154. (R194, R195, R196, R197, R206, R207) -/
def Obligations.SwitchBudget : Prop :=
  -- arbNew
  (∀ (s : State), arbQuad s ≠ arbNow s → arbQuad s < 8 → Room s 1 →
    ∃ t, exec (.arbiterChange) s = .next t ∧ Does s t [(fPSW_ARB_QUAD, arbQuad s), (fPSW_ARB_VALID, 1)]
      [s.evOf 0x500E (s.get fPSW_ARB_QUAD) (arbQuad s)] [.dies]
    ∧ t.dies = { s.dies with arbAt := some s.clk.tick })
  ∧
  -- arbLost
  (∀ (s : State), arbQuad s = 8 → arbNow s ≠ 8 → Room s 1 →
    ∃ t, exec (.arbiterChange) s = .next t ∧ Does s t [(fPSW_ARB_VALID, 0)]
      [s.evOf 0x500E (s.get fPSW_ARB_QUAD) 8] [.dies] ∧ t.dies = { s.dies with arbAt := some s.clk.tick })
  ∧
  -- arbSame
  (∀ (s : State), arbQuad s = arbNow s →
    ∃ t, exec (.arbiterChange) s = .next t ∧ t = s)
  ∧
  -- budgetServe
  (∀ (s : State) (n : Fin 32) (t0 : Nat), arbNow s < 8 → arbMay s (arbNow s) = true →
    s.dies.arbAt ≠ some s.clk.tick → ((∀ k : Fin 32, (s.psw k).wait = if k = n then some t0 else none)) →
    dieLive s (4 + n.val / 4) = true → (s.psw n).resv = false →
    s.clk.tick ≤ t0 + 20 * s.get (fPSW_CH_IND_DEFER_WIN n) →
    reservedSum s + iNom s n ≤ 10 * (if (s.sig (topLane s) 161).valid && f32IsFinite (s.sig (topLane s) 161).val then budgetLimit (s.sig (topLane s) 161).val else s.get fPSW_BUDGET_LIMIT) →
    Room s 1 →
    ∃ t, exec (.budgetDecision) s = .next t ∧ Does s t ([(fPSW_BUDGET_LIMIT,
      (if (s.sig (topLane s) 161).valid && f32IsFinite (s.sig (topLane s) 161).val then budgetLimit (s.sig (topLane s) 161).val else s.get fPSW_BUDGET_LIMIT)),
        (fPSW_CH_STAT_STATE n, 2), (fPSW_CH_CNT n, s.up (fPSW_CH_CNT n))]
      ++ (if t0 = s.clk.tick then [(fPSW_CH_STAT_OUTCOME n, 1)]
        else [(fPSW_CH_STAT_OUTCOME n, 2), (fPSW_BUDGET_CNT_DEFERRED, s.up fPSW_BUDGET_CNT_DEFERRED)])
      ++ [(fPSW_BUDGET_RESV, min 65535 (reservedSum s + iNom s n)), (fPSW_BUDGET_WAITING, 0)])
    (if t0 = s.clk.tick then [] else [s.evOf 0x5002 n 0 f16NaN (f16OfRatio false (s.clk.tick - t0) 20)]) [.dies]
    ∧ t.psw n = { s.psw n with
        wait := none, resv := true, ovr := 0, lowTicks := 0,
          inrAt := if periodStart s n then some s.clk.tick else none }
    ∧ (∀ k, k ≠ n.val → t.psw k = s.psw k))
  ∧
  -- budgetWaits
  (∀ (s : State) (n : Fin 32) (t0 : Nat), arbNow s < 8 → arbMay s (arbNow s) = true →
    s.dies.arbAt ≠ some s.clk.tick → (s.psw n).wait = some t0 → ((∀ k : Fin 32, k ≠ n →
    (s.psw k).wait.isSome = true → s.get (fPSW_CH_CFG_PRIO k) < s.get (fPSW_CH_CFG_PRIO n))) →
    dieLive s (4 + n.val / 4) = true → s.clk.tick < t0 + 20 * s.get (fPSW_CH_IND_DEFER_WIN n) →
    10 * (if (s.sig (topLane s) 161).valid && f32IsFinite (s.sig (topLane s) 161).val then budgetLimit (s.sig (topLane s) 161).val else s.get fPSW_BUDGET_LIMIT) < reservedSum s + iNom s n →

    ∃ t, exec (.budgetDecision) s = .next t ∧ Does s t [(fPSW_BUDGET_LIMIT,
      (if (s.sig (topLane s) 161).valid && f32IsFinite (s.sig (topLane s) 161).val then budgetLimit (s.sig (topLane s) 161).val else s.get fPSW_BUDGET_LIMIT)),
      (fPSW_BUDGET_RESV, min 65535 (reservedSum s)), (fPSW_BUDGET_WAITING, waitingCount s)] [] [])
  ∧
  -- budgetIdle
  (∀ (s : State), (arbNow s = 8 ∨ arbMay s (arbNow s) = false ∨ s.dies.arbAt = some s.clk.tick ∨ (∀ k : Fin 32,
    (s.psw k).wait = none)) →
    ∃ t, exec (.budgetDecision) s = .next t ∧ Does s t [(fPSW_BUDGET_LIMIT,
      (if (s.sig (topLane s) 161).valid && f32IsFinite (s.sig (topLane s) 161).val then budgetLimit (s.sig (topLane s) 161).val else s.get fPSW_BUDGET_LIMIT)),
      (fPSW_BUDGET_RESV, min 65535 (reservedSum s)), (fPSW_BUDGET_WAITING, waitingCount s)] [] [])
  ∧
  -- budgetLimits
  (∀ (s : State) (tc : F32),
    (f32Le tc (f32OfNat 88) = true → budgetLimit tc = 90) ∧ (f32Lt (f32OfNat 108) tc = true →
      budgetLimit tc = 0)
    ∧ (f32Le tc (f32OfNat 88) = false → f32Lt (f32OfNat 108) tc = false →
      budgetLimit tc = (f32Floor (f32Sub (f32OfNat 90) (f32Mul (f32OfNat 2) (f32Sub tc (f32OfNat 88))))).toNat))
  ∧
  -- swRefused
  (∀ (s : State) (n : Fin 32) (t0 : Nat), (s.psw n).wait = some t0 →
    t0 + 20 * s.get (fPSW_CH_IND_DEFER_WIN n) ≤ s.clk.tick → Room s 1 →
    ∃ t, exec (.switchOnRefused n) s = .next t ∧ Does s t [(fPSW_CH_STAT_STATE n, 0), (fPSW_CH_STAT_OUTCOME n,
      3), (fPSW_BUDGET_CNT_REFUSED, s.up fPSW_BUDGET_CNT_REFUSED), (fPSW_EVT_REFUSED, 1),
      (fPSW_BUDGET_RESV, min 65535 (reservedSum s)), (fPSW_BUDGET_WAITING, waitingCount s - 1)]
    [s.evOf 0x5001 n 0 (f16OfRatio (decide (10 * s.get fPSW_BUDGET_LIMIT < reservedSum s))
        (((10 * s.get fPSW_BUDGET_LIMIT : Nat) : Int) - (reservedSum s : Nat)).natAbs 10) (f16OfRatio false (iNom s n) 10)]
          [.dies]
    ∧ t.psw n = { s.psw n with wait := none } ∧ (∀ k, k ≠ n.val → t.psw k = s.psw k))
  ∧
  -- swStillWaits
  (∀ (s : State) (n : Fin 32), ((s.psw n).wait = none ∨ (∃ t0, (s.psw n).wait = some t0 ∧
    s.clk.tick < t0 + 20 * s.get (fPSW_CH_IND_DEFER_WIN n))) →
    ∃ t, exec (.switchOnRefused n) s = .next t ∧ t = s)
  ∧
  -- inrEnd
  (∀ (s : State) (n : Fin 32),
    ∃ t, exec (.inrushEnd n) s = .next t ∧ if s.get (fPSW_CH_STAT_STATE n) = 2 ∧ (∃ t0,
      (s.psw n).inrAt = some t0 ∧ t0 + 20 * s.get (fPSW_CH_LIM_INR_WIN n) ≤ s.clk.tick) then
      Does s t [(fPSW_CH_STAT_STATE n, 3)] [] []
    else t = s)

/-- A fault event of a switch channel shows its code, class and FAULT event bit: below KCNT events in the window the
channel waits for its retry in state 4, otherwise it is LASTING in state 5 with its status bit, EVT.LASTING and
0x500B with the count. A channel that is on records a current above 5 × I_NOM (flags 1) or the absolute limit of its
class (flags 2), whichever is lower, as 0x5003; a current above the ceiling, INR_MULT × I_NOM inside the window for
1 ms of overload time (flags 1) and 1.25 × I_NOM outside it for 10 ms (flags 2), as 0x5004; a junction more than
DT_LIM above its case as 0x5005; and a junction above 175 degrees as 0x5006, each a fault event. An open load, above
20 kΩ in the off-state test or below 50 mA for 200 ticks while continuously on, is recorded as 0x500A and leaves the
channel as it is; a case rise above 5 K in 1 s as 0x500D. After its wait and release condition, a channel with a
duty switches on again at a period start with a new inrush window. PSW_CLR releases LASTING channels, and a write by
the OEM partition changes nothing. Where its condition does not hold, each of these commands changes nothing. The
input pin is high from the start of each period for the high time, which is none, the whole period, or at least
4,000 cycles high and 4,000 low. That a command whose conditions do not hold changes nothing is the model's reading
(log entry 15). Where the spec leaves the choice open or has to be read by inference, the clauses state the model's,
of log entries 50, 129. (R127, R190, R191, R192, R197, R198, R200, R206, R207) -/
def Obligations.SwitchFaults : Prop :=
  -- pswFaultPass
  (∀ (s : State) (n : Fin 32) (code : Nat),
    (windowAdd s (s.psw n).faults (s.get (fPSW_CH_CFG_KCNT n)) (s.get (fPSW_CH_CFG_W n))).2.2 = false →
    Does s (pswFault n code s) [(fPSW_CH_STAT_FAULT n, code % 16), (fPSW_CH_STAT_CLASS n, 0), (fPSW_EVT_FAULT,
      1), (fPSW_CH_STAT_STATE n, 4)] [] [.dies]
    ∧ (pswFault n code s).psw n = { s.psw n with
        faults := (windowAdd s (s.psw n).faults (s.get (fPSW_CH_CFG_KCNT n)) (s.get (fPSW_CH_CFG_W n))).1,
          inrAt := none, ovr := 0, lowTicks := 0, retryAt := s.clk.tick + 20 * s.get (fPSW_CH_IND_RETRY n) + 1 }
    ∧ (∀ k, k ≠ n.val → (pswFault n code s).psw k = s.psw k))
  ∧
  -- pswFaultLast
  (∀ (s : State) (n : Fin 32) (code : Nat),
    (windowAdd s (s.psw n).faults (s.get (fPSW_CH_CFG_KCNT n)) (s.get (fPSW_CH_CFG_W n))).2.2 = true →
    s.get fUPD_STATUS_STATE ≠ 5 → Room s 1 →
    (Does s (pswFault n code s) [(fPSW_CH_STAT_FAULT n, code % 16), (fPSW_CH_STAT_CLASS n, 1), (fPSW_EVT_FAULT,
      1), (fPSW_CH_STAT_STATE n, 5),
      (bitFld fPSW_STATUS n, 1), (fPSW_EVT_LASTING, 1), (fPSW_BUDGET_RESV,
        min 65535 (reservedSum (pswFault n code s))), (fPSW_BUDGET_WAITING, waitingCount (pswFault n code s))]
    [s.evOf 0x500B n 0 f16NaN (f16OfNat (windowAdd s (s.psw n).faults (s.get (fPSW_CH_CFG_KCNT n)) (s.get (fPSW_CH_CFG_W n))).2.1)]
      [.dies])
    ∧ ((pswFault n code s).psw n).resv = false ∧ ((pswFault n code s).psw n).wait = none
    ∧ (∀ k, k ≠ n.val → (pswFault n code s).psw k = s.psw k))
  ∧
  -- pswShort
  (∀ (s : State) (n : Fin 32) (i : F32), pswOn s n = true →
    f32Above i (min (5 * iNom s n) (10 * absLimit n)) 10 = true → Room s 1 →
    ∃ t, exec (.pswShort n i) s = .next t ∧ ∃ u, t = pswFault n 0x5003 u ∧ Does s u []
      [s.evOf 0x5003 n (if 5 * iNom s n ≤ 10 * absLimit n then 1 else 2) f16NaN (f16OfF32 i)] [])
  ∧
  -- pswNoShort
  (∀ (s : State) (n : Fin 32) (i : F32), (pswOn s n = false ∨
    f32Above i (min (5 * iNom s n) (10 * absLimit n)) 10 = false) →
    ∃ t, exec (.pswShort n i) s = .next t ∧ t = s)
  ∧
  -- pswOver
  (∀ (s : State) (n : Fin 32) (i : F32) (ovr : Nat) (again : Bool), s.get (fPSW_CH_STAT_STATE n) = 3 →
    f32Above i (125 * iNom s n) 1000 = true → 4000000 ≤ (if again then ovr else (s.psw n).ovr + ovr) →
    Room s 1 →
    ∃ t, exec (.pswOverload n i ovr again) s = .next t ∧ ∃ u, t = pswFault n 0x5004 u ∧ Does s u []
      [s.evOf 0x5004 n 2 f16NaN (f16OfF32 i)] [])
  ∧
  -- pswOverInr
  (∀ (s : State) (n : Fin 32) (i : F32) (ovr : Nat) (again : Bool), s.get (fPSW_CH_STAT_STATE n) = 2 →
    f32Above i (25 * s.get (fPSW_CH_LIM_INR_MULT n) * iNom s n) 1000 = true →
    400000 ≤ (if again then ovr else (s.psw n).ovr + ovr) → Room s 1 →
    ∃ t, exec (.pswOverload n i ovr again) s = .next t ∧ ∃ u, t = pswFault n 0x5004 u ∧ Does s u []
      [s.evOf 0x5004 n 1 f16NaN (f16OfF32 i)] [])
  ∧
  -- pswNoOver
  (∀ (s : State) (n : Fin 32) (i : F32) (ovr : Nat) (again : Bool), (pswOn s n = false ∨
    f32Above i (overCeil s n) 1000 = false ∨
    (if again then ovr else (s.psw n).ovr + ovr) < (if s.get (fPSW_CH_STAT_STATE n) = 2 then 400000 else 4000000)) →

    ∃ t, exec (.pswOverload n i ovr again) s = .next t ∧ t = s)
  ∧
  -- dtLim
  (∀ (s : State) (n : Fin 32) (c d : F32), pswOn s n = true →
    f32Lt (f32OfNat (s.get (fPSW_CH_LIM_DT_LIM n))) d = true → Room s 1 →
    ∃ t, exec (.dtLimit n c d) s = .next t ∧ ∃ u, t = pswFault n 0x5005 u ∧ Does s u []
      [s.evOf 0x5005 n 0 (f16OfF32 c) (f16OfF32 d)] [])
  ∧
  -- dtNot
  (∀ (s : State) (n : Fin 32) (c d : F32), (pswOn s n = false ∨
    f32Lt (f32OfNat (s.get (fPSW_CH_LIM_DT_LIM n))) d = false) →
    ∃ t, exec (.dtLimit n c d) s = .next t ∧ t = s)
  ∧
  -- junction
  (∀ (s : State) (n : Fin 32) (j : F32), pswOn s n = true → f32Lt (f32OfNat 175) j = true → Room s 1 →
    ∃ t, exec (.junctionOvertemp n j) s = .next t ∧ ∃ u,
      t = showHot n ((pswFault n 0x5006 u).setPsw n { (pswFault n 0x5006 u).psw n with hot := true })
    ∧ Does s u [] [s.evOf 0x5006 n 0 f16NaN (f16OfF32 j)] [])
  ∧
  -- junctionNot
  (∀ (s : State) (n : Fin 32) (j : F32), (pswOn s n = false ∨ f32Lt (f32OfNat 175) j = false) →
    ∃ t, exec (.junctionOvertemp n j) s = .next t ∧ t = s)
  ∧
  -- showHotIs
  (∀ (s : State) (n : Fin 32),
    Does s (showHot n s) [(fPSW_DIE_HOT (n.val / 4), if ∃ i : Fin 4,
      (s.psw (4 * (n.val / 4) + i)).hot = true then 1 else 0),
      (fPSW_DIE_ARB_HOT (n.val / 4), if ∀ i : Fin 4, (s.psw (4 * (n.val / 4) + i)).hot = true then 1 else 0)] []
        [])
  ∧
  -- pswOpen
  (∀ (s : State) (n : Fin 32) (o : Bool) (meas : F32),
    (if o then pswOn s n && highTime (s.psw n).act (pswPer s n) == 20000 * pswPer s n && decide (200 ≤ (s.psw n).lowTicks)
    else s.bit (fPSW_CH_CFG_OL_TEST n) && pswState s n == 0 && f32Lt (f32OfNat 20) meas) = true → Room s 1 →
    ∃ t, exec (.pswOpenLoad n o meas) s = .next t ∧ Does s t [(fPSW_CH_STAT_OPEN n, 1), (fPSW_EVT_OPEN, 1)]
      [s.evOf 0x500A n (if o then 2 else 1)] [])
  ∧
  -- pswNotOpen
  (∀ (s : State) (n : Fin 32) (o : Bool) (meas : F32),
    (if o then pswOn s n && highTime (s.psw n).act (pswPer s n) == 20000 * pswPer s n && decide (200 ≤ (s.psw n).lowTicks)
    else s.bit (fPSW_CH_CFG_OL_TEST n) && pswState s n == 0 && f32Lt (f32OfNat 20) meas) = false →
    ∃ t, exec (.pswOpenLoad n o meas) s = .next t ∧ t = s)
  ∧
  -- pinWave
  (∀ (s : State) (n : Fin 32), s.clk.cycle < 20000 →
    pinLevel s n = decide (20000 * (s.clk.tick % pswPer s n) + s.clk.cycle < highTime (s.psw n).act (pswPer s n)))
  ∧
  -- pinHighTime
  (∀ (s : State) (a : F32) (per : Nat), 1 ≤ per →
    highTime a per ≤ 20000 * per ∧ (highTime a per = 0 ∨ 4000 ≤ highTime a per)
    ∧ (highTime a per = 20000 * per ∨ highTime a per + 4000 ≤ 20000 * per))
  ∧
  -- caseRise
  (∀ (s : State) (q : Fin 8) (a b : F32), Room s 1 →
    ∃ t, exec (.caseRise q a b) s = .next t ∧
      if f32Lt (f32OfNat 5) (f32Sub b a) then Does s t [(fPSW_EVT_CASE_RISE, 1)]
      [s.evOf 0x500D q 0 (f16OfF32 a) (f16OfF32 b)] []
    else t = s)
  ∧
  -- pswRetry
  (∀ (s : State) (n : Fin 32) (d j : F32), pswState s n = 4 → (s.psw n).retryAt ≤ s.clk.tick →
    periodStart s n = true → f32IsZero (s.psw n).duty = false → retryRelease s n d j = true →
    ∃ t, exec (.pswRetry n d j) s = .next t ∧ (Does s t [(fPSW_CH_STAT_STATE n, 2), (fPSW_CH_CNT n,
      s.up (fPSW_CH_CNT n)), (fPSW_DIE_HOT (n.val / 4), if quadHot t (n.val / 4) (· || ·) false then 1 else 0),
      (fPSW_DIE_ARB_HOT (n.val / 4), if quadHot t (n.val / 4) (· && ·) true then 1 else 0)] [] [.dies])
    ∧
      t.psw n = { s.psw n with act := (s.psw n).duty, inrAt := some s.clk.tick, hot := false, ovr := 0, lowTicks := 0 } ∧
      (∀ k, k ≠ n.val → t.psw k = s.psw k))
  ∧
  -- pswNoRetry
  (∀ (s : State) (n : Fin 32) (d j : F32), (pswState s n ≠ 4 ∨ s.clk.tick < (s.psw n).retryAt ∨
    periodStart s n = false ∨ f32IsZero (s.psw n).duty = true ∨ retryRelease s n d j = false) →
    ∃ t, exec (.pswRetry n d j) s = .next t ∧ t = s)
  ∧
  -- pswReleaseWhen
  (∀ (s : State) (n : Fin 32) (d j : F32),
    (s.get (fPSW_CH_STAT_FAULT n) = 5 →
      retryRelease s n d j = f32Lt d (f32OfInt (s.get (fPSW_CH_LIM_DT_LIM n) - 15)))
    ∧ (s.get (fPSW_CH_STAT_FAULT n) = 6 → retryRelease s n d j = f32Lt j (f32OfNat 150))
    ∧ (s.get (fPSW_CH_STAT_FAULT n) ≠ 5 → s.get (fPSW_CH_STAT_FAULT n) ≠ 6 → retryRelease s n d j = true))
  ∧
  -- pswClr
  (∀ (s : State) (req : Req) (bits : Word), reqIsOem req = false →
    ∃ t, exec (.pswClr req bits) s = .next t ∧ (∀ n : Fin 32, bits.getLsbD n = true → pswLasting s n = true →
      pswLasting t n = false
      ∧ t.psw n = { s.psw n with faults := [], hot := false, again := 2 } ∧
        pswState t n = if pswLocked s n then pswState s n else 0)
    ∧ (∀ n : Fin 32, (bits.getLsbD n = false ∨ pswLasting s n = false) →
      pswLasting t n = pswLasting s n ∧ pswState t n = pswState s n ∧ t.psw n = s.psw n)
    ∧ (∀ n : Fin 32, pswLocked t n = pswLocked s n)
    ∧ SameMem s t ∧ Records s t [] ∧ PartsBut s t [.dies])
  ∧
  -- pswClrOem
  (∀ (s : State) (req : Req) (bits : Word), reqIsOem req = true →
    ∃ t, exec (.pswClr req bits) s = .next t ∧ t = s)

/-- A clamp pulse shows its energy and the sum of the last 10 s; above 120 mJ it records 0x5007. A small one that keeps
the sum below 600 mJ does no more; one above 120 mJ, or that brings the sum to 600 mJ, locks the channel: state 6,
its lock bit, EVT.CLAMP_LOCK and 0x5008 with the sum, while a channel already locked is not locked again. The lock
ends at least 10 s later with the duty at 0 and records 0x5009; the channel is then LATCHED if LASTING still holds,
and off otherwise. A supply below 9 V or above 36 V, and a case above 108 degrees, are recorded once; above 88
degrees the APP clock is capped, and restored when the case has been cool for 10 s, each with 0x1080. A loss of the
load supply stops every output and its return lets the stages follow their commands as new ones from the next T; a
loss of the logic supply discharges the panel and records 0x1083 and 0xE004, and where the flush completes, every
event is recorded and the event flash closed. Where its condition does not hold, each of these commands changes
nothing. That a command whose conditions do not hold changes nothing is the model's reading (log entry 15). Where
the spec leaves the choice open or has to be read by inference, the clauses state the model's, of log entries 49,
156. (R199, R201, R488, R489, R491, R504, R505) -/
def Obligations.ClampAndSupplies : Prop :=
  -- clampSmall
  (∀ (s : State) (n : Fin 32) (e : Nat), e ≤ 1200 →
    e + (((s.psw n).pulses.filter fun p => decide (s.clk.tick < p.1 + 200000)).map Prod.snd).sum < 6000 →
    ∃ t, exec (.clampPulse n e) s = .next t ∧ Does s t [(fPSW_CH_CLAMP_SUM n,
      e + (((s.psw n).pulses.filter fun p => decide (s.clk.tick < p.1 + 200000)).map Prod.snd).sum),
      (fPSW_CH_CLAMP_LAST n, e)] [] [.dies]
    ∧
      t.psw n = { s.psw n with pulses := (s.clk.tick, e) :: (s.psw n).pulses.filter fun p => decide (s.clk.tick < p.1 + 200000) }
    ∧ (∀ k, k ≠ n.val → t.psw k = s.psw k))
  ∧
  -- clampBig
  (∀ (s : State) (n : Fin 32) (e : Nat), (1200 < e ∨
    6000 ≤ e + (((s.psw n).pulses.filter fun p => decide (s.clk.tick < p.1 + 200000)).map Prod.snd).sum) →
    pswLocked s n = false → Room s 2 →
    ∃ t, exec (.clampPulse n e) s = .next t ∧ (Does s t [(fPSW_CH_CLAMP_SUM n,
      min 65535 (e + (((s.psw n).pulses.filter fun p => decide (s.clk.tick < p.1 + 200000)).map Prod.snd).sum)),
      (fPSW_CH_CLAMP_LAST n, min 65535 e), (fPSW_CH_STAT_STATE n, 6), (bitFld fPSW_LOCK n, 1),
        (fPSW_EVT_CLAMP_LOCK, 1),
      (fPSW_BUDGET_RESV, min 65535 (reservedSum t)), (fPSW_BUDGET_WAITING, waitingCount t)]
    ((if 1200 < e then [s.evOf 0x5007 n 0 f16NaN (f16OfRatio false e 10)] else [])
      ++ [s.evOf 0x5008 n 0 f16NaN (f16OfRatio false (e + (((s.psw n).pulses.filter fun p => decide (s.clk.tick < p.1 + 200000)).map Prod.snd).sum) 10)]) [.dies])
    ∧ (t.psw n).lockAt = s.clk.tick ∧ (t.psw n).resv = false ∧ (t.psw n).wait = none ∧ (∀ k, k ≠ n.val →
      t.psw k = s.psw k))
  ∧
  -- clampLocked
  (∀ (s : State) (n : Fin 32) (e : Nat), pswLocked s n = true → Room s 1 →
    ∃ t, exec (.clampPulse n e) s = .next t ∧ Does s t [(fPSW_CH_CLAMP_SUM n,
      min 65535 (e + (((s.psw n).pulses.filter fun p => decide (s.clk.tick < p.1 + 200000)).map Prod.snd).sum)),
      (fPSW_CH_CLAMP_LAST n, min 65535 e)]
    (if 1200 < e then [s.evOf 0x5007 n 0 f16NaN (f16OfRatio false e 10)] else []) [.dies] ∧
      (t.psw n).lockAt = (s.psw n).lockAt)
  ∧
  -- clampRelease
  (∀ (s : State) (n : Fin 32), pswLocked s n = true → (s.psw n).lockAt + 200000 ≤ s.clk.tick →
    f32IsZero (s.psw n).duty = true → pswLasting s n = false → Room s 1 →
    ∃ t, exec (.clampLockRelease n) s = .next t ∧ Does s t [(bitFld fPSW_LOCK n, 0), (fPSW_CH_STAT_STATE n, 0),
      (fPSW_DIE_HOT (n.val / 4), if quadHot t (n.val / 4) (· || ·) false then 1 else 0),
      (fPSW_DIE_ARB_HOT (n.val / 4), if quadHot t (n.val / 4) (· && ·) true then 1 else 0)] [s.evOf 0x5009 n]
        [.dies]
    ∧ t.psw n = { s.psw n with hot := false } ∧ (∀ k, k ≠ n.val → t.psw k = s.psw k))
  ∧
  -- clampReleaseLasting
  (∀ (s : State) (n : Fin 32), pswLocked s n = true → (s.psw n).lockAt + 200000 ≤ s.clk.tick →
    f32IsZero (s.psw n).duty = true → pswLasting s n = true → Room s 1 →
    ∃ t, exec (.clampLockRelease n) s = .next t ∧ Does s t [(bitFld fPSW_LOCK n, 0), (fPSW_CH_STAT_STATE n, 5)]
      [s.evOf 0x5009 n] [])
  ∧
  -- clampHeld
  (∀ (s : State) (n : Fin 32), (pswLocked s n = false ∨ s.clk.tick < (s.psw n).lockAt + 200000 ∨
    f32IsZero (s.psw n).duty = false) →
    ∃ t, exec (.clampLockRelease n) s = .next t ∧ t = s)
  ∧
  -- supLow
  (∀ (s : State) (v : F32), Room s 1 →
    ∃ t, exec (.supplyLow v) s = .next t ∧ if s.sup.low = false ∧ f32Lt v 0x41100000#32 = true then
      Does s t [] [s.evOf 0x1082 0 0 (f16OfF32 v) f16NaN] [.sup] ∧ t.sup = { s.sup with low := true }
    else t = s)
  ∧
  -- supHigh
  (∀ (s : State) (v : F32), Room s 1 →
    ∃ t, exec (.supplyHigh v) s = .next t ∧ if s.sup.high = false ∧ f32Lt 0x42100000#32 v = true then
      Does s t [] [s.evOf 0x1084 0 0 f16NaN (f16OfF32 v)] [.sup] ∧ t.sup = { s.sup with high := true }
    else t = s)
  ∧
  -- caseHot
  (∀ (s : State), Room s 1 →
    ∃ t, exec (.caseOvertemp) s = .next t ∧ if s.sup.hot = false ∧ f32Lt 0x42D80000#32 (caseTemp s) = true then
      Does s t [] [s.evOf 0x1081 0 0 f16NaN (f16OfF32 (caseTemp s))] [.sup] ∧ t.sup = { s.sup with hot := true }
    else t = s)
  ∧
  -- appCap
  (∀ (s : State), Room s 1 →
    ∃ t, exec (.appClockCap) s = .next t ∧ if s.sup.cap = false ∧ f32Lt 0x42B00000#32 (caseTemp s) = true then
      Does s t [] [s.evOf 0x1080 0 1 f16NaN (f16OfF32 (caseTemp s))] [.sup] ∧ t.sup = { s.sup with cap := true }
    else t = s)
  ∧
  -- appFree
  (∀ (s : State) (t0 : Nat), s.sup.coolAt = some t0 → s.sup.cap = true → t0 + 200000 ≤ s.clk.tick → Room s 1 →
    ∃ t, exec (.appClockRestore) s = .next t ∧ Does s t [] [s.evOf 0x1080 0 0 f16NaN (f16OfF32 (caseTemp s))]
      [.sup] ∧ t.sup = { s.sup with cap := false })
  ∧
  -- appNotFree
  (∀ (s : State) (t0 : Nat), (s.sup.coolAt = none ∨ s.sup.cap = false ∨ (s.sup.coolAt = some t0 ∧
    s.clk.tick < t0 + 200000)) →
    ∃ t, exec (.appClockRestore) s = .next t ∧ t = s)
  ∧
  -- loadLoss
  (∀ (s : State), s.dies.loadOff = false →
    ∃ t, exec (.loadSupplyLoss) s = .next t ∧ t.dies.loadOff = true ∧ (∀ n : Fin 16, ¬ (1 ≤ vlvPhase t n ∧
      vlvPhase t n ≤ 5) ∧ (t.vlv n).cmd = 0#32)
    ∧ (∀ n : Fin 32, (pswLasting s n || pswLocked s n) = false → pswState t n = 0 ∧ (t.psw n).resv = false)
    ∧ (∀ c, t.jamb c = s.jamb c) ∧ SameMem s t ∧ Records s t [] ∧ PartsBut s t [.dies])
  ∧
  -- loadReturn
  (∀ (s : State), s.dies.loadOff = true →
    ∃ t, exec (.loadSupplyReturn) s = .next t ∧ t.dies.loadOff = false ∧ (∀ n : Fin 16, (t.vlv n).cmd = 0#32 ∧
      (t.vlv n).on = false)
    ∧ (∀ n : Fin 32, (pswLasting s n || pswLocked s n) = false → pswState t n = 0 ∧ (t.psw n).again = 2)
    ∧ (∀ c, t.jamb c = s.jamb c) ∧ SameMem s t ∧ Records s t [] ∧ PartsBut s t [.dies])
  ∧
  -- loadStays
  (∀ (s : State),
    (s.dies.loadOff = true → exec .loadSupplyLoss s = .next s) ∧ (s.dies.loadOff = false →
      exec .loadSupplyReturn s = .next s))
  ∧
  -- supLoss
  (∀ (s : State) (v : F32), s.sup.lost = false → pwrState s < 2 → Room s 2 →
    ∃ t, exec (.supplyLoss v false) s = .next t ∧ t.sup = { s.sup with lost := true } ∧
      t.pnl = { s.pnl with acc := [], rev := false, dark := true } ∧ (∀ a, t.rd a = s.rd a) ∧ SameMem s t
    ∧ t.evr = { s.evr with intake := s.evr.intake ++ [s.evOf 0x1083 0 0 (f16OfF32 v) f16NaN, s.evOf 0xE004],
                           flash := { s.evr.flash with closed := false } }
    ∧ PartsBut s t [.sup, .pnl])
  ∧
  -- supLossFlushed
  (∀ (s : State) (v : F32), s.sup.lost = false → pwrState s < 2 → Room s 2 →
    ∃ t, exec (.supplyLoss v true) s = .next t ∧ t.sup = { s.sup with lost := true } ∧
      t.pnl = { s.pnl with acc := [], rev := false, dark := true } ∧ SameMem s t
    ∧ t.evr.intake = [] ∧ t.evr.flash.closed = true ∧ t.evr.unwritten = []
    ∧ PartsBut s t [.sup, .pnl])
  ∧
  -- supLossNot
  (∀ (s : State) (v : F32) (f : Bool), (s.sup.lost = true ∨ 2 ≤ pwrState s ∨ s.evrOn = false) →
    ∃ t, exec (.supplyLoss v f) s = .next t ∧ t = s)

/-- An antenna whose bias carries more than 120 mA or whose output is too low goes to SHORT with its bias off and 0x6001
with the current; after 1 s, or by ANT_RETRY, a trial puts it on again; below 2 mA it is OPEN with 0x6002, and at 2
mA or more after OPEN, or within the limits after 1 s of a trial, it is OK with 0x6003. ANT1 serves the position
once ANT0 has yielded too few satellites for 5 s, and ANT0 again once it has yielded enough for 5 s, recorded as
0x6004. A component above the threshold that an engaged notch filters moves that notch (a component within 100 kHz
of it is taken as the same one, log entry 141); another one engages the lowest free notch of its band, recorded as
0x6012, or is counted when none is free; one 3 dB below it frees the notch. An epoch boundary latches what every
channel measures. A band whose indicator exceeds the limit at an epoch is excluded with 0x6010, and returns after 20
good epochs with 0x6011. Where its condition does not hold, and on every module that is not an FYH7-A manager, each
of these commands changes nothing. That a command whose conditions do not hold changes nothing is the model's
reading (log entry 15). (R208, R210, R211, R212, R213, R221, R233, R236) -/
def Obligations.GnssAntennas : Prop :=
  -- antShort
  (∀ (s : State) (a : Fin 2) (i : Nat) (low : Bool), s.wide = true → s.get (fGNS_ANT_STATE a) = 1 → (120 < i ∨
    low = true) → Room s 1 →
    ∃ t, exec (.antennaShort a i low) s = .next t ∧ Does s t [(fGNS_ANT_STATE a, 3), (fGNS_ANT_I_MA a, 0),
      (fGNS_EVT_ANT, 1)] [s.evOf 0x6001 a 0 f16NaN (f16OfNat i)] [.gns]
    ∧ tabGet (fun _ => 0) t.gns.shortAt a = s.clk.tick ∧
      t.gns.trial = s.gns.trial.filter (fun x => x.1 != a.val))
  ∧
  -- antNotShort
  (∀ (s : State) (a : Fin 2) (i : Nat) (low : Bool), (s.get (fGNS_ANT_STATE a) ≠ 1 ∨ (i ≤ 120 ∧ low = false)) →
    ∃ t, exec (.antennaShort a i low) s = .next t ∧ t = s)
  ∧
  -- antTrial
  (∀ (s : State) (a : Fin 2), s.wide = true → s.get (fGNS_ANT_STATE a) = 3 →
    tabGet (fun _ => 0) s.gns.shortAt a + 20000 ≤ s.clk.tick →
    ∃ t, exec (.antennaTrial a) s = .next t ∧ Does s t [(fGNS_ANT_STATE a, 1), (fGNS_ANT_I_MA a, 0),
      (fGNS_EVT_ANT, 1)] [] [.gns]
    ∧ t.gns = { s.gns with trial := (a.val, s.clk.tick) :: s.gns.trial.filter (fun x => x.1 != a.val) })
  ∧
  -- antNoTrial
  (∀ (s : State) (a : Fin 2), (s.get (fGNS_ANT_STATE a) ≠ 3 ∨
    s.clk.tick < tabGet (fun _ => 0) s.gns.shortAt a + 20000) →
    ∃ t, exec (.antennaTrial a) s = .next t ∧ t = s)
  ∧
  -- antOpen
  (∀ (s : State) (a : Fin 2) (i : Nat), s.wide = true → s.get (fGNS_ANT_STATE a) = 1 → i < 2 → Room s 1 →
    ∃ t, exec (.antennaOpen a i) s = .next t ∧ Does s t [(fGNS_ANT_STATE a, 2), (fGNS_ANT_I_MA a, i),
      (fGNS_EVT_ANT, 1)] [s.evOf 0x6002 a 0 (f16OfNat i) f16NaN] [.gns]
    ∧ t.gns = { s.gns with trial := s.gns.trial.filter (fun x => x.1 != a.val) })
  ∧
  -- antNotOpen
  (∀ (s : State) (a : Fin 2) (i : Nat), (s.get (fGNS_ANT_STATE a) ≠ 1 ∨ 2 ≤ i) →
    ∃ t, exec (.antennaOpen a i) s = .next t ∧ t = s)
  ∧
  -- antOk
  (∀ (s : State) (a : Fin 2) (i : Nat), s.wide = true → ((s.get (fGNS_ANT_STATE a) = 2 ∧ 2 ≤ i) ∨
    (s.get (fGNS_ANT_STATE a) = 1 ∧ trialDone s a = true ∧ i ≤ 120)) → Room s 1 →
    ∃ t, exec (.antennaOk a i) s = .next t ∧ Does s t [(fGNS_ANT_STATE a, 1), (fGNS_ANT_I_MA a, min i 255),
      (fGNS_EVT_ANT, 1)] [s.evOf 0x6003 a] [.gns]
    ∧ t.gns = { s.gns with trial := s.gns.trial.filter (fun x => x.1 != a.val) })
  ∧
  -- antNotOk
  (∀ (s : State) (a : Fin 2) (i : Nat), ((s.get (fGNS_ANT_STATE a) ≠ 2 ∨ i < 2) ∧
    (s.get (fGNS_ANT_STATE a) ≠ 1 ∨ trialDone s a = false ∨ 120 < i)) →
    ∃ t, exec (.antennaOk a i) s = .next t ∧ t = s)
  ∧
  -- antRetry
  (∀ (s : State) (req : Req), reqIsOem req = false → s.wide = true →
    ∃ t, exec (.antRetry req) s = .next t ∧ (∀ a : Fin 2, s.get (fGNS_ANT_STATE a) = 3 →
      t.get (fGNS_ANT_STATE a) = 1 ∧ t.gns.trial.contains (a.val, s.clk.tick) = true)
    ∧ (∀ a : Fin 2, s.get (fGNS_ANT_STATE a) ≠ 3 → t.rd (fGNS_ANT_STATE a).addr = s.rd (fGNS_ANT_STATE a).addr)
    ∧ SameMem s t ∧ Records s t [] ∧ PartsBut s t [.gns])
  ∧
  -- antRetryOem
  (∀ (s : State) (req : Req),
    reqIsOem req = true → exec (.antRetry req) s = .next s ∧ exec (.coldStartRequest req) s = .next s)
  ∧
  -- ant1
  (∀ (s : State), s.wide = true → fiveSec s s.gns.subFrom = true → s.bit fGNS_SOL_STAT_SUBST = false →
    Room s 1 →
    ∃ t, exec (.ant1Substitute) s = .next t ∧ Does s t [(fGNS_SOL_STAT_SUBST, 1), (fGNS_SOL_STAT_HEAD_OK, 0)]
      [s.evOf 0x6004 0 1] [])
  ∧
  -- ant0
  (∀ (s : State), s.wide = true → fiveSec s s.gns.backFrom = true → s.bit fGNS_SOL_STAT_SUBST = true →
    Room s 1 →
    ∃ t, exec (.ant0Restore) s = .next t ∧ Does s t [(fGNS_SOL_STAT_SUBST, 0)] [s.evOf 0x6004 0 0] [])
  ∧
  -- antStays
  (∀ (s : State),
    ((fiveSec s s.gns.subFrom = false ∨ s.bit fGNS_SOL_STAT_SUBST = true) → exec .ant1Substitute s = .next s)
    ∧ ((fiveSec s s.gns.backFrom = false ∨ s.bit fGNS_SOL_STAT_SUBST = false) → exec .ant0Restore s = .next s))
  ∧
  -- yieldTimes
  (∀ (s : State) (u0 u1 : Nat),
    (noteYield u0 u1 s).gns.subFrom = (if u0 < 4 ∧ 4 ≤ u1 then some (s.gns.subFrom.getD s.clk.tick) else none)
    ∧ (noteYield u0 u1 s).gns.backFrom = (if 4 ≤ u0 then some (s.gns.backFrom.getD s.clk.tick) else none))
  ∧
  -- notchTune
  (∀ (s : State) (a : Fin 2) (b : Fin 3) (f : Int) (l : Nat) (k : Nat), s.wide = true →
    s.get fGNS_CFG_NOTCH_THR < l → notchOf s a b f = some k →
    ∃ t, exec (.notchEngage a b f l) s = .next t ∧ Does s t [(fGNS_NOTCH_FREQ a b k, toField 24 f),
      (fGNS_NOTCH_LEVEL a b k, min l 127)] [] [])
  ∧
  -- notchOn
  (∀ (s : State) (a : Fin 2) (b : Fin 3) (f : Int) (l : Nat) (k : Nat), s.wide = true →
    s.get fGNS_CFG_NOTCH_THR < l → notchOf s a b f = none →
    (List.range 4).find? (fun k => !s.bit (fGNS_NOTCH_ON a b k)) = some k → Room s 1 →
    ∃ t, exec (.notchEngage a b f l) s = .next t ∧ Does s t [(fGNS_NOTCH_FREQ a b k, toField 24 f),
      (fGNS_NOTCH_LEVEL a b k, min l 127), (fGNS_NOTCH_ON a b k, 1), (bitFld (fGNS_JAM_NOTCHES a b) k, 1)]
    [s.evOf 0x6012 (12 * a.val + 4 * b.val + k) 0 f16NaN (f16OfNat l)] [])
  ∧
  -- notchFull
  (∀ (s : State) (a : Fin 2) (b : Fin 3) (f : Int) (l : Nat), s.wide = true → s.get fGNS_CFG_NOTCH_THR < l →
    notchOf s a b f = none → ((∀ k : Fin 4, s.bit (fGNS_NOTCH_ON a b k) = true)) →
    ∃ t, exec (.notchEngage a b f l) s = .next t ∧ Does s t [(fGNS_JAM_OVERFLOW a b,
      s.up (fGNS_JAM_OVERFLOW a b))] [] [])
  ∧
  -- notchLow
  (∀ (s : State) (a : Fin 2) (b : Fin 3) (f : Int) (l : Nat), l ≤ s.get fGNS_CFG_NOTCH_THR →
    ∃ t, exec (.notchEngage a b f l) s = .next t ∧ t = s)
  ∧
  -- notchOff
  (∀ (s : State) (a : Fin 2) (b : Fin 3) (k : Fin 4) (l : Nat),
    ∃ t, exec (.notchRelease a b k l) s = .next t ∧ if s.wide = true ∧ s.bit (fGNS_NOTCH_ON a b k) = true ∧
      l + 3 < s.get fGNS_CFG_NOTCH_THR then
      Does s t [(fGNS_NOTCH_ON a b k, 0), (bitFld (fGNS_JAM_NOTCHES a b) k, 0)] [] []
    else t = s)
  ∧
  -- epochChan
  (∀ (s : State) (meas : List EpochMeas), s.wide = true → s.clk.tick % 1000 = 0 →
    ∃ t, exec (.gnssEpoch meas []) s = .next t ∧ (∀ c : Fin 384, ∀ m, meas[c.val]? = some m →
      t.rd (fGNS_TRK_CARR_CYC c).addr = m.cyc ∧ t.rd (fGNS_TRK_CARR_FRAC c).addr = m.frac
      ∧ t.get (fGNS_TRK_CODE_PH_PH c) = m.codePh % 2 ^ fldWidth (fGNS_TRK_CODE_PH_PH c) ∧
        t.rd (fGNS_TRK_CODE_CNT c).addr = m.cnt)
    ∧ (s.bit fGNS_CORR_STAT_IN_USE = true → t.get fGNS_CORR_STAT_AGE = corrAge s)
    ∧ t.clk = { s.clk with noSol := s.clk.noSol + 1 }
    ∧ t.gns = { s.gns with exclUsed := s.get fGNS_STATUS_EXCL, epoch := some s.clk.tick }
    ∧ SameMem s t ∧ Records s t [] ∧ PartsBut s t [.clk, .gns])
  ∧
  -- epochBand
  (∀ (s : State) (m : BandMeas), s.wide = true → s.clk.tick % 1000 = 0 → s.bit fGNS_CORR_STAT_IN_USE = false →
    s.get fGNS_CFG_JAM_LIM < jamJ m (bitCount (s.get (fGNS_JAM_NOTCHES 0 0))) →
    s.bitAt fGNS_STATUS_EXCL 0 = false → Room s 1 →
    ∃ t, exec (.gnssEpoch [] [m]) s = .next t ∧ Does s t [(fGNS_JAM_J 0 0,
      jamJ m (bitCount (s.get (fGNS_JAM_NOTCHES 0 0)))),
      (fGNS_JAM_GAIN 0 0, min 255 (f32Round (f32Mul m.gain (f32OfNat 4))).toNat), (bitFld fGNS_STATUS_EXCL 0,
        1), (fGNS_EVT_JAM, 1)]
    [s.evOf 0x6010 0 0 f16NaN (f16OfNat (jamJ m (bitCount (s.get (fGNS_JAM_NOTCHES 0 0)))))] [.gns, .clk])
  ∧
  -- bandOne
  (∀ (s : State) (m : BandMeas) (i : Fin 6) (j : Nat),
    jamJ m (bitCount (s.get (fGNS_JAM_NOTCHES (i.val / 3) (i.val % 3)))) = j → (j ≤ s.get fGNS_CFG_JAM_LIM ∨
    s.bitAt fGNS_STATUS_EXCL i = true) →
    Does s (bandEpoch m i s) [(fGNS_JAM_J (i.val / 3) (i.val % 3), j), (fGNS_JAM_GAIN (i.val / 3) (i.val % 3),
      min 255 (f32Round (f32Mul m.gain (f32OfNat 4))).toNat)] [] [.gns]
    ∧
      tabGet (fun _ => 0) (bandEpoch m i s).gns.good i = (if j + 16 ≤ s.get fGNS_CFG_JAM_LIM then tabGet (fun _ => 0) s.gns.good i + 1 else 0))
  ∧
  -- jamValue
  (∀ (s : State) (m : BandMeas) (k : Nat),
    jamJ m k = min 255 ((f32Round (f32Mul (f32OfNat 8) (f32Max 0#32 (f32Sub m.nom m.gain)))).toNat + 24 * k + if m.ovl then 32 else 0))
  ∧
  -- bandBack
  (∀ (s : State) (a : Fin 2) (b : Fin 3), Room s 1 →
    ∃ t, exec (.bandReturn a b) s = .next t ∧ if s.wide = true ∧
      s.bitAt fGNS_STATUS_EXCL (3 * a.val + b.val) = true ∧
      20 ≤ tabGet (fun _ => 0) s.gns.good (3 * a.val + b.val) then
      Does s t [(bitFld fGNS_STATUS_EXCL (3 * a.val + b.val), 0), (fGNS_EVT_JAM, 1)]
        [s.evOf 0x6011 (3 * a.val + b.val) 0 (f16OfNat (s.get (fGNS_JAM_J a b))) f16NaN] []
    else t = s)
  ∧
  -- gnssHeld
  (∀ (s : State) (a : Fin 2) (b : Fin 3) (k : Fin 4) (c : Fin 384) (req : Req) (n l : Nat) (f : Int) (low : Bool) (es : List EpochMeas) (bs : List BandMeas) (sol : Solution),
    s.wide = false →
    ∀ i ∈ [Instr.antennaShort a n low, .antennaTrial a, .antennaOpen a n, .antennaOk a n, .antRetry req,
      .ant1Substitute, .ant0Restore,
      .notchEngage a b f l, .notchRelease a b k l, .gnssEpoch es bs, .bandReturn a b, .coldStartRequest req,
        .navDataSave low, .lockLoss c,
      .coastExpire c, .solutionReady sol, .corrSourceSwitch, .corrAgeOut], exec i s = .next s)

/-- A COLD start discards the saved data, frees every channel, queues the cold searches of every number of the signals
acquired by search on both antennas (those it serves) and records 0x6040. The bank of 32 blocks starts searches in
the order of the queue while they fit, each for its passes of its coherent intervals. When a search ends, its blocks
go to the next; a strongest cell above 15 dB (cold) or 12 dB (any other) gives the lowest free channel of its
antenna the signal, the satellite and the NCO words and enables it, and a weaker one, or no free channel, does no
more. Galileo E1 is searched once module time is known to 1 ms; a signal not in the table of searches only by
handover from a channel that tracks its satellite. A dump latches the seven sums and counts; an unread one is
counted as overrun and recorded at most once per second. Only the core that owns a channel writes its shadow words,
and a second write before the boundary is counted as superseded. A tracking loop period reads a channel's dump and
writes its words, but none while it coasts; acquisitions that GN1 plans join the queue. A channel with low lock or
C/N0 for 100 ms coasts, and is freed after 2 s with an aided search queued. Navigation data is saved, or its failure
recorded, with 0x6042, within 60 s of its change. Where its condition does not hold, each of these commands changes
nothing. That GN1's acquisitions come as an operand, and the span of a handover search, are the model's choices (log
entry 142). That a command whose conditions do not hold changes nothing is the model's reading (log entry 15). Where
the spec leaves the choice open or has to be read by inference, the clauses state the model's, of log entries 53,
136, 141, 142. (R209, R214, R215, R216, R217, R218, R219, R220, R233, R234, R235) -/
def Obligations.GnssTracking : Prop :=
  -- cold
  (∀ (s : State) (req : Req), reqIsOem req = false → s.wide = true → Room s 1 →
    ∃ t, exec (.coldStartRequest req) s = .next t ∧ (∀ c : Fin 384, t.bit (fGNS_TRK_CFG_EN c) = false) ∧
      t.get fGNS_STATUS_START = 3 ∧ t.get fGNS_STATUS_NTRK = 0
    ∧ t.gns.nav = none ∧ t.gns.cur = NavData.none ∧ t.gns.chgAt = none ∧ t.gns.trk = []
    ∧ (t.gns.queue,
      t.gns.running) = pumpBank s.clk.tick ((List.range 2).flatMap fun ant => coldList.filterMap fun x =>
        searchFor .cold { t with gns := { t.gns with queue := [], running := [] } } x.1 x.2 ant) []
    ∧ Records s t [s.evOf 0x6040] ∧ SameMem s t ∧ PartsBut s t [.gns, .rst])
  ∧
  -- startKinds
  (∀ (s : State) (g : GnssStart),
    (s.gns.nav = none → startKind g s = 3)
    ∧ (∀ d e, s.gns.nav = some d → d.eph = some e → s.now / 1000000000 - e < 14400 → g.timeErr ≤ 1000 →
      g.near = true → startKind g s = 1)
    ∧ (∀ d a, s.gns.nav = some d → d.eph = none → d.alm = some a → s.now / 1000000000 - a < 7776000 →
      g.timeErr ≤ 10000 → startKind g s = 2)
    ∧ (∀ d, s.gns.nav = some d → 10000 < g.timeErr → startKind g s = 3))
  ∧
  -- bankOrder
  (∀ (s : State) (tick : Nat) (q : Search) (qs : List Search) (run : List (Search × Nat)),
    pumpBank tick (q :: qs) run =
      if bankBlocks q + (run.map fun r => bankBlocks r.1).sum ≤ 32 then pumpBank tick qs (run ++ [(q,
        tick + 20 * searchMs q)]) else (q :: qs, run))
  ∧
  -- bankFits
  (∀ (s : State) (tick : Nat) (qs : List Search) (run : List (Search × Nat)),
    (run.map fun r => bankBlocks r.1).sum ≤ 32 →
    ((pumpBank tick qs run).2.map fun r => bankBlocks r.1).sum ≤ 32
    ∧ ∃ k, (pumpBank tick qs run).1 = qs.drop k ∧
      (pumpBank tick qs run).2.map Prod.fst = run.map Prod.fst ++ qs.take k)
  ∧
  -- searchTable
  (∀ (s : State),
    (searchBlocks ⟨0, 1, 0, .cold⟩ = 66 ∧ searchPasses ⟨0, 1, 0, .cold⟩ = 3 ∧ searchMs ⟨0, 1, 0, .cold⟩ = 24)
    ∧ (searchBlocks ⟨6, 1, 0, .cold⟩ = 132 ∧ searchPasses ⟨6, 1, 0, .cold⟩ = 5) ∧ (searchBlocks ⟨9, 1, 0,
      .cold⟩ = 33 ∧ searchPasses ⟨9, 1, 0, .cold⟩ = 2)
    ∧ (searchBlocks ⟨3, 1, 0, .aided⟩ = 1 ∧ searchMs ⟨3, 1, 0, .aided⟩ = 16) ∧ (searchBlocks ⟨0, 1, 0,
      .aided⟩ = 6 ∧ searchMs ⟨0, 1, 0, .aided⟩ = 4)
    ∧ (searchBlocks ⟨6, 1, 0, .aided⟩ = 12) ∧ (searchBlocks ⟨1, 1, 0, .handover⟩ = 1))
  ∧
  -- searchKinds
  (∀ (s : State) (k : SearchKind) (sg sv a : Nat),
    ((sg = 0 ∨ sg = 6 ∨ sg = 9 ∨ sg = 11) → searchKind k s sg sv a = some k)
    ∧ (sg = 3 → timeKnown s = true → searchKind k s sg sv a = some (if k = .cold then .aided else k))
    ∧ (¬ (sg = 0 ∨ sg = 6 ∨ sg = 9 ∨ sg = 11) → (sg ≠ 3 ∨ timeKnown s = false) →
      searchKind k s sg sv a = if handSource s sg sv a then some .handover else none))
  ∧
  -- searchWeak
  (∀ (s : State) (sg sv : Nat) (a : Fin 2) (pw : Nat) (ca co : Word) (r : Search × Nat), s.wide = true →
    s.gns.running.find? (fun r => r.1.sig == sg && r.1.sv == sv && r.1.ant == a.val && decide (r.2 ≤ s.clk.tick)) = some r →
    (pw ≤ (if r.1.kind = .cold then 150 else 120) ∨ freeTrk s r.1.ant = none) →
    ∃ t, exec (.searchComplete sg sv a pw ca co) s = .next t ∧
      t = { s with gns := { s.gns with queue := (pumpBank s.clk.tick s.gns.queue (s.gns.running.erase r)).1, running := (pumpBank s.clk.tick s.gns.queue (s.gns.running.erase r)).2 } })
  ∧
  -- searchFound
  (∀ (s : State) (sg sv : Nat) (a : Fin 2) (pw : Nat) (ca co : Word) (r : Search × Nat) (c : Nat),
    s.wide = true →
    s.gns.running.find? (fun r => r.1.sig == sg && r.1.sv == sv && r.1.ant == a.val && decide (r.2 ≤ s.clk.tick)) = some r →
    (if r.1.kind = .cold then 150 else 120) < pw → freeTrk s r.1.ant = some c →
    ∃ t, exec (.searchComplete sg sv a pw ca co) s = .next t ∧ Does s t [(fGNS_TRK_CFG_SIG c, sg),
      (fGNS_TRK_CFG_SV c, sv), (fGNS_TRK_CFG_EN c, 1), (fGNS_TRK_CFG_INT c,
      min (s.get (fGNS_TRK_CFG_INT c)) (intMax sg)),
      (wordAt (fGNS_TRK_CARR_F c).addr, ca.toNat),
      (wordAt (fGNS_TRK_CODE_F c).addr, co.toNat), (wordAt (fGNS_TRK_CODE_CNT c).addr, 0), (fGNS_TRK_LOCK c, 0),
      (fGNS_STATUS_NTRK, ((List.range 384).filter fun k => t.bit (fGNS_TRK_CFG_EN k)).length)] [] [.gns]
    ∧ t.trk c = { Trk.init with carr := ca, code := co } ∧ (∀ k, k ≠ c → t.trk k = s.trk k)
    ∧ (t.gns.queue, t.gns.running) = pumpBank s.clk.tick s.gns.queue (s.gns.running.erase r))
  ∧
  -- searchNone
  (∀ (s : State) (sg sv : Nat) (a : Fin 2) (pw : Nat) (ca co : Word), (s.wide = false ∨
    s.gns.running.find? (fun r => r.1.sig == sg && r.1.sv == sv && r.1.ant == a.val && decide (r.2 ≤ s.clk.tick)) = none) →

    ∃ t, exec (.searchComplete sg sv a pw ca co) s = .next t ∧ t = s)
  ∧
  -- navSave
  (∀ (s : State) (f : Bool) (t0 : Nat), s.wide = true → s.gns.chgAt = some t0 → s.clk.tick ≤ t0 + 1200000 →
    Room s 1 →
    ∃ t, exec (.navDataSave f) s = .next t ∧ Does s t [] [s.evOf 0x6042 0 (if f then 1 else 0)] [.gns] ∧
      t.gns = { s.gns with nav := if f then s.gns.nav else some s.gns.cur, chgAt := none })
  ∧
  -- navNoSave
  (∀ (s : State) (f : Bool), (s.gns.chgAt = none ∨ (∃ t0, s.gns.chgAt = some t0 ∧ t0 + 1200000 < s.clk.tick)) →
    ∃ t, exec (.navDataSave f) s = .next t ∧ t = s)
  ∧
  -- dump
  (∀ (s : State) (c : Fin 384) (sums : List (Int × Int)), s.wide = true → s.bit (fGNS_TRK_CFG_EN c) = true →
    s.bit (fGNS_TRK_DUMP_DUMP_RDY c) = false →
    ∃ t, exec (.dumpLatch c sums) s = .next t ∧ Does s t (((List.range 7).flatMap fun m => [(fGNS_TRK_COR_I c m,
      toField 16 (sums.getD m (0, 0)).1), (fGNS_TRK_COR_Q c m, toField 16 (sums.getD m (0, 0)).2)])
      ++ [(fGNS_TRK_DUMP_DUMP_CNT c, s.get (fGNS_TRK_DUMP_DUMP_CNT c) + 1), (fGNS_TRK_DUMP_DUMP_RDY c, 1)]) []
        [.gns]
    ∧ t.trk c = { s.trk c with
        newCarr := false, newCode := false,
          carr := if (s.trk c).newCarr then s.rd (fGNS_TRK_CARR_F c).addr else (s.trk c).carr,
        code := if (s.trk c).newCode then s.rd (fGNS_TRK_CODE_F c).addr else (s.trk c).code }
    ∧ (∀ k, k ≠ c.val → t.trk k = s.trk k))
  ∧
  -- dumpOver
  (∀ (s : State) (c : Fin 384) (sums : List (Int × Int)), s.wide = true → s.bit (fGNS_TRK_CFG_EN c) = true →
    s.bit (fGNS_TRK_DUMP_DUMP_RDY c) = true →
    (match (s.trk c).overAt with | some t0 => decide (t0 + 20000 ≤ s.clk.tick) | none => true) = true →
    Room s 1 →
    ∃ t, exec (.dumpLatch c sums) s = .next t ∧ Does s t (((List.range 7).flatMap fun m => [(fGNS_TRK_COR_I c m,
      toField 16 (sums.getD m (0, 0)).1), (fGNS_TRK_COR_Q c m, toField 16 (sums.getD m (0, 0)).2)])
      ++ [(fGNS_TRK_DUMP_DUMP_CNT c, s.get (fGNS_TRK_DUMP_DUMP_CNT c) + 1), (fGNS_TRK_DUMP_OVERRUN c,
        s.up (fGNS_TRK_DUMP_OVERRUN c)), (fGNS_TRK_DUMP_DUMP_RDY c, 1)])
    [s.evOf 0x6050 (c.val % 256) 0 f16NaN (f16OfNat (s.up (fGNS_TRK_DUMP_OVERRUN c)))] [.gns]
    ∧ (t.trk c).overAt = some s.clk.tick)
  ∧
  -- dumpOverAgain
  (∀ (s : State) (c : Fin 384) (sums : List (Int × Int)) (t0 : Nat), s.wide = true →
    s.bit (fGNS_TRK_CFG_EN c) = true → s.bit (fGNS_TRK_DUMP_DUMP_RDY c) = true → (s.trk c).overAt = some t0 →
    s.clk.tick < t0 + 20000 →
    ∃ t, exec (.dumpLatch c sums) s = .next t ∧ Does s t (((List.range 7).flatMap fun m => [(fGNS_TRK_COR_I c m,
      toField 16 (sums.getD m (0, 0)).1), (fGNS_TRK_COR_Q c m, toField 16 (sums.getD m (0, 0)).2)])
      ++ [(fGNS_TRK_DUMP_DUMP_CNT c, s.get (fGNS_TRK_DUMP_DUMP_CNT c) + 1), (fGNS_TRK_DUMP_OVERRUN c,
        s.up (fGNS_TRK_DUMP_OVERRUN c)), (fGNS_TRK_DUMP_DUMP_RDY c, 1)]) [] [.gns])
  ∧
  -- dumpOff
  (∀ (s : State) (c : Fin 384) (sums : List (Int × Int)), (s.wide = false ∨ s.bit (fGNS_TRK_CFG_EN c) = false) →

    ∃ t, exec (.dumpLatch c sums) s = .next t ∧ t = s)
  ∧
  -- nco
  (∀ (s : State) (req : Req) (c : Fin 384) (code : Bool) (v : Word), s.wide = true → trkOwner req c = true →
    ∃ t, exec (.ncoWrite req c code v) s = .next t ∧
      Does s t ((if (if code then (s.trk c).newCode else (s.trk c).newCarr) = true then [(fGNS_TRK_DUMP_NCO_SUPERSEDED c,
      s.up (fGNS_TRK_DUMP_NCO_SUPERSEDED c))] else [])
      ++ [(wordAt (if code then (fGNS_TRK_CODE_F c).addr else (fGNS_TRK_CARR_F c).addr), v.toNat)]) [] [.gns]
    ∧ t.trk c = (if code then { s.trk c with newCode := true } else { s.trk c with newCarr := true })
    ∧ (∀ k, k ≠ c.val → t.trk k = s.trk k))
  ∧
  -- ncoOther
  (∀ (s : State) (req : Req) (c : Fin 384) (code : Bool) (v : Word), (trkOwner req c = false ∨ s.wide = false) →

    ∃ t, exec (.ncoWrite req c code v) s = .next t ∧ t = s)
  ∧
  -- trackLoop
  (∀ (s : State) (u : TrackUpd), s.wide = true → s.clk.tick % 20 = 0 → s.bit (fGNS_TRK_CFG_EN u.ch) = true →
    gnRuns s (u.ch.val / 192) = true → (s.trk u.ch).newCarr = false → (s.trk u.ch).newCode = false →
    u.lock = true → 80 ≤ u.cn0 →
    ∃ t, exec (.trackingLoopPeriod [u] []) s = .next t ∧ Does s t [(fGNS_TRK_DUMP_DUMP_RDY u.ch, 0),
      (wordAt (fGNS_TRK_CARR_F u.ch).addr, u.carr.toNat), (wordAt (fGNS_TRK_CODE_F u.ch).addr, u.code.toNat),
      (fGNS_TRK_LOCK_CN0 u.ch, min u.cn0 255), (fGNS_TRK_LOCK_LOCK u.ch, 1), (fGNS_TRK_LOCK_COAST u.ch, 0)] []
        [.gns]
    ∧
      t.trk u.ch = { s.trk u.ch with newCarr := true, newCode := true, lowAt := none, lockAt := some ((s.trk u.ch).lockAt.getD s.clk.tick) }
    ∧ (∀ k, k ≠ u.ch.val → t.trk k = s.trk k))
  ∧
  -- trackLow
  (∀ (s : State) (u : TrackUpd), s.wide = true → s.clk.tick % 20 = 0 → s.bit (fGNS_TRK_CFG_EN u.ch) = true →
    gnRuns s (u.ch.val / 192) = true → s.bit (fGNS_TRK_LOCK_COAST u.ch) = true → (u.lock = false ∨ u.cn0 < 80) →

    ∃ t, exec (.trackingLoopPeriod [u] []) s = .next t ∧ Does s t [(fGNS_TRK_DUMP_DUMP_RDY u.ch, 0),
      (fGNS_TRK_LOCK_CN0 u.ch, min u.cn0 255)] [] [.gns]
    ∧ t.trk u.ch = { s.trk u.ch with lowAt := some ((s.trk u.ch).lowAt.getD s.clk.tick) }
    ∧ (∀ k, k ≠ u.ch.val → t.trk k = s.trk k))
  ∧
  -- trackMore
  (∀ (s : State) (u : TrackUpd) (us : List TrackUpd), s.wide = true → s.clk.tick % 20 = 0 →
    ∃ t, exec (.trackingLoopPeriod (u :: us) []) s = .next t ∧ t = forAll us trackOne (trackOne u s))
  ∧
  -- trackPlan
  (∀ (s : State) (sg sv : Nat) (a : Fin 2) (q : Search), gnRuns s 1 = true → s.clk.tick % 20 = 0 →
    s.get fGNS_STATUS_START ≠ 0 → searchFor .aided s sg sv a = some q →
    ∃ t, exec (.trackingLoopPeriod [] [(sg, sv, a)]) s = .next t ∧
      t = { s with gns := { s.gns with queue := (pumpBank s.clk.tick (s.gns.queue ++ [q]) s.gns.running).1, running := (pumpBank s.clk.tick (s.gns.queue ++ [q]) s.gns.running).2 } })
  ∧
  -- trackNot
  (∀ (s : State) (us : List TrackUpd) (pl : List (Nat × Nat × Fin 2)), (s.wide = false ∨ s.clk.tick % 20 ≠ 0) →
    ∃ t, exec (.trackingLoopPeriod us pl) s = .next t ∧ t = s)
  ∧
  -- lockLoss
  (∀ (s : State) (c : Fin 384) (t0 : Nat), s.wide = true → s.bit (fGNS_TRK_CFG_EN c) = true →
    (s.trk c).lowAt = some t0 → t0 + 2000 ≤ s.clk.tick → s.bit (fGNS_TRK_LOCK_COAST c) = false →
    ∃ t, exec (.lockLoss c) s = .next t ∧ Does s t [(fGNS_TRK_LOCK_LOCK c, 0), (fGNS_TRK_LOCK_COAST c, 1)] []
      [.gns] ∧ t.trk c = { s.trk c with coastAt := s.clk.tick, lockAt := none }
    ∧ (∀ k, k ≠ c.val → t.trk k = s.trk k))
  ∧
  -- lockHeld
  (∀ (s : State) (c : Fin 384), (s.bit (fGNS_TRK_CFG_EN c) = false ∨ (s.trk c).lowAt = none ∨ (∃ t0,
    (s.trk c).lowAt = some t0 ∧ s.clk.tick < t0 + 2000) ∨ s.bit (fGNS_TRK_LOCK_COAST c) = true) →
    ∃ t, exec (.lockLoss c) s = .next t ∧ t = s)
  ∧
  -- coastEnd
  (∀ (s : State) (c : Fin 384), s.wide = true → s.bit (fGNS_TRK_LOCK_COAST c) = true →
    (s.trk c).coastAt + 40000 ≤ s.clk.tick →
    ∃ t, exec (.coastExpire c) s = .next t ∧ ∃ u,
      t = (match searchFor .aided u (s.get (fGNS_TRK_CFG_SIG c)) (s.get (fGNS_TRK_CFG_SV c)) (c.val / 192) with
        | some q => queueSearches [q] u
        | none => u)
    ∧ Does s u [(fGNS_TRK_CFG_EN c, 0), (fGNS_TRK_LOCK_COAST c, 0),
      (fGNS_STATUS_NTRK, ((List.range 384).filter fun k => u.bit (fGNS_TRK_CFG_EN k)).length)] [] [])
  ∧
  -- coastGoes
  (∀ (s : State) (c : Fin 384), (s.bit (fGNS_TRK_LOCK_COAST c) = false ∨
    s.clk.tick < (s.trk c).coastAt + 40000) →
    ∃ t, exec (.coastExpire c) s = .next t ∧ t = s)

/-- A solution is made of the satellites that pass the checks of R222. The residual tests exclude at most two of them,
each recorded as 0x6021. With fewer than four used satellites it is written with fix NONE at its epoch tick, sets
EVT.SOL, and leaves module time alone; one that is valid with an error of at most 1 ms sets TERR, ends RTC_ONLY and
makes the time status LOCKED. Without a latched epoch, after its 300 ticks, or with GN0 not running, nothing
changes. A read of the first word of the record latches it for the reading core. A frame with a bad checksum, or a
message of an unused type, is counted as refused (the type recorded once per hour); an observation of the source in
use brings the corrections into use with age 0. A frame of the CAN stream that follows adds its bytes, a gap in the
sequence discards the RTCM frame under assembly, and complete frames wait to be taken; the layout of an RTCM frame
and its checksum are PRESUMED (log entry 135). The other source is used, with 0x6030, when the preferred one is
silent and the other delivers; corrections that are too old are dropped with 0x6031. TP0 rises at a due instant,
counts and shows the time status, one period later when less than half a period has passed since the last edge, and
not otherwise. That a command whose conditions do not hold changes nothing is the model's reading (log entry 15).
Where the spec leaves the choice open or has to be read by inference, the clauses state the model's, of log entries
4, 52, 53, 110, 135, 141, 145, 146, 147. (R51, R213, R222, R223, R224, R225, R226, R229, R230, R233) -/
def Obligations.GnssSolutions : Prop :=
  -- solNone
  (∀ (s : State) (sol : Solution) (e : Nat), gnRuns s 0 = true → s.gns.epoch = some e → s.clk.tick ≤ e + 300 →
    s.bit fGNS_SOL_STAT_SUBST = false → (usedSats s sol.sats 0).length < 4 → s.get fGNS_HEAD_CFG_BASE = 0 →
    s.get fGNS_SOL_STAT_FIX = 0 → sol.leap = none →
    ∃ t, exec (.solutionReady sol) s = .next t ∧ t.get fGNS_SOL_STAT_FIX = 0 ∧
      t.get fGNS_SOL_STAT_NSAT = (usedSats s sol.sats 0).length ∧ t.get fGNS_EVT_SOL = 1 ∧
      t.bit fGNS_SOL_STAT_HEAD_OK = false
    ∧ t.bit fGNS_SOL_STAT_INTEG = false ∧ t.get (wordAt fGNS_SOL_TICK_LO.addr) = e % 4294967296
    ∧ (∀ a, a < 0x40090000 → t.rd a = s.rd a) ∧ (∀ a, 0x400A0000 ≤ a → t.rd a = s.rd a)
    ∧ t.gns.epoch = none ∧ Records s t [] ∧ SameMem s t ∧ PartsBut s t [.gns])
  ∧
  -- solTime
  (∀ (s : State) (sol : Solution) (e : Nat) (err : Int), gnRuns s 0 = true → s.gns.epoch = some e →
    s.clk.tick ≤ e + 300 → s.bit fGNS_SOL_STAT_SUBST = false → residTest 2 (usedSats s sol.sats 0) []
    sol.tests = ⟨true, usedSats s sol.sats 0, []⟩ → 4 ≤ (usedSats s sol.sats 0).length → sol.leap = none →
    steerErr sol (usedSats s sol.sats 0) = some err → bandsClear s (usedSats s sol.sats 0) 0 = true →
    err.natAbs ≤ 1000000 → timeStat s ≠ 3 →
    ∃ t, exec (.solutionReady sol) s = .next t ∧ timeStat t = 0 ∧ t.bit fCLK_STATUS_RTC_ONLY = false ∧
      t.rd fCLK_TERR.addr = BitVec.ofNat 32 (sat32 err)
    ∧ t.clk = { s.clk with noSol := 0, err := err, resid := err * 1000 }
    ∧ t.get fGNS_SOL_STAT_FIX = fixOf s (usedSats s sol.sats 0) sol.amb ∧ t.bit fGNS_SOL_STAT_INTEG = true ∧
      PartsBut s t [.gns, .clk])
  ∧
  -- solExcluded
  (∀ (s : State) (sol : Solution) (e : Nat) (x : Nat × F32), gnRuns s 0 = true → s.gns.epoch = some e →
    s.clk.tick ≤ e + 300 → s.bit fGNS_SOL_STAT_SUBST = false → x ∈ (residTest 2 (usedSats s sol.sats 0) []
    sol.tests).out → Room s 8 →
    ∃ t, exec (.solutionReady sol) s = .next t ∧ s.evOf 0x6021 x.1 0 f16NaN (f16OfF32 x.2) ∈ t.evr.intake
    ∧ t.get fGNS_SOL_STAT_NEXCL = (residTest 2 (usedSats s sol.sats 0) [] sol.tests).out.length)
  ∧
  -- solTests
  (∀ (s : State) (used : List UsedSat) (ts : List ResTest),
    (residTest 2 used [] ts).out.length ≤ 2 ∧ (residTest 2 used [] ts).used.length + (residTest 2 used []
      ts).out.length = used.length
    ∧ (used.length = 4 → residTest 2 used [] ts = ⟨true, used, []⟩) ∧ (used.length < 4 → residTest 2 used []
      ts = ⟨false, used, []⟩))
  ∧
  -- solNot
  (∀ (s : State) (sol : Solution), (s.gns.epoch = none ∨ gnRuns s 0 = false ∨ (∃ e, s.gns.epoch = some e ∧
    e + 300 < s.clk.tick)) →
    ∃ t, exec (.solutionReady sol) s = .next t ∧ t = s)
  ∧
  -- solUsed
  (∀ (s : State) (x : SatIn), satOk s x = true →
    s.bit (fGNS_TRK_CFG_EN x.ch) = true ∧
      served s (s.get (fGNS_TRK_CFG_SIG x.ch)) (s.get (fGNS_TRK_CFG_SV x.ch)) = true ∧ x.healthy = true
    ∧ ((100 * s.get fGNS_CFG_ELEV : Nat) : Int) < x.elev ∧ 120 ≤ s.get (fGNS_TRK_LOCK_CN0 x.ch) ∧
      s.bit (fGNS_TRK_LOCK_LOCK x.ch) = true
    ∧ (∃ t0, (s.trk x.ch).lockAt = some t0 ∧ t0 + 40000 ≤ s.clk.tick)
    ∧ s.gns.exclUsed.testBit (3 * (x.ch.val / 192) + sigBand (s.get (fGNS_TRK_CFG_SIG x.ch))) = false)
  ∧
  -- solRead
  (∀ (s : State) (req : Req), s.wide = true →
    ∃ t, exec (.gnsSolRead req) s = .next t ∧ t.bus = ⟨s.rd fGNS_SOL_TICK_LO.addr, false⟩ ∧ Does s t [] []
      [.bus, .gns]
    ∧ (∀ k : Fin 18,
      viewReg t (reqBank req) (fGNS_SOL_TICK_LO.addr + 4 * k) = s.rd (fGNS_SOL_TICK_LO.addr + 4 * k))
    ∧ (∀ b, b ≠ reqBank req → tabGet (fun _ => []) t.gns.latch b = tabGet (fun _ => []) s.gns.latch b))
  ∧
  -- solReadOff
  (∀ (s : State) (req : Req), s.wide = false →
    ∃ t, exec (.gnsSolRead req) s = .next t ∧ t = { s with bus := ⟨0#32, false⟩ })
  ∧
  -- rtcmBad
  (∀ (s : State) (f : List Byte), gnRuns s 0 = true → s.get fPWR_STATUS_STATE ≠ 1 →
    s.get fETH_STATUS_NTRIP = 2 → rtcmPass f = false →
    ∃ t, exec (.rtcmMessage (some f)) s = .next t ∧ Does s t [(fGNS_CORR_CNT_REFUSED,
      s.up fGNS_CORR_CNT_REFUSED)] [] [.eth]
    ∧ t.eth = { s.eth with byteAt := some s.clk.tick, rx := (s.clk.tick, f.length) :: s.eth.rx })
  ∧
  -- rtcmType
  (∀ (s : State) (f : List Byte), gnRuns s 0 = true → s.get fPWR_STATUS_STATE ≠ 1 →
    s.get fETH_STATUS_NTRIP = 2 → rtcmPass f = true → rtcmUsed (payBits (f.drop 3) 0 12) = false →
    s.gns.refusedAt = [] → Room s 1 →
    ∃ t, exec (.rtcmMessage (some f)) s = .next t ∧ Does s t [(fGNS_CORR_CNT_REFUSED,
      s.up fGNS_CORR_CNT_REFUSED)] [s.evOf 0x6032 0 0 f16NaN (f16OfNat (payBits (f.drop 3) 0 12))] [.gns, .eth]
    ∧ t.gns = { s.gns with refusedAt := [(payBits (f.drop 3) 0 12, s.clk.tick)] })
  ∧
  -- rtcmObs
  (∀ (s : State) (f : List Byte), gnRuns s 0 = true → s.get fPWR_STATUS_STATE ≠ 1 →
    s.get fETH_STATUS_NTRIP = 2 → rtcmPass f = true → rtcmObs (payBits (f.drop 3) 0 12) = true →
    s.gns.source = some 0 → s.gns.station = none →
    ∃ t, exec (.rtcmMessage (some f)) s = .next t ∧ Does s t [(fGNS_CORR_CNT_ACCEPTED,
      s.up fGNS_CORR_CNT_ACCEPTED), (fGNS_CORR_STAT_STATION, payBits (f.drop 3) 12 12), (fGNS_CORR_STAT_IN_USE,
      1), (fGNS_CORR_STAT_AGE, 0)] [] [.gns, .eth]
    ∧ t.gns.station = some (payBits (f.drop 3) 12 12) ∧ obsTick t 0 = some s.clk.tick)
  ∧
  -- rtcmOff
  (∀ (s : State) (f : List Byte), (s.wide = false ∨ s.get fPWR_STATUS_STATE = 1 ∨ s.get fETH_STATUS_NTRIP ≠ 2) →

    ∃ t, exec (.rtcmMessage (some f)) s = .next t ∧ t = s)
  ∧
  -- rtcmNext
  (∀ (s : State) (f : List Byte) (rest : List (List Byte)), gnRuns s 0 = true → s.gns.frames = f :: rest →
    ∃ t, exec (.rtcmMessage none) s = .next t ∧
      t = takeRtcm 1 f { s with gns := { s.gns with frames := rest } })
  ∧
  -- rtcmNoNext
  (∀ (s : State), (s.gns.frames = [] ∨ gnRuns s 0 = false) →
    ∃ t, exec (.rtcmMessage none) s = .next t ∧ t = s)
  ∧
  -- rtcmCan
  (∀ (s : State) (port : Fin 6) (ext : Bool) (id : Nat) (data : List Byte), s.wide = true →
    s.get fGNS_CORR_CFG_PORT = port → s.bit fGNS_CORR_CFG_EXT = ext → s.get fGNS_CORR_ID_CAN_ID = id →
    data.length = 64 →
    ∃ t, exec (.rtcmCanFrame port ext id data) s = .next t ∧ t = { s with gns := { s.gns with
        seq := some (data.getD 0 0#8).toNat,
        buf := (cutFrames 12 ((if (∀ x, s.gns.seq = some x →
          (x + 1) % 256 = (data.getD 0 0#8).toNat) then s.gns.buf else []) ++ data.drop 1)).2,
        frames := s.gns.frames ++ (cutFrames 12 ((if (∀ x, s.gns.seq = some x →
          (x + 1) % 256 = (data.getD 0 0#8).toNat) then s.gns.buf else []) ++ data.drop 1)).1 } })
  ∧
  -- rtcmOther
  (∀ (s : State) (port : Fin 6) (ext : Bool) (id : Nat) (data : List Byte), (s.wide = false ∨
    s.get fGNS_CORR_CFG_PORT ≠ port ∨ s.bit fGNS_CORR_CFG_EXT ≠ ext ∨ s.get fGNS_CORR_ID_CAN_ID ≠ id ∨
    data.length ≠ 64) →
    ∃ t, exec (.rtcmCanFrame port ext id data) s = .next t ∧ t = s)
  ∧
  -- corrSwitch
  (∀ (s : State), s.wide = true → delivering s (s.get fGNS_CORR_CFG_PREF) = false →
    delivering s (1 - s.get fGNS_CORR_CFG_PREF) = true → s.gns.source ≠ some (1 - s.get fGNS_CORR_CFG_PREF) →
    Room s 1 →
    ∃ t, exec (.corrSourceSwitch) s = .next t ∧ Does s t [(fGNS_CORR_STAT_SRC, 1 - s.get fGNS_CORR_CFG_PREF),
      (fGNS_EVT_CORR, 1), (fGNS_CORR_STAT_IN_USE, 1)]
      [s.evOf 0x6030 (1 - s.get fGNS_CORR_CFG_PREF)] [.gns]
    ∧ t.gns = { s.gns with source := some (1 - s.get fGNS_CORR_CFG_PREF) })
  ∧
  -- corrStays
  (∀ (s : State), (delivering s (s.get fGNS_CORR_CFG_PREF) = true ∨
    delivering s (1 - s.get fGNS_CORR_CFG_PREF) = false) →
    ∃ t, exec (.corrSourceSwitch) s = .next t ∧ t = s)
  ∧
  -- corrOld
  (∀ (s : State) (src t0 : Nat), s.wide = true → s.bit fGNS_CORR_STAT_IN_USE = true → s.gns.source = some src →
    obsTick s src = some t0 → 20000 * s.get fGNS_CORR_CFG_CORR_AGE_MAX < s.clk.tick - t0 → Room s 1 →
    ∃ t, exec (.corrAgeOut) s = .next t ∧ Does s t [(fGNS_CORR_STAT_IN_USE, 0), (fGNS_EVT_CORR, 1)]
      [s.evOf 0x6031 src 0 f16NaN (f16OfRatio false (s.clk.tick - t0) 20000)] [])
  ∧
  -- corrYoung
  (∀ (s : State) (src t0 : Nat), (s.bit fGNS_CORR_STAT_IN_USE = false ∨ (s.gns.source = some src ∧
    obsTick s src = some t0 ∧ s.clk.tick - t0 ≤ 20000 * s.get fGNS_CORR_CFG_CORR_AGE_MAX)) →
    ∃ t, exec (.corrAgeOut) s = .next t ∧ t = s)
  ∧
  -- tp0
  (∀ (s : State) (cyc : Fin 20000), tpDue s cyc = true → tpClear s cyc = true →
    ∃ t, exec (.tp0Edge cyc) s = .next t ∧ Does s t [(fGNS_TP0_STAT_EDGES, s.get fGNS_TP0_STAT_EDGES + 1),
      (fGNS_TP0_STAT_TSTAT, timeStat s)] [] [.gns]
    ∧ t.gns = { s.gns with tpAt := some (s.clk.tick, cyc.val), tpK := some (tpNow s cyc).1 })
  ∧
  -- tp0Later
  (∀ (s : State) (cyc : Fin 20000), tpDue s cyc = true → tpClear s cyc = false →
    ∃ t, exec (.tp0Edge cyc) s = .next t ∧ t = { s with gns := { s.gns with tpK := some (tpNow s cyc).1 } })
  ∧
  -- tp0Not
  (∀ (s : State) (cyc : Fin 20000), tpDue s cyc = false →
    ∃ t, exec (.tp0Edge cyc) s = .next t ∧ t = s)
  ∧
  -- tp0Pin
  (∀ (s : State) (tick cyc t0 c0 : Nat), s.gns.tpAt = some (t0, c0) →
    tp0Level s tick cyc = (decide (20000 * t0 + c0 ≤ 20000 * tick + cyc ∧ 20000 * tick + cyc < 20000 * t0 + c0
      + min (400000 * s.get fGNS_TP0_CFG_WIDTH) (tpPeriod s / 5)) != s.bit fGNS_TP0_CFG_POL))

/-- On an FYH7-A manager in OPEN, an accepted frame marks its exposure arrived and its port PRESENT; a gap makes it
INCOMPLETE with 0x7003, its missing lines filled by the last received, and an exposure more than 1 µs off sets SKEW
with 0x7006. One that fails a test of R238 is counted as dropped and recorded with the test, at most once per
second. A frame whose last line is late is dropped with an invalid record, counted and recorded. Three missed
exposures make a port ABSENT, and a link fall DOWN, each recorded. At 300 ticks before a boundary the exposure
message goes out with the active exposure, and the boundary begins its frame. A shadow write changes only its fields
inside the legal ranges and counts an earlier one as superseded; the boundary copies all shadows to the active set
and counts the generation. A disabled stage passes its pixels through, and the black level is subtracted per channel
and clamped at 0. A frame's image and statistics are written with VALID, its frame number and its shadow generation,
the histogram and zone sums of tap A and, for clean grain, the block counts and fractions of tap B; FRAME shows it,
and its exposure is done. Out of OPEN, on any other module and on a port out of use, each of these commands changes
nothing, nor does a write by the OEM partition. The orders that the spec leaves open are those of log entries 11 and
137. That a command whose conditions do not hold changes nothing is the model's reading (log entry 15). Where the
spec leaves the choice open or has to be read by inference, the clauses state the model's, of log entries 11, 137.
(R238, R239, R241, R242, R243, R244, R245, R246, R247, R249, R250) -/
def Obligations.CameraPipelines : Prop :=
  -- strmOk
  (∀ (s : State) (n : Fin 6) (i : StreamIn), pipeOn s n = true → streamFault s n i = 0 →
    frameLate s i.frame = false → s.get (fISP_STATUS_PORT n) = 2 → ((∀ f ∈ (s.pipe n).frames, f.arrived = true ∨
    i.frame ≤ f.frame)) → Room s 2 →
    ∃ t, exec (.streamFrame n i) s = .next t ∧
      Does s t ((if (i.lines.filter fun l => l.isNone).length = 0 then [] else [(fISP_EVT_FRAME_ERR n, 1)])
      ++ [(fISP_SKEW_MAX_NS, max (s.get fISP_SKEW_MAX_NS) (min 65535 (frameSkew s i).natAbs))]
      ++ (if (frameSkew s i).natAbs ≤ 1000 then [] else [(fISP_EVT_SKEW n, 1)]))
    ((if (i.lines.filter fun l => l.isNone).length = 0 then []
      else [s.evOf 0x7003 n 0 f16NaN (f16OfNat (i.lines.filter fun l => l.isNone).length)])
      ++ (if (frameSkew s i).natAbs ≤ 1000 then []
        else [s.evOf 0x7006 n 0 f16NaN (f16OfRatio false (frameSkew s i).natAbs 1000)])) [.isp]
    ∧ t.pipe n = { s.pipe n with
        frames := (s.pipe n).frames.map fun f => if f.frame = i.frame then
          { f with
            arrived := true, incomplete := (i.lines.filter fun l => l.isNone).length != 0,
              skew := decide (1000 < (frameSkew s i).natAbs),
            raw := fillLines i.frame i.width i.lines } else f }
    ∧ (∀ k, k ≠ n.val → t.pipe k = s.pipe k))
  ∧
  -- strmPresent
  (∀ (s : State) (n : Fin 6) (i : StreamIn), pipeOn s n = true → streamFault s n i = 0 →
    frameLate s i.frame = false →
    ∃ t, exec (.streamFrame n i) s = .next t ∧ t.get (fISP_STATUS_PORT n) = 2 ∧ (∀ f ∈ (t.pipe n).frames,
      f.arrived = true ∨ i.frame ≤ f.frame)
    ∧ (∀ k, k ≠ n.val → t.pipe k = s.pipe k) ∧ PartsBut s t [.isp])
  ∧
  -- strmTests
  (∀ (s : State) (n : Fin 6) (i : StreamIn),
    streamFault s n i = (if i.rvf = false then 1
      else if i.stream ≠ s.get (fISP_STREAM_ID_LO n) + 4294967296 * s.get (fISP_STREAM_ID_HI n) then 2
      else if i.bayer12 = false then 3
      else if i.width ≠ 16 * s.get (fISP_PORT_CFG_WIDTH n) ∨
        i.height ≠ 16 * s.get (fISP_PORT_CFG_HEIGHT n) then 4
      else if i.tsValid = false then 5 else 0))
  ∧
  -- strmDrop
  (∀ (s : State) (n : Fin 6) (i : StreamIn), pipeOn s n = true → streamFault s n i ≠ 0 →
    (match (s.pipe n).drop with | some t0 => decide (t0 + 20000 ≤ s.clk.tick) | none => true) = true →
    Room s 1 →
    ∃ t, exec (.streamFrame n i) s = .next t ∧ Does s t [(fISP_CNT_DROP n, s.up (fISP_CNT_DROP n)),
      (fISP_EVT_FRAME_ERR n, 1)] [s.evOf 0x7005 n (streamFault s n i)] [.isp]
    ∧ t.pipe n = { s.pipe n with drop := some s.clk.tick } ∧ (∀ k, k ≠ n.val → t.pipe k = s.pipe k))
  ∧
  -- strmDropAgain
  (∀ (s : State) (n : Fin 6) (i : StreamIn) (t0 : Nat), pipeOn s n = true → streamFault s n i ≠ 0 →
    (s.pipe n).drop = some t0 → s.clk.tick < t0 + 20000 →
    ∃ t, exec (.streamFrame n i) s = .next t ∧ Does s t [(fISP_CNT_DROP n, s.up (fISP_CNT_DROP n)),
      (fISP_EVT_FRAME_ERR n, 1)] [] [])
  ∧
  -- frameLate
  (∀ (s : State) (n : Fin 6) (f : Nat), pipeOn s n = true → 400 * f + 400 < s.clk.tick → Room s 1 →
    ∃ t, exec (.frameLate n f) s = .next t ∧ RegsBut s t [(fISP_CNT_LATE n, s.up (fISP_CNT_LATE n)),
      (fISP_EVT_FRAME_ERR n, 1)]
    ∧ Records s t [s.evOf 0x7004 n 0 f16NaN (f16OfRatio false (s.clk.tick - (400 * f + 400)) 20)]
    ∧ PartsBut s t [.isp] ∧
      t.pipe n = { s.pipe n with frames := (s.pipe n).frames.filter (fun x => x.frame != f) }
    ∧ (∀ k, k ≠ n.val → t.pipe k = s.pipe k) ∧ (∀ a, a < 0x140000000 → t.rd8 a = s.rd8 a)
    ∧ (∀ x ∈ (s.pipe n).frames, x.frame = f → t.rd32 (statsAddr n f) = BitVec.ofNat 32 f ∧
      t.rd32 (statsAddr n f + 0x1C) = 0#32))
  ∧
  -- streamLate
  (∀ (s : State) (n : Fin 6) (i : StreamIn), pipeOn s n = true → streamFault s n i = 0 →
    frameLate s i.frame = true →
    exec (.streamFrame n i) s = exec (.frameLate n i.frame) s)
  ∧
  -- portAbsent
  (∀ (s : State) (n : Fin 6), pipeOn s n = true → s.get (fISP_STATUS_PORT n) ≠ 1 → 3 ≤ missedFrames s n →
    Room s 1 →
    ∃ t, exec (.portAbsent n) s = .next t ∧ RegsBut s t [(fISP_STATUS_PORT n, 1), (fISP_EVT_LINK n, 1)] ∧
      Records s t [s.evOf 0x7002 n] ∧ PartsBut s t [.isp]
    ∧
      t.pipe n = { s.pipe n with frames := (s.pipe n).frames.filter fun f => f.arrived || decide (s.clk.tick / 400 ≤ f.frame) }
    ∧ (∀ k, k ≠ n.val → t.pipe k = s.pipe k) ∧ (∀ a, a < 0x140000000 → t.rd8 a = s.rd8 a))
  ∧
  -- portNotAbsent
  (∀ (s : State) (n : Fin 6), (s.get (fISP_STATUS_PORT n) = 1 ∨ missedFrames s n < 3) →
    ∃ t, exec (.portAbsent n) s = .next t ∧ t = s)
  ∧
  -- linkDown
  (∀ (s : State) (n : Fin 6), Room s 1 →
    ∃ t, exec (.camLinkDown n) s = .next t ∧ if ispOn s = true ∧ s.get (fISP_STATUS_PORT n) ≠ 0 then
      Does s t [(fISP_STATUS_PORT n, 0), (fISP_EVT_LINK n, 1)] [s.evOf 0x7001 n] []
    else t = s)
  ∧
  -- expCmd
  (∀ (s : State) (n : Fin 6),
    ∃ t, exec (.exposureCommand n) s = .next t ∧ t = if pipeOn s n = true ∧
      exposes s n (s.clk.tick + 300) = true then
      s.setPipe n { s.pipe n with cmd := some ((s.clk.tick + 300) / 400, s.rd (fISP_SH_EXP n).addr) } else s)
  ∧
  -- expWhen
  (∀ (s : State) (n : Fin 6) (b : Nat),
    exposes s n b = (b % 400 == 0 && b / 400 % (if s.get (fISP_PORT_CFG_EXP_DIV n) = 0 then 1 else if s.get (fISP_PORT_CFG_EXP_DIV n) = 1 then 2 else 5) == 0))
  ∧
  -- expStart
  (∀ (s : State) (n : Fin 6) (w : Word), ispOn s = true → (s.pipe n).cmd = some (s.clk.tick / 400, w) →
    s.clk.tick % 400 = 0 →
    (exposureStart s).pipe n = { s.pipe n with cmd := none, frames := (s.pipe n).frames ++ [newFrame n (s.clk.tick / 400) s] }
    ∧ Does s (exposureStart s) [] [] [.isp])
  ∧
  -- shadowWr
  (∀ (s : State) (req : Req) (n : Fin 6) (r : Fin 11) (v : Word), reqIsOem req = false → s.wide = true →
    ∃ t, exec (.ispShadowWrite req n r v) s = .next t ∧
      Does s t (if (s.pipe n).written.contains r.val then [(fISP_SUPERSEDED n, s.up (fISP_SUPERSEDED n))]
      else []) [] [.isp]
    ∧ (t.pipe n).shadow.getD r 0#32 = shadowMerge s n r v ((s.pipe n).shadow.getD r (s.rd (shadowAddr n r)))
    ∧ (∀ k : Fin 11, k ≠ r → (t.pipe n).shadow.getD k 0#32 = (s.pipe n).shadow.getD k (s.rd (shadowAddr n k)))
    ∧ (t.pipe n).written.contains r.val = true ∧ (∀ k, k ≠ n.val → t.pipe k = s.pipe k))
  ∧
  -- shadowRefused
  (∀ (s : State) (req : Req) (n : Fin 6) (r : Fin 11) (v : Word), (reqIsOem req = true ∨ s.wide = false) →
    ∃ t, exec (.ispShadowWrite req n r v) s = .next t ∧ t = s)
  ∧
  -- shadowRange
  (∀ (s : State) (n : Fin 6) (v old : Word),
    (fldOf (fISP_SH_EXP_EXP n) v < 10 →
      fldOf (fISP_SH_EXP_EXP n) (shadowMerge s n 0 v old) = fldOf (fISP_SH_EXP_EXP n) old)
    ∧ (15000 < fldOf (fISP_SH_EXP_EXP n) v →
      fldOf (fISP_SH_EXP_EXP n) (shadowMerge s n 0 v old) = fldOf (fISP_SH_EXP_EXP n) old)
    ∧ (10 ≤ fldOf (fISP_SH_EXP_EXP n) v → fldOf (fISP_SH_EXP_EXP n) v ≤ 15000 →
      fldOf (fISP_SH_EXP_EXP n) (shadowMerge s n 0 v old) = fldOf (fISP_SH_EXP_EXP n) v)
    ∧ (fldOf (fISP_SH_EXP_GAIN n) v < 16 →
      fldOf (fISP_SH_EXP_GAIN n) (shadowMerge s n 0 v old) = fldOf (fISP_SH_EXP_GAIN n) old)
    ∧ (16 ≤ fldOf (fISP_SH_EXP_GAIN n) v →
      fldOf (fISP_SH_EXP_GAIN n) (shadowMerge s n 0 v old) = fldOf (fISP_SH_EXP_GAIN n) v))
  ∧
  -- shadowCopy
  (∀ (s : State) (n : Fin 6) (k : Fin 11), ispOn s = true →
    (shadowTransfer s).rd (shadowAddr n k) = (s.pipe n).shadow.getD k (s.rd (shadowAddr n k))
    ∧ (shadowTransfer s).get (fISP_GEN n) = (s.get (fISP_GEN n) + 1) % 4294967296
    ∧ (shadowTransfer s).pipe n = { s.pipe n with written := [] } ∧ SameMem s (shadowTransfer s) ∧
      PartsBut s (shadowTransfer s) [.isp])
  ∧
  -- stagesOff
  (∀ (s : State) (q : IspPar) (i : Plane) (c : List Plane) (y x : Nat),
    ((q.word 5).toNat % 2 = 0 → ispDefect q i = i) ∧ ((q.word 6).toNat % 2 = 0 → ispShading q i = i)
    ∧ ((q.word 7).toNat % 16 = 0 → ispNoise q c = c) ∧ ((q.word 9).toNat % 2 = 0 → ispRemap q c = c)
    ∧ (y < i.length → x < (i.getD y []).length →
      px (ispBlack q i) y x = px i y x - (q.word (1 + bayer y x)).toNat % 4096))
  ∧
  -- stageDefect
  (∀ (s : State) (q : IspPar) (i : Plane) (y x : Nat) (l : List Nat), (q.word 5).toNat % 2 = 1 → y < i.length →
    x < (i.getD y []).length → sameColour i y x = some l →
    px (ispDefect q i) y x = (if q.cal.dpc.contains (x, y) = true ∨ ((q.word 5).toNat / 2 % 4096 ≠ 0
        ∧ ∀ u ∈ l,
          (q.word 5).toNat / 2 % 4096 < (Int.ofNat (px i y x) - Int.ofNat u).natAbs) then mean4 l else px i y x))
  ∧
  -- statsW
  (∀ (s : State) (n : Fin 6) (f : Nat) (x : CamFrame), pipeOn s n = true →
    (s.pipe n).frames.find? (fun f' => f'.frame == f && f'.arrived) = some x → isCleanGrain s n = false →
    ∃ t, exec (.statsWritten n f) s = .next t ∧ Does s { t with mem := s.mem } [(fISP_FRAME n, f),
      (fISP_EVT_STATS n, 1)] [] [.isp, .rst]
    ∧ t.pipe n = { s.pipe n with frames := (s.pipe n).frames.filter (fun g => g.frame != f) } ∧ (∀ k,
      k ≠ n.val → t.pipe k = s.pipe k)
    ∧
      t.rd32 (statsAddr n f + 0x1C) = BitVec.ofNat 32 (1 + (if x.incomplete then 2 else 0) + (if x.skew then 4 else 0))
    ∧ t.rd32 (statsAddr n f + 0x18) = BitVec.ofNat 32 x.gen ∧ t.rd32 (statsAddr n f) = BitVec.ofNat 32 f
    ∧ t.rd32 (statsAddr n f + 8) = BitVec.ofNat 32 (400 * f)
    ∧ (∀ k : Fin 256,
      t.rd32 (statsAddr n f + 0x20 + 4 * k) = BitVec.ofNat 32 ((ispHist (ispTapA (framePar s n x) x.raw)).getD k 0))
    ∧ (∀ k : Fin 480,
      t.rd32 (statsAddr n f + 0x420 + 4 * k) = BitVec.ofNat 32 ((ispZones (ispTapA (framePar s n x) x.raw)).getD k 0))
    ∧ (∀ k : Fin 6, t.rd32 (statsAddr n f + 0xBA0 + 4 * k) = 0#32)
    ∧ (∀ a, a < 0x140000000 → t.rd8 a = s.rd8 a))
  ∧
  -- statsGrain
  (∀ (s : State) (n : Fin 6) (f : Nat) (x : CamFrame), pipeOn s n = true →
    (s.pipe n).frames.find? (fun f' => f'.frame == f && f'.arrived) = some x → isCleanGrain s n = true →
    ∃ t, exec (.statsWritten n f) s = .next t ∧ t.get (fISP_FRAME n) = f % 2 ^ fldWidth (fISP_FRAME n)
    ∧
      t.rd32 (statsAddr n f + 0x1C) = BitVec.ofNat 32 (1 + (if x.incomplete then 2 else 0) + (if x.skew then 4 else 0)
        + if (grainQuality s n (frameBlocks s n x)).2.2 then 8 else 0)
    ∧ t.rd32 (statsAddr n f + 0xBA0) = BitVec.ofNat 32 (frameBlocks s n x).whole ∧
      t.rd32 (statsAddr n f + 0xBA4) = BitVec.ofNat 32 (frameBlocks s n x).broken
    ∧ t.rd32 (statsAddr n f + 0xBA8) = BitVec.ofNat 32 (frameBlocks s n x).mog ∧
      t.rd32 (statsAddr n f + 0xBAC) = BitVec.ofNat 32 (frameBlocks s n x).empty
    ∧ t.rd32 (statsAddr n f + 0xBB0) = (grainQuality s n (frameBlocks s n x)).1 ∧
      t.rd32 (statsAddr n f + 0xBB4) = (grainQuality s n (frameBlocks s n x)).2.1
    ∧ t.get (fISP_GQ_CNT1_WHOLE n) = min (frameBlocks s n x).whole 65535 ∧
      t.get (fISP_GQ_CNT1_BROKEN n) = min (frameBlocks s n x).broken 65535
    ∧ t.get (fISP_GQ_CNT2_MOG n) = min (frameBlocks s n x).mog 65535 ∧
      t.get (fISP_GQ_CNT2_EMPTY n) = min (frameBlocks s n x).empty 65535)
  ∧
  -- grainRule
  (∀ (s : State) (n : Fin 6) (i : Blocks),
    (grainQuality s n i).2.2 = true ↔ s.get (fISP_PORT_CFG_GQ_MIN n) ≤ i.whole + i.broken + i.mog ∧
      0 < i.whole + i.broken)
  ∧
  -- statsNone
  (∀ (s : State) (n : Fin 6) (f : Nat), (s.pipe n).frames.find? (fun f' => f'.frame == f && f'.arrived) = none →

    ∃ t, exec (.statsWritten n f) s = .next t ∧ t = s)
  ∧
  -- pipeOff
  (∀ (s : State) (n : Fin 6) (i : StreamIn) (f : Nat), pipeOn s n = false →
    ∀ c ∈ [Instr.streamFrame n i, .frameLate n f, .portAbsent n, .exposureCommand n, .statsWritten n f],
      exec c s = .next s)
  ∧
  -- frameNotLate
  (∀ (s : State) (n : Fin 6) (f : Nat), s.clk.tick ≤ 400 * f + 400 →
    ∃ t, exec (.frameLate n f) s = .next t ∧ t = s)

/-- A LiDAR sweep within 100 µs of its boundary makes the sensor OK and a later one makes it ABSENT, each change
recorded as 0x7108, and a sensor that is not configured stays so. A result is issued in order of its frames, from
its boundary on, when no expected contribution is missing or 800 ticks after the boundary: FRAME names it,
EVT.RESULT is set, NTRK counts the tracks, ego-motion is valid with two of visual odometry, LiDAR odometry and wheel
speed, MISSING and 0x7107 name what it was issued without, and nothing is marked revised or dropped any more. A
stereo pair with an image that is not valid or carries INCOMPLETE or SKEW gives neither depth nor visual odometry. A
late sample of an issued result is counted and recorded as 0x7105 up to 1,200 ticks, marks the tracks it changes
with the earliest frame revised, and is dropped with 0x7106 after that. A read of FRAME_LO by a core latches the
result set for it and answers its low word. Where its condition does not hold, each of these commands changes
nothing. That a command whose conditions do not hold changes nothing is the model's reading (log entry 15). Where
the spec leaves the choice open or has to be read by inference, the clauses state the model's, of log entries 4,
138. (R255, R256, R257, R258, R259, R260, R261, R264, R265, R266, R268, R278) -/
def Obligations.FusionResults : Prop :=
  -- sweepOk
  (∀ (s : State) (u : Fin 2) (d : Int), s.wide = true → s.get (fFUS_SRC_STATE (6 + u.val)) = 2 →
    d.natAbs ≤ 100000 → Room s 1 →
    ∃ t, exec (.lidarSweep u d) s = .next t ∧ Does s t [(fFUS_SRC_STATE (6 + u.val), 1)]
      [s.evOf 0x7108 (6 + u.val) 1] [])
  ∧
  -- sweepOff
  (∀ (s : State) (u : Fin 2) (d : Int), s.wide = true → s.get (fFUS_SRC_STATE (6 + u.val)) = 1 →
    100000 < d.natAbs → Room s 1 →
    ∃ t, exec (.lidarSweep u d) s = .next t ∧ Does s t [(fFUS_SRC_STATE (6 + u.val), 2)]
      [s.evOf 0x7108 (6 + u.val) 2] [])
  ∧
  -- sweepNone
  (∀ (s : State) (u : Fin 2) (d : Int), (s.wide = false ∨ s.get (fFUS_SRC_STATE (6 + u.val)) = 0 ∨
    s.get (fFUS_SRC_STATE (6 + u.val)) = (if d.natAbs ≤ 100000 then 1 else 2)) →
    ∃ t, exec (.lidarSweep u d) s = .next t ∧ t = s)
  ∧
  -- issued
  (∀ (s : State) (i : ResultIn), s.wide = true → s.bit fFUS_STATUS_RUN = true → 400 * i.frame ≤ s.clk.tick →
    (missingOf s i = [] ∨ 400 * i.frame + 800 ≤ s.clk.tick) → (∀ n, s.fus.last = some n → i.frame = n + 1) →
    ∃ t, exec (.resultIssue i) s = .next t ∧ t.fus.last = some i.frame ∧ t.fus.lateDrop = false ∧
      (∀ x ∈ t.fus.tracks, x.2.revised = none)
    ∧ t.get64 fFUS_RES_FRAME_LO.addr = i.frame % 18446744073709551616 ∧ t.bit fFUS_EVT_RESULT = true
    ∧ t.get fFUS_RES_STAT_NTRK = t.fus.tracks.length % 2 ^ fldWidth fFUS_RES_STAT_NTRK
    ∧ t.bit fFUS_RES_STAT_MISSING = !(missingOf s i).isEmpty ∧ t.bit fFUS_RES_STAT_LATE_DROP = s.fus.lateDrop
    ∧ t.get fFUS_EGO_STAT_USED = egoUsed i.frame i.ego t
    ∧
      t.bit fFUS_RES_STAT_EGO_VALID = decide (2 ≤ egoUsed i.frame i.ego t % 2 + egoUsed i.frame i.ego t / 2 % 2 + egoUsed i.frame i.ego t / 4 % 2)
    ∧ t.fus.past = ((i.frame, t.fus.past.head?.elim [] Prod.snd) :: s.fus.past).take 3
    ∧ SameMem s t ∧ PartsBut s t [.fn, .mail, .eth, .map, .fus, .rst])
  ∧
  -- issuedMissing
  (∀ (s : State) (i : ResultIn) (k : Fin 11), Room s (11 + (missingOf s i).length) → k ∈ missingOf s i →
    s.evOf 0x7107 0 k ∈ (resultSources i s).evr.intake ∧ expects s i.frame k = true ∧ k ∈ i.missing)
  ∧
  -- stereoPair
  (∀ (s : State) (n : Nat) (e : EgoIn), stereoOk s n = false →
    (egoUsed n e s).testBit 0 = false ∧ (∀ c : NewTrack, c.estNo = none → candidate s n c = none)
    ∧ (∀ c : NewTrack, ∀ v, c.estNo = some v → candidate s n c = some { c with est := v }))
  ∧
  -- stereoBad
  (∀ (s : State) (role n : Nat), ((∀ p : Fin 6, s.get (fISP_PORT_CFG_ROLE p) = role →
    (s.rd32 (statsAddr p n + 0x1C)).toNat % 8 ≠ 1)) →
    goodImage s role n = false)
  ∧
  -- notDue
  (∀ (s : State) (i : ResultIn), (s.wide = false ∨ s.clk.tick < 400 * i.frame ∨ s.bit fFUS_STATUS_RUN = false ∨
    (∃ n, s.fus.last = some n ∧ i.frame ≠ n + 1)
    ∨ (missingOf s i ≠ [] ∧ s.clk.tick < 400 * i.frame + 800)) →
    ∃ t, exec (.resultIssue i) s = .next t ∧ t = s)
  ∧
  -- newTrackIs
  (∀ (s : State) (v : F32) (i : ResultIn) (c : NewTrack) (r : Nat),
    (List.range 256).find? (fun t => (s.ftrack t).isNone) = some r →
    ((newTrack v i c s).ftrack r).map (fun x => (x.confirmed, x.pex, x.cls, x.frames)) = some (false, pexNew,
      c.cls.val, 1)
    ∧ (∀ k, k ≠ r → (newTrack v i c s).ftrack k = s.ftrack k))
  ∧
  -- late
  (∀ (s : State) (r : Nat) (obs : List TrackObs) (n : Nat), s.wide = true → s.bit fFUS_STATUS_RUN = true →
    s.fus.last = some n → r ≤ 400 * n → r ≤ s.clk.tick → s.clk.tick ≤ r + 1200 → ((∀ o ∈ obs,
    (s.ftrack o.t).isNone = true)) → Room s 1 →
    ∃ t, exec (.lateSample r obs) s = .next t ∧ Does s t [(fFUS_EVT_LATE, 1), (fFUS_CNT_LATE_OOS,
      s.up fFUS_CNT_LATE_OOS)] [s.evOf 0x7105 0 0 f16NaN (f16OfNat (s.clk.tick - r))] [])
  ∧
  -- lateOne
  (∀ (s : State) (r : Nat) (o : TrackObs) (n : Nat) (x : Track), s.wide = true → s.bit fFUS_STATUS_RUN = true →
    s.fus.last = some n → r ≤ 400 * n → r ≤ s.clk.tick → s.clk.tick ≤ r + 1200 → s.ftrack o.t = some x →
    ∃ t, exec (.lateSample r [o]) s = .next t ∧
      (t.ftrack o.t).map (fun y => y.revised) = some (some (min (x.revised.getD (r / 400)) (r / 400)))
    ∧ (t.ftrack o.t).map (fun y => y.est) = some (if stereoOk s (r / 400) then o.est else o.estNo)
    ∧ (∀ k, k ≠ o.t.val → t.ftrack k = s.ftrack k) ∧ t.get fFUS_CNT_LATE_OOS = s.up fFUS_CNT_LATE_OOS ∧
      t.bit fFUS_EVT_LATE = true
    ∧ t.fus.last = s.fus.last ∧ t.fus.lateDrop = s.fus.lateDrop ∧ SameMem s t ∧ PartsBut s t [.fus])
  ∧
  -- lateDropped
  (∀ (s : State) (r : Nat) (obs : List TrackObs) (n : Nat), s.wide = true → s.bit fFUS_STATUS_RUN = true →
    s.fus.last = some n → r ≤ 400 * n → r + 1200 < s.clk.tick → Room s 1 →
    ∃ t, exec (.lateSample r obs) s = .next t ∧ Does s t [(fFUS_EVT_LATE, 1), (fFUS_CNT_LATE_LATE_DROP,
      s.up fFUS_CNT_LATE_LATE_DROP)] [s.evOf 0x7106 0 0 f16NaN (f16OfNat (s.clk.tick - r))] [.fus]
    ∧ t.fus = { s.fus with lateDrop := true })
  ∧
  -- notLate
  (∀ (s : State) (r : Nat) (obs : List TrackObs), (s.wide = false ∨ s.bit fFUS_STATUS_RUN = false ∨
    s.fus.last = none ∨ (∃ n, s.fus.last = some n ∧ 400 * n < r) ∨ s.clk.tick < r) →
    ∃ t, exec (.lateSample r obs) s = .next t ∧ t = s)
  ∧
  -- resRead
  (∀ (s : State) (q : Req), s.wide = true →
    ∃ t, exec (.fusResRead q) s = .next t ∧ Does s t [] [] [.bus, .fus] ∧ t.bus = ⟨s.rd fFUS_RES_FRAME_LO.addr,
      false⟩
    ∧ tabGet (fun _ => []) t.fus.latch (reqBank q) = s.regs.filter (fun x => fusLatched x.1)
    ∧ (∀ b, b ≠ reqBank q → tabGet (fun _ => []) t.fus.latch b = tabGet (fun _ => []) s.fus.latch b))
  ∧
  -- resReadOff
  (∀ (s : State) (q : Req), s.wide = false →
    ∃ t, exec (.fusResRead q) s = .next t ∧ t = { s with bus := ⟨0#32, false⟩ })

/-- In OPEN, ENGAGE with F27 enabled, unlocked and running, a reference and a valid ego-motion engages guidance on that
reference; otherwise WHY says what was missing. DISENGAGE, also in the same write as ENGAGE, a locked F27 at a frame
boundary, and a fallback of a lane end guidance in IDLE with 0x7111 (that of a lane is shown when the application
cluster next runs), and every function it served falls back: F26 to the lower of the operator's request and its last
target, F19 and F21 to 0, any other to its measured value. RESUME after 50 results without an obstacle returns F26
to the operator, before that it is refused. UNL_REQ publishes a request and, with a cart announced and F18–F21
enabled and unlocked, begins the rendezvous; UNL_CONFIRM in ALIGNED starts unloading; UNL_STOP, also in the same
write as another, ends it or aborts the approach; 2 s after F21 reached 0 the machine is out of unloading. Every
change of state is recorded as 0x7120 and an abort as 0x7121. In any other state, by the OEM partition, on another
module, and, but for DISENGAGE, UNL_STOP and the fallback, with the application cluster stopped, each of these
commands changes nothing. That a command whose conditions do not hold changes nothing is the model's reading (log
entry 15). Where the spec leaves the choice open or has to be read by inference, the clauses state the model's, of
log entries 4, 54. (R33, R270, R273, R274, R275, R276, R277, R278) -/
def Obligations.GuidanceAndUnloading : Prop :=
  -- engaged
  (∀ (s : State) (q : Req) (r : Nat), reqIsOem q = false → s.wide = true → appOn s = true → guidState s = 0 →
    s.bit (fFUN_REC_CTL_EN 26) = true → fnLocked s 26 = false → s.get (fFUN_REC_CTL_STATE 26) = 1 →
    reference s = r → 0 < r → s.bit fFUS_RES_STAT_EGO_VALID = true → Room s 1 →
    ∃ t, exec (.engage q false) s = .next t ∧ Does s t [(fFUS_GUID_STAT_STATE, 1), (fFUS_EVT_GUID_CHG, 1),
      (fFUS_GUID_STAT_SRC, r), (fFUN_REC_CTL_SP_SRC 26, 3)] [s.evOf 0x7110 0 r] [.fus]
    ∧ t.fus = { s.fus with noRef := 0, bigErr := 0 })
  ∧
  -- engageRefused
  (∀ (s : State) (q : Req), reqIsOem q = false → s.wide = true → appOn s = true → guidState s = 0 →
    (s.bit (fFUN_REC_CTL_EN 26) = false ∨ fnLocked s 26 = true ∨ s.get (fFUN_REC_CTL_STATE 26) ≠ 1 ∨
    reference s = 0 ∨ s.bit fFUS_RES_STAT_EGO_VALID = false) →
    ∃ t, exec (.engage q false) s = .next t ∧ Does s t [(fFUS_GUID_STAT_WHY,
      if s.bit (fFUN_REC_CTL_EN 26) = false ∨ fnLocked s 26 = true ∨
      s.get (fFUN_REC_CTL_STATE 26) ≠ 1 then 1 else if reference s = 0 then 2 else 3)] [] [])
  ∧
  -- disengaged
  (∀ (s : State) (q : Req), reqIsOem q = false → s.wide = true → guidState s ≠ 0 → Room s 7 →
    ∃ t, exec (.disengage q) s = .next t ∧ guidState t = 0 ∧ t.get fFUS_GUID_STAT_WHY = 5 ∧
      t.get fFUS_GUID_STAT_SRC = 0 ∧ t.bit fFUS_EVT_GUID_CHG = true
    ∧ (∀ f ∈ guidFns, s.get (fFUN_REC_CTL_SP_SRC f) = 3 → t.get (fFUN_REC_CTL_SP_SRC f) = 2)
    ∧ (∀ f ∈ guidFns, s.get (fFUN_REC_CTL_SP_SRC f) ≠ 3 →
      t.rd (fFUN_REC_CTL f).addr = s.rd (fFUN_REC_CTL f).addr ∧
      t.rd (fFUN_REC_SP_TGT f).addr = s.rd (fFUN_REC_SP_TGT f).addr)
    ∧ t.evr.intake.getLast? = some (s.evOf 0x7111 0 5) ∧ SameMem s t ∧ PartsBut s t [.fn])
  ∧
  -- engageNot
  (∀ (s : State) (q : Req), (reqIsOem q = true ∨ s.wide = false ∨ appOn s = false ∨ guidState s ≠ 0) →
    ∃ t, exec (.engage q false) s = .next t ∧ t = s)
  ∧
  -- engageBoth
  (∀ (s : State) (q : Req),
    exec (.engage q true) s = exec (.disengage q) s)
  ∧
  -- disengageNot
  (∀ (s : State) (q : Req), (reqIsOem q = true ∨ s.wide = false ∨ guidState s = 0) →
    ∃ t, exec (.disengage q) s = .next t ∧ t = s)
  ∧
  -- lockedOut
  (∀ (s : State), s.wide = true → s.fus.fell = false → guidState s ≠ 0 → fnLocked s 26 = true → Room s 7 →
    guidState (guidLockCheck s) = 0 ∧ (guidLockCheck s).get fFUS_GUID_STAT_WHY = 1
    ∧ (guidLockCheck s).evr.intake.getLast? = some (s.evOf 0x7111 0 1))
  ∧
  -- resumeNot
  (∀ (s : State) (q : Req), (reqIsOem q = true ∨ s.wide = false ∨ appOn s = false ∨ guidState s ≠ 2) →
    ∃ t, exec (.resume q) s = .next t ∧ t = s)
  ∧
  -- resumed
  (∀ (s : State) (q : Req), reqIsOem q = false → s.wide = true → appOn s = true → guidState s = 2 →
    50 ≤ s.fus.clear →
    ∃ t, exec (.resume q) s = .next t ∧ guidState t = 1 ∧ t.bit fFUS_EVT_GUID_CHG = true ∧
      t.get (fFUN_REC_CTL_SP_SRC 25) = 2
    ∧ t.getF (fFUN_REC_SP_TGT 25) = fnClamp s 25 ((s.fnSt 25).opReq.getD (s.getF (fFUN_REC_SP_TGT 25)))
    ∧ SameMem s t ∧ PartsBut s t [.fn])
  ∧
  -- resumeRefused
  (∀ (s : State) (q : Req), reqIsOem q = false → s.wide = true → appOn s = true → guidState s = 2 →
    s.fus.clear < 50 →
    ∃ t, exec (.resume q) s = .next t ∧ Does s t [(fFUS_GUID_STAT_WHY, 4)] [] [])
  ∧
  -- fellBack
  (∀ (s : State) (f : Fin 30), s.get (fFUN_REC_CTL_SP_SRC f) = 3 → fnHome s f = true → (∀ x,
    s.fn.guid.find? (fun x => x.1 == f.val) = some x →
    sigUsable (s.sig (topLane s) x.2) (s.get fFUS_CFG_GUID_AGE_MAX) = false) → s.fus.fell = false →
    (s.wide = false ∨ guidState s = 0) →
    ∃ t, exec (.guidanceFallback f) s = .next t ∧ t.get (fFUN_REC_CTL_SP_SRC f) = 2
    ∧
      t.getF (fFUN_REC_SP_TGT f) = fnClamp s f (if f.val = 25 then f32Min ((s.fnSt 25).opReq.getD (s.getF (fFUN_REC_SP_TGT f))) (s.getF (fFUN_REC_SP_TGT f))
        else if f.val = 18 ∨ f.val = 20 then 0#32 else fnMeasured s f)
    ∧ SameMem s t ∧ Touches s t [(fFUN_REC_CTL f).addr, (fFUN_REC_SP_TGT f).addr, fFUN_EVT_CLAMP.addr] [.fn])
  ∧
  -- fellIdle
  (∀ (s : State) (f : Fin 30), s.get (fFUN_REC_CTL_SP_SRC f) = 3 → fnHome s f = true → (∀ x,
    s.fn.guid.find? (fun x => x.1 == f.val) = some x →
    sigUsable (s.sig (topLane s) x.2) (s.get fFUS_CFG_GUID_AGE_MAX) = false) → s.wide = true → guidState s ≠ 0 →
    Room s 2 →
    ∃ t, exec (.guidanceFallback f) s = .next t ∧ t.get (fFUN_REC_CTL_SP_SRC f) = 2 ∧ SameMem s t ∧
      PartsBut s t [.fn, .fus]
    ∧ (appOn s = true → guidState t = 0 ∧ t.get fFUS_GUID_STAT_WHY = 6 ∧ t.get fFUS_GUID_STAT_SRC = 0 ∧
      t.fus.fell = false
      ∧ t.evr.intake.getLast? = some (s.evOf 0x7111 0 6))
    ∧ (appOn s = false → guidState t = guidState s ∧ t.fus.fell = true))
  ∧
  -- fellShown
  (∀ (s : State), s.fus.fell = true → appOn s = true → guidState s ≠ 0 → Room s 1 →
    Does s (showFell s) [(fFUS_GUID_STAT_STATE, 0), (fFUS_EVT_GUID_CHG, 1), (fFUS_GUID_STAT_WHY, 6),
      (fFUS_GUID_STAT_SRC, 0)] [s.evOf 0x7111 0 6] [.fus]
    ∧ (showFell s).fus = { s.fus with fell := false })
  ∧
  -- notFell
  (∀ (s : State) (f : Fin 30), (s.get (fFUN_REC_CTL_SP_SRC f) ≠ 3 ∨ fnHome s f = false
    ∨ (∃ e, (s.fn.guid.find? fun x => x.1 == f.val) = some (f.val, e) ∧
      sigUsable (s.sig (topLane s) e) (s.get fFUS_CFG_GUID_AGE_MAX) = true)) →
    ∃ t, exec (.guidanceFallback f) s = .next t ∧ t = s)
  ∧
  -- unlNot
  (∀ (s : State) (q : Req) (stop : Bool),
    ((reqIsOem q = true ∨ s.wide = false) → exec (.unlReq q stop) s = .next s ∧
      exec (.unlConfirm q stop) s = .next s ∧ exec (.unlStop q) s = .next s)
    ∧ (reqIsOem q = false → s.wide = true → exec (.unlReq q true) s = exec (.unlStop q) s ∧
      exec (.unlConfirm q true) s = exec (.unlStop q) s)
    ∧ ((appOn s = false ∨ unlState s ≠ 0) → exec (.unlReq q false) s = .next s)
    ∧ ((appOn s = false ∨ unlState s ≠ 2) → exec (.unlConfirm q false) s = .next s)
    ∧ ((unlState s = 0 ∨ 4 ≤ unlState s) → exec (.unlStop q) s = .next s))
  ∧
  -- unlNotOver
  (∀ (s : State), (s.wide = false ∨ unlState s ≠ 4 ∨ s.fus.zeroAt = none ∨ (∃ z, s.fus.zeroAt = some z ∧
    s.clk.tick < z + 40000)) →
    ∃ t, exec (.unloadEndingDone) s = .next t ∧ t = s)
  ∧
  -- unlAsked
  (∀ (s : State) (q : Req), reqIsOem q = false → s.wide = true → appOn s = true → unlState s = 0 →
    unlReady s = false →
    ∃ t, exec (.unlReq q false) s = .next t ∧ t.eth.reqAt = some s.clk.tick ∧ (fleetState s = 2 →
      t.eth.sent.length = s.eth.sent.length + 1 ∧ (t.eth.sent.head?).map (fun x => x.type) = some 3)
    ∧ SameMem s t ∧ Touches s t [fETH_FLEET_Q_ALERTS.addr, fETH_FLEET_REF.addr, fETH_EVT_REFUSED.addr] [.eth])
  ∧
  -- unlBegun
  (∀ (s : State) (q : Req), reqIsOem q = false → s.wide = true → appOn s = true → unlState s = 0 →
    unlReady s = true → Room s 2 →
    ∃ t, exec (.unlReq q false) s = .next t ∧ t.eth.reqAt = some s.clk.tick ∧ unlState t = 1 ∧
      t.get (fFUN_REC_CTL_SP_SRC 17) = 3 ∧ t.fus.reach = 0 ∧ t.fus.lost = 0
    ∧ t.evr.intake.getLast? = some (s.evOf 0x7120 0 1) ∧ SameMem s t ∧ PartsBut s t [.eth, .fus, .mail])
  ∧
  -- unlStarted
  (∀ (s : State) (q : Req), reqIsOem q = false → s.wide = true → appOn s = true → unlState s = 2 → Room s 1 →
    ∃ t, exec (.unlConfirm q false) s = .next t ∧ Does s t [(fFUS_UNL_STAT_STATE, 3), (fFUS_EVT_UNL_CHG, 1),
      (fFUN_REC_CTL_SP_SRC 18, 3), (fFUN_REC_CTL_SP_SRC 20, 3), (fFUN_REC_CTL_SP_SRC 25, 3)] [s.evOf 0x7120 0 3]
      [.mail])
  ∧
  -- unlStopped
  (∀ (s : State) (q : Req), reqIsOem q = false → s.wide = true → unlState s = 3 → Room s 3 →
    ∃ t, exec (.unlStop q) s = .next t ∧ unlState t = 4 ∧ t.get (fFUN_REC_CTL_SP_SRC 20) = 3 ∧
      t.getF (fFUN_REC_SP_TGT 20) = fnClamp s 20 0#32
    ∧ s.evOf 0x7120 0 4 ∈ t.evr.intake ∧ SameMem s t ∧ PartsBut s t [.fn, .mail, .eth])
  ∧
  -- unlAborted
  (∀ (s : State) (q : Req), reqIsOem q = false → s.wide = true → (unlState s = 1 ∨ unlState s = 2) → Room s 6 →
    ∃ t, exec (.unlStop q) s = .next t ∧ unlState t = 0 ∧ t.get fFUS_UNL_STAT_WHY = 5 ∧
      t.get fFUS_UNL_STAT_TRAILER = 0xFF ∧ t.get fFUS_UNL_STAT_SPOUT = 0xFF
    ∧ t.eth.cart = none ∧ t.fus.trailer = none ∧ t.fus.spout = none ∧ s.evOf 0x7121 0 5 ∈ t.evr.intake
    ∧ t.evr.intake.getLast? = some (s.evOf 0x7120 0 0) ∧ SameMem s t ∧ PartsBut s t [.fn, .eth, .fus])
  ∧
  -- unlOver
  (∀ (s : State) (z : Nat), s.wide = true → unlState s = 4 → s.fus.zeroAt = some z → z + 40000 ≤ s.clk.tick →
    Room s 3 →
    ∃ t, exec (.unloadEndingDone) s = .next t ∧ unlState t = 0 ∧ t.fus.zeroAt = none ∧
      t.get (fFUN_REC_CTL_SP_SRC 17) = 2 ∧ t.get (fFUN_REC_CTL_SP_SRC 18) = 2
    ∧ t.get (fFUN_REC_CTL_SP_SRC 25) = 2 ∧ t.getF (fFUN_REC_SP_TGT 18) = fnClamp s 18 0#32
    ∧ t.evr.intake.getLast? = some (s.evOf 0x7120 0 0) ∧ SameMem s t ∧ PartsBut s t [.fn, .mail, .eth, .fus])

/-- At a map-update boundary a running engine posts a sample, with the entries of the higher lane, valid while the
posted write buffer of 64 KiB takes its 196 bytes (the model's size, log entry 124); with 8 waiting it is refused as
0x8006 with flags 4, its mass in MAP_UNATTR. An update takes the oldest sample once fusion has issued its result or
800 ticks have passed: the queue shortens, LAST_TICK is the sample's boundary, EVT.UPDATE is set, and a requested
closing or opening of a field, a kernel reset and a journal have taken place when they were asked for before its
boundary, and wait else. A rejected kernel event records 0x8004 with its reason and changes no kernel; an accepted
one is blended by BETA. A journal takes exactly the SEALED cells of the blocks with a cell sealed since the last,
with the map key only. A journal that ends is committed with EVT.JOURNAL or fails with 0x8009, its cells waiting
again; a store found full sets STORE_FULL and records 0x800E once. A loaded tile is no longer LOADING, its waiting
increments are applied in order, a block that fails authentication records 0x800A, and no byte outside its slot
changes. The control bits wait for the next update and are ignored from the OEM partition; an export leaves its
file, with both its CRCs, in the state; a deleted field leaves the store. On an FYH7-B or a worker, or where the
guard does not hold, each command changes nothing. That a command whose conditions do not hold changes nothing is
the model's reading (log entry 15). Where the spec leaves the choice open or has to be read by inference, the
clauses state the model's, of log entries 4, 12, 56, 57, 58, 124, 139. (R279, R284, R290, R295, R296, R297, R298,
R301, R303) -/
def Obligations.YieldMapUpdates : Prop :=
  -- mapPost
  (∀ (s : State) (d : Nat), s.wide = true → s.clk.tick % 2000 = 0 → s.bit fMAP_STATUS_RUN = true →
    s.map.queue.length < 8 →
    ∃ t, exec (.mapUpdateBoundary d) s = .next t ∧ (∃ m : MapSample, t.map.queue = s.map.queue ++ [m] ∧
      m.u = s.clk.tick / 2000 ∧ m.swing = s.get fSWG_STATUS_STATE
        ∧ (∀ i, 128 ≤ i → i < 150 → sampSig m i = ((s.sig (topLane s) i).val,
          (s.sig (topLane s) i).valid && decide (s.map.posted - d + 196 ≤ 65536))))
    ∧ t.map.posted = (if s.map.posted - d + 196 ≤ 65536 then s.map.posted - d + 196 else s.map.posted - d)
    ∧ t.get fMAP_STAT_BACKLOG = s.map.queue.length + 1 ∧ (∀ p : Fin 4, attState s p ≠ 2 →
      t.attPort p = s.attPort p)
    ∧ SameMem s t ∧ Records s t [] ∧ Touches s t [fMAP_STAT_BACKLOG.addr] [.map, .att])
  ∧
  -- mapRefused
  (∀ (s : State) (d : Nat), s.wide = true → s.clk.tick % 2000 = 0 → s.bit fMAP_STATUS_RUN = true →
    8 ≤ s.map.queue.length → Room s 1 →
    ∃ t, exec (.mapUpdateBoundary d) s = .next t ∧ t.map.queue = s.map.queue ∧
      t.evr.intake.length = s.evr.intake.length + 1
    ∧ (t.evr.intake.getLast?).map (fun e => (e.code, e.src, e.flags)) = some (0x8006, 0, 4) ∧
      t.bit fMAP_EVT_UNATTR = true
    ∧ t.rd fMAP_UNATTR.addr = f32Add (s.rd fMAP_UNATTR.addr)
        (if (s.sig (topLane s) 144).valid = true ∧
          s.map.posted - d + 196 ≤ 65536 then f32Mul (s.sig (topLane s) 144).val f32Tenth else 0#32)
    ∧ SameMem s t ∧ Touches s t [fMAP_UNATTR.addr, fMAP_EVT.addr] [.map, .att])
  ∧
  -- mapNoBoundary
  (∀ (s : State) (d : Nat), s.clk.tick % 2000 ≠ 0 →
    ∃ t, exec (.mapUpdateBoundary d) s = .next t ∧ t = s)
  ∧
  -- mapIdle
  (∀ (s : State) (d : Nat), s.clk.tick % 2000 = 0 → (s.wide = false ∨ s.bit fMAP_STATUS_RUN = false) →
    ∃ t, exec (.mapUpdateBoundary d) s = .next t ∧ (∀ p : Fin 4, attState s p ≠ 2 → t.attPort p = s.attPort p) ∧
      Does s t [] [] [.att])
  ∧
  -- lifeHours
  (∀ (s : State) (d : Nat) (p : Fin 4), s.clk.tick % 2000 = 0 → attState s p = 2 →
    (s.attPort p).acc.length = 4 →
    ∃ t, exec (.mapUpdateBoundary d) s = .next t ∧
      (t.attPort p).acc.getD 0 0#32 = (if (s.sig (topLane s) 148).valid = true ∧
      f32Lt 0#32 (s.sig (topLane s) 148).val = true
        then f32Add ((s.attPort p).acc.getD 0 0#32) f32Tenth else (s.attPort p).acc.getD 0 0#32)
    ∧ (t.attPort p).acc.getD 1 0#32 = (if (s.sig (topLane s) 148).valid = true
        then f32Add ((s.attPort p).acc.getD 1 0#32) (f32Mul (s.sig (topLane s) 148).val f32Tenth) else (s.attPort p).acc.getD 1 0#32)
    ∧ (t.attPort p).acc.getD 2 0#32 = (if (s.sig (topLane s) 144).valid = true
        then f32Add ((s.attPort p).acc.getD 2 0#32) (f32Mul (s.sig (topLane s) 144).val f32Tenth) else (s.attPort p).acc.getD 2 0#32)
    ∧ (t.attPort p).acc.getD 3 0#32 = (if (s.attPort p).imps = 0 then (s.attPort p).acc.getD 3 0#32
        else f32Add ((s.attPort p).acc.getD 3 0#32) (f32OfNat (s.attPort p).imps))
    ∧ (t.attPort p).imps = 0 ∧ (t.attPort p).serial = attSerial s p)
  ∧
  -- mapUpdated
  (∀ (s : State) (d : Nat) (m : MapSample) (rest : List MapSample), s.wide = true →
    s.bit fMAP_STATUS_RUN = true → s.map.queue = m :: rest → (2000 * m.u + 800 ≤ s.clk.tick ∨ ∃ n,
    s.fus.last = some n ∧ 5 * m.u ≤ n) →
    ∃ t, exec (.mapUpdateProcess d) s = .next t ∧ t.map.queue = rest ∧
      t.get64 fMAP_LAST_TICK_LO.addr = 2000 * m.u % 18446744073709551616 ∧ t.bit fMAP_EVT_UPDATE = true
    ∧ t.get fMAP_STAT_BACKLOG = min 8 rest.length ∧
      t.get fMAP_STAT_DRAM_DEFERRED = min (s.get fMAP_STAT_DRAM_DEFERRED + d) 0xFFFFFF
    ∧ t.map.close = (if dueBy m.u s.map.close = true then none else s.map.close)
    ∧ t.map.kerReset = (if dueBy m.u s.map.kerReset = true then none else s.map.kerReset)
    ∧ t.map.journalNow = (if dueBy m.u s.map.journalNow = true then none else s.map.journalNow)
    ∧ t.get fMAP_PEND_QUEUED = t.map.incs.length % 2 ^ fldWidth fMAP_PEND_QUEUED
    ∧ PartsBut s t [.map, .rst])
  ∧
  -- fieldOpened
  (∀ (s : State) (d : Nat) (m : MapSample) (rest : List MapSample) (f t0 : Nat), s.wide = true →
    s.bit fMAP_STATUS_RUN = true → s.map.queue = m :: rest → (2000 * m.u + 800 ≤ s.clk.tick ∨ ∃ n,
    s.fus.last = some n ∧ 5 * m.u ≤ n) → s.map.newField = some (f, t0) → t0 < 2000 * m.u → Room s 2 →
    ∃ t, exec (.mapUpdateProcess d) s = .next t ∧ t.map.newField = none ∧ t.bit fMAP_STATUS_FIELD_OK = true ∧
      t.get fMAP_FIELD_ID = f % 2 ^ fldWidth fMAP_FIELD_ID
    ∧ s.evOf 0x8001 (f % 256) ∈ t.evr.intake ∧ (s.bit fMAP_STATUS_FIELD_OK = true →
      s.evOf 0x8002 (s.get fMAP_FIELD_ID % 256) ∈ t.evr.intake))
  ∧
  -- fieldClosed
  (∀ (s : State) (d : Nat) (m : MapSample) (rest : List MapSample), s.wide = true →
    s.bit fMAP_STATUS_RUN = true → s.map.queue = m :: rest → (2000 * m.u + 800 ≤ s.clk.tick ∨ ∃ n,
    s.fus.last = some n ∧ 5 * m.u ≤ n) → dueBy m.u s.map.close = true → s.map.newField = none →
    s.bit fMAP_STATUS_FIELD_OK = true → Room s 1 →
    ∃ t, exec (.mapUpdateProcess d) s = .next t ∧ t.bit fMAP_STATUS_FIELD_OK = false ∧ t.get fMAP_FIELD_ID = 0 ∧
      s.evOf 0x8002 (s.get fMAP_FIELD_ID % 256) ∈ t.evr.intake
    ∧ t.map.wasCut = false)
  ∧
  -- fieldKept
  (∀ (s : State) (d : Nat) (m : MapSample) (rest : List MapSample), s.wide = true →
    s.bit fMAP_STATUS_RUN = true → s.map.queue = m :: rest → (2000 * m.u + 800 ≤ s.clk.tick ∨ ∃ n,
    s.fus.last = some n ∧ 5 * m.u ≤ n) → dueBy m.u s.map.close = false → (∀ f t0, s.map.newField = some (f,
    t0) → 2000 * m.u ≤ t0) →
    ∃ t, exec (.mapUpdateProcess d) s = .next t ∧ t.map.newField = s.map.newField ∧
      t.bit fMAP_STATUS_FIELD_OK = s.bit fMAP_STATUS_FIELD_OK ∧ t.get fMAP_FIELD_ID = s.get fMAP_FIELD_ID)
  ∧
  -- kernelRejected
  (∀ (s : State) (u w : Nat), isStep s ((u : Int) - 160) = true → (match eventKernel s ((u : Int) - 160) with
        | .error v => v == w
        | .ok _ => false) = true →
    kernelStep u false s = s.ev 0x8004 0 w)
  ∧
  -- kernelAdopted
  (∀ (s : State) (u : Nat) (he : List F32), isStep s ((u : Int) - 160) = true →
    (eventKernel s ((u : Int) - 160)).toOption = some he →
    (kernelStep u false s).map.ker = normalise ((s.map.ker.zip he).map fun p => f32Add
        (f32Mul (f32Sub f32One (f32Div (f32OfNat (s.get fMAP_CFG_BETA)) 0x41800000#32)) p.1)
        (f32Mul (f32Div (f32OfNat (s.get fMAP_CFG_BETA)) 0x41800000#32) p.2))
    ∧ (kernelStep u false s).bit fMAP_EVT_KERNEL = true ∧
      (kernelStep u false s).get fMAP_KERNEL_EVENTS = s.up fMAP_KERNEL_EVENTS)
  ∧
  -- kernelAlone
  (∀ (s : State) (u : Nat), isStep s ((u : Int) - 160) = false →
    kernelStep u false s = s)
  ∧
  -- kernelNominal
  (∀ (s : State) (h : List F32),
    (setKernel h s).map.ker = h ∧ (setKernel h s).get fMAP_KERNEL_EVENTS = s.get fMAP_KERNEL_EVENTS ∧
      PartsBut s (setKernel h s) [.map])
  ∧
  -- grams
  (∀ (s : State) (m : MapSample) (g : Int) (c : Cell),
    (g < 0 → addGrams m g c = { c with mass := c.mass - g.natAbs }) ∧ (0 ≤ g →
      (addGrams m g c).mass = min (c.mass + g.toNat) 4294967295)
    ∧ (addGrams m g c).area = c.area ∧ (addGrams m g c).hist = c.hist ∧ (addGrams m g c).first = c.first ∧
      (addGrams m g c).pass = c.pass
    ∧ cellState (addGrams m g c) = cellState c)
  ∧
  -- cutOnce
  (∀ (s : State) (x : MapInc) (c : Cell), x.area ≠ 0 →
    cellState (cutCell x c) = 1 ∧ (cutCell x c).area = min 65535 (c.area + x.area) ∧ (cutCell x c).mass = c.mass
    ∧ (cutCell x c).pass = (if cellState c = 1 then c.pass else min 255 (c.pass + 1))
    ∧ (cutCell x c).first = (if cellState c = 1 then c.first else x.time))
  ∧
  -- journalDue
  (∀ (s : State) (u : Nat) (k : MapKey) (v : List Byte), (u % 20 = 0 ∨ dueBy u s.map.journalNow = true) →
    s.map.fresh ≠ [] → s.map.writing = none → s.bit fSEC_STATUS_MAPKEY = true →
    (journalTake u s).map.fresh = [] ∧ (journalTake u s).map.store = s.map.store
    ∧ (∃ l, (journalTake u s).map.writing = some l ∧
        ((k, v) ∈ l ↔ blockOf k ∈ s.map.fresh.map blockOf ∧ cellState (mapCell s k) = 2 ∧
          v = cellBytes (mapCell s k))))
  ∧
  -- journalNotDue
  (∀ (s : State) (u : Nat), u % 20 ≠ 0 → dueBy u s.map.journalNow = false →
    journalTake u s = s)
  ∧
  -- journalNoKey
  (∀ (s : State) (u : Nat), (s.bit fSEC_STATUS_MAPKEY = false ∨ s.map.fresh = []) →
    (journalTake u s).map.writing = s.map.writing ∧ (journalTake u s).map.fresh = s.map.fresh ∧
      PartsBut s (journalTake u s) [.map])
  ∧
  -- mapWaits
  (∀ (s : State) (d : Nat), (s.map.queue = [] ∨ s.bit fMAP_STATUS_RUN = false ∨ s.wide = false
    ∨ (∃ m rest, s.map.queue = m :: rest ∧ s.clk.tick < 2000 * m.u + 800 ∧ ∀ n, s.fus.last = some n →
      n < 5 * m.u)) →
    ∃ t, exec (.mapUpdateProcess d) s = .next t ∧ t = s)
  ∧
  -- journaled
  (∀ (s : State) (full : Bool) (l : List (MapKey × List Byte)), s.map.writing = some l → Room s 1 →
    ∃ t, exec (.journalCommit false full) s = .next t ∧ t.map.writing = none ∧ t.bit fMAP_EVT_JOURNAL = true ∧
      t.get fMAP_JOURNAL_BLOCKS = s.map.blocks % 2 ^ fldWidth fMAP_JOURNAL_BLOCKS
    ∧ t.map.fresh = s.map.fresh ∧ (full = true → t.bit fMAP_STATUS_STORE_FULL = true)
    ∧ Records s t (if full && !s.bit fMAP_STATUS_STORE_FULL then [s.evOf 0x800E] else []) ∧ SameMem s t ∧
      PartsBut s t [.map])
  ∧
  -- journaledCell
  (∀ (s : State) (full : Bool) (k : MapKey) (v : List Byte), s.map.writing = some [(k, v)] →
    ∃ t, exec (.journalCommit false full) s = .next t ∧ storedCell t k = v ∧ (∀ k2, k2 ≠ k →
      storedCell t k2 = storedCell s k2))
  ∧
  -- journalFailed
  (∀ (s : State) (l : List (MapKey × List Byte)), s.map.writing = some l → Room s 1 →
    ∃ t, exec (.journalCommit true false) s = .next t ∧ Does s t [(fMAP_JOURNAL_FAIL, s.up fMAP_JOURNAL_FAIL),
      (fMAP_EVT_STORE_ERR, 1)] [s.evOf 0x8009 0 0 f16NaN (f16OfNat s.map.blocks)] [.map]
    ∧ t.map.writing = none ∧ t.map.store = s.map.store ∧ (∀ x ∈ l, x.1 ∈ t.map.fresh))
  ∧
  -- journalNone
  (∀ (s : State) (failed full : Bool), s.map.writing = none →
    ∃ t, exec (.journalCommit failed full) s = .next t ∧ t = s)
  ∧
  -- tileIn
  (∀ (s : State) (n : Fin 512) (bad : List (Fin 256)), s.wide = true → s.bit (fMAP_DIR_STAT_VALID n) = true →
    s.bit (fMAP_DIR_STAT_LOADING n) = true →
    ∃ t, exec (.tileLoaded n bad) s = .next t ∧ t.bit (fMAP_DIR_STAT_LOADING n) = false ∧
      t.bit (fMAP_DIR_STAT_VALID n) = true ∧ t.map.store = s.map.store
    ∧ t.map.incs = s.map.incs.filter (fun x => !(MapTile.of x.key == ⟨s.get (fMAP_DIR_STAT_FIELD n),
      ofField 16 (s.get (fMAP_DIR_KEY_TX n)), ofField 16 (s.get (fMAP_DIR_KEY_TY n))⟩))
    ∧ (∀ a, (a < 0x100000000 + n.val * 0x200000 ∨ 0x100000000 + n.val * 0x200000 + 0x200000 ≤ a) →
      t.rd8 a = s.rd8 a)
    ∧ (bad ≠ [] → t.bit fMAP_EVT_STORE_ERR = true) ∧ (Room s bad.length →
      Records s t (List.replicate bad.length (s.evOf 0x800A)))
    ∧ PartsBut s t [.map, .rst])
  ∧
  -- tileNotLoading
  (∀ (s : State) (n : Fin 512) (bad : List (Fin 256)), (s.bit (fMAP_DIR_STAT_LOADING n) = false ∨
    s.bit (fMAP_DIR_STAT_VALID n) = false ∨ s.wide = false) →
    ∃ t, exec (.tileLoaded n bad) s = .next t ∧ t = s)
  ∧
  -- journalAsked
  (∀ (s : State) (q : Req), reqIsOem q = false → s.wide = true →
    ∃ t, exec (.journalNow q) s = .next t ∧ t = { s with map := { s.map with journalNow := some s.clk.tick } })
  ∧
  -- kernelAsked
  (∀ (s : State) (q : Req), reqIsOem q = false → s.wide = true →
    ∃ t, exec (.kerReset q) s = .next t ∧ t = { s with map := { s.map with kerReset := some s.clk.tick } })
  ∧
  -- closeAsked
  (∀ (s : State) (q : Req), reqIsOem q = false → s.wide = true →
    ∃ t, exec (.fieldClose q) s = .next t ∧ t = { s with map := { s.map with close := some s.clk.tick } })
  ∧
  -- mapCtlOem
  (∀ (s : State) (q : Req), (reqIsOem q = true ∨ s.wide = false) →
    exec (.journalNow q) s = .next s ∧ exec (.kerReset q) s = .next s ∧ exec (.fieldClose q) s = .next s)
  ∧
  -- exported
  (∀ (s : State) (f : Nat) (x y : Int), s.wide = true →
    ∃ t, exec (.tileExport f x y) s = .next t ∧ t.map.exported = tileExport s ⟨f, x, y⟩ (sealedCells s ⟨f, x,
      y⟩) ∧ t.map.exported.take 6 = [0x46#8, 0x59#8, 0x4D#8, 0x58#8, 1#8, 0#8]
    ∧ (t.map.exported.drop 60).take 4 = leBytes 4 (crc32 (t.map.exported.take 60)).toNat
    ∧ (∀ k, k ∈ sealedCells s ⟨f, x, y⟩ → cellState (cellOf k.2) = 2) ∧ Does s t [] [] [.map])
  ∧
  -- deleted
  (∀ (s : State) (f : Nat), s.wide = true →
    ∃ t, exec (.fieldDelete f) s = .next t ∧ Does s t [(fMAP_STATUS_STORE_FULL, 0)] [] [.map] ∧ (∀ x,
      x ∈ t.map.store ↔ x ∈ s.map.store ∧ x.1.field ≠ f))
  ∧
  -- mapNarrow
  (∀ (s : State) (f : Nat) (x y : Int), s.wide = false →
    exec (.fieldDelete f) s = .next s ∧ exec (.tileExport f x y) s = .next s)

/-- Presence is polled every 100 ms. A poll that finds an element at an enabled ABSENT port makes it PENDING, starts an
authentication and records 0xD001 with flags 1; the third poll in a row without one makes any other port ABSENT,
with flags 0; a disabled port stays. An authentication that passes every step of R307 leaves AUTH_OK with the serial
number, kind and counters of the element and records 0xD002 when it enters; one without an answer in 150 ms leaves
FAILED with reason 5, one of the wrong kind WRONG_KIND, any other FAILED with its reason, each recorded as 0xD003 or
0xD004; a check that fails again in FAILED or WRONG_KIND moves no state and records nothing. Under INHIBIT an
ABSENT, FAILED or WRONG_KIND port asks for the lock of its functions and records 0xD00A with flags 1; back in
AUTH_OK it asks for the unlock of those that neither another inhibiting port nor the operator holds, with flags 0;
PENDING changes no lock. An authentication starts again 600 s after the last, or at REAUTH. Every 60 s the write of
the counters adds the whole units to LIFE and keeps the remainders; one that is not confirmed keeps all of them and
is recorded as 0xD009 with flags 1; increments of another serial number are discarded with flags 2. A counter that
reaches 90 % of its limit records 0xD007 once, one at its limit sets EOL and records 0xD008. Before its time, and
from the OEM partition, each command changes nothing. That a command whose conditions do not hold changes nothing is
the model's reading (log entry 15). Where the spec leaves the choice open or has to be read by inference, the
clauses state the model's, of log entry 66. (R305, R307, R308, R309, R311, R312, R313, R314) -/
def Obligations.AttachmentsAndLife : Prop :=
  -- polled
  (∀ (s : State) (l : List (Fin 4)), (∀ t0, s.att.polledAt = some t0 → t0 + 2000 ≤ s.clk.tick) →
    ∃ t, exec (.presencePoll l) s = .next t ∧ (∀ p : Fin 4, s.bit (fATT_PORT_CFG_EN p) = true →
      attState s p = 0 → p ∈ l → attState t p = 1 ∧ (t.attPort p).pendAt = s.clk.tick + 1 ∧
      (t.attPort p).missed = 0)
    ∧ (∀ p : Fin 4, s.bit (fATT_PORT_CFG_EN p) = true → attState s p = 0 → p ∉ l → attState t p = 0 ∧
      t.attPort p = s.attPort p)
    ∧ (∀ p : Fin 4, s.bit (fATT_PORT_CFG_EN p) = true → attState s p ≠ 0 → p ∈ l → attState t p = attState s p ∧
      (t.attPort p).missed = 0)
    ∧ (∀ p : Fin 4, s.bit (fATT_PORT_CFG_EN p) = true → attState s p ≠ 0 → p ∉ l → (s.attPort p).missed < 2 →
      attState t p = attState s p ∧ (t.attPort p).missed = (s.attPort p).missed + 1)
    ∧ (∀ p : Fin 4, s.bit (fATT_PORT_CFG_EN p) = true → attState s p ≠ 0 → p ∉ l → 2 ≤ (s.attPort p).missed →
      attState t p = 0 ∧ (t.attPort p).pendAt = 0)
    ∧ (∀ p : Fin 4, s.bit (fATT_PORT_CFG_EN p) = false → t.attPort p = s.attPort p ∧
      t.rd (fATT_PORT_STAT_STATE p).addr = s.rd (fATT_PORT_STAT_STATE p).addr)
    ∧ t.att.polledAt = some s.clk.tick ∧ SameMem s t ∧ PartsBut s t [.att, .fn])
  ∧
  -- polledEvents
  (∀ (s : State) (l : List (Fin 4)) (p : Fin 4), (∀ t0, s.att.polledAt = some t0 → t0 + 2000 ≤ s.clk.tick) →
    s.bit (fATT_PORT_CFG_EN p) = true → Room s 12 →
    ∃ t, exec (.presencePoll l) s = .next t ∧ (attState s p = 0 → p ∈ l → s.evOf 0xD001 p 1 ∈ t.evr.intake ∧
      t.bit fATT_EVT_PRESENCE = true)
    ∧ (attState s p ≠ 0 → p ∉ l → 2 ≤ (s.attPort p).missed → s.evOf 0xD001 p 0 ∈ t.evr.intake ∧
      t.bit fATT_EVT_PRESENCE = true))
  ∧
  -- polledEarly
  (∀ (s : State) (l : List (Fin 4)) (t0 : Nat), s.att.polledAt = some t0 → s.clk.tick < t0 + 2000 →
    ∃ t, exec (.presencePoll l) s = .next t ∧ t = s)
  ∧
  -- inhibitLock
  (∀ (s : State) (p : Fin 4), inhibits s p = true → s.bit (fATT_PORT_STAT_LOCKED p) = false → Room s 1 →
    Does s (attPolicy p s) [(fATT_PORT_STAT_LOCKED p, 1)] [s.evOf 0xD00A p 1] [.fn]
    ∧ (∀ f : Fin 30, (s.get (fATT_PORT_FMASK_FMASK p)).testBit f = true →
      (attPolicy p s).fn.lockSet.testBit f = true ∧ (attPolicy p s).fn.lockClr.testBit f = false)
    ∧ (∀ f : Fin 30, (s.get (fATT_PORT_FMASK_FMASK p)).testBit f = false →
      (attPolicy p s).fn.lockSet.testBit f = s.fn.lockSet.testBit f
        ∧ (attPolicy p s).fn.lockClr.testBit f = s.fn.lockClr.testBit f))
  ∧
  -- inhibitUnlock
  (∀ (s : State) (p : Fin 4), s.bit (fATT_PORT_STAT_LOCKED p) = true → attState s p = 2 → Room s 1 →
    Does s (attPolicy p s) [(fATT_PORT_STAT_LOCKED p, 0)] [s.evOf 0xD00A p 0] [.fn]
    ∧ (∀ f : Fin 30, (s.get (fATT_PORT_FMASK_FMASK p)).testBit f = true → s.fn.opLocks.testBit f = false
        → (∀ q : Fin 4, q ≠ p → inhibits s q = true → (s.get (fATT_PORT_FMASK_FMASK q)).testBit f = false)
        → (attPolicy p s).fn.lockClr.testBit f = true)
    ∧ (∀ f : Fin 30, (s.get (fATT_PORT_FMASK_FMASK p)).testBit f = false ∨ s.fn.opLocks.testBit f = true
        ∨ (∃ q : Fin 4, q ≠ p ∧ inhibits s q = true ∧ (s.get (fATT_PORT_FMASK_FMASK q)).testBit f = true)
        → (attPolicy p s).fn.lockClr.testBit f = s.fn.lockClr.testBit f ∧
          (attPolicy p s).fn.lockSet.testBit f = s.fn.lockSet.testBit f))
  ∧
  -- pendingNoLock
  (∀ (s : State) (p : Fin 4), (attState s p = 1 ∨ (attState s p = 2 ∧ s.bit (fATT_PORT_STAT_LOCKED p) = false) ∨
    (s.bit (fATT_PORT_CFG_POLICY p) = false ∧ attState s p ≠ 2)) →
    attPolicy p s = s)
  ∧
  -- authPassed
  (∀ (s : State) (p : Fin 4) (e : ElementIn), (s.attPort p).pendAt ≠ 0 → attState s p ≠ 0 →
    authFault s p e = none → e.serial < 2 ^ 64 → e.kind < 2 ^ fldWidth (fATT_PORT_STAT_ELEM_KIND p) →
    ∃ t, exec (.authentication p e) s = .next t ∧ attState t p = 2 ∧ attSerial t p = e.serial ∧
      t.get (fATT_PORT_STAT_ELEM_KIND p) = e.kind ∧ (t.attPort p).pendAt = 0
    ∧ (t.attPort p).authAt = s.clk.tick ∧ t.bit fATT_EVT_AUTH = true ∧ (∀ i : Fin 4,
      t.get (fATT_LIFE p i) = min 4294967295 (e.counters.getD i 0))
    ∧ (attState s p ≠ 2 → t.bit (fATT_PORT_STAT_CAL_PEND p) = !e.cal.isEmpty ∧ (t.attPort p).cal = e.cal
        ∧ (Room s 16 → s.evOf 0xD002 p e.kind ∈ t.evr.intake))
    ∧ (attState s p = 2 → (t.attPort p).cal = (s.attPort p).cal ∧
      t.bit (fATT_PORT_STAT_CAL_PEND p) = s.bit (fATT_PORT_STAT_CAL_PEND p))
    ∧ (t.attPort p).serial = e.serial
    ∧ (t.attPort p).acc = (if (s.attPort p).serial = e.serial ∨
      (s.attPort p).acc.all f32IsZero = true then (s.attPort p).acc else [0#32, 0#32, 0#32, 0#32])
    ∧ ((s.attPort p).serial ≠ e.serial → (s.attPort p).acc.all f32IsZero = false → Room s 16 →
      s.evOf 0xD009 p 2 ∈ t.evr.intake)
    ∧ SameMem s t ∧ PartsBut s t [.att, .fn])
  ∧
  -- authSteps
  (∀ (s : State) (p : Fin 4) (e : ElementIn),
    (e.answers = false ∨ (s.attPort p).pendAt + 2999 < s.clk.tick → authFault s p e = some (3, 5))
    ∧ (e.answers = true → s.clk.tick ≤ (s.attPort p).pendAt + 2999 →
        (e.certOk = false → authFault s p e = some (3, 1))
        ∧ (e.certOk = true → e.serial ∈ s.att.revoked → authFault s p e = some (3, 2))
        ∧ (e.certOk = true → e.serial ∉ s.att.revoked → e.kind ≠ s.get (fATT_PORT_CFG_KIND p) →
          (authFault s p e).map Prod.fst = some 4)
        ∧ (e.certOk = true → e.serial ∉ s.att.revoked → e.kind = s.get (fATT_PORT_CFG_KIND p) →
          e.signOk = false → authFault s p e = some (3, 3))
        ∧ (e.certOk = true → e.serial ∉ s.att.revoked → e.kind = s.get (fATT_PORT_CFG_KIND p) →
          e.signOk = true →
            (∀ x ∈ s.att.seen, x.1 ≠ e.serial) → authFault s p e = none)
        ∧ (∀ x, e.certOk = true → e.serial ∉ s.att.revoked → e.kind = s.get (fATT_PORT_CFG_KIND p) →
          e.signOk = true →
            s.att.seen.find? (fun x => x.1 == e.serial) = some x →
            (authFault s p e = none ∨ authFault s p e = some (3, 4)) ∧ (authFault s p e = some (3,
              4) ↔ ∃ c ∈ e.counters.zip x.2, c.1 < c.2))))
  ∧
  -- authFailed
  (∀ (s : State) (p : Fin 4) (e : ElementIn) (why : Nat), (s.attPort p).pendAt ≠ 0 → (attState s p = 1 ∨
    attState s p = 2) → (e.answers = true ∨ (s.attPort p).pendAt + 2999 ≤ s.clk.tick) →
    authFault s p e = some (3, why) → Room s 2 →
    ∃ t, exec (.authentication p e) s = .next t ∧ attState t p = 3 ∧ t.get (fATT_PORT_STAT_REASON p) = why % 8 ∧
      s.evOf 0xD003 p why ∈ t.evr.intake ∧ (t.attPort p).pendAt = 0
    ∧ (t.attPort p).authAt = s.clk.tick ∧ t.bit fATT_EVT_AUTH = true ∧ SameMem s t ∧ PartsBut s t [.att, .fn])
  ∧
  -- authWrongKind
  (∀ (s : State) (p : Fin 4) (e : ElementIn) (why : Nat), (s.attPort p).pendAt ≠ 0 → (attState s p = 1 ∨
    attState s p = 2) → e.answers = true → authFault s p e = some (4, why) → Room s 2 →
    ∃ t, exec (.authentication p e) s = .next t ∧ attState t p = 4 ∧
      t.get (fATT_PORT_STAT_REASON p) = s.get (fATT_PORT_STAT_REASON p) ∧ s.evOf 0xD004 p e.kind ∈ t.evr.intake
    ∧ t.get (fATT_PORT_STAT_ELEM_KIND p) = e.kind % 8 ∧ (t.attPort p).pendAt = 0 ∧ SameMem s t ∧
      PartsBut s t [.att, .fn])
  ∧
  -- authFailsAgain
  (∀ (s : State) (p : Fin 4) (e : ElementIn) (st why : Nat), (s.attPort p).pendAt ≠ 0 → (attState s p = 3 ∨
    attState s p = 4) → (e.answers = true ∨ (s.attPort p).pendAt + 2999 ≤ s.clk.tick) →
    authFault s p e = some (st, why) →
    ∃ t, exec (.authentication p e) s = .next t ∧ attState t p = attState s p ∧ (t.attPort p).pendAt = 0 ∧
      (t.attPort p).authAt = s.clk.tick ∧ t.bit fATT_EVT_AUTH = true
    ∧ SameMem s t ∧ Records s t [] ∧ PartsBut s t [.att])
  ∧
  -- authNone
  (∀ (s : State) (p : Fin 4) (e : ElementIn), ((s.attPort p).pendAt = 0 ∨ attState s p = 0 ∨
    (e.answers = false ∧ s.clk.tick < (s.attPort p).pendAt + 2999)) →
    ∃ t, exec (.authentication p e) s = .next t ∧ t = s)
  ∧
  -- reauthDue
  (∀ (s : State) (p : Fin 4), attState s p ≠ 0 → (s.attPort p).authAt + 12000000 ≤ s.clk.tick →
    ∃ t, exec (.periodicReauth p) s = .next t ∧ (t.attPort p).pendAt = s.clk.tick + 1 ∧ (∀ q : Fin 4, q ≠ p →
      t.attPort q = s.attPort q) ∧ Does s t [] [] [.att])
  ∧
  -- reauthEarly
  (∀ (s : State) (p : Fin 4), (attState s p = 0 ∨ s.clk.tick < (s.attPort p).authAt + 12000000) →
    ∃ t, exec (.periodicReauth p) s = .next t ∧ t = s)
  ∧
  -- reauthAsked
  (∀ (s : State) (q : Req) (m : Fin 16), reqIsOem q = false →
    ∃ t, exec (.reauth q m) s = .next t ∧ (∀ p : Fin 4, m.val.testBit p = true → attState s p ≠ 0 →
      (t.attPort p).pendAt = s.clk.tick + 1)
    ∧ (∀ p : Fin 4, (m.val.testBit p = false ∨ attState s p = 0) → t.attPort p = s.attPort p) ∧ Does s t [] []
      [.att])
  ∧
  -- reauthOem
  (∀ (s : State) (q : Req) (m : Fin 16), reqIsOem q = true →
    ∃ t, exec (.reauth q m) s = .next t ∧ t = s)
  ∧
  -- countersWritten
  (∀ (s : State) (l : List (Fin 4)), s.att.wroteAt + 1200000 ≤ s.clk.tick →
    ∃ t, exec (.counterWrite l) s = .next t ∧ (∀ p : Fin 4, attState s p = 2 → p ∈ l → ∀ i : Fin 4,
        t.get (fATT_LIFE p i) = min (s.get (fATT_LIFE p i) + (f32Floor (f32Div ((s.attPort p).acc.getD i 0#32) (lifeUnit i))).toNat) 4294967295)
    ∧ (∀ p : Fin 4, (attState s p ≠ 2 ∨ p ∉ l) → t.attPort p = s.attPort p ∧ ∀ i : Fin 4,
      t.rd (fATT_LIFE p i).addr = s.rd (fATT_LIFE p i).addr)
    ∧ t.att.wroteAt = s.clk.tick ∧ SameMem s t ∧ PartsBut s t [.att])
  ∧
  -- countersRemainder
  (∀ (s : State) (l : List (Fin 4)) (p i : Fin 4), s.att.wroteAt + 1200000 ≤ s.clk.tick → attState s p = 2 →
    p ∈ l → (∃ k : Fin 4, (f32Floor (f32Div ((s.attPort p).acc.getD k 0#32) (lifeUnit k))).toNat ≠ 0) →
    ∃ t, exec (.counterWrite l) s = .next t ∧
      (t.attPort p).acc.getD i 0#32 = f32Sub ((s.attPort p).acc.getD i 0#32)
        (f32Mul (f32OfNat (f32Floor (f32Div ((s.attPort p).acc.getD i 0#32) (lifeUnit i))).toNat) (lifeUnit i)))
  ∧
  -- countersEarly
  (∀ (s : State) (l : List (Fin 4)), s.clk.tick < s.att.wroteAt + 1200000 →
    ∃ t, exec (.counterWrite l) s = .next t ∧ t = s)
  ∧
  -- countersRetried
  (∀ (s : State) (l : List (Fin 4)) (p : Fin 4), s.att.wroteAt + 1200000 ≤ s.clk.tick → attState s p = 2 →
    p ∉ l → (∃ k : Fin 4, (f32Floor (f32Div ((s.attPort p).acc.getD k 0#32) (lifeUnit k))).toNat ≠ 0) →
    Room s 36 →
    ∃ t, exec (.counterWrite l) s = .next t ∧ s.evOf 0xD009 p 1 ∈ t.evr.intake ∧
      t.bit fATT_EVT_WRITE_ERR = true ∧ (t.attPort p).acc = (s.attPort p).acc)
  ∧
  -- lifeLimit
  (∀ (s : State) (p i : Fin 4), s.get (fATT_LIM p i) ≠ 0 → s.get (fATT_LIM p i) ≤ s.get (fATT_LIFE p i) →
    (s.attPort p).near.contains i.val = false → s.bitAt (fATT_PORT_STAT_EOL p) i = false → Room s 2 →
    Records s (lifeCheck p i s) [s.evOf 0xD007 p i, s.evOf 0xD008 p i] ∧
      (lifeCheck p i s).bitAt (fATT_PORT_STAT_EOL p) i = true
    ∧ (lifeCheck p i s).bitAt fATT_STATUS_EOL p = true ∧ (lifeCheck p i s).bit fATT_EVT_EOL = true ∧
      ((lifeCheck p i s).attPort p).near = i.val :: (s.attPort p).near)
  ∧
  -- lifeNear
  (∀ (s : State) (p i : Fin 4), s.get (fATT_LIFE p i) < s.get (fATT_LIM p i) →
    9 * s.get (fATT_LIM p i) ≤ 10 * s.get (fATT_LIFE p i) → (s.attPort p).near.contains i.val = false →
    Room s 1 →
    Does s (lifeCheck p i s) [(fATT_EVT_EOL, 1)] [s.evOf 0xD007 p i] [.att])
  ∧
  -- lifeFar
  (∀ (s : State) (p i : Fin 4), (s.get (fATT_LIM p i) = 0 ∨
    10 * s.get (fATT_LIFE p i) < 9 * s.get (fATT_LIM p i)
    ∨ ((s.attPort p).near.contains i.val = true ∧ (s.get (fATT_LIFE p i) < s.get (fATT_LIM p i) ∨
      s.bitAt (fATT_PORT_STAT_EOL p) i = true))) →
    lifeCheck p i s = s)

/-- ENABLE with an active function goes from OFF to PRESET, with a set of the presets without dither; DISABLE, which
wins in one write, goes to OFF with a set of amplitude 0; RESTART goes to HOLD or PRESET by MOVED with the window
and the tracking failures cleared; steady flow starts the dither in FILL from PRESET, or from HOLD with an active
function. A frame's cost is shown where every weighted term is valid; the frame enters the window either way, and
steady flow lost ends FILL or SEEK. In SEEK the update at U + 400 moves the base of each active function whose
tracking ratio and lag are in their ranges, counts a failure for any other, and sends the set for U + 800; with
fewer than 2,400 valid frames it moves nothing and records 0x3903 with flags 1. A set has its apply tick 800 after
the last frame boundary, is posted up to 11 ticks before it, or is discarded, counted and recorded as 0x3903; the
bases in force change only when a set is applied, with one result for each function. A lease that is lost ends every
dither at its next zero crossing, and FILL or SEEK. Until then the target is base plus amplitude times sine, and a
locked function keeps its target. An operator setpoint is the base of an active, unlocked function at the next set,
recorded as 0x3906 with the dither restarted; a locked function, and one that is not active, takes it as its
request; where guidance drives it waits. Commands from the OEM partition, outside OPEN, or in another state change
nothing. That a command whose conditions do not hold changes nothing is the model's reading (log entry 15). Where
the spec leaves the choice open or has to be read by inference, the clauses state the model's, of log entries 4, 59,
60, 122, 123, 149, 150, 151. (R65, R67, R133, R135, R136, R138, R139, R142, R143, R144, R145, R146) -/
def Obligations.SwingSearch : Prop :=
  -- swgOn
  (∀ (s : State) (q : Req), reqIsOem q = false → appOn s = true → swgState s = 0 → swgActive s ≠ [] → Room s 9 →

    ∃ t, exec (.swgEnable q false) s = .next t ∧ swgState t = 1 ∧ t.bit fSWG_EVT_STATE_CHG = true ∧
      t.swg.window = [] ∧ t.swg.setAt = none ∧ (t.swg.set).map (fun x => (x.apply, x.posted)) = some (setTick s,
      false)
    ∧ (∀ x, t.swg.set = some x → ∀ j : Fin 8, (x.items.getD j none).map (fun i => (i.base,
      i.amp)) = if takesPart s j then some (s.getF (fFUN_REC_PRESET (swgFn j)), 0#32) else none)
    ∧ (∀ j : Fin 8, t.getF (fSWG_FN_BASE j) = s.getF (fSWG_FN_BASE j)) ∧ t.swg.dith = s.swg.dith ∧
      t.swg.used = swgActive s
    ∧ t.evr.intake.getLast? = some (s.evOf 0x3901 0 1) ∧ SameMem s t ∧ PartsBut s t [.swg])
  ∧
  -- swgOnNone
  (∀ (s : State) (q : Req), reqIsOem q = false → appOn s = true → swgState s = 0 → swgActive s = [] →
    ∃ t, exec (.swgEnable q false) s = .next t ∧ swgState t = 0 ∧ (∀ j : Fin 8,
      t.get (fSWG_FN_STAT_COND j) = swgCond s j) ∧ t.swg.set = s.swg.set ∧ SameMem s t ∧ PartsBut s t [.swg])
  ∧
  -- swgOnAgain
  (∀ (s : State) (q : Req), reqIsOem q = false → appOn s = true → (swgState s = 1 ∨ swgState s = 4) →
    ∃ t, exec (.swgEnable q false) s = .next t ∧ swgState t = swgState s ∧ t.swg.set = s.swg.set ∧ (∀ j : Fin 8,
      t.getF (fSWG_FN_BASE j) = s.getF (fSWG_FN_BASE j)) ∧ SameMem s t ∧ PartsBut s t [.swg])
  ∧
  -- swgNo
  (∀ (s : State) (q : Req) (d : Bool), (reqIsOem q = true ∨ appOn s = false) →
    exec (.swgEnable q d) s = .next s ∧ exec (.swgDisable q) s = .next s ∧ exec (.swgRestart q) s = .next s)
  ∧
  -- swgDisableWins
  (∀ (s : State) (q : Req),
    exec (.swgEnable q true) s = exec (.swgDisable q) s)
  ∧
  -- swgOffOff
  (∀ (s : State) (q : Req), swgState s = 0 →
    exec (.swgDisable q) s = .next s ∧ exec (.swgRestart q) s = .next s)
  ∧
  -- swgOff
  (∀ (s : State) (q : Req), reqIsOem q = false → appOn s = true → swgState s ≠ 0 → Room s 1 →
    ∃ t, exec (.swgDisable q) s = .next t ∧ Does s t [(fSWG_STATUS_STATE, 0), (fSWG_EVT_STATE_CHG, 1)]
      [s.evOf 0x3901 0 0] [.swg] ∧ (t.swg.set).map (fun x => (x.apply, x.posted)) = some (setTick s, false)
    ∧ (∀ x, t.swg.set = some x → ∀ j : Fin 8, (x.items.getD j none).map (fun i => (i.base,
      i.amp)) = if takesPart s j then some (nextBase s j, 0#32) else none)
    ∧ t.swg.dith = s.swg.dith ∧ t.swg.used = s.swg.used ∧ t.swg.window = [] ∧ t.swg.upd = none)
  ∧
  -- swgAgain
  (∀ (s : State) (q : Req), reqIsOem q = false → appOn s = true → swgState s ≠ 0 →
    ∃ t, exec (.swgRestart q) s = .next t ∧ swgState t = (if s.bit fSWG_STATUS_MOVED then 4 else 1) ∧
      t.swg.window = [] ∧ t.swg.setAt = none ∧ (∀ j : Fin 8, t.get (fSWG_FN_STAT_TRACK_FAILS j) = 0)
    ∧ t.swg.used = swgActive t ∧ t.swg.set = s.swg.set ∧ SameMem s t ∧ PartsBut s t [.swg]
    ∧ (Room s 9 → swgState s ≠ swgState t → s.evOf 0x3901 0 (swgState t) ∈ t.evr.intake))
  ∧
  -- frameCost
  (∀ (s : State) (n : Nat) (m : SwgSample) (v : F32), appOn s = true →
    s.swg.samples.find? (fun x => x.frame == n) = some m →
    Sys2Proof.Machine.frameCost s m (frameStat s (s.swg.sigs.getD 0 1023) n) (frameStat s (s.swg.sigs.getD 1 1023) n) = some v →

    ∃ t, exec (.costFrame n) s = .next t ∧ t.getF fSWG_COST = v ∧ (∀ x ∈ t.swg.samples, x.frame ≠ n) ∧
      t.bit fSWG_STATUS_STEADY = isSteady t.swg.steady
    ∧ (t.swg.steady.head?).map Prod.fst = some m.flow.1 ∧ t.swg.steady.length ≤ 1000
    ∧ (t.swg.window = [] ∨ t.swg.window = ((⟨n, some v,
      m.meas.map Prod.fst⟩ : SwgFrame) :: s.swg.window).take 3002)
    ∧ (isSteady t.swg.steady = false → swgState s = 2 ∨ swgState s = 3 →
      swgState t = if s.bit fSWG_STATUS_MOVED then 4 else 1)
    ∧ SameMem s t ∧ PartsBut s t [.swg])
  ∧
  -- frameNoCost
  (∀ (s : State) (n : Nat) (m : SwgSample), appOn s = true →
    s.swg.samples.find? (fun x => x.frame == n) = some m →
    Sys2Proof.Machine.frameCost s m (frameStat s (s.swg.sigs.getD 0 1023) n) (frameStat s (s.swg.sigs.getD 1 1023) n) = none →

    ∃ t, exec (.costFrame n) s = .next t ∧ t.getF fSWG_COST = s.getF fSWG_COST ∧ (∀ x ∈ t.swg.samples,
      x.frame ≠ n) ∧ t.bit fSWG_STATUS_STEADY = isSteady t.swg.steady
    ∧ (t.swg.window = [] ∨ t.swg.window = ((⟨n, none,
      m.meas.map Prod.fst⟩ : SwgFrame) :: s.swg.window).take 3002)
    ∧
      t.get fSWG_STEADY_FRAMES = (if m.flow.2 && f32Le (s.getF fSWG_FLOW_MIN) m.flow.1 && m.cut.2 && f32Le f32One m.cut.1 then min 65535 (s.get fSWG_STEADY_FRAMES + 1) else 0)
    ∧ SameMem s t ∧ PartsBut s t [.swg])
  ∧
  -- frameTerms
  (∀ (s : State) (m : SwgSample) (br mog : SwgSig),
    (Sys2Proof.Machine.frameCost s m br mog = none ↔
      (f32IsZero (s.getF (fSWG_W 0)) = false ∧ (m.terms.getD 0 (0#32, false)).2 = false) ∨
        (f32IsZero (s.getF (fSWG_W 1)) = false ∧ (m.terms.getD 1 (0#32, false)).2 = false)
      ∨ (f32IsZero (s.getF (fSWG_W 2)) = false ∧ br.2 = false) ∨ (f32IsZero (s.getF (fSWG_W 3)) = false ∧
        mog.2 = false)
      ∨ (f32IsZero (s.getF (fSWG_W 4)) = false ∧ (m.terms.getD 2 (0#32, false)).2 = false) ∨
        (f32IsZero (s.getF (fSWG_W 5)) = false ∧ (m.terms.getD 3 (0#32, false)).2 = false)
      ∨ (f32IsZero (s.getF (fSWG_W 6)) = false ∧ (m.terms.getD 4 (0#32, false)).2 = false)))
  ∧
  -- frameUnknown
  (∀ (s : State) (n : Nat), (s.swg.samples.find? (fun x => x.frame == n) = none ∨ appOn s = false) →
    ∃ t, exec (.costFrame n) s = .next t ∧ t = s)
  ∧
  -- steady
  (∀ (s : State), appOn s = true → s.bit fSWG_STATUS_STEADY = true → (swgState s = 1 ∨ (swgState s = 4 ∧
    swgActive s ≠ [])) → Room s 1 →
    ∃ t, exec (.steadyReached) s = .next t ∧ Does s t [(fSWG_STATUS_STATE, 2), (fSWG_EVT_STATE_CHG, 1)]
      [s.evOf 0x3901 0 2] [.swg] ∧ t.swg.window = [] ∧ t.swg.t0 = setTick s
    ∧ (t.swg.set).map (fun x => (x.apply, x.posted)) = some (setTick s, false)
    ∧ (∀ x, t.swg.set = some x → ∀ j : Fin 8, x.items.getD j none = if takesPart s j then some ⟨nextBase s j,
      if swgCond s j = 0 then s.getF (fSWG_FN_AMP j) else 0#32, s.get (fSWG_FN_CFG_K j), setTick s⟩ else none))
  ∧
  -- notSteady
  (∀ (s : State), (s.bit fSWG_STATUS_STEADY = false ∨ appOn s = false ∨ swgState s = 0 ∨ swgState s = 2 ∨
    swgState s = 3 ∨ (swgState s = 4 ∧ swgActive s = [])) →
    ∃ t, exec (.steadyReached) s = .next t ∧ t = s)
  ∧
  -- updateFew
  (∀ (s : State) (u : Nat) (js : List F32), appOn s = true → s.swg.upd = some u → s.clk.tick = u + 400 →
    swgState s = 3 → (winFrames s u).filterMap SwgFrame.cost = js → js.length < 2400 → Room s 1 →
    ∃ t, exec (.swingUpdate) s = .next t ∧ Does s t ([(fSWG_EVT_UPDATE, 1)] ++ (if js = [] then []
      else [(fSWG_COST_WIN, (meanOf js).toNat)]) ++ [(fSWG_EVT_SET_MISSED, 1)]) [s.evOf 0x3903 0 1] [.swg]
    ∧ t.swg = { s.swg with upd := none })
  ∧
  -- updateMoves
  (∀ (s : State) (u : Nat) (g q r lag : F32) (j : Fin 8), appOn s = true → s.swg.upd = some u →
    s.clk.tick = u + 400 → swgState s = 3 → 2400 ≤ ((winFrames s u).filterMap SwgFrame.cost).length →
    swgCond s j = 0 → fitFn s (swgFit s u) j = (g, q, r, lag) →
    ∃ t, exec (.swingUpdate) s = .next t ∧ (∀ x, t.swg.set = some x →
      (x.items.getD j none).map SwgItem.base = some (if tracks r lag = true then movedBase s j g else s.getF (fSWG_FN_BASE j)))
    ∧
      t.get (fSWG_FN_STAT_TRACK_FAILS j) = (if tracks r lag = true then 0 else min 3 (s.get (fSWG_FN_STAT_TRACK_FAILS j) + 1))
    ∧ (tracks r lag = true ↔ f32Le 0x3F333333#32 r = true ∧ f32Le r 0x3FA66666#32 = true ∧
      f32Le (f32Abs lag) 0x41F00000#32 = true)
    ∧ t.getF (fSWG_FN_GRAD j) = g ∧ t.getF (fSWG_FN_QUAD j) = q ∧ t.getF (fSWG_FN_TRK j) = r ∧
      t.bit fSWG_EVT_UPDATE = true
    ∧ t.getF fSWG_COST_WIN = meanOf ((winFrames s u).filterMap SwgFrame.cost)
    ∧ (s.swg.used = swgActive s → (∀ k, swgCond s k = 0 → s.get (fSWG_FN_STAT_TRACK_FAILS k) < 2) →
        swgState t = 3 ∧ t.swg.window = s.swg.window ∧ (t.swg.set).map (fun x => (x.apply,
          x.posted)) = some (u + 800, false))
    ∧ (∀ k : Fin 8, t.getF (fSWG_FN_BASE k) = s.getF (fSWG_FN_BASE k)) ∧ t.swg.dith = s.swg.dith ∧ SameMem s t ∧
      PartsBut s t [.swg])
  ∧
  -- updateNot
  (∀ (s : State), (∀ u, s.swg.upd = some u → s.clk.tick ≠ u + 400 ∨ swgState s ≠ 3 ∨ appOn s = false) →
    ∃ t, exec (.swingUpdate) s = .next t ∧ t = s)
  ∧
  -- posted
  (∀ (s : State) (m : SwgSet), appOn s = true → s.swg.set = some m → m.posted = false →
    s.clk.tick + 11 ≤ m.apply → ringWorkers s = [] →
    ∃ t, exec (.setPost) s = .next t ∧
      t = { s with swg := { s.swg with set := some { m with posted := true } } })
  ∧
  -- postedRing
  (∀ (s : State) (m : SwgSet), appOn s = true → s.swg.set = some m → m.posted = false →
    s.clk.tick + 11 ≤ m.apply → ringWorkers s ≠ [] →
    ∃ t, exec (.setPost) s = .next t ∧ t.swg = { s.swg with set := some { m with posted := true } }
    ∧ t.ecn.sent.head? = some ⟨0x05, [(s.ecn.nextGen : Int), (m.apply : Int)] ++ setArgs m⟩
    ∧ t.ecn.waits = s.ecn.waits ++ [⟨0x05, s.ecn.nextGen, m.apply, ringWorkers s, [], false⟩] ∧ Does s t [] []
      [.swg, .ecn])
  ∧
  -- postedNot
  (∀ (s : State), (s.swg.set = none ∨ appOn s = false ∨ (∃ m, s.swg.set = some m ∧ (m.posted = true ∨
    m.apply < s.clk.tick + 11))) →
    ∃ t, exec (.setPost) s = .next t ∧ t = s)
  ∧
  -- missed
  (∀ (s : State) (m : SwgSet), s.swg.set = some m → m.posted = false → m.apply ≤ s.clk.tick + 10 → Room s 1 →
    ∃ t, exec (.setMissed) s = .next t ∧ Does s t [(fSWG_MISS_CNT, s.up fSWG_MISS_CNT), (fSWG_EVT_SET_MISSED,
      1)] [s.evOf 0x3903 0 0] [.swg] ∧ t.swg = { s.swg with set := none })
  ∧
  -- missedNot
  (∀ (s : State), (∀ m, s.swg.set = some m → m.posted = true ∨ s.clk.tick + 10 < m.apply) →
    ∃ t, exec (.setMissed) s = .next t ∧ t = s)
  ∧
  -- leaseGone
  (∀ (s : State), sigUsable (leaseSig s) 800 = false → (swgState s = 2 ∨ swgState s = 3) → Room s 1 →
    ∃ t, exec (.leaseLost) s = .next t ∧ Does s t [(fSWG_STATUS_LEASE, 0), (fSWG_STATUS_STATE,
      if s.bit fSWG_STATUS_MOVED then 4 else 1), (fSWG_EVT_STATE_CHG, 1)]
      [s.evOf 0x3901 0 (if s.bit fSWG_STATUS_MOVED then 4 else 1)] [.swg]
    ∧ t.swg = { s.swg with ending := s.swg.dith.map Prod.fst, window := [], setAt := none, upd := none })
  ∧
  -- leaseHeld
  (∀ (s : State), sigUsable (leaseSig s) 800 = true →
    ∃ t, exec (.leaseLost) s = .next t ∧ t = s)
  ∧
  -- leaseGoneIdle
  (∀ (s : State), sigUsable (leaseSig s) 800 = false → swgState s ≠ 2 → swgState s ≠ 3 →
    ∃ t, exec (.leaseLost) s = .next t ∧ Does s t [(fSWG_STATUS_LEASE, 0)] [] [.swg] ∧
      t.swg = { s.swg with ending := s.swg.dith.map Prod.fst })
  ∧
  -- ditherOver
  (∀ (s : State) (j : Fin 8) (m : SwgItem), dithDue s j = true →
    s.swg.dith.find? (fun d => d.1 == j.val) = some (j.val, m) → fnHome s (swgFn j) = true →
    ∃ t, exec (.ditherEnd j) s = .next t ∧ t.getF (fFUN_REC_SP_TGT (swgFn j)) = fnClamp s (swgFn j) m.base ∧
      (∀ x ∈ t.swg.dith, x.1 ≠ j.val) ∧ j.val ∉ t.swg.ending ∧ SameMem s t
    ∧ Touches s t [(fFUN_REC_SP_TGT (swgFn j)).addr, (fFUN_REC_CTL_CLAMPED (swgFn j)).addr, fFUN_EVT_CLAMP.addr]
      [.swg, .fn])
  ∧
  -- ditherRuns
  (∀ (s : State) (j : Fin 8), dithDue s j = false →
    ∃ t, exec (.ditherEnd j) s = .next t ∧ t = s)
  ∧
  -- ditherAway
  (∀ (s : State) (j : Fin 8) (m : SwgItem), dithDue s j = true → fnHome s (swgFn j) = false →
    ∃ t, exec (.ditherEnd j) s = .next t ∧ (∀ x, x ∈ t.swg.dith ↔ x ∈ s.swg.dith ∧ x.1 ≠ j.val) ∧
      j.val ∉ t.swg.ending ∧ Does s t [] [] [.swg])
  ∧
  -- ditherTarget
  (∀ (s : State) (j : Fin 8) (m : SwgItem), s.swg.dith = [(j.val, m)] →
    s.bitAt fFUN_LOCK_LOCK (swgFn j) = false → dithDue s j = false → m.t0 ≤ s.clk.tick →
    fnHome s (swgFn j) = true → s.get (fFUN_REC_CTL_SP_SRC (swgFn j)) ≠ 3 →
    (ditherTick s).getF (fFUN_REC_SP_TGT (swgFn j)) = fnClamp s (swgFn j) (f32Add m.base (f32Mul m.amp (sineAt ((s.clk.tick - m.t0) * m.k % 1200000))))
    ∧ (ditherTick s).swg = s.swg ∧ PartsBut s (ditherTick s) [.fn])
  ∧
  -- ditherLocked
  (∀ (s : State) (j : Fin 8) (m : SwgItem), s.swg.dith = [(j.val, m)] →
    s.bitAt fFUN_LOCK_LOCK (swgFn j) = true →
    (ditherTick s).swg.dith = [] ∧ Does s (ditherTick s) [] [] [.swg])
  ∧
  -- setApplied
  (∀ (s : State) (m : SwgSet) (j : Fin 8), s.swg.set = some m → m.posted = true → m.apply = s.clk.tick →
    (applySet s).swg.set = none ∧ (applySet s).bit fSWG_EVT_SET_APPLIED = true ∧
      (applySet s).get fSWG_UPD_CNT = s.up fSWG_UPD_CNT
    ∧ (applySet s).get64 fSWG_SET_TICK_LO.addr = m.apply % 18446744073709551616
    ∧ (m.items.getD j none = none ∨ takesPart s j = false ∨ s.bit (fFUN_REC_CTL_EN (swgFn j)) = false →
        (applySet s).get (fSetRes j) = 3 ∧ (applySet s).getF (fSWG_FN_BASE j) = s.getF (fSWG_FN_BASE j))
    ∧ (∀ i, m.items.getD j none = some i → takesPart s j = true → s.bit (fFUN_REC_CTL_EN (swgFn j)) = true →
        (s.bitAt fFUN_LOCK_LOCK (swgFn j) = true → (applySet s).get (fSetRes j) = 2 ∧
          (applySet s).getF (fSWG_FN_BASE j) = s.getF (fSWG_FN_BASE j))
        ∧ (s.bitAt fFUN_LOCK_LOCK (swgFn j) = false →
            (applySet s).getF (fSWG_FN_BASE j) = f32Min (f32Max i.base (f32Add (fnLo s (swgFn j)) ((if f32Lt (f32Sub (fnHi s (swgFn j)) (fnLo s (swgFn j))) (f32Mul 0x40000000#32 i.amp) then 0#32 else i.amp))))
                (f32Sub (fnHi s (swgFn j)) (if f32Lt (f32Sub (fnHi s (swgFn j)) (fnLo s (swgFn j))) (f32Mul 0x40000000#32 i.amp) then 0#32 else i.amp))
            ∧ ((applySet s).get (fSetRes j) = 0 ∨ (applySet s).get (fSetRes j) = 1))))
  ∧
  -- setStays
  (∀ (s : State), (∀ m, s.swg.set = some m → m.posted = false ∨ m.apply ≠ s.clk.tick) →
    applySet s = s)
  ∧
  -- opTarget
  (∀ (s : State) (f : Fin 30) (v : F32), (s.bitAt fFUN_LOCK_LOCK f = true ∨ ((∀ j : Fin 8, swgFn j = f.val →
    j.val ∉ s.swg.used) ∧ s.get (fFUN_REC_CTL_SP_SRC f) ≠ 3)
    ∨ (∃ j : Fin 8, swgFn j = f.val ∧ j.val ∈ s.swg.used ∧ (swgState s = 0 ∨ appOn s = false))) →
    ∃ t, exec (.operatorSetpoint f v) s = .next t ∧ (t.fnSt f).opReq = some v ∧
      t.get (fFUN_REC_CTL_SP_SRC f) = 2 ∧ t.getF (fFUN_REC_SP_TGT f) = fnClamp s f v ∧ (t.fnSt f).req = v ∧
      SameMem s t
    ∧ t.bit (fFUN_REC_CTL_CLAMPED f) = (fnClamp s f v != f32Flush v)
    ∧ (∀ g : Fin 30, g ≠ f → t.fnSt g = s.fnSt g) ∧ Touches s t [(fFUN_REC_CTL f).addr,
      (fFUN_REC_SP_TGT f).addr, fFUN_EVT_CLAMP.addr] [.fn])
  ∧
  -- opGuided
  (∀ (s : State) (f : Fin 30) (v : F32), s.bitAt fFUN_LOCK_LOCK f = false → (∀ j : Fin 8, swgFn j = f.val →
    j.val ∉ s.swg.used) → s.get (fFUN_REC_CTL_SP_SRC f) = 3 →
    ∃ t, exec (.operatorSetpoint f v) s = .next t ∧ t = s.setFnSt f { s.fnSt f with opReq := some v })
  ∧
  -- opBase
  (∀ (s : State) (j : Fin 8) (f : Fin 30) (v : F32), appOn s = true → s.bitAt fFUN_LOCK_LOCK f = false →
    f.val = swgFn j → j.val ∈ s.swg.used → swgState s ≠ 0 → Room s 3 →
    ∃ t, exec (.operatorSetpoint f v) s = .next t ∧ (t.fnSt f).opReq = some v ∧
      t.getF (fSWG_FN_BASE j) = s.getF (fSWG_FN_BASE j)
    ∧ (∀ x, t.swg.set = some x → ∀ k : Fin 8,
      (x.items.getD k none).map SwgItem.base = if takesPart s k = true then some (if k = j then
        f32Min (f32Max (fnClamp s f v) (f32Add (fnLo s f) (s.getF (fSWG_FN_AMP j)))) (f32Sub (fnHi s f) (s.getF (fSWG_FN_AMP j))) else nextBase s k) else none)
    ∧ s.evOf 0x3906 (f.val + 1) ∈ t.evr.intake ∧ (t.swg.set).map (fun x => (x.apply,
      x.posted)) = some (setTick s, false)
    ∧ (fnClamp s f v ≠ f32Flush v → s.evOf 0x3821 (f.val + 1) 0 (f16OfF32 v) (f16OfF32 v) ∈ t.evr.intake ∧
      t.bit fFUN_EVT_CLAMP = true)
    ∧ (swgState s = 2 ∨ swgState s = 3 → swgState t = 2 ∧ t.swg.window = [] ∧ t.swg.t0 = setTick s) ∧
      (swgState s = 1 ∨ swgState s = 4 → swgState t = swgState s)
    ∧ t.getF (fFUN_REC_SP_TGT f) = s.getF (fFUN_REC_SP_TGT f) ∧ SameMem s t ∧ PartsBut s t [.fn, .swg])

/-- A frame received on an enabled port that is not in bus-off or asleep is counted and feeds every map entry it matches
with SCALE and OFFSET, recorded as 0x9207 after a timeout; "not available" keeps the value; one that no entry takes
goes to the service firmware where the port passes raw frames or the frame is a diagnostic one, while the
application runs. A CAN FD frame on a classical port is a protocol exception, recorded once a second. A request for
the claimed address is answered through the express slot, another one asked of this node alone by a negative
acknowledgement (frame bytes: log entry 63). No matching frame for TIMEOUT is recorded once as 0x9206. A message at
its period and phase, with a signal that is not OFF, joins the FIFO, or the express slot of a plain port, with its
signals placed; a full FIFO refuses it as 0x9204; an instance that has not started is replaced. A frame that is sent
is SERVED, or DEFERRED where it waited, and one that had blocked higher priorities counts in INV_CNT; the last
failed attempt refuses it as 0x9205. A head older than HOQ_LIM is recorded once as 0x920D; a flush refuses what the
FIFO holds; a port goes to sleep when it is drained or 50 ms after the descent began, with 0x920E and what was left
refused. After 100 µs without a claim a transmit signal takes its policy, recorded as 0x920B. Where its condition
does not hold, each command changes nothing. That a command whose conditions do not hold changes nothing is the
model's reading (log entry 15). Where the spec leaves the choice open or has to be read by inference, the clauses
state the model's, of log entries 13, 61, 62, 140. (R339, R341, R342, R343, R344, R345, R346, R347, R348, R349,
R350, R354) -/
def Obligations.CanFrames : Prop :=
  -- rxOff
  (∀ (s : State) (p : Fin 6) (f : CanFrame), (s.bit (fCAN_PORT_CFG_EN p) = false ∨ canState s p = 2 ∨
    canState s p = 3) →
    ∃ t, exec (.canFrameReceive p f) s = .next t ∧ t = s)
  ∧
  -- rxProto
  (∀ (s : State) (p : Fin 6) (f : CanFrame), s.bit (fCAN_PORT_CFG_EN p) = true → canState s p < 2 →
    s.get (fCAN_PORT_CFG_DRATE p) = 0 → f.fdf = true →
    (match (s.canPort p).protoAt with | some z => decide (z + 20000 ≤ s.clk.tick) | none => true) = true →
    Room s 1 →
    ∃ t, exec (.canFrameReceive p f) s = .next t ∧ Does s t [(fCAN_CNT_ERR_PROTO_EXC p,
      s.up (fCAN_CNT_ERR_PROTO_EXC p)), (fCAN_EVT_PROTO_EXC, 1)] [s.evOf 0x920A p] [.can]
    ∧ t.canPort p = { s.canPort p with protoAt := some s.clk.tick } ∧ (∀ q : Fin 6, q ≠ p →
      t.canPort q = s.canPort q))
  ∧
  -- rxProtoSoon
  (∀ (s : State) (p : Fin 6) (f : CanFrame) (z : Nat), s.bit (fCAN_PORT_CFG_EN p) = true → canState s p < 2 →
    s.get (fCAN_PORT_CFG_DRATE p) = 0 → f.fdf = true → (s.canPort p).protoAt = some z → s.clk.tick < z + 20000 →

    ∃ t, exec (.canFrameReceive p f) s = .next t ∧ Does s t [(fCAN_CNT_ERR_PROTO_EXC p,
      s.up (fCAN_CNT_ERR_PROTO_EXC p)), (fCAN_EVT_PROTO_EXC, 1)] [] [])
  ∧
  -- rxSignal
  (∀ (s : State) (p : Fin 6) (f : CanFrame) (i raw : Nat) (m : SigMap), s.bit (fCAN_PORT_CFG_EN p) = true →
    canState s p < 2 → (f.fdf = false ∨ s.get (fCAN_PORT_CFG_DRATE p) ≠ 0) → (canJ1939 s p = false ∨
    f.ide = false ∨ f.id / 65536 % 256 ≠ 0xEA) → (s.wide = false ∨ s.get fGNS_CORR_CFG_PORT ≠ p.val ∨
    s.bit fGNS_CORR_CFG_EXT ≠ f.ide ∨ s.get fGNS_CORR_ID_CAN_ID ≠ f.id) →
    ((s.can.maps.filter (fun x => mapMatches x.2 p f)).map Prod.fst).Nodup → (i, m) ∈ s.can.maps →
    mapMatches m p f = true → rawField m.big m.start m.len f.data = some raw → (m.na = false ∨
    raw + 2 < 2 ^ m.len) →
    ∃ t, exec (.canFrameReceive p f) s = .next t ∧ t.get (fCAN_CNT_RX p) = s.up (fCAN_CNT_RX p) ∧
      t.can.ports = s.can.ports
    ∧ canVal t i = ⟨f32Add (f32Mul (f32OfInt (if m.signed then ofField m.len raw else raw)) m.scale) m.offset,
      s.clk.tick, false, false⟩
    ∧ (∀ k, (∀ y ∈ s.can.maps, mapMatches y.2 p f = true → y.1 ≠ k) → canVal t k = canVal s k)
    ∧ ((canVal s i).out = true → Room s s.can.maps.length →
      s.evOf 0x9207 m.port 0 f16NaN (f16OfNat i) ∈ t.evr.intake)
    ∧ SameMem s t ∧ Touches s t [(fCAN_CNT_RX p).addr] [.can])
  ∧
  -- rxNotAvailable
  (∀ (s : State) (p : Fin 6) (f : CanFrame) (i raw : Nat) (m : SigMap), s.bit (fCAN_PORT_CFG_EN p) = true →
    canState s p < 2 → (f.fdf = false ∨ s.get (fCAN_PORT_CFG_DRATE p) ≠ 0) → (canJ1939 s p = false ∨
    f.ide = false ∨ f.id / 65536 % 256 ≠ 0xEA) → (s.wide = false ∨ s.get fGNS_CORR_CFG_PORT ≠ p.val ∨
    s.bit fGNS_CORR_CFG_EXT ≠ f.ide ∨ s.get fGNS_CORR_ID_CAN_ID ≠ f.id) →
    s.can.maps.filter (fun x => mapMatches x.2 p f) = [(i, m)] →
    rawField m.big m.start m.len f.data = some raw → m.na = true → 2 ^ m.len ≤ raw + 2 →
    ∃ t, exec (.canFrameReceive p f) s = .next t ∧ Does s t [(fCAN_CNT_RX p, s.up (fCAN_CNT_RX p))] [] [.can] ∧
      canVal t i = { canVal s i with tick := s.clk.tick, na := true } ∧ (∀ k, k ≠ i → canVal t k = canVal s k))
  ∧
  -- rxShort
  (∀ (s : State) (p : Fin 6) (f : CanFrame) (i : Nat) (m : SigMap), s.bit (fCAN_PORT_CFG_EN p) = true →
    canState s p < 2 → (f.fdf = false ∨ s.get (fCAN_PORT_CFG_DRATE p) ≠ 0) → (canJ1939 s p = false ∨
    f.ide = false ∨ f.id / 65536 % 256 ≠ 0xEA) → (s.wide = false ∨ s.get fGNS_CORR_CFG_PORT ≠ p.val ∨
    s.bit fGNS_CORR_CFG_EXT ≠ f.ide ∨ s.get fGNS_CORR_ID_CAN_ID ≠ f.id) →
    s.can.maps.filter (fun x => mapMatches x.2 p f) = [(i, m)] → f.data.length * 8 < m.start + m.len →
    ∃ t, exec (.canFrameReceive p f) s = .next t ∧ Does s t [(fCAN_CNT_RX p, s.up (fCAN_CNT_RX p))] [] [])
  ∧
  -- rxRaw
  (∀ (s : State) (p : Fin 6) (f : CanFrame), s.bit (fCAN_PORT_CFG_EN p) = true → canState s p < 2 →
    (f.fdf = false ∨ s.get (fCAN_PORT_CFG_DRATE p) ≠ 0) → (canJ1939 s p = false ∨ f.ide = false ∨
    f.id / 65536 % 256 ≠ 0xEA) → (s.wide = false ∨ s.get fGNS_CORR_CFG_PORT ≠ p.val ∨
    s.bit fGNS_CORR_CFG_EXT ≠ f.ide ∨ s.get fGNS_CORR_ID_CAN_ID ≠ f.id) →
    s.can.maps.filter (fun x => mapMatches x.2 p f) = [] → ((s.canPort p).rawSel = true ∨
    diagFrame s p f = true) → appRuns s = true →
    ∃ t, exec (.canFrameReceive p f) s = .next t ∧ Does s t [(fCAN_CNT_RX p, s.up (fCAN_CNT_RX p))] [] [.can] ∧
      t.can = { s.can with raw := ⟨p, s.clk.tick, f.cycle, f.id, f.ide, f.data⟩ :: s.can.raw })
  ∧
  -- rxDropped
  (∀ (s : State) (p : Fin 6) (f : CanFrame), s.bit (fCAN_PORT_CFG_EN p) = true → canState s p < 2 →
    (f.fdf = false ∨ s.get (fCAN_PORT_CFG_DRATE p) ≠ 0) → (canJ1939 s p = false ∨ f.ide = false ∨
    f.id / 65536 % 256 ≠ 0xEA) → (s.wide = false ∨ s.get fGNS_CORR_CFG_PORT ≠ p.val ∨
    s.bit fGNS_CORR_CFG_EXT ≠ f.ide ∨ s.get fGNS_CORR_ID_CAN_ID ≠ f.id) →
    s.can.maps.filter (fun x => mapMatches x.2 p f) = [] → (((s.canPort p).rawSel = false ∧
    diagFrame s p f = false) ∨ appRuns s = false) →
    ∃ t, exec (.canFrameReceive p f) s = .next t ∧ Does s t [(fCAN_CNT_RX p, s.up (fCAN_CNT_RX p))] [] [])
  ∧
  -- rxRequest
  (∀ (s : State) (p : Fin 6) (f : CanFrame) (b0 b1 b2 : Byte), canJ1939 s p = true → f.ide = true →
    f.id / 65536 % 256 = 0xEA → (f.id / 256 % 256 = 255 ∨ f.id / 256 % 256 = canAddr s p) → f.data.take 3 = [b0,
    b1, b2] →
    (b0.toNat + 256 * b1.toNat + 65536 * b2.toNat = 60928 →
      j1939Request p f s = (if canAcl s p = 0 then s else canExpress p (claimFrame s p (canAddr s p)) s))
    ∧ (b0.toNat + 256 * b1.toNat + 65536 * b2.toNat = 65227 → appRuns s = false → j1939Request p f s = s)
    ∧ (b0.toNat + 256 * b1.toNat + 65536 * b2.toNat = 65227 → appRuns s = true → ∃ g : TxFrame,
      g.id = 0x18FECB00 + canAddr s p ∧ g.ide = true ∧ g.data.length = 8
        ∧ j1939Request p f s = canQueue p g { s with free := s.free + 8 })
    ∧ (b0.toNat + 256 * b1.toNat + 65536 * b2.toNat ≠ 60928 →
      b0.toNat + 256 * b1.toNat + 65536 * b2.toNat ≠ 65227 → j1939Request p f s =
        (if f.id / 256 % 256 = 255 then s else canQueue p ⟨0x18E8FF00 + canAddr s p, true, [1#8, 255#8, 255#8,
          255#8, BitVec.ofNat 8 (f.id % 256), b0, b1, b2], none, false, 0, false⟩ s)))
  ∧
  -- timedOut
  (∀ (s : State) (i : Fin 256) (n : Nat) (m : SigMap), s.can.maps.find? (fun x => x.1 == 192 + i.val) = some (n,
    m) → (canVal s n).out = false → (canVal s n).tick + 20 * m.timeout ≤ s.clk.tick → Room s 1 →
    ∃ t, exec (.signalTimeout i) s = .next t ∧ Does s t [(fCAN_EVT_TIMEOUT, 1)]
      [s.evOf 0x9206 m.port 0 f16NaN (f16OfNat n)] [.can] ∧ canVal t n = { canVal s n with out := true })
  ∧
  -- timedOutNot
  (∀ (s : State) (i : Fin 256), (∀ x ∈ s.can.maps, x.1 = 192 + i.val → (canVal s x.1).out = true ∨
    s.clk.tick < (canVal s x.1).tick + 20 * x.2.timeout) →
    ∃ t, exec (.signalTimeout i) s = .next t ∧ t = s)
  ∧
  -- queued
  (∀ (s : State) (m : Fin 32) (k : Nat) (d : TxMsg), s.can.msgs.find? (fun x => x.1 == m.val) = some (k, d) →
    d.period ≠ 0 → s.clk.tick % d.period = d.phase → s.bit (fCAN_PORT_CFG_EN d.port) = true →
    canState s d.port ≠ 3 → d.port < 6 → (d.express = false ∨ canJ1939 s d.port = true) → (d.places = [] ∨
    ∃ x ∈ d.places, txsOff s x.sig = false) → (∀ x ∈ (s.canPort d.port).fifo, x.msg = some m.val →
    x.tries ≠ 0) → (s.canPort d.port).fifo.length < 32 →
    ∃ t, exec (.txMessageDue m) s = .next t ∧ (t.canPort d.port).fifo.map (fun x => (x.id, x.ide, x.msg,
      x.tries, x.data)) =
      (s.canPort d.port).fifo.map (fun x => (x.id, x.ide, x.msg, x.tries, x.data)) ++ [(d.id, d.ide, some m.val,
        0, d.places.foldl (fun bs x => placeSig s x bs) d.bytes)]
    ∧ t.get (fCAN_FIFO_DEPTH d.port) = (s.canPort d.port).fifo.length + 1 ∧ t.can.outcomes = s.can.outcomes
    ∧ SameMem s t ∧ Records s t [] ∧ Touches s t [(fCAN_FIFO d.port).addr] [.can])
  ∧
  -- queuedExpress
  (∀ (s : State) (m : Fin 32) (k : Nat) (d : TxMsg), s.can.msgs.find? (fun x => x.1 == m.val) = some (k, d) →
    d.period ≠ 0 → s.clk.tick % d.period = d.phase → s.bit (fCAN_PORT_CFG_EN d.port) = true →
    canState s d.port ≠ 3 → d.port < 6 → d.express = true → canJ1939 s d.port = false → (d.places = [] ∨
    ∃ x ∈ d.places, txsOff s x.sig = false) →
    ∃ t, exec (.txMessageDue m) s = .next t ∧ (t.canPort d.port).express = some ⟨d.id, d.ide,
      d.places.foldl (fun bs x => placeSig s x bs) d.bytes, some m.val, false, 0, false⟩ ∧
      t.bit (fCAN_FIFO_EXPRESS d.port) = true
    ∧ (t.canPort d.port).fifo.map (fun x => (x.id, x.tries,
      x.data)) = (s.canPort d.port).fifo.map (fun x => (x.id, x.tries, x.data))
    ∧
      (t.canPort d.port).flight = (if (s.canPort d.port).express.isSome then (s.canPort d.port).flight else !(s.canPort d.port).fifo.isEmpty)
    ∧ t.can.outcomes = s.can.outcomes ∧ SameMem s t ∧ Records s t [] ∧ Touches s t [(fCAN_FIFO d.port).addr,
      (fCAN_HOQ d.port).addr] [.can])
  ∧
  -- queueFull
  (∀ (s : State) (m : Fin 32) (k : Nat) (d : TxMsg), s.can.msgs.find? (fun x => x.1 == m.val) = some (k, d) →
    d.period ≠ 0 → s.clk.tick % d.period = d.phase → s.bit (fCAN_PORT_CFG_EN d.port) = true →
    canState s d.port ≠ 3 → (d.express = false ∨ canJ1939 s d.port = true) → (d.places = [] ∨ ∃ x ∈ d.places,
    txsOff s x.sig = false) → (∀ x ∈ (s.canPort d.port).fifo, x.msg = some m.val → x.tries ≠ 0) →
    32 ≤ (s.canPort d.port).fifo.length → Room s 1 →
    ∃ t, exec (.txMessageDue m) s = .next t ∧ Does s t [(fCAN_EVT_REFUSED, 1), (fCAN_CNT_REF_FULL d.port,
      s.up (fCAN_CNT_REF_FULL d.port))] [s.evOf 0x9204 d.port] [.can]
    ∧ t.can = { s.can with outcomes := ⟨d.port, d.id, 2, 1⟩ :: s.can.outcomes })
  ∧
  -- queueReplaced
  (∀ (s : State) (m : Fin 32) (k : Nat) (d : TxMsg), s.can.msgs.find? (fun x => x.1 == m.val) = some (k, d) →
    d.period ≠ 0 → s.clk.tick % d.period = d.phase → s.bit (fCAN_PORT_CFG_EN d.port) = true →
    canState s d.port ≠ 3 → d.port < 6 → (d.express = false ∨ canJ1939 s d.port = true) → (d.places = [] ∨
    ∃ x ∈ d.places, txsOff s x.sig = false) → (∃ x ∈ (s.canPort d.port).fifo, x.msg = some m.val ∧
    x.tries = 0) →
    ∃ t, exec (.txMessageDue m) s = .next t ∧ t.get (fCAN_CNT_SUP d.port) = s.up (fCAN_CNT_SUP d.port)
    ∧ (t.canPort d.port).fifo.map (fun x => (x.id, x.tries,
      x.data)) = (s.canPort d.port).fifo.map (fun x => (x.id, x.tries, if x.msg = some m.val ∧
      x.tries = 0 then d.places.foldl (fun bs x => placeSig s x bs) d.bytes else x.data))
    ∧ t.can.outcomes = s.can.outcomes ∧ SameMem s t ∧ Records s t [] ∧ Touches s t [(fCAN_FIFO d.port).addr,
      (fCAN_CNT_SUP d.port).addr] [.can])
  ∧
  -- notDueNow
  (∀ (s : State) (m : Fin 32), (∀ k d, s.can.msgs.find? (fun x => x.1 == m.val) = some (k, d) → d.period = 0 ∨
    s.clk.tick % d.period ≠ d.phase
    ∨ s.bit (fCAN_PORT_CFG_EN d.port) = false ∨ canState s d.port = 3) →
    ∃ t, exec (.txMessageDue m) s = .next t ∧ t = s)
  ∧
  -- notSent
  (∀ (s : State) (m : Fin 32) (k : Nat) (d : TxMsg), s.can.msgs.find? (fun x => x.1 == m.val) = some (k, d) →
    d.places ≠ [] → (∀ x ∈ d.places, txsOff s x.sig = true) →
    ∃ t, exec (.txMessageDue m) s = .next t ∧ t = s)
  ∧
  -- txDone
  (∀ (s : State) (p : Fin 6) (tec : Fin 256) (f : TxFrame) (rest : List TxFrame),
    (s.canPort p).fifo = f :: rest → rest.length < 32 → fifoMay s p = true → ((s.canPort p).express = none ∨
    (s.canPort p).flight = true) →
    ∃ t, exec (.canTxComplete p false tec) s = .next t ∧ t.get (fCAN_CNT_TX p) = s.up (fCAN_CNT_TX p) ∧
      t.get (fCAN_PORT_STAT_TEC p) = tec ∧ t.can.outcomes = ⟨p, f.id, if f.waited then 1 else 0,
      0⟩ :: s.can.outcomes
    ∧ (t.canPort p).fifo.map (fun x => (x.id, x.tries, x.data)) = rest.map (fun x => (x.id, x.tries, x.data)) ∧
      (t.canPort p).headAt = s.clk.tick
    ∧ (t.canPort p).express = (s.canPort p).express
    ∧ t.get (fCAN_INV_CNT p) = (if f.blocked then s.up (fCAN_INV_CNT p) else s.get (fCAN_INV_CNT p)) ∧
      t.get (fCAN_FIFO_DEPTH p) = rest.length
    ∧ SameMem s t ∧ Records s t [] ∧ Touches s t [(fCAN_FIFO p).addr, (fCAN_HOQ p).addr, (fCAN_CNT_TX p).addr,
      (fCAN_INV_CNT p).addr, (fCAN_PORT_STAT p).addr] [.can])
  ∧
  -- txDoneExpress
  (∀ (s : State) (p : Fin 6) (tec : Fin 256) (f : TxFrame), (s.canPort p).express = some f →
    (s.canPort p).fifo.length ≤ 32 → canMay s p = true →
    ∃ t, exec (.canTxComplete p true tec) s = .next t ∧ t.get (fCAN_CNT_TX p) = s.up (fCAN_CNT_TX p) ∧
      t.get (fCAN_PORT_STAT_TEC p) = tec ∧ t.can.outcomes = ⟨p, f.id, 0, 0⟩ :: s.can.outcomes
    ∧ (t.canPort p).express = none ∧ t.bit (fCAN_FIFO_EXPRESS p) = false ∧
      (t.canPort p).fifo.length = (s.canPort p).fifo.length
    ∧ SameMem s t ∧ Records s t [] ∧ Touches s t [(fCAN_FIFO p).addr, (fCAN_HOQ p).addr, (fCAN_CNT_TX p).addr,
      (fCAN_PORT_STAT p).addr] [.can])
  ∧
  -- txNothing
  (∀ (s : State) (p : Fin 6) (tec : Fin 256),
    ((s.canPort p).fifo = [] ∨ fifoMay s p = false ∨ ((s.canPort p).express ≠ none ∧
      (s.canPort p).flight = false) →
        exec (.canTxComplete p false tec) s = .next s ∧ ∀ e, exec (.canTxRetry p false e tec) s = .next s)
    ∧ ((s.canPort p).express = none ∨ canMay s p = false → exec (.canTxComplete p true tec) s = .next s ∧ ∀ e,
      exec (.canTxRetry p true e tec) s = .next s))
  ∧
  -- txLast
  (∀ (s : State) (p : Fin 6) (e : Bool) (tec : Fin 256) (f : TxFrame) (rest : List TxFrame),
    (s.canPort p).fifo = f :: rest → fifoMay s p = true → ((s.canPort p).express = none ∨
    (s.canPort p).flight = true) → s.get (fCAN_PORT_CFG_RETRY p) < 16 →
    s.get (fCAN_PORT_CFG_RETRY p) ≤ f.tries → Room s 1 →
    ∃ t, exec (.canTxRetry p false e tec) s = .next t ∧
      t.get (fCAN_CNT_REF_RETRY p) = s.up (fCAN_CNT_REF_RETRY p) ∧ t.bit fCAN_EVT_REFUSED = true ∧
      t.can.outcomes = ⟨p, f.id, 2, 2⟩ :: s.can.outcomes
    ∧ (t.canPort p).fifo.map (fun x => (x.id, x.tries, x.data)) = rest.map (fun x => (x.id, x.tries, x.data)) ∧
      t.get (fCAN_PORT_STAT_TEC p) = tec
    ∧ (t.canPort p).express = (s.canPort p).express ∧ SameMem s t ∧
      Records s t [s.evOf 0x9205 p (if e then 2 else 1)] ∧ PartsBut s t [.can])
  ∧
  -- txLastExpress
  (∀ (s : State) (p : Fin 6) (e : Bool) (tec : Fin 256) (f : TxFrame), (s.canPort p).express = some f →
    canMay s p = true → s.get (fCAN_PORT_CFG_RETRY p) < 16 → s.get (fCAN_PORT_CFG_RETRY p) ≤ f.tries →
    Room s 1 →
    ∃ t, exec (.canTxRetry p true e tec) s = .next t ∧
      t.get (fCAN_CNT_REF_RETRY p) = s.up (fCAN_CNT_REF_RETRY p) ∧ t.bit fCAN_EVT_REFUSED = true ∧
      t.can.outcomes = ⟨p, f.id, 2, 2⟩ :: s.can.outcomes
    ∧ (t.canPort p).express = none ∧ (t.canPort p).fifo.map (fun x => (x.id, x.tries,
      x.data)) = (s.canPort p).fifo.map (fun x => (x.id, x.tries, x.data))
    ∧ t.get (fCAN_PORT_STAT_TEC p) = tec ∧ SameMem s t ∧ Records s t [s.evOf 0x9205 p (if e then 2 else 1)] ∧
      PartsBut s t [.can])
  ∧
  -- txAgain
  (∀ (s : State) (p : Fin 6) (e : Bool) (tec : Fin 256) (f : TxFrame) (rest : List TxFrame),
    (s.canPort p).fifo = f :: rest → fifoMay s p = true → ((s.canPort p).express = none ∨
    (s.canPort p).flight = true) → (16 ≤ s.get (fCAN_PORT_CFG_RETRY p) ∨
    f.tries < s.get (fCAN_PORT_CFG_RETRY p)) →
    ∃ t, exec (.canTxRetry p false e tec) s = .next t ∧ Does s t [(fCAN_PORT_STAT_TEC p, tec)] [] [.can] ∧
      t.canPort p = { s.canPort p with flight := false, fifo := { f with tries := min 32 (f.tries + 1) } :: rest } ∧
      t.can.outcomes = s.can.outcomes)
  ∧
  -- txAgainExpress
  (∀ (s : State) (p : Fin 6) (e : Bool) (tec : Fin 256) (f : TxFrame), (s.canPort p).express = some f →
    canMay s p = true → (16 ≤ s.get (fCAN_PORT_CFG_RETRY p) ∨ f.tries < s.get (fCAN_PORT_CFG_RETRY p)) →
    ∃ t, exec (.canTxRetry p true e tec) s = .next t ∧ Does s t [(fCAN_PORT_STAT_TEC p, tec)] [] [.can] ∧
      t.canPort p = { s.canPort p with express := some { f with tries := min 32 (f.tries + 1) } } ∧
      t.can.outcomes = s.can.outcomes)
  ∧
  -- headOld
  (∀ (s : State) (p : Fin 6), s.get (fCAN_PORT_LIM_HOQ_LIM p) ≠ 0 → (s.canPort p).fifo ≠ [] →
    (s.canPort p).hoqDone = false → (s.canPort p).headAt + 20 * s.get (fCAN_PORT_LIM_HOQ_LIM p) ≤ s.clk.tick →
    Room s 1 →
    ∃ t, exec (.hoqLimit p) s = .next t ∧ Does s t [(fCAN_EVT_HOQ, 1)]
      [s.evOf 0x920D p 0 f16NaN (f16OfNat (s.get (fCAN_FIFO_BLOCKED p)))] [.can] ∧
      t.canPort p = { s.canPort p with hoqDone := true })
  ∧
  -- headYoung
  (∀ (s : State) (p : Fin 6), (s.get (fCAN_PORT_LIM_HOQ_LIM p) = 0 ∨ (s.canPort p).fifo = [] ∨
    (s.canPort p).hoqDone = true
    ∨ s.clk.tick < (s.canPort p).headAt + 20 * s.get (fCAN_PORT_LIM_HOQ_LIM p)) →
    ∃ t, exec (.hoqLimit p) s = .next t ∧ t = s)
  ∧
  -- flushed
  (∀ (s : State) (q : Req) (m : Fin 64), reqIsOem q = false →
    ∃ t, exec (.canFlush q m) s = .next t ∧ (∀ p : Fin 6, m.val.testBit p = true → (t.canPort p).fifo = [] ∧
      (t.canPort p).express = (s.canPort p).express ∧ t.get (fCAN_FIFO_DEPTH p) = 0
        ∧ ∀ f ∈ (s.canPort p).fifo, ⟨p, f.id, 2, 5⟩ ∈ t.can.outcomes ∧ t.bit fCAN_EVT_REFUSED = true)
    ∧ (∀ p : Fin 6, m.val.testBit p = false → t.canPort p = s.canPort p ∧
      t.rd (fCAN_FIFO p).addr = s.rd (fCAN_FIFO p).addr)
    ∧ SameMem s t ∧ Records s t [] ∧ PartsBut s t [.can])
  ∧
  -- flushOem
  (∀ (s : State) (q : Req) (m : Fin 64), reqIsOem q = true →
    ∃ t, exec (.canFlush q m) s = .next t ∧ t = s)
  ∧
  -- slept
  (∀ (s : State) (p : Fin 6) (z : Nat), s.pwr.parkAt = some z → z ≤ s.clk.tick → canState s p ≠ 3 →
    (((s.canPort p).fifo = [] ∧ (s.canPort p).express = none) ∨ z + 1000 ≤ s.clk.tick) → Room s 1 →
    ∃ t, exec (.canSleep p) s = .next t ∧ canState t p = 3 ∧ t.bit (bitFld fCAN_STATUS_SLEEP p) = true ∧
      (∀ q : Fin 6, q ≠ p → canState t q = canState s q) ∧ (t.canPort p).fifo = [] ∧
      (t.canPort p).express = none
    ∧ (∀ f ∈ (s.canPort p).fifo ++ (s.canPort p).express.toList, ⟨p, f.id, 2, 4⟩ ∈ t.can.outcomes ∧
      t.bit fCAN_EVT_REFUSED = true)
    ∧
      t.can.outcomes.length = s.can.outcomes.length + (s.canPort p).fifo.length + (s.canPort p).express.toList.length
    ∧ SameMem s t ∧
      Records s t [s.evOf 0x920E p 0 f16NaN (f16OfNat ((s.canPort p).fifo.length + (s.canPort p).express.toList.length))]
      ∧ PartsBut s t [.can])
  ∧
  -- sleptNot
  (∀ (s : State) (p : Fin 6), (s.pwr.parkAt = none ∨ canState s p = 3 ∨ (∃ z, s.pwr.parkAt = some z ∧
    (s.clk.tick < z ∨ ((s.canPort p).fifo ≠ [] ∨ (s.canPort p).express ≠ none) ∧ s.clk.tick < z + 1000))) →
    ∃ t, exec (.canSleep p) s = .next t ∧ t = s)
  ∧
  -- txsPolicy
  (∀ (s : State) (c : Fin 16) (z : Nat), (s.jamb (48 + c)).timer = some z → z + 2 ≤ s.clk.tick → Room s 1 →
    ∃ t, exec (.txsNoclaimPolicy c) s = .next t ∧ Does s t [(fCAN_TXS_STAT_NOCLAIM c, 1), (fCAN_EVT_NOCLAIM, 1),
      (fCLM_STATUS_NOCLAIM, 1), (fCAN_TXS_VAL c, (t.jamb (48 + c)).val.toNat)]
      [s.evOf 0x920B c (s.get (fCAN_TXS_CFG_POLICY c))] [.dies]
    ∧
      t.jamb (48 + c) = { s.jamb (48 + c) with pol := true, polAt := s.clk.tick, timer := none, val := if s.get (fCAN_TXS_CFG_POLICY c) = 2 then s.getF (fCAN_TXS_SAFE c) else (s.jamb (48 + c)).val, off := if s.get (fCAN_TXS_CFG_POLICY c) = 0 ∨ s.get (fCAN_TXS_CFG_POLICY c) = 2 then (s.jamb (48 + c)).off else true })
  ∧
  -- txsPolicyNot
  (∀ (s : State) (c : Fin 16), (∀ z, (s.jamb (48 + c)).timer = some z → s.clk.tick < z + 2) →
    ∃ t, exec (.txsNoclaimPolicy c) s = .next t ∧ t = s)

/-- Bus-off shows in STATE, STATUS and the counter and is recorded as 0x9201; recovery starts at the end of the hold or
at RECOVER, and its end clears the error counters and records 0x9202. Error passive is entered with 0x9203 and left
without a record. A claim that stands for 250 ms is recorded as 0x9209. On a J1939 port a contending claim of lower
priority is answered with the address claimed; one of higher priority sends the port to the next free address where
it may choose one, recorded as 0x9208 with flags 1, otherwise to CANNOT_CLAIM with address 254 and flags 2; a claim
of another address is noted. Cannot-claim is sent once, within 153 ms; after 250 ms the FIFO is refused. A commanded
address is taken where the port may choose. A BAM or RTS opens a session up to four, of at most 1,785 bytes, while
the application runs; a further RTS is answered with an abort (frame bytes: log entry 63); the last packet delivers
the message, and acknowledges one opened by RTS; an abort closes the session. DM1 goes out every second or on a
change, at most once in 100 ms; outside OPEN it repeats its last content. Where its condition does not hold, each
command changes nothing. That a command whose conditions do not hold changes nothing is the model's reading (log
entry 15). Where the spec leaves the choice open or has to be read by inference, the clauses state the model's, of
log entries 62, 63, 64, 140. (R351, R352, R353, R355) -/
def Obligations.CanBusStates : Prop :=
  -- busOff
  (∀ (s : State) (p : Fin 6) (tec : Fin 256), s.bit (fCAN_PORT_CFG_EN p) = true → canState s p < 2 → Room s 1 →
    ∃ t, exec (.busOff p tec) s = .next t ∧ Does s t [(fCAN_PORT_STAT_STATE p, 2), (bitFld fCAN_STATUS_BUSOFF p,
      1), (bitFld fCAN_STATUS_ERRP p, 0), (bitFld fCAN_STATUS_SLEEP p, 0),
      (fCAN_PORT_STAT_TEC p, tec), (fCAN_CNT_ERR_BUSOFF p, s.up (fCAN_CNT_ERR_BUSOFF p)), (fCAN_EVT_BUSOFF, 1)]
        [s.evOf 0x9201 p 0 f16NaN (f16OfNat tec)] [.can]
    ∧ t.canPort p = { s.canPort p with boffAt := s.clk.tick, recovering := false } ∧ (∀ q : Fin 6, q ≠ p →
      t.canPort q = s.canPort q))
  ∧
  -- busOffNot
  (∀ (s : State) (p : Fin 6) (tec : Fin 256), (s.bit (fCAN_PORT_CFG_EN p) = false ∨ 2 ≤ canState s p) →
    ∃ t, exec (.busOff p tec) s = .next t ∧ t = s)
  ∧
  -- holdEnd2
  (∀ (s : State) (p : Fin 6), canState s p = 2 →
    (s.canPort p).boffAt + 200 * s.get (fCAN_PORT_LIM_BOFF_HOLD p) ≤ s.clk.tick →
    ∃ t, exec (.busOffHoldEnd p) s = .next t ∧ Does s t [] [] [.can] ∧
      t.canPort p = { s.canPort p with recovering := true } ∧ (∀ q : Fin 6, q ≠ p → t.canPort q = s.canPort q))
  ∧
  -- holdNot
  (∀ (s : State) (p : Fin 6), (canState s p ≠ 2 ∨
    s.clk.tick < (s.canPort p).boffAt + 200 * s.get (fCAN_PORT_LIM_BOFF_HOLD p)) →
    ∃ t, exec (.busOffHoldEnd p) s = .next t ∧ t = s)
  ∧
  -- recover
  (∀ (s : State) (q : Req) (m : Fin 64), reqIsOem q = false →
    ∃ t, exec (.canRecover q m) s = .next t ∧ Does s t [] [] [.can] ∧ (∀ p : Fin 6,
      t.canPort p = if m.val.testBit p ∧
      canState s p = 2 then { s.canPort p with recovering := true } else s.canPort p))
  ∧
  -- recoverOem
  (∀ (s : State) (q : Req) (m : Fin 64), reqIsOem q = true →
    ∃ t, exec (.canRecover q m) s = .next t ∧ t = s)
  ∧
  -- recovered
  (∀ (s : State) (p : Fin 6), canState s p = 2 → (s.canPort p).recovering = true → Room s 1 →
    ∃ t, exec (.busOffRecovered p) s = .next t ∧ Does s t [(fCAN_PORT_STAT_STATE p, 0),
      (bitFld fCAN_STATUS_BUSOFF p, 0), (bitFld fCAN_STATUS_ERRP p, 0), (bitFld fCAN_STATUS_SLEEP p, 0),
      (fCAN_PORT_STAT_TEC p, 0), (fCAN_PORT_STAT_REC p, 0), (fCAN_EVT_BUSOFF, 1)] [s.evOf 0x9202 p] [.can] ∧
        t.canPort p = { s.canPort p with recovering := false })
  ∧
  -- recoveredNot
  (∀ (s : State) (p : Fin 6), (canState s p ≠ 2 ∨ (s.canPort p).recovering = false) →
    ∃ t, exec (.busOffRecovered p) s = .next t ∧ t = s)
  ∧
  -- passive
  (∀ (s : State) (p : Fin 6) (a b : Fin 256), s.bit (fCAN_PORT_CFG_EN p) = true → canState s p = 0 → Room s 1 →
    ∃ t, exec (.errorPassive p true a b) s = .next t ∧ Does s t [(fCAN_PORT_STAT_TEC p, a),
      (fCAN_PORT_STAT_REC p, b), (fCAN_PORT_STAT_STATE p, 1), (bitFld fCAN_STATUS_BUSOFF p, 0),
      (bitFld fCAN_STATUS_ERRP p, 1), (bitFld fCAN_STATUS_SLEEP p, 0)]
      [s.evOf 0x9203 p 0 f16NaN (f16OfNat (max a.val b.val))] [])
  ∧
  -- active
  (∀ (s : State) (p : Fin 6) (a b : Fin 256), s.bit (fCAN_PORT_CFG_EN p) = true → canState s p = 1 →
    ∃ t, exec (.errorPassive p false a b) s = .next t ∧ Does s t [(fCAN_PORT_STAT_TEC p, a),
      (fCAN_PORT_STAT_REC p, b), (fCAN_PORT_STAT_STATE p, 0), (bitFld fCAN_STATUS_BUSOFF p, 0),
      (bitFld fCAN_STATUS_ERRP p, 0), (bitFld fCAN_STATUS_SLEEP p, 0)] [] [])
  ∧
  -- passiveNot
  (∀ (s : State) (p : Fin 6) (e : Bool) (a b : Fin 256), (s.bit (fCAN_PORT_CFG_EN p) = false ∨
    2 ≤ canState s p ∨ (canState s p = 1 ∧ e = true) ∨ (canState s p = 0 ∧ e = false)) →
    ∃ t, exec (.errorPassive p e a b) s = .next t ∧ t = s)
  ∧
  -- claimed
  (∀ (s : State) (p : Fin 6), canAcl s p = 1 → (s.canPort p).claimAt + 5000 ≤ s.clk.tick → Room s 1 →
    ∃ t, exec (.addressClaimed p) s = .next t ∧ Does s t [(fCAN_PORT_STAT_ACL p, 2), (fCAN_EVT_ADDR, 1)]
      [s.evOf 0x9209 p 0 f16NaN (f16OfNat (canAddr s p))] [])
  ∧
  -- claimedNot
  (∀ (s : State) (p : Fin 6), (canAcl s p ≠ 1 ∨ s.clk.tick < (s.canPort p).claimAt + 5000) →
    ∃ t, exec (.addressClaimed p) s = .next t ∧ t = s)
  ∧
  -- otherAddr
  (∀ (s : State) (p : Fin 6) (a : Fin 254) (n : Nat), canJ1939 s p = true → (a.val ≠ canAddr s p ∨
    canAcl s p = 0 ∨ canAcl s p = 3) →
    ∃ t, exec (.contendingClaim p a n) s = .next t ∧ Does s t [] [] [.can] ∧
      t.canPort p = { s.canPort p with used := a.val :: (s.canPort p).used.filter (fun x => x != a.val) } ∧
      (∀ q : Fin 6, q ≠ p → t.canPort q = s.canPort q))
  ∧
  -- claimRaw
  (∀ (s : State) (p : Fin 6) (a : Fin 254) (n : Nat), canJ1939 s p = false →
    ∃ t, exec (.contendingClaim p a n) s = .next t ∧ t = s)
  ∧
  -- answered
  (∀ (s : State) (p : Fin 6) (a : Fin 254) (n : Nat), canJ1939 s p = true → a.val = canAddr s p →
    (canAcl s p = 1 ∨ canAcl s p = 2) → (s.canPort p).name < n →
    ∃ t, exec (.contendingClaim p a n) s = .next t ∧ (t.canPort p).express = some ⟨0x18EEFF00 + a.val, true,
      nameBytes (s.canPort p).name, none, false, 0, false⟩ ∧ canAcl t p = canAcl s p ∧ canAddr t p = a.val
    ∧ SameMem s t ∧ Records s t [] ∧ Touches s t [(fCAN_FIFO p).addr, (fCAN_HOQ p).addr] [.can])
  ∧
  -- moved
  (∀ (s : State) (p : Fin 6) (a : Fin 254) (n k : Nat), canJ1939 s p = true → a.val = canAddr s p →
    (canAcl s p = 1 ∨ canAcl s p = 2) → n ≤ (s.canPort p).name → s.bit (fCAN_PORT_LIM_SELF_CFG p) = true →
    nextFree (a.val :: (s.canPort p).used) a = some k → Room s 1 →
    ∃ t, exec (.contendingClaim p a n) s = .next t ∧ canAcl t p = 1 ∧ canAddr t p = k ∧
      (t.canPort p).claimAt = s.clk.tick ∧ (t.canPort p).express = some ⟨0x18EEFF00 + k, true,
      nameBytes (s.canPort p).name, none, false, 0, false⟩
    ∧ SameMem s t ∧ Records s t [s.evOf 0x9208 p 1] ∧ PartsBut s t [.can])
  ∧
  -- freeAddr
  (∀ (s : State) (l : List Nat) (a k : Nat),
    (nextFree l a = some k → 128 ≤ k ∧ k ≤ 247 ∧ k ∉ l ∧ k ≠ a) ∧ (nextFree l a = none → ∀ k, 128 ≤ k →
      k ≤ 247 → k ∈ l ∨ k = a))
  ∧
  -- noAddr
  (∀ (s : State) (p : Fin 6) (a : Fin 254) (n : Nat), canJ1939 s p = true → a.val = canAddr s p →
    (canAcl s p = 1 ∨ canAcl s p = 2) → n ≤ (s.canPort p).name → (s.bit (fCAN_PORT_LIM_SELF_CFG p) = false ∨
    nextFree (a.val :: (s.canPort p).used) a = none) → Room s 1 →
    ∃ t, exec (.contendingClaim p a n) s = .next t ∧ Does s t [(fCAN_PORT_STAT_ACL p, 3), (fCAN_EVT_ADDR, 1),
      (fCAN_PORT_STAT_ADDR p, 254)] [s.evOf 0x9208 p 2] [.can]
    ∧ (t.canPort p).cannotAt = s.clk.tick ∧ (t.canPort p).cannotSent = false ∧
      (t.canPort p).fifo = (s.canPort p).fifo)
  ∧
  -- cannotSent
  (∀ (s : State) (p : Fin 6), canAcl s p = 3 → (s.canPort p).cannotSent = false →
    s.clk.tick ≤ (s.canPort p).cannotAt + 3060 →
    ∃ t, exec (.cannotClaimSend p) s = .next t ∧ (t.canPort p).express = some ⟨0x18EEFFFE, true,
      nameBytes (s.canPort p).name, none, false, 0, false⟩ ∧ (t.canPort p).cannotSent = true
    ∧ SameMem s t ∧ Records s t [] ∧ Touches s t [(fCAN_FIFO p).addr, (fCAN_HOQ p).addr] [.can])
  ∧
  -- cannotNot
  (∀ (s : State) (p : Fin 6), (canAcl s p ≠ 3 ∨ (s.canPort p).cannotSent = true ∨
    (s.canPort p).cannotAt + 3060 < s.clk.tick) →
    ∃ t, exec (.cannotClaimSend p) s = .next t ∧ t = s)
  ∧
  -- commanded
  (∀ (s : State) (p : Fin 6) (n : Nat) (a : Fin 254), canAcl s p = 2 → n = (s.canPort p).name →
    s.bit (fCAN_PORT_LIM_SELF_CFG p) = true →
    ∃ t, exec (.commandedAddress p n a) s = .next t ∧ canAcl t p = 1 ∧ canAddr t p = a.val ∧
      (t.canPort p).claimAt = s.clk.tick ∧ (t.canPort p).express = some ⟨0x18EEFF00 + a.val, true, nameBytes n,
      none, false, 0, false⟩
    ∧ SameMem s t ∧ Records s t [] ∧ PartsBut s t [.can])
  ∧
  -- commandedNot
  (∀ (s : State) (p : Fin 6) (n : Nat) (a : Fin 254), (canAcl s p ≠ 2 ∨ n ≠ (s.canPort p).name ∨
    s.bit (fCAN_PORT_LIM_SELF_CFG p) = false) →
    ∃ t, exec (.commandedAddress p n a) s = .next t ∧ t = s)
  ∧
  -- addrTimeout
  (∀ (s : State) (p : Fin 6), canAcl s p = 3 → (s.canPort p).cannotAt + 5000 ≤ s.clk.tick →
    ∃ t, exec (.noAddressTimeout p) s = .next t ∧ (t.canPort p).fifo = [] ∧ t.get (fCAN_FIFO_DEPTH p) = 0 ∧
      (∀ f ∈ (s.canPort p).fifo, ⟨p, f.id, 2, 3⟩ ∈ t.can.outcomes ∧ t.bit fCAN_EVT_REFUSED = true)
    ∧ (t.canPort p).express = (s.canPort p).express ∧ (∀ q : Fin 6, q ≠ p → t.canPort q = s.canPort q)
    ∧ SameMem s t ∧ Records s t [] ∧ Touches s t [(fCAN_FIFO p).addr, (fCAN_HOQ p).addr, fCAN_EVT_REFUSED.addr]
      [.can])
  ∧
  -- addrTimeoutNot
  (∀ (s : State) (p : Fin 6), (canAcl s p ≠ 3 ∨ s.clk.tick < (s.canPort p).cannotAt + 5000) →
    ∃ t, exec (.noAddressTimeout p) s = .next t ∧ t = s)
  ∧
  -- bamOpens
  (∀ (s : State) (p : Fin 6) (src size pgn : Nat), canJ1939 s p = true → appRuns s = true → size ≤ 1785 →
    ((s.canPort p).sessions.filter (fun x => x.src != src)).length < 4 →
    ∃ t, exec (.j1939Transport p (.start src size pgn true)) s = .next t ∧ Does s t [] [] [.can] ∧
      t.canPort p = { s.canPort p with sessions := (s.canPort p).sessions.filter (fun x => x.src != src) ++ [⟨src, size, pgn, true⟩] })
  ∧
  -- bamRefused
  (∀ (s : State) (p : Fin 6) (src size pgn : Nat), canJ1939 s p = true → (appRuns s = false ∨ 1785 < size ∨
    4 ≤ ((s.canPort p).sessions.filter (fun x => x.src != src)).length) →
    ∃ t, exec (.j1939Transport p (.start src size pgn true)) s = .next t ∧ t = s)
  ∧
  -- rtsOpens
  (∀ (s : State) (p : Fin 6) (src size pgn : Nat), canJ1939 s p = true → appRuns s = true → size ≤ 1785 →
    ((s.canPort p).sessions.filter (fun x => x.src != src)).length < 4 → (s.canPort p).fifo.length < 32 →
    ∃ t, exec (.j1939Transport p (.start src size pgn false)) s = .next t ∧
      (t.canPort p).sessions = (s.canPort p).sessions.filter (fun x => x.src != src) ++ [⟨src, size, pgn,
      false⟩] ∧ (t.canPort p).fifo.length = (s.canPort p).fifo.length + 1
    ∧ ((t.canPort p).fifo.getLast?).map (fun x => (x.id,
      x.data.take 2)) = some (0x1CEC0000 + 256 * src + canAddr s p, [17#8, BitVec.ofNat 8 ((size + 6) / 7)])
    ∧ SameMem s t ∧ Records s t [] ∧ Touches s t [(fCAN_FIFO p).addr] [.can])
  ∧
  -- rtsFull
  (∀ (s : State) (p : Fin 6) (src size pgn : Nat), canJ1939 s p = true →
    (4 ≤ ((s.canPort p).sessions.filter (fun x => x.src != src)).length ∨ 1785 < size ∨ appRuns s = false) →
    (s.canPort p).fifo.length < 32 →
    ∃ t, exec (.j1939Transport p (.start src size pgn false)) s = .next t ∧
      (t.canPort p).sessions = (s.canPort p).sessions ∧ ((t.canPort p).fifo.getLast?).map (fun x => (x.id,
      x.data.take 2)) = some (0x1CEC0000 + 256 * src + canAddr s p, [255#8, 1#8])
    ∧ SameMem s t ∧ Records s t [] ∧ Touches s t [(fCAN_FIFO p).addr] [.can])
  ∧
  -- tpDone
  (∀ (s : State) (p : Fin 6) (src : Nat) (bytes : List Byte) (m : TpSession), canJ1939 s p = true →
    (s.canPort p).sessions.find? (fun x => x.src == src) = some m → m.bam = true →
    ∃ t, exec (.j1939Transport p (.done src bytes)) s = .next t ∧ Does s t [] [] [.can] ∧ t.can.tp = (p.val,
      m.pgn, bytes) :: s.can.tp ∧ (∀ x ∈ (t.canPort p).sessions, x.src ≠ src) ∧
      (t.canPort p).fifo = (s.canPort p).fifo)
  ∧
  -- tpDoneRts
  (∀ (s : State) (p : Fin 6) (src : Nat) (bytes : List Byte) (m : TpSession), canJ1939 s p = true →
    (s.canPort p).sessions.find? (fun x => x.src == src) = some m → m.bam = false →
    (s.canPort p).fifo.length < 32 →
    ∃ t, exec (.j1939Transport p (.done src bytes)) s = .next t ∧ t.can.tp = (p.val, m.pgn, bytes) :: s.can.tp ∧
      (∀ x ∈ (t.canPort p).sessions, x.src ≠ src) ∧ (t.canPort p).fifo.length = (s.canPort p).fifo.length + 1
    ∧ ((t.canPort p).fifo.getLast?).map (fun x => (x.id,
      x.data.take 1)) = some (0x1CEC0000 + 256 * src + canAddr s p, [19#8])
    ∧ SameMem s t ∧ Records s t [] ∧ Touches s t [(fCAN_FIFO p).addr] [.can])
  ∧
  -- tpDoneNone
  (∀ (s : State) (p : Fin 6) (src : Nat) (bytes : List Byte), (∀ x ∈ (s.canPort p).sessions, x.src ≠ src) →
    ∃ t, exec (.j1939Transport p (.done src bytes)) s = .next t ∧ t = s)
  ∧
  -- tpStop
  (∀ (s : State) (p : Fin 6) (src : Nat), canJ1939 s p = true →
    ∃ t, exec (.j1939Transport p (.stop src)) s = .next t ∧ Does s t [] [] [.can] ∧
      t.canPort p = { s.canPort p with sessions := (s.canPort p).sessions.filter (fun x => x.src != src) })
  ∧
  -- tpRaw
  (∀ (s : State) (p : Fin 6) (e : TpEvent), canJ1939 s p = false →
    ∃ t, exec (.j1939Transport p e) s = .next t ∧ t = s)
  ∧
  -- dm1
  (∀ (s : State) (p : Fin 6) (m : List Byte), canJ1939 s p = true → appRuns s = true →
    (s.canPort p).dm1At + (if m = (s.canPort p).dm1 then 20000 else 2000) ≤ s.clk.tick →
    (s.canPort p).fifo.length < 32 →
    ∃ t, exec (.dm1Send p m) s = .next t ∧ (t.canPort p).dm1 = m ∧ (t.canPort p).dm1At = s.clk.tick ∧
      ((t.canPort p).fifo.getLast?).map (fun x => (x.id, x.data)) = some (0x18FECA00 + canAddr s p, m)
    ∧ (t.canPort p).fifo.length = (s.canPort p).fifo.length + 1 ∧ SameMem s t ∧ Records s t [] ∧
      Touches s t [(fCAN_FIFO p).addr] [.can])
  ∧
  -- dm1Louvred
  (∀ (s : State) (p : Fin 6) (m : List Byte), canJ1939 s p = true → appRuns s = false →
    (s.canPort p).dm1At + 20000 ≤ s.clk.tick → (s.canPort p).fifo.length < 32 →
    ∃ t, exec (.dm1Send p m) s = .next t ∧ (t.canPort p).dm1 = (s.canPort p).dm1 ∧
      (t.canPort p).dm1At = s.clk.tick
    ∧ ((t.canPort p).fifo.getLast?).map (fun x => (x.id, x.data)) = some (0x18FECA00 + canAddr s p,
      (s.canPort p).dm1)
    ∧ SameMem s t ∧ Records s t [] ∧ Touches s t [(fCAN_FIFO p).addr] [.can])
  ∧
  -- dm1Early
  (∀ (s : State) (p : Fin 6) (m : List Byte), (canJ1939 s p = false ∨ s.clk.tick < (s.canPort p).dm1At + 2000 ∨
    ((m = (s.canPort p).dm1 ∨ appRuns s = false) ∧ s.clk.tick < (s.canPort p).dm1At + 20000)) →
    ∃ t, exec (.dm1Send p m) s = .next t ∧ t = s)

/-- A link that goes down or up shows in LINK, STATUS and SQI and is recorded as 0x9301 or 0x9302. A gPTP port with its
link up discards and counts foreign messages, with 0x9303 at most once an hour, sends Sync each 125 ms while
asCapable, and is asCapable only up to a peer delay of 1 µs, a longer one being recorded as 0x9304. A handshake that
fails is recorded as 0x9312 with its connection and is a failed attempt; one that completes lets the fleet
connection come up with 0x9310, which sends what waited, or the caster be asked. A lost or failed connection waits
its backoff, which doubles up to 64 s after a failed attempt, and then connects again; a service-port request
connects at once, where the services may connect. The caster's reply starts the stream with 0x9320 or refuses it
with 0x9322, where TLS is set only after its handshake; 5 s of silence or a disconnect ends the stream with 0x9321.
A GGA sentence goes out every 10 s where the region asks for it. Where its condition does not hold, and outside OPEN
or on a module without the port, each command changes nothing. That a command whose conditions do not hold changes
nothing is the model's reading (log entry 15). Where the spec leaves the choice open or has to be read by inference,
the clauses state the model's, of log entries 64, 65. (R357, R359, R361, R362, R363, R368, R369, R370, R371, R372) -/
def Obligations.EthernetAndConnections : Prop :=
  -- linkUp
  (∀ (s : State) (p : Fin 10) (q : Fin 8), ethPort s p = true → s.get (fETH_PORT_STAT_LINK p) ≠ 2 → Room s 1 →
    ∃ t, exec (.ethLinkChange p true q) s = .next t ∧ Does s t [(fETH_PORT_STAT_LINK p, 2),
      (bitFld fETH_STATUS_LINK p, 1), (fETH_PORT_STAT_SQI p, q), (fETH_EVT_LINK, 1)] [s.evOf 0x9302 p] [])
  ∧
  -- linkDown2
  (∀ (s : State) (p : Fin 10) (q : Fin 8), ethPort s p = true → s.get (fETH_PORT_STAT_LINK p) = 2 → Room s 1 →
    ∃ t, exec (.ethLinkChange p false q) s = .next t ∧ Does s t [(fETH_PORT_STAT_LINK p, 0),
      (bitFld fETH_STATUS_LINK p, 0), (fETH_PORT_STAT_SQI p, 0), (fETH_EVT_LINK, 1),
      (fETH_PORT_STAT_AS_CAPABLE p, 0)] [s.evOf 0x9301 p 0 (f16OfNat q)] [])
  ∧
  -- linkSame
  (∀ (s : State) (p : Fin 10) (up : Bool) (q : Fin 8), (ethPort s p = false ∨
    (s.get (fETH_PORT_STAT_LINK p) = 2 ↔ up = true)) →
    ∃ t, exec (.ethLinkChange p up q) s = .next t ∧ t = s)
  ∧
  -- foreignFirst
  (∀ (s : State) (p : Fin 10), ptpPort s p = true → (∀ x ∈ s.eth.ptpAt, x.1 = p.val →
    x.2 + 72000000 ≤ s.clk.tick) → Room s 1 →
    ∃ t, exec (.ptpForeign p) s = .next t ∧ Does s t [(fETH_CNT_ERR_PTP p, s.up (fETH_CNT_ERR_PTP p))]
      [s.evOf 0x9303 p] [.eth] ∧ (p.val, s.clk.tick) ∈ t.eth.ptpAt)
  ∧
  -- foreignQuiet
  (∀ (s : State) (p : Fin 10) (z : Nat), ptpPort s p = true → (p.val, z) ∈ s.eth.ptpAt →
    s.clk.tick < z + 72000000 →
    ∃ t, exec (.ptpForeign p) s = .next t ∧ Does s t [(fETH_CNT_ERR_PTP p, s.up (fETH_CNT_ERR_PTP p))] [] [])
  ∧
  -- ptpNone
  (∀ (s : State) (p : Fin 10) (d : Nat), ptpPort s p = false →
    exec (.ptpForeign p) s = .next s ∧ exec (.pdelayExchange p d) s = .next s ∧ exec (.ptpSync p) s = .next s)
  ∧
  -- syncSent
  (∀ (s : State) (p : Fin 10), ptpPort s p = true → s.bit (fETH_PORT_STAT_AS_CAPABLE p) = true →
    s.clk.tick % 2500 = 0 →
    ∃ t, exec (.ptpSync p) s = .next t ∧ Does s t [(fETH_CNT_TX p, s.up (fETH_CNT_TX p))] [] [.eth] ∧
      t.eth = { s.eth with syncs := (p.val, s.clk.tick) :: s.eth.syncs.filter (fun x => x.1 != p.val) })
  ∧
  -- syncNot
  (∀ (s : State) (p : Fin 10), (ptpPort s p = false ∨ s.bit (fETH_PORT_STAT_AS_CAPABLE p) = false ∨
    s.clk.tick % 2500 ≠ 0) →
    ∃ t, exec (.ptpSync p) s = .next t ∧ t = s)
  ∧
  -- delayOk
  (∀ (s : State) (p : Fin 10) (d : Nat), ptpPort s p = true → d ≤ 16000 →
    ∃ t, exec (.pdelayExchange p d) s = .next t ∧ Does s t [(fETH_PTP_DELAY p, d), (fETH_PORT_STAT_AS_CAPABLE p,
      1)] [] [])
  ∧
  -- delayLong
  (∀ (s : State) (p : Fin 10) (d : Nat), ptpPort s p = true → 16000 < d → Room s 1 →
    ∃ t, exec (.pdelayExchange p d) s = .next t ∧ Does s t [(fETH_PTP_DELAY p, min 4294967295 d),
      (fETH_PORT_STAT_AS_CAPABLE p, 0)] [s.evOf 0x9304 p 0 f16NaN (f16OfNat (d / 16))] [])
  ∧
  -- tlsFleet
  (∀ (s : State) (al : Nat), netRuns s = true → s.wide = true → fleetState s = 1 →
    ∃ t, exec (.tlsHandshake 0 true al) s = .next t ∧ t = { s with eth := { s.eth with fleetTls := true } })
  ∧
  -- tlsFleetFails
  (∀ (s : State) (al : Nat), netRuns s = true → s.wide = true → fleetState s = 1 → Room s 1 →
    ∃ t, exec (.tlsHandshake 0 false al) s = .next t ∧ Does s t [(fETH_STATUS_FLEET, 3), (fETH_EVT_FLEET, 1)]
      [s.evOf 0x9312 0 1 f16NaN (f16OfNat al)] [.eth]
    ∧
      t.eth = { s.eth with fleetWait := min 64 (2 * s.eth.fleetWait), fleetAt := s.clk.tick, fleetTls := false })
  ∧
  -- tlsNtripFails
  (∀ (s : State) (al : Nat), netRuns s = true → s.wide = true → ntripState s = 1 → Room s 1 →
    ∃ t, exec (.tlsHandshake 1 false al) s = .next t ∧ Does s t [(fETH_NTRIP_CNT_FAILS,
      s.up fETH_NTRIP_CNT_FAILS), (fETH_STATUS_NTRIP, 3), (fETH_EVT_NTRIP, 1)]
      [s.evOf 0x9312 0 2 f16NaN (f16OfNat al)] [.eth]
    ∧
      t.eth = { s.eth with ntripWait := min 64 (2 * s.eth.ntripWait), ntripAt := s.clk.tick, ntripTls := false, byteAt := none, rx := [] })
  ∧
  -- tlsNtrip
  (∀ (s : State) (al : Nat), netRuns s = true → s.wide = true → ntripState s = 1 →
    ∃ t, exec (.tlsHandshake 1 true al) s = .next t ∧ t = { s with eth := { s.eth with ntripTls := true } })
  ∧
  -- tlsService
  (∀ (s : State) (al : Nat), netRuns s = true →
    ∃ t, exec (.tlsHandshake 2 true al) s = .next t ∧
      t = { s with eth := { s.eth with services := s.eth.services + 1 } })
  ∧
  -- tlsServiceFails
  (∀ (s : State) (al : Nat), netRuns s = true → Room s 1 →
    ∃ t, exec (.tlsHandshake 2 false al) s = .next t ∧ Does s t [] [s.evOf 0x9312 0 3 f16NaN (f16OfNat al)] [])
  ∧
  -- tlsNone
  (∀ (s : State) (c : Fin 3) (ok : Bool) (al : Nat), (netRuns s = false ∨ (c = 0 ∧ (s.wide = false ∨
    fleetState s ≠ 1)) ∨ (c = 1 ∧ (s.wide = false ∨ ntripState s ≠ 1))) →
    ∃ t, exec (.tlsHandshake c ok al) s = .next t ∧ t = s)
  ∧
  -- connected
  (∀ (s : State), s.wide = true → netRuns s = true → fleetState s = 1 → s.eth.fleetTls = true → Room s 1 →
    ∃ t, exec (.fleetConnect) s = .next t ∧ Does s t [(fETH_STATUS_FLEET, 2), (fETH_EVT_FLEET, 1),
      (fETH_FLEET_Q_ALERTS, 0)] [s.evOf 0x9310] [.eth]
    ∧
      t.eth = { s.eth with fleetWait := 1, queue := [], sent := s.eth.queue.reverse ++ ⟨0, [1#8], s.clk.tick⟩ :: s.eth.sent })
  ∧
  -- connectedNot
  (∀ (s : State), (fleetState s ≠ 1 ∨ s.eth.fleetTls = false ∨ s.wide = false ∨ netRuns s = false) →
    ∃ t, exec (.fleetConnect) s = .next t ∧ t = s)
  ∧
  -- lost
  (∀ (s : State) (why : Fin 3), fleetState s = 2 → Room s 1 →
    ∃ t, exec (.fleetDisconnect why) s = .next t ∧ Does s t [(fETH_STATUS_FLEET, 3), (fETH_EVT_FLEET, 1)]
      [s.evOf 0x9311 0 (why.val + 1)] [.eth] ∧ t.eth = { s.eth with fleetAt := s.clk.tick, fleetTls := false })
  ∧
  -- attemptFails
  (∀ (s : State) (why : Fin 3), fleetState s = 1 →
    ∃ t, exec (.fleetDisconnect why) s = .next t ∧ Does s t [(fETH_STATUS_FLEET, 3), (fETH_EVT_FLEET, 1)] []
      [.eth] ∧
      t.eth = { s.eth with fleetWait := min 64 (2 * s.eth.fleetWait), fleetAt := s.clk.tick, fleetTls := false })
  ∧
  -- lostNot
  (∀ (s : State) (why : Fin 3), (fleetState s = 0 ∨ fleetState s = 3) →
    ∃ t, exec (.fleetDisconnect why) s = .next t ∧ t = s)
  ∧
  -- fleetAgain
  (∀ (s : State), s.wide = true → netRuns s = true → fleetState s = 3 →
    s.eth.fleetAt + 16000 * s.eth.fleetWait ≤ s.clk.tick →
    ∃ t, exec (.reconnectAttempt false) s = .next t ∧ Does s t [(fETH_STATUS_FLEET, 1), (fETH_EVT_FLEET, 1)] []
      [.eth] ∧ t.eth = { s.eth with fleetTls := false })
  ∧
  -- ntripAgain
  (∀ (s : State), s.wide = true → netRuns s = true → ntripState s = 3 →
    s.eth.ntripAt + 16000 * s.eth.ntripWait ≤ s.clk.tick →
    ∃ t, exec (.reconnectAttempt true) s = .next t ∧ Does s t [(fETH_STATUS_NTRIP, 1), (fETH_EVT_NTRIP, 1)] []
      [])
  ∧
  -- againEarly
  (∀ (s : State) (n : Bool), (s.wide = false ∨ netRuns s = false ∨ (n = false ∧ (fleetState s ≠ 3 ∨
    s.clk.tick < s.eth.fleetAt + 16000 * s.eth.fleetWait))
    ∨ (n = true ∧ (ntripState s ≠ 3 ∨ s.clk.tick < s.eth.ntripAt + 16000 * s.eth.ntripWait))) →
    ∃ t, exec (.reconnectAttempt n) s = .next t ∧ t = s)
  ∧
  -- fleetNow
  (∀ (s : State) (q : Req), reqIsOem q = false → mayConnect s = true → fleetState s ≠ 2 →
    ∃ t, exec (.fleetReconnect q) s = .next t ∧ Does s t (if fleetState s = 1 then [] else [(fETH_STATUS_FLEET,
      1), (fETH_EVT_FLEET, 1)]) [] [.eth] ∧ t.eth = { s.eth with fleetTls := false })
  ∧
  -- nowNot
  (∀ (s : State) (q : Req),
    (reqIsOem q = true ∨ mayConnect s = false → exec (.fleetReconnect q) s = .next s ∧
      exec (.ntripReconnect q) s = .next s)
    ∧ (fleetState s = 2 → exec (.fleetReconnect q) s = .next s) ∧ (ntripState s = 2 ∨ ntripState s = 1 →
      exec (.ntripReconnect q) s = .next s))
  ∧
  -- ntripNow
  (∀ (s : State) (q : Req), reqIsOem q = false → mayConnect s = true → (ntripState s = 0 ∨ ntripState s = 3) →
    ∃ t, exec (.ntripReconnect q) s = .next t ∧ Does s t [(fETH_STATUS_NTRIP, 1), (fETH_EVT_NTRIP, 1)] [] [])
  ∧
  -- casterOk
  (∀ (s : State) (st : Nat), s.wide = true → netRuns s = true → ntripState s = 1 → (s.eth.tls = false ∨
    s.eth.ntripTls = true) → Room s 1 →
    ∃ t, exec (.ntripReply true st) s = .next t ∧ Does s t [(fETH_STATUS_NTRIP, 2), (fETH_EVT_NTRIP, 1),
      (fETH_NTRIP_CNT_CONNECTS, s.up fETH_NTRIP_CNT_CONNECTS)] [s.evOf 0x9320] [.eth]
    ∧ t.eth = { s.eth with ntripWait := 1, byteAt := some s.clk.tick })
  ∧
  -- casterWaits
  (∀ (s : State) (ok : Bool) (st : Nat), (s.wide = false ∨ netRuns s = false ∨ ntripState s ≠ 1 ∨
    (s.eth.tls = true ∧ s.eth.ntripTls = false)) →
    ∃ t, exec (.ntripReply ok st) s = .next t ∧ t = s)
  ∧
  -- casterNo
  (∀ (s : State) (st : Nat), s.wide = true → netRuns s = true → ntripState s = 1 → (s.eth.tls = false ∨
    s.eth.ntripTls = true) → Room s 1 →
    ∃ t, exec (.ntripReply false st) s = .next t ∧ Does s t [(fETH_NTRIP_CNT_FAILS, s.up fETH_NTRIP_CNT_FAILS),
      (fETH_STATUS_NTRIP, 3), (fETH_EVT_NTRIP, 1)] [s.evOf 0x9322 0 0 f16NaN (f16OfNat st)] [.eth]
    ∧
      t.eth = { s.eth with ntripWait := min 64 (2 * s.eth.ntripWait), ntripAt := s.clk.tick, ntripTls := false, byteAt := none, rx := [] })
  ∧
  -- silent
  (∀ (s : State) (z : Nat), ntripState s = 2 → s.eth.byteAt = some z → z + 100000 ≤ s.clk.tick → Room s 1 →
    ∃ t, exec (.ntripSilence) s = .next t ∧ Does s t [(fETH_STATUS_NTRIP, 3), (fETH_EVT_NTRIP, 1)]
      [s.evOf 0x9321 0 3] [.eth] ∧
      t.eth = { s.eth with ntripAt := s.clk.tick, ntripTls := false, byteAt := none, rx := [] })
  ∧
  -- silentNot
  (∀ (s : State), (ntripState s ≠ 2 ∨ ∀ z, s.eth.byteAt = some z → s.clk.tick < z + 100000) →
    ∃ t, exec (.ntripSilence) s = .next t ∧ t = s)
  ∧
  -- casterGone
  (∀ (s : State) (link : Bool), ntripState s = 2 → Room s 1 →
    ∃ t, exec (.ntripDisconnect link) s = .next t ∧ Does s t [(fETH_STATUS_NTRIP, 3), (fETH_EVT_NTRIP, 1)]
      [s.evOf 0x9321 0 (if link then 2 else 1)] [.eth] ∧
      t.eth = { s.eth with ntripAt := s.clk.tick, ntripTls := false, byteAt := none, rx := [] })
  ∧
  -- casterGoneNot
  (∀ (s : State) (link : Bool), ntripState s ≠ 2 →
    ∃ t, exec (.ntripDisconnect link) s = .next t ∧ t = s)
  ∧
  -- gga
  (∀ (s : State), ntripState s = 2 → s.eth.gga = true → s.eth.ggaAt + 200000 ≤ s.clk.tick →
    ∃ t, exec (.ggaSend) s = .next t ∧
      t = { s with eth := { s.eth with ggaAt := s.clk.tick, ggaSol := solWords s } })
  ∧
  -- ggaNot
  (∀ (s : State), (ntripState s ≠ 2 ∨ s.eth.gga = false ∨ s.clk.tick < s.eth.ggaAt + 200000) →
    ∃ t, exec (.ggaSend) s = .next t ∧ t = s)

/-- An inbound message acts only while the fleet connection of an FYH7-A manager is up and its version, type, length and
time are right; any other is counted and recorded as 0x9314 at most once a minute. The first offer within 60 s from
a cart of the roster is accepted: it is answered with type 5, the cart is named and the rendezvous may begin; any
other offer changes nothing. A position of the accepted cart is a sample of source 10; its end stops the unloading
as UNL_STOP does; a request for a tile is answered with its full export, sequence 0. A configuration request of the
fleet waits for the service. Tile sync, asked for or due, sends the cells sealed since the last delta of their tile,
or a delta not yet acknowledged again with its number; a delta with every chunk acknowledged is done. pos and tank
are published at their periods, tank also on a change of 2 %; while the service is not connected the last one of
each waits. A request without an offer for 60 s is recorded as 0x9315, and queued requests older than 60 s are
refused. Before its time, and without a connection, each command changes nothing. That a command whose conditions do
not hold changes nothing is the model's reading (log entry 15). Where the spec leaves the choice open or has to be
read by inference, the clauses state the model's, of log entries 5, 66. (R255, R275, R364, R365, R366, R367, R368) -/
def Obligations.FleetMessages : Prop :=
  -- noInbound
  (∀ (s : State) (h : FleetHdr) (a r : Nat) (x : Fin 256) (n : Nat) (i j : Int) (b : List Byte),
    (s.wide = false ∨ fleetState s ≠ 2) → exec (.uoffer h a r) s = .next s ∧ exec (.uend h x) s = .next s ∧
      exec (.tget h n i j) s = .next s
    ∧ exec (.cartPos h i j 0 n n n n) s = .next s ∧ exec (.fleetInbound b) s = .next s)
  ∧
  -- inboundKinds
  (∀ (s : State) (h : FleetHdr) (a r : Nat) (x : Fin 256) (n : Nat) (i j k : Int),
    s.wide = true → fleetState s = 2 → (h.type ≠ 4 ∨ inboundOk h s = false →
      exec (.uoffer h a r) s = .next (discardIn h.type s))
    ∧ (h.type ≠ 6 ∨ inboundOk h s = false → exec (.uend h x) s = .next (discardIn h.type s))
    ∧ (h.type ≠ 8 ∨ inboundOk h s = false → exec (.tget h n i j) s = .next (discardIn h.type s))
    ∧ (h.type ≠ 1 ∨ inboundOk h s = false → exec (.cartPos h i j k n n n n) s = .next (discardIn h.type s)))
  ∧
  -- discardQuiet
  (∀ (s : State) (ty z : Nat), s.eth.inAt = some z → s.clk.tick < z + 1200000 →
    Does s (discardIn ty s) [(⟨fETH_FLEET_REF.addr, 31, 16⟩, s.up ⟨fETH_FLEET_REF.addr, 31, 16⟩),
      (fETH_EVT_REFUSED, 1)] [] [])
  ∧
  -- discarded
  (∀ (s : State) (h : FleetHdr) (a r : Nat), s.wide = true → fleetState s = 2 → (h.type ≠ 4 ∨ h.version ≠ 1 ∨
    h.lenOk = false ∨ s.now + 100000000 < h.time ∨ h.time < s.now - 2000000000) → (∀ z, s.eth.inAt = some z →
    z + 1200000 ≤ s.clk.tick) → Room s 1 →
    ∃ t, exec (.uoffer h a r) s = .next t ∧ Does s t [(⟨fETH_FLEET_REF.addr, 31, 16⟩, s.up ⟨fETH_FLEET_REF.addr,
      31, 16⟩), (fETH_EVT_REFUSED, 1)] [s.evOf 0x9314 0 (h.type % 256)] [.eth]
    ∧ t.eth = { s.eth with inAt := some s.clk.tick })
  ∧
  -- offered
  (∀ (s : State) (h : FleetHdr) (a r z : Nat), s.wide = true → fleetState s = 2 → h.type = 4 →
    inboundOk h s = true → s.eth.reqAt = some z → s.clk.tick < z + 1200000 → h.sender ∈ s.eth.roster →
    unlState s ≠ 0 →
    ∃ t, exec (.uoffer h a r) s = .next t ∧ t.eth.cart = some h.sender ∧ t.eth.reqAt = none ∧
      t.rd fFUS_UNL_CART.addr = BitVec.ofNat 32 h.sender ∧ (t.eth.sent.head?).map (fun x => x.type) = some 5
    ∧ SameMem s t ∧ Records s t [] ∧ Touches s t [fFUS_UNL_CART.addr] [.eth])
  ∧
  -- offerBegins
  (∀ (s : State) (h : FleetHdr) (a r z : Nat), s.wide = true → fleetState s = 2 → h.type = 4 →
    inboundOk h s = true → s.eth.reqAt = some z → s.clk.tick < z + 1200000 → h.sender ∈ s.eth.roster →
    unlState s = 0 →
    unlReady { (publish 5 (leByteList 4 h.sender) s).wr fFUS_UNL_CART.addr (BitVec.ofNat 32 h.sender) with
  eth := { (publish 5 (leByteList 4 h.sender) s).eth with cart := some h.sender, reqAt := none } } = true →
    ∃ t, exec (.uoffer h a r) s = .next t ∧ unlState t = 1 ∧ t.eth.cart = some h.sender ∧ t.eth.reqAt = none ∧
      t.rd fFUS_UNL_CART.addr = BitVec.ofNat 32 h.sender
    ∧ (t.eth.sent.head?).map (fun x => x.type) = some 5 ∧ t.get (fFUN_REC_CTL_SP_SRC 17) = 3)
  ∧
  -- offerIgnored
  (∀ (s : State) (h : FleetHdr) (a r : Nat), s.wide = true → fleetState s = 2 → h.type = 4 →
    inboundOk h s = true → (h.sender ∉ s.eth.roster ∨ ∀ z, s.eth.reqAt = some z → z + 1200000 ≤ s.clk.tick) →
    ∃ t, exec (.uoffer h a r) s = .next t ∧ t = s)
  ∧
  -- ended
  (∀ (s : State) (h : FleetHdr) (x : Fin 256), s.wide = true → fleetState s = 2 → h.type = 6 →
    inboundOk h s = true → s.eth.cart = some h.sender → unlState s = 3 → Room s 3 →
    ∃ t, exec (.uend h x) s = .next t ∧ unlState t = 4 ∧ t.getF (fFUN_REC_SP_TGT 20) = fnClamp s 20 0#32 ∧
      s.evOf 0x7120 0 4 ∈ t.evr.intake ∧ SameMem s t ∧ PartsBut s t [.fn, .mail, .eth])
  ∧
  -- endStops
  (∀ (s : State) (h : FleetHdr) (x : Fin 256), s.wide = true → fleetState s = 2 → h.type = 6 →
    inboundOk h s = true → s.eth.cart = some h.sender →
    ∃ t, exec (.uend h x) s = .next t ∧ exec (.unlStop (.core 0)) s = .next t ∧ (unlState s = 0 ∨
      unlState s = 4 → t = s) ∧ (unlState s = 1 ∨ unlState s = 2 → unlState t = 0))
  ∧
  -- endIgnored
  (∀ (s : State) (h : FleetHdr) (x : Fin 256), s.wide = true → fleetState s = 2 → h.type = 6 →
    inboundOk h s = true → s.eth.cart ≠ some h.sender →
    ∃ t, exec (.uend h x) s = .next t ∧ t = s)
  ∧
  -- tileAsked
  (∀ (s : State) (h : FleetHdr) (n : Nat) (i j : Int), s.wide = true → fleetState s = 2 → h.type = 8 →
    inboundOk h s = true →
    ∃ t, exec (.tget h n i j) s = .next t ∧ t.eth.sent.drop (chunksOf (tileExport s ⟨n, i, j⟩ (sealedCells s ⟨n,
      i, j⟩)) 64).length = s.eth.sent
    ∧ (∀ x ∈ t.eth.sent.take (chunksOf (tileExport s ⟨n, i, j⟩ (sealedCells s ⟨n, i, j⟩)) 64).length,
      x.type = 7 ∧
      (x.payload.drop 16).take 6 = leByteList 2 n ++ leByteList 2 (toField 16 i) ++ leByteList 2 (toField 16 j))
    ∧ Does s t [] [] [.eth])
  ∧
  -- cartAt
  (∀ (s : State) (h : FleetHdr) (lat lon hgt : Int) (hd sp fx st : Nat), s.wide = true → fleetState s = 2 →
    h.type = 1 → inboundOk h s = true → s.eth.cart = some h.sender → s.get (fFUS_SRC_STATE 10) ≠ 1 → Room s 1 →
    ∃ t, exec (.cartPos h lat lon hgt hd sp fx st) s = .next t ∧ Does s t [(fFUS_SRC_STATE 10, 1)]
      [s.evOf 0x7108 10 1] [.eth, .fus] ∧
      t.eth = { s.eth with cartPos := [h.time, lat, lon, hgt, hd, sp, fx, st] } ∧
      t.fus = { s.fus with cartAt := s.clk.tick })
  ∧
  -- cartOther
  (∀ (s : State) (h : FleetHdr) (lat lon hgt : Int) (hd sp fx st : Nat), s.wide = true → fleetState s = 2 →
    h.type = 1 → inboundOk h s = true → s.eth.cart ≠ some h.sender →
    ∃ t, exec (.cartPos h lat lon hgt hd sp fx st) s = .next t ∧ t = s)
  ∧
  -- cartAgain
  (∀ (s : State) (h : FleetHdr) (lat lon hgt : Int) (hd sp fx st : Nat), s.wide = true → fleetState s = 2 →
    h.type = 1 → inboundOk h s = true → s.eth.cart = some h.sender → s.get (fFUS_SRC_STATE 10) = 1 →
    ∃ t, exec (.cartPos h lat lon hgt hd sp fx st) s = .next t ∧ Does s t [] [] [.eth, .fus] ∧
      t.eth = { s.eth with cartPos := [h.time, lat, lon, hgt, hd, sp, fx, st] } ∧
      t.fus = { s.fus with cartAt := s.clk.tick })
  ∧
  -- rawCfg
  (∀ (s : State) (b : List Byte), s.wide = true → fleetState s = 2 → b.getD 0 0#8 = 1#8 → b.getD 1 0#8 = 0xA#8 →
    80 < b.length → payInt b 8 8 ≤ s.now + 100000000 → s.now - 2000000000 ≤ payInt b 8 8 →
    ∃ t, exec (.fleetInbound b) s = .next t ∧ Does s t [(fETH_EVT_CFG_IN, 1)] [] [.eth] ∧
      t.eth = { s.eth with cfgIn := some b })
  ∧
  -- rawKinds
  (∀ (s : State) (b : List Byte), s.wide = true → fleetState s = 2 → b.getD 0 0#8 = 1#8 →
    payInt b 8 8 ≤ s.now + 100000000 → s.now - 2000000000 ≤ payInt b 8 8 →
    (b.getD 1 0#8 = 1#8 → b.length = 34 →
      exec (.fleetInbound b) s = .next (takeCartPos (payNat b 4 4) [payInt b 8 8, payInt b 16 4, payInt b 20 4,
      payInt b 24 4, payNat b 28 2, payNat b 30 2, payNat b 32 1, payNat b 33 1] s))
    ∧ (b.getD 1 0#8 = 4#8 → b.length = 22 → exec (.fleetInbound b) s = .next (takeOffer (payNat b 4 4) s))
    ∧ (b.getD 1 0#8 = 6#8 → b.length = 17 → exec (.fleetInbound b) s = .next (takeEnd (payNat b 4 4) s))
    ∧ (b.getD 1 0#8 = 8#8 → b.length = 22 → exec (.fleetInbound b) s = .next (answerTget ⟨payNat b 16 2,
      payInt b 18 2, payInt b 20 2⟩ s)))
  ∧
  -- rawBad
  (∀ (s : State) (b : List Byte), s.wide = true → fleetState s = 2 → (b.getD 0 0#8 ≠ 1#8 ∨
    payLenOk (b.getD 1 0#8).toNat b.length = false ∨ s.now + 100000000 < payInt b 8 8 ∨
    payInt b 8 8 < s.now - 2000000000) → (∀ z, s.eth.inAt = some z → z + 1200000 ≤ s.clk.tick) → Room s 1 →
    ∃ t, exec (.fleetInbound b) s = .next t ∧ Does s t [(⟨fETH_FLEET_REF.addr, 31, 16⟩,
      s.up ⟨fETH_FLEET_REF.addr, 31, 16⟩), (fETH_EVT_REFUSED, 1)] [s.evOf 0x9314 0 (b.getD 1 0#8).toNat] [.eth])
  ∧
  -- synced
  (∀ (s : State) (q : Option Req), ((∃ a, q = some a ∧ reqIsOem a = false) ∨ (q = none ∧
    (s.eth.syncAt + 20000 * s.get fETH_SVC_PORT_TILE_INT ≤ s.clk.tick ∨ s.bit fMAP_STATUS_FIELD_OK = false))) →
    s.wide = true → fleetState s = 2 → s.eth.deltas = [] →
    ∃ t, exec (.tileSync q) s = .next t ∧ t.map.unsent = [] ∧ t.eth.syncAt = s.clk.tick
    ∧ (∀ k ∈ s.map.unsent, ∃ d ∈ t.eth.deltas, d.tile = MapTile.of k ∧ k ∈ d.cells ∧ d.acked = [] ∧
      s.eth.seq < d.seq ∧ d.seq ≤ t.eth.seq)
    ∧ (∀ d ∈ t.eth.deltas, ∀ k ∈ d.cells, k ∈ s.map.unsent ∧ d.tile = MapTile.of k)
    ∧ t.get fETH_FLEET_Q_TILES = min 512 ((s.map.unsent.map MapTile.of).eraseDups).length ∧ SameMem s t ∧
      Records s t [] ∧ Touches s t [fETH_FLEET_Q_TILES.addr] [.eth, .map])
  ∧
  -- syncedAgain
  (∀ (s : State) (q : Option Req) (d : TileDelta), ((∃ a, q = some a ∧ reqIsOem a = false) ∨ (q = none ∧
    (s.eth.syncAt + 20000 * s.get fETH_SVC_PORT_TILE_INT ≤ s.clk.tick ∨ s.bit fMAP_STATUS_FIELD_OK = false))) →
    s.wide = true → fleetState s = 2 → s.eth.deltas = [d] → (∀ k ∈ s.map.unsent, MapTile.of k = d.tile) →
    ∃ t, exec (.tileSync q) s = .next t ∧ t.eth.deltas.map (fun x => (x.tile, x.cells, x.seq,
      x.acked)) = [(d.tile, d.cells, d.seq, d.acked)] ∧ t.eth.seq = s.eth.seq ∧ t.map.unsent = s.map.unsent
    ∧ (∃ l, t.eth.sent = l ++ s.eth.sent ∧ ∀ x ∈ l, x.type = 7) ∧ t.get fETH_FLEET_Q_TILES = 1 ∧
      Touches s t [fETH_FLEET_Q_TILES.addr] [.eth])
  ∧
  -- syncedNone
  (∀ (s : State) (q : Option Req), (fleetState s ≠ 2 ∨ s.wide = false ∨ (∃ a, q = some a ∧ reqIsOem a = true)
    ∨ (q = none ∧ s.clk.tick < s.eth.syncAt + 20000 * s.get fETH_SVC_PORT_TILE_INT ∧
      s.bit fMAP_STATUS_FIELD_OK = true)) →
    ∃ t, exec (.tileSync q) s = .next t ∧ t = s)
  ∧
  -- acked
  (∀ (s : State) (n k : Nat) (d : TileDelta), s.eth.deltas.find? (fun x => x.seq == n) = some d →
    (∀ i < d.chunks, i = k ∨ i ∈ d.acked) →
    ∃ t, exec (.puback n k) s = .next t ∧ (∀ x ∈ t.eth.deltas, x.seq ≠ n) ∧ t.bit fETH_EVT_TILE_ACK = true ∧
      SameMem s t ∧ Records s t [] ∧ Touches s t [fETH_FLEET_Q_TILES.addr, fETH_EVT_TILE_ACK.addr] [.eth])
  ∧
  -- ackedPart
  (∀ (s : State) (n k : Nat) (d : TileDelta), s.eth.deltas.find? (fun x => x.seq == n) = some d →
    (∃ i < d.chunks, i ≠ k ∧ i ∉ d.acked) →
    ∃ t, exec (.puback n k) s = .next t ∧
      t = { s with eth := { s.eth with deltas := { d with acked := k :: d.acked.filter (fun x => x != k) } :: s.eth.deltas.filter (fun x => x.seq != n) } })
  ∧
  -- ackedNone
  (∀ (s : State) (n k : Nat), (∀ x ∈ s.eth.deltas, x.seq ≠ n) →
    ∃ t, exec (.puback n k) s = .next t ∧ t = s)
  ∧
  -- posSent
  (∀ (s : State) (f m : Nat), s.wide = true → fleetState s = 2 →
    s.eth.posAt + (if unlState s = 0 then 20000 else 4000) ≤ s.clk.tick →
    ∃ t, exec (.periodicPublish false f m) s = .next t ∧ t.eth.posAt = s.clk.tick ∧
      (t.eth.sent.head?).map (fun x => x.type) = some 1 ∧ t.eth.sent.tail = s.eth.sent ∧ Does s t [] [] [.eth])
  ∧
  -- tankSent
  (∀ (s : State) (f m : Nat), s.wide = true → fleetState s = 2 → (s.eth.tankAt + 200000 ≤ s.clk.tick ∨
    s.eth.fill + 20 ≤ f ∨ f + 20 ≤ s.eth.fill) →
    ∃ t, exec (.periodicPublish true f m) s = .next t ∧ t.eth.tankAt = s.clk.tick ∧ t.eth.fill = f ∧
      (t.eth.sent.head?).map (fun x => (x.type, (x.payload.drop 16).take 6)) = some (2,
      leByteList 2 f ++ leByteList 4 m)
    ∧ t.eth.sent.tail = s.eth.sent ∧ Does s t [] [] [.eth])
  ∧
  -- posWaits
  (∀ (s : State) (f m : Nat), s.wide = true → (fleetState s = 1 ∨ fleetState s = 3) →
    s.eth.posAt + (if unlState s = 0 then 20000 else 4000) ≤ s.clk.tick →
    ∃ t, exec (.periodicPublish false f m) s = .next t ∧ t.eth.posAt = s.clk.tick ∧ t.eth.sent = s.eth.sent ∧
      (∃ x, x.type = 1 ∧ x.tick = s.clk.tick ∧ t.eth.queue = s.eth.queue.filter (fun y => y.type != 1) ++ [x])
    ∧ (t.bit fETH_EVT_REFUSED = (s.bit fETH_EVT_REFUSED || s.eth.queue.any (fun x => x.type == 1))) ∧
      SameMem s t
    ∧ Touches s t [fETH_FLEET_Q_ALERTS.addr, fETH_FLEET_REF.addr, fETH_EVT_REFUSED.addr] [.eth])
  ∧
  -- publishNot
  (∀ (s : State) (k : Bool) (f m : Nat), (s.wide = false ∨ fleetState s = 0 ∨ (k = false ∧
    s.clk.tick < s.eth.posAt + (if unlState s = 0 then 20000 else 4000))
    ∨ (k = true ∧ s.clk.tick < s.eth.tankAt + 200000 ∧ f < s.eth.fill + 20 ∧ s.eth.fill < f + 20)) →
    ∃ t, exec (.periodicPublish k f m) s = .next t ∧ t = s)
  ∧
  -- reqOver
  (∀ (s : State) (z : Nat), s.eth.reqAt = some z → z + 1200000 ≤ s.clk.tick → Room s 1 →
    ∃ t, exec (.ureqLapse) s = .next t ∧ Does s t [] [s.evOf 0x9315] [.eth] ∧
      t.eth = { s.eth with reqAt := none })
  ∧
  -- reqOpen
  (∀ (s : State), (∀ z, s.eth.reqAt = some z → s.clk.tick < z + 1200000) →
    ∃ t, exec (.ureqLapse) s = .next t ∧ t = s)
  ∧
  -- expired
  (∀ (s : State),
    ∃ t, exec (.publicationExpire) s = .next t ∧ (∀ x, x ∈ t.eth.queue ↔ x ∈ s.eth.queue ∧
      ¬ (isUrgent x.type = true ∧ x.tick + 1200000 ≤ s.clk.tick))
    ∧
      t.get fETH_FLEET_Q_ALERTS = (s.eth.queue.filter (fun x => x.type == 9)).length % 2 ^ fldWidth fETH_FLEET_Q_ALERTS
    ∧ ((∃ x ∈ s.eth.queue, isUrgent x.type = true ∧ x.tick + 1200000 ≤ s.clk.tick) →
      t.bit fETH_EVT_REFUSED = true)
    ∧ SameMem s t ∧ Touches s t [fETH_FLEET_Q_ALERTS.addr, fETH_FLEET_REF.addr, fETH_EVT_REFUSED.addr] [.eth])

/-- After listening for 40 ticks the manager sends its first frame. A JOIN that passes every check is admitted at the
first frame boundary at least 20 ticks after the ADMIT, followed by one replay commit of what that position missed;
any other is refused with its reason. An ACK is noted with the message it belongs to; a message whose ACK is missing
at the end of A − 3 is halted and recorded as 0x9109; at A + 1 a worker whose generation differs is recorded as
0x9108. A port without a valid header for 4 ticks is DOWN with 0x910B and the ring mode follows, recorded as 0x910D;
after 400 ticks with valid headers it is UP with 0x910C, and with every hop UP the manager sends MODE for a frame
boundary. A foreign manager is recorded as 0x9103: before claims this one stops, after them the port is DOWN. A
header whose CRC fails is counted and not used; a window is used once, from a sender that is JOINED and ALIGNED, and
one whose CRC fails is counted. ECN_CTL.RESET orders a RESET or is refused with 0x910A. Where its condition does not
hold, each command changes nothing. That a command whose conditions do not hold changes nothing is the model's
reading (log entry 15). Where the spec leaves the choice open or has to be read by inference, the clauses state the
model's, of log entries 67, 68, 69, 152. (R318, R320, R324, R329, R330, R332, R333, R334) -/
def Obligations.RingManager : Prop :=
  -- firstFrame
  (∀ (s : State), s.straps.manager = true → 7 ≤ s.get fRST_STATUS_STEP → s.ecn.firstAt = none →
    s.bit fECN_STATUS_FOREIGN = false → s.ecn.listenAt + 40 ≤ s.clk.tick →
    ∃ t, exec (.managerListenEnd) s = .next t ∧ t = { s with ecn := { s.ecn with firstAt := some s.clk.tick } })
  ∧
  -- firstFrameNot
  (∀ (s : State), (s.straps.manager = false ∨ s.get fRST_STATUS_STEP < 7 ∨ s.ecn.firstAt ≠ none ∨
    s.bit fECN_STATUS_FOREIGN = true ∨ s.clk.tick < s.ecn.listenAt + 40) →
    ∃ t, exec (.managerListenEnd) s = .next t ∧ t = s)
  ∧
  -- admitted
  (∀ (s : State) (p : Fin 8) (ser fw sid pg : Nat) (ob : Bool), s.straps.manager = true → s.ecn.firstAt ≠ none →
    p.val ≠ 0 → joinReason s p ser fw sid pg = 0 → (∀ x ∈ s.cfg.others, x.pos ≠ p.val) →
    ∃ t, exec (.join p ser ob fw sid pg) s = .next t ∧ (p.val, ser) ∈ t.ecn.members ∧ (p.val, ob) ∈ t.ecn.orders
    ∧ t.ecn.sent.head? = some ⟨0x03, [(p.val : Int), (boundaryFrom (s.clk.tick + 21) : Int), s.clk.tbase, 0]⟩ ∧
      t.ecn.waits = s.ecn.waits
    ∧ s.clk.tick + 20 < boundaryFrom (s.clk.tick + 21) ∧ boundaryFrom (s.clk.tick + 21) % 400 = 0 ∧ Does s t []
      [] [.ecn, .upd])
  ∧
  -- admittedReplay
  (∀ (s : State) (p : Fin 8) (ser fw sid pg : Nat) (ob : Bool), s.straps.manager = true → s.ecn.firstAt ≠ none →
    p.val ≠ 0 → joinReason s p ser fw sid pg = 0 → (∃ x ∈ s.cfg.others, x.pos = p.val) →
    ∃ t, exec (.join p ser ob fw sid pg) s = .next t ∧ (p.val, ser) ∈ t.ecn.members ∧ (⟨0x03, [(p.val : Int),
      (boundaryFrom (s.clk.tick + 21) : Int), s.clk.tbase, 1]⟩ : EcnMsg) ∈ t.ecn.sent
    ∧ (t.cfg.applying.getLast?).map (fun x => (x.items, x.apply,
      x.replay)) = some (s.cfg.others.filter (fun x => x.pos == p.val),
      boundaryFrom (boundaryFrom (s.clk.tick + 21) + 400), some p.val)
    ∧ (t.ecn.waits.getLast?).map (fun x => (x.type, x.need)) = some (6, [p.val]) ∧ Does s t [] [] [.ecn, .cfg,
      .upd])
  ∧
  -- refusedJoin
  (∀ (s : State) (p : Fin 8) (ser fw sid pg : Nat) (ob : Bool), s.straps.manager = true → s.ecn.firstAt ≠ none →
    p.val ≠ 0 → joinReason s p ser fw sid pg ≠ 0 →
    ∃ t, exec (.join p ser ob fw sid pg) s = .next t ∧ t.ecn.sent.head? = some ⟨0x04, [(p.val : Int),
      (joinReason s p ser fw sid pg : Int)]⟩ ∧ t.ecn.members = s.ecn.members ∧ Does s t [] [] [.ecn])
  ∧
  -- joinUnheard
  (∀ (s : State) (p : Fin 8) (ser fw sid pg : Nat) (ob : Bool), (s.straps.manager = false ∨
    s.ecn.firstAt = none ∨ p.val = 0) →
    ∃ t, exec (.join p ser ob fw sid pg) s = .next t ∧ t = s)
  ∧
  -- joinReasons
  (∀ (s : State) (p : Fin 8) (ser fw sid pg : Nat),
    (isJoined s p = true → (∃ m ∈ s.ecn.members, m.1 = p.val ∧ m.2 ≠ ser) → joinReason s p ser fw sid pg = 1)
    ∧ (isJoined s p = false → (s.get fECN_CFG_EXPECT).testBit p = false → joinReason s p ser fw sid pg = 2)
    ∧ (isJoined s p = false → (s.get fECN_CFG_EXPECT).testBit p = true →
      sid ≠ (s.cfg.image.elim 0 fun i => i.sysId) ∨ pg ≠ s.get fCFG_PERSIST_GEN →
      joinReason s p ser fw sid pg = 3)
    ∧ (isJoined s p = false → (s.get fECN_CFG_EXPECT).testBit p = true →
      sid = (s.cfg.image.elim 0 fun i => i.sysId) → pg = s.get fCFG_PERSIST_GEN →
        joinReason s p ser fw sid pg = if fw = s.get fUPD_RUN_VER then 0 else 4))
  ∧
  -- acked2
  (∀ (s : State) (p : Fin 8) (g : Nat), s.straps.manager = true → (∀ w ∈ s.ecn.waits, w.gen = g →
    w.type ≠ 0x0B) →
    ∃ t, exec (.ecnAck p g) s = .next t ∧ Does s t [] [] [.ecn] ∧ t.ecn.waits.map (fun w => (w.type, w.gen,
      w.apply, w.halt)) = s.ecn.waits.map (fun w => (w.type, w.gen, w.apply, w.halt))
    ∧ (∀ w ∈ t.ecn.waits, w.gen = g → p.val ∈ w.acked))
  ∧
  -- ackedGo
  (∀ (s : State) (p : Fin 8) (g : Nat), s.straps.manager = true → (∃ w ∈ s.ecn.waits, w.gen = g ∧
    w.type = 0x0B) →
    ∃ t, exec (.ecnAck p g) s = .next t ∧ Does s t [(bitFld fUPD_POS_READY p, 1)] [] [.ecn] ∧
      (∀ w ∈ t.ecn.waits, w.gen = g → p.val ∈ w.acked))
  ∧
  -- halted
  (∀ (s : State), s.straps.manager = true → Room s s.ecn.waits.length →
    ∃ t, exec (.abortCheck) s = .next t ∧
      Records s t ((s.ecn.waits.filter (fun w => decide (w.apply = s.clk.tick + 3) && !w.halt && w.need.any (fun p => !w.acked.contains p))).map (fun w => s.evOf 0x9109 0 w.type))
    ∧
      t.ecn = { s.ecn with waits := s.ecn.waits.map (fun w => { w with halt := w.halt || (decide (w.apply = s.clk.tick + 3) && w.need.any (fun p => !w.acked.contains p)) }) }
    ∧
      t.bit fECN_EVT_ABORT = (s.bit fECN_EVT_ABORT || s.ecn.waits.any (fun w => decide (w.apply = s.clk.tick + 3) && !w.halt && w.need.any (fun p => !w.acked.contains p)))
    ∧ SameMem s t ∧ Touches s t [fECN_EVT_ABORT.addr] [.ecn])
  ∧
  -- haltedNot
  (∀ (s : State), (s.straps.manager = false ∨ ∀ w ∈ s.ecn.waits, w.apply ≠ s.clk.tick + 3 ∨ w.halt = true ∨
    ∀ p ∈ w.need, p ∈ w.acked) →
    ∃ t, exec (.abortCheck) s = .next t ∧ t = s)
  ∧
  -- ackedNot
  (∀ (s : State) (p : Fin 8) (g : Nat), s.straps.manager = false →
    ∃ t, exec (.ecnAck p g) s = .next t ∧ t = s)
  ∧
  -- genDiffers
  (∀ (s : State) (p : Fin 8) (a : Nat), s.straps.manager = true → s.ecn.genAt = some a → a + 1 = s.clk.tick →
    p.val ≠ 0 → isJoined s p = true →
    (tabGet (fun _ => 0#32) s.ecn.slots p).toNat / 256 % 256 ≠ s.ecn.gen % 256 → Room s 8 →
    ∃ t, exec (.genCheck) s = .next t ∧
      s.evOf 0x9108 p ((tabGet (fun _ => 0#32) s.ecn.slots p).toNat / 256 % 256) ∈ t.evr.intake ∧
      t.bit fECN_EVT_GEN = true
    ∧ t.ecn = { s.ecn with genAt := none } ∧ SameMem s t ∧ Touches s t [fECN_EVT_GEN.addr] [.ecn])
  ∧
  -- genSame
  (∀ (s : State) (a : Nat), s.straps.manager = true → s.ecn.genAt = some a → a + 1 = s.clk.tick → (∀ q : Fin 8,
    q.val ≠ 0 → isJoined s q = true →
    (tabGet (fun _ => 0#32) s.ecn.slots q).toNat / 256 % 256 = s.ecn.gen % 256) →
    ∃ t, exec (.genCheck) s = .next t ∧ t = { s with ecn := { s.ecn with genAt := none } })
  ∧
  -- genNot
  (∀ (s : State), (s.straps.manager = false ∨ ∀ a, s.ecn.genAt = some a → a + 1 ≠ s.clk.tick) →
    ∃ t, exec (.genCheck) s = .next t ∧ t = s)
  ∧
  -- down
  (∀ (s : State) (p : Fin 2) (d : Fin 9), s.straps.manager = true → s.bit (fPortUp p) = true → (∀ z,
    (s.ecnPort p).last = some z → z + 4 ≤ s.clk.tick) → s.get fECN_STATUS_MODE ≠ min d.val 2 → Room s 2 →
    ∃ t, exec (.portDown p d) s = .next t ∧ Does s t [(fPortUp p, 0), (fHop p, 0xFFFFFF), (fECN_EVT_PORT, 1),
      (fECN_STATUS_MODE, min d.val 2), (fECN_EVT_MODE, 1)] [s.evOf 0x910B p, s.evOf 0x910D 0 (min d.val 2)]
      [.ecn]
    ∧ t.ecnPort p = { EcnPort.init with broken := true })
  ∧
  -- downQuiet
  (∀ (s : State) (p : Fin 2) (d : Fin 9), (s.straps.manager = false ∨ s.get fECN_STATUS_MODE = min d.val 2) →
    s.bit (fPortUp p) = true → (∀ z, (s.ecnPort p).last = some z → z + 4 ≤ s.clk.tick) → Room s 1 →
    ∃ t, exec (.portDown p d) s = .next t ∧ Does s t [(fPortUp p, 0), (fHop p, 0xFFFFFF), (fECN_EVT_PORT, 1)]
      [s.evOf 0x910B p] [.ecn] ∧ t.ecnPort p = { EcnPort.init with broken := true })
  ∧
  -- downNot
  (∀ (s : State) (p : Fin 2) (d : Fin 9) (z : Nat), (s.bit (fPortUp p) = false ∨ ((s.ecnPort p).last = some z ∧
    s.clk.tick < z + 4)) →
    ∃ t, exec (.portDown p d) s = .next t ∧ t = s)
  ∧
  -- up
  (∀ (s : State) (p : Fin 2) (d : Fin 9), (s.straps.manager = false ∨ (d.val = 0 ∧ s.get fECN_STATUS_MODE = 0) ∨
    (d.val ≠ 0 ∧ s.get fECN_STATUS_MODE = min d.val 2)) → s.bit (fPortUp p) = false → 400 ≤ (s.ecnPort p).run →
    Room s 1 →
    ∃ t, exec (.portUp p d) s = .next t ∧ Does s t [(fHop p, meanHop (s.ecnPort p)), (fPortUp p, 1),
      (fECN_EVT_PORT, 1)] [s.evOf 0x910C p] [.ecn] ∧ t.ecnPort p = { s.ecnPort p with broken := false })
  ∧
  -- upPart
  (∀ (s : State) (p : Fin 2) (d : Fin 9), s.straps.manager = true → d.val ≠ 0 →
    s.get fECN_STATUS_MODE ≠ min d.val 2 → s.bit (fPortUp p) = false → 400 ≤ (s.ecnPort p).run → Room s 2 →
    ∃ t, exec (.portUp p d) s = .next t ∧ Does s t [(fHop p, meanHop (s.ecnPort p)), (fPortUp p, 1),
      (fECN_EVT_PORT, 1), (fECN_STATUS_MODE, min d.val 2), (fECN_EVT_MODE, 1)]
      [s.evOf 0x910C p, s.evOf 0x910D 0 (min d.val 2)] [.ecn])
  ∧
  -- upRing
  (∀ (s : State) (p : Fin 2), s.straps.manager = true → s.get fECN_STATUS_MODE ≠ 0 → s.bit (fPortUp p) = false →
    400 ≤ (s.ecnPort p).run → Room s 1 →
    ∃ t, exec (.portUp p 0) s = .next t ∧ Does s t [(fHop p, meanHop (s.ecnPort p)), (fPortUp p, 1),
      (fECN_EVT_PORT, 1)] [s.evOf 0x910C p] [.ecn] ∧ (t.ecn.waits.getLast?).map (fun w => (w.type,
      w.need)) = some (0x0C, ringWorkers s)
    ∧ (∀ w, t.ecn.waits.getLast? = some w → w.apply % 400 = 0 ∧ s.clk.tick + 5 ≤ w.apply))
  ∧
  -- upNot
  (∀ (s : State) (p : Fin 2) (d : Fin 9), (s.bit (fPortUp p) = true ∨ (s.ecnPort p).run < 400) →
    ∃ t, exec (.portUp p d) s = .next t ∧ t = s)
  ∧
  -- foreignBefore
  (∀ (s : State) (p : Fin 2) (ser : Nat), s.straps.manager = true → ser ≠ s.get64 fSEC_SERIAL_LO.addr →
    s.bit fRST_STATUS_CLAIMS = false → Room s 1 →
    ∃ t, exec (.announce p ser) s = .next t ∧ Does s t [(fECN_STATUS_FOREIGN, 1), (fRST_STATUS_FAIL, 4)]
      [s.evOf 0x9103 p] [.ecn] ∧ t.ecn = { s.ecn with firstAt := none })
  ∧
  -- foreignAfter
  (∀ (s : State) (p : Fin 2) (ser : Nat), s.straps.manager = true → ser ≠ s.get64 fSEC_SERIAL_LO.addr →
    s.bit fRST_STATUS_CLAIMS = true → s.bit (fPortUp p) = true → s.get fECN_STATUS_MODE < 2 → Room s 3 →
    ∃ t, exec (.announce p ser) s = .next t ∧ Does s t [(fPortUp p, 0), (fHop p, 0xFFFFFF), (fECN_EVT_PORT, 1),
      (fECN_STATUS_MODE, s.get fECN_STATUS_MODE + 1), (fECN_EVT_MODE, 1)]
      [s.evOf 0x910B p, s.evOf 0x910D 0 (s.get fECN_STATUS_MODE + 1), s.evOf 0x9103 p] [.ecn] ∧
        t.ecnPort p = { EcnPort.init with broken := true })
  ∧
  -- foreignAfterSplit
  (∀ (s : State) (p : Fin 2) (ser : Nat), s.straps.manager = true → ser ≠ s.get64 fSEC_SERIAL_LO.addr →
    s.bit fRST_STATUS_CLAIMS = true → s.bit (fPortUp p) = true → s.get fECN_STATUS_MODE = 2 → Room s 2 →
    ∃ t, exec (.announce p ser) s = .next t ∧ Does s t [(fPortUp p, 0), (fHop p, 0xFFFFFF), (fECN_EVT_PORT, 1)]
      [s.evOf 0x910B p, s.evOf 0x9103 p] [.ecn] ∧ t.ecnPort p = { EcnPort.init with broken := true })
  ∧
  -- foreignAfterDown
  (∀ (s : State) (p : Fin 2) (ser : Nat), s.straps.manager = true → ser ≠ s.get64 fSEC_SERIAL_LO.addr →
    s.bit fRST_STATUS_CLAIMS = true → s.bit (fPortUp p) = false → Room s 1 →
    ∃ t, exec (.announce p ser) s = .next t ∧ Does s t [] [s.evOf 0x9103 p] [.ecn] ∧
      t.ecnPort p = { EcnPort.init with broken := true })
  ∧
  -- ownAnnounce
  (∀ (s : State) (p : Fin 2) (ser : Nat), (s.straps.manager = false ∨ ser = s.get64 fSEC_SERIAL_LO.addr) →
    ∃ t, exec (.announce p ser) s = .next t ∧ t = s)
  ∧
  -- badHeader
  (∀ (s : State) (p : Fin 2) (f : EcnFrame), f.hdrOk = false → f.probe = none → f.slots = [] → f.wins = [] →
    ∃ t, exec (.ecnilFrame p f) s = .next t ∧ Does s t [(fECN_CNT_HDR, s.up fECN_CNT_HDR)] [] [.ecn] ∧
      t.ecnPort p = { s.ecnPort p with run := 0, probes := 0 } ∧ t.ecn.hdrs = s.ecn.hdrs
    ∧ (s.straps.manager = true → t.ecn.rep = s.ecn.rep) ∧ (s.straps.manager = false → (1 - p.val, (f.acc,
      f.hops)) ∈ t.ecn.rep))
  ∧
  -- goodFrame
  (∀ (s : State) (p : Fin 2) (f : EcnFrame), s.straps.manager = true → f.hdrOk = true → f.slots = [] →
    f.wins = [] →
    ∃ t, exec (.ecnilFrame p f) s = .next t ∧ (t.ecnPort p).last = some s.clk.tick ∧
      (t.ecnPort p).run = (if f.probe.isSome then (s.ecnPort p).run + 1 else 0) ∧
      t.ecn.hdrs.head? = some (s.clk.tick, f.halt)
    ∧ (∀ z, f.probe = some z → (t.ecnPort p).hops = (hopDelay z :: (s.ecnPort p).hops).take 16
        ∧
          t.get (fHop p) = if s.bit (fPortUp p) then meanHop (t.ecnPort p) % 2 ^ fldWidth (fHop p) else s.get (fHop p))
    ∧ SameMem s t ∧ Records s t [] ∧ Touches s t [(fHop p).addr] [.ecn])
  ∧
  -- workerFrame
  (∀ (s : State) (p : Fin 2) (f : EcnFrame), s.straps.manager = false → f.hdrOk = true → f.probe = none →
    f.slots = [] → f.wins = [] → (s.ecn.best.1 ≠ s.clk.tick ∨ f.hops < s.ecn.best.2) →
    ∃ t, exec (.ecnilFrame p f) s = .next t ∧ t.ecn.diff = (f.count : Int) - s.clk.tick ∧
      t.clk.edgeAt = s.clk.tick ∧ t.ecn.best = (s.clk.tick, f.hops)
    ∧ t.get fECN_ACC_TOTAL = (f.acc + meanHop (s.ecnPort p)) % 2 ^ fldWidth fECN_ACC_TOTAL ∧ (1 - p.val,
      (f.acc + meanHop (s.ecnPort p) + 640, f.hops + 1)) ∈ t.ecn.rep
    ∧ ((s.ecnPort (1 - p.val)).broken = true → (p.val, (f.acc + meanHop (s.ecnPort p) + 640,
      f.hops + 1)) ∈ t.ecn.rep)
    ∧ (s.get fCLK_STATUS_ALIGN = 2 → ecnJoin s ≠ 2 → ecnJoin s ≠ 4 → t.get fCLK_STATUS_ALIGN = 0)
    ∧ (s.get fCLK_STATUS_ALIGN ≠ 2 ∨ ecnJoin s = 2 ∨ ecnJoin s = 4 →
      t.get fCLK_STATUS_ALIGN = s.get fCLK_STATUS_ALIGN))
  ∧
  -- windowUsed
  (∀ (s : State) (p : Fin 2) (f : EcnFrame) (n : Nat) (w : Word) (r : List (Word × Word)),
    s.straps.manager = true → f.hdrOk = true → f.probe = none → f.slots = [(n, w)] → f.wins = [(n, true, r)] →
    n < 8 → w.toNat % 2 = 1 → w.toNat / 2 % 4 = 1 → (∀ g ∈ s.ecn.got, g.1 ≠ n) →
    ∃ t, exec (.ecnilFrame p f) s = .next t ∧ t.ecn.got = s.ecn.got ++ [(n, r)] ∧ isJoined t n = true ∧
      isAligned t n = true ∧ tabGet (fun _ => 0#32) t.ecn.slots n = w ∧ t.get fECN_CNT_WIN = s.get fECN_CNT_WIN)
  ∧
  -- windowUnused
  (∀ (s : State) (p : Fin 2) (f : EcnFrame) (n : Nat) (r : List (Word × Word)), s.straps.manager = true →
    f.hdrOk = true → f.probe = none → f.wins = [(n, true, r)] → ((∃ g ∈ s.ecn.got, g.1 = n) ∨ ∀ q ∈ f.slots,
    q.1 = n → q.2.toNat % 2 = 0 ∨ q.2.toNat / 2 % 4 ≠ 1) →
    ∃ t, exec (.ecnilFrame p f) s = .next t ∧ t.ecn.got = s.ecn.got ∧ t.get fECN_CNT_WIN = s.get fECN_CNT_WIN)
  ∧
  -- windowBad
  (∀ (s : State) (p : Fin 2) (f : EcnFrame) (n : Nat) (r : List (Word × Word)), s.straps.manager = true →
    f.hdrOk = true → f.probe = none → f.slots = [] → f.wins = [(n, false, r)] →
    ∃ t, exec (.ecnilFrame p f) s = .next t ∧ Does s t [(fECN_CNT_WIN, s.up fECN_CNT_WIN)] [] [.ecn] ∧
      t.ecn.got = s.ecn.got)
  ∧
  -- resetSent
  (∀ (s : State) (q : Req) (p : Fin 8), reqIsOem q = false → s.straps.manager = true → p.val ≠ 0 →
    isJoined s p = true →
    ∃ t, exec (.workerResetRequest q p) s = .next t ∧ t = sendMsg 0x0A [(p.val : Int)] s)
  ∧
  -- resetRefused
  (∀ (s : State) (q : Req) (p : Fin 8), reqIsOem q = false → s.straps.manager = true → (p.val = 0 ∨
    isJoined s p = false) → Room s 1 →
    ∃ t, exec (.workerResetRequest q p) s = .next t ∧ Does s t [] [s.evOf 0x910A p 0] [])
  ∧
  -- resetIgnored
  (∀ (s : State) (q : Req) (p : Fin 8), (reqIsOem q = true ∨ s.straps.manager = false) →
    ∃ t, exec (.workerResetRequest q p) s = .next t ∧ t = s)

/-- With 16 valid headers and probe results in a row a worker sends JOIN; without an answer in 400 ticks, and 20,000
ticks after a refusal, it starts over. ADMIT sets its join tick, or isolates a worker that was JOINED before and
counts differently, with 0x9105; REFUSE shows its reason with 0x9102. At the join tick it loads count and time base,
with the steps announced up to it, is ALIGNED and JOINED with 0x9101; one that was JOINED before keeps its count,
and takes a difference of the time base as a step. A tick edge after LOST lets a JOINED worker rejoin with 0x9104 or
isolates it with 0x9105, and one that has not joined 1 s after its first valid header records 0x9107 once. A set, a
mode or a complete commit that passes the worker's checks is held for its apply tick, and acknowledged while the
worker is JOINED and ALIGNED; a commit that fails them is dropped. STEP waits for its boundary, LEAP writes the leap
table, and RESET is due at the next tick; a message that is late, for another position, or that reaches the manager
changes nothing. That a command whose conditions do not hold changes nothing is the model's reading (log entry 15).
Where the spec leaves the choice open or has to be read by inference, the clauses state the model's, of log entries
69, 71, 72, 148, 159. (R44, R55, R323, R324, R325, R330, R331, R333, R384) -/
def Obligations.RingWorker : Prop :=
  -- joinSent
  (∀ (s : State) (p : Fin 2), s.straps.manager = false → 7 ≤ s.get fRST_STATUS_STEP → ecnJoin s = 0 →
    16 ≤ (s.ecnPort p).run → 16 ≤ (s.ecnPort p).probes →
    ∃ t, exec (.joinSend p) s = .next t ∧ ecnJoin t = 1 ∧ t.ecn.since = s.clk.tick ∧
      (t.ecn.sent.head?).map (fun m => (m.type, m.args.take 2)) = some (2, [(s.straps.pos : Int),
      (s.get64 fSEC_SERIAL_LO.addr : Int)])
    ∧ Does s t [(fECN_STATUS_JOIN, 1)] [] [.ecn])
  ∧
  -- joinSentNot
  (∀ (s : State) (p : Fin 2), (s.straps.manager = true ∨ s.get fRST_STATUS_STEP < 7 ∨ ecnJoin s ≠ 0 ∨
    (s.ecnPort p).run < 16 ∨ (s.ecnPort p).probes < 16) →
    ∃ t, exec (.joinSend p) s = .next t ∧ t = s)
  ∧
  -- joinAgain
  (∀ (s : State), s.straps.manager = false → ecnJoin s = 1 → s.ecn.joinFor = none →
    s.ecn.since + 400 ≤ s.clk.tick →
    ∃ t, exec (.joinTimeout) s = .next t ∧ Does s t [(fECN_STATUS_JOIN, 0)] [] [.ecn] ∧
      t.ecn = { s.ecn with since := s.clk.tick })
  ∧
  -- joinAgainNot
  (∀ (s : State), (s.straps.manager = true ∨ ecnJoin s ≠ 1 ∨ s.ecn.joinFor ≠ none ∨
    s.clk.tick < s.ecn.since + 400) →
    ∃ t, exec (.joinTimeout) s = .next t ∧ t = s)
  ∧
  -- refusedOver
  (∀ (s : State), ecnJoin s = 3 → s.ecn.since + 20000 ≤ s.clk.tick →
    ∃ t, exec (.refusedTimeout) s = .next t ∧ Does s t [(fECN_STATUS_JOIN, 0)] [] [.ecn] ∧
      t.ecn = { s.ecn with since := s.clk.tick })
  ∧
  -- refusedOverNot
  (∀ (s : State), (ecnJoin s ≠ 3 ∨ s.clk.tick < s.ecn.since + 20000) →
    ∃ t, exec (.refusedTimeout) s = .next t ∧ t = s)
  ∧
  -- admit
  (∀ (s : State) (p : Fin 8) (j : Nat) (tb : Int) (r : Bool), s.straps.manager = false → p.val = s.straps.pos →
    ecnJoin s = 1 → (s.ecn.wasJoined = false ∨ s.ecn.diff = 0) →
    ∃ t, exec (.ecnAdmit p j tb r) s = .next t ∧ t.ecn = { s.ecn with joinFor := some (j, tb), replay := r } ∧
      t.clk = { s.clk with steps := s.clk.steps.filter (fun x => decide (sysTick s < (x.2 : Int))) }
    ∧ Does s t [(fCLK_STATUS_STEP_PEND, if t.clk.steps.isEmpty then 0 else 1)] [] [.clk, .ecn])
  ∧
  -- admitIsolated
  (∀ (s : State) (p : Fin 8) (j : Nat) (tb : Int) (r : Bool), s.straps.manager = false → p.val = s.straps.pos →
    ecnJoin s = 1 → s.ecn.wasJoined = true → s.ecn.diff ≠ 0 → Room s 1 →
    ∃ t, exec (.ecnAdmit p j tb r) s = .next t ∧ Does s t [(fECN_STATUS_JOIN, 4)]
      [s.evOf 0x9105 s.straps.pos 0 f16NaN (f16OfInt s.ecn.diff)] [.ecn] ∧
      t.ecn = { s.ecn with since := s.clk.tick })
  ∧
  -- refuse
  (∀ (s : State) (p : Fin 8) (r : Fin 5), s.straps.manager = false → p.val = s.straps.pos → ecnJoin s = 1 →
    r.val ≠ 0 → Room s 1 →
    ∃ t, exec (.ecnRefuse p r) s = .next t ∧ Does s t [(fECN_STATUS_JOIN, 3), (fECN_STATUS_REASON, r)]
      [s.evOf 0x9102 p r] [.ecn] ∧ t.ecn = { s.ecn with since := s.clk.tick })
  ∧
  -- notMine
  (∀ (s : State) (p : Fin 8) (j : Nat) (tb : Int) (r : Bool) (k : Fin 5),
    (s.straps.manager = true ∨ p.val ≠ s.straps.pos ∨ ecnJoin s ≠ 1 → exec (.ecnAdmit p j tb r) s = .next s ∧
      exec (.ecnRefuse p k) s = .next s)
    ∧ (k.val = 0 → exec (.ecnRefuse p k) s = .next s))
  ∧
  -- joined
  (∀ (s : State) (j : Nat) (tb : Int), s.straps.manager = false → ecnJoin s = 1 → s.ecn.joinFor = some (j, tb) →
    s.ecn.wasJoined = false → (j : Int) ≤ s.clk.tick + s.ecn.diff + 1 →
    ∃ t, exec (.joinTick) s = .next t ∧ ecnJoin t = 2 ∧ t.clk.tick = j ∧ t.clk.cycle = 0 ∧
      t.clk.tbase = tb + ((s.clk.steps.filter (fun x => decide (x.2 ≤ j))).map Prod.fst).sum
    ∧ t.clk.steps = s.clk.steps.filter (fun x => decide (j < x.2)) ∧ t.get fCLK_STATUS_ALIGN = 1 ∧
      t.get fCLK_ALIGN = 0 ∧ t.bit fECN_EVT_MEMBER = true
    ∧ t.bit fCLK_STATUS_RTC_ONLY = false ∧ t.bit fCLK_STATUS_STEP_PEND = !t.clk.steps.isEmpty
    ∧ t.ecn.joinFor = none ∧ t.ecn.wasJoined = true ∧ t.ecn.joinedAt = j ∧ SameMem s t ∧ PartsBut s t [.clk,
      .ecn])
  ∧
  -- joinedAgain
  (∀ (s : State) (j : Nat) (tb : Int), s.straps.manager = false → ecnJoin s = 1 → s.ecn.joinFor = some (j, tb) →
    s.ecn.wasJoined = true →
    tb + ((s.clk.steps.filter (fun x => decide (x.2 ≤ j))).map Prod.fst).sum = s.clk.tbase →
    (j : Int) ≤ s.clk.tick + s.ecn.diff + 1 → Room s 1 →
    ∃ t, exec (.joinTick) s = .next t ∧ Does s t [(fCLK_STATUS_STEP_PEND, if t.clk.steps.isEmpty then 0 else 1),
      (fCLK_STATUS_RTC_ONLY, 0), (fECN_EVT_MEMBER, 1), (fECN_STATUS_JOIN, 2)] [s.evOf 0x9101 s.straps.pos]
      [.clk, .ecn]
    ∧ t.clk = { s.clk with steps := s.clk.steps.filter (fun x => decide (j < x.2)) } ∧ t.ecn.joinFor = none ∧
      t.ecn.joinedAt = s.clk.tick)
  ∧
  -- joinedStep
  (∀ (s : State) (j : Nat) (tb : Int), s.straps.manager = false → ecnJoin s = 1 → s.ecn.joinFor = some (j, tb) →
    s.ecn.wasJoined = true →
    tb + ((s.clk.steps.filter (fun x => decide (x.2 ≤ j))).map Prod.fst).sum ≠ s.clk.tbase →
    (j : Int) ≤ s.clk.tick + s.ecn.diff + 1 → Room s 2 →
    ∃ t, exec (.joinTick) s = .next t ∧ ecnJoin t = 2 ∧ t.clk.tick = s.clk.tick ∧ t.clk.cycle = s.clk.cycle ∧
      t.clk.tbase = tb + ((s.clk.steps.filter (fun x => decide (x.2 ≤ j))).map Prod.fst).sum
    ∧ t.clk.stepAt = s.clk.tick ∧ t.bit fCLK_EVT_STEPPED = true ∧
      (t.evr.intake.drop s.evr.intake.length).map (fun e => e.code) = [0x1051, 0x9101]
    ∧ t.ecn.joinFor = none ∧ SameMem s t ∧ PartsBut s t [.clk, .ecn])
  ∧
  -- joinedNot
  (∀ (s : State), (s.straps.manager = true ∨ ecnJoin s ≠ 1 ∨ ∀ j tb, s.ecn.joinFor = some (j, tb) →
    s.clk.tick + s.ecn.diff + 1 < (j : Int)) →
    ∃ t, exec (.joinTick) s = .next t ∧ t = s)
  ∧
  -- rejoined
  (∀ (s : State), s.straps.manager = false → ecnJoin s = 2 → s.get fCLK_STATUS_ALIGN = 2 →
    s.clk.tick ≤ s.clk.edgeAt + 1 → s.ecn.diff = 0 → Room s 1 →
    ∃ t, exec (.rejoin) s = .next t ∧ Does s t [(fCLK_STATUS_ALIGN, 0), (fCLK_EVT_ALIGN_CHG, 1)]
      [s.evOf 0x9104 s.straps.pos 0 f16NaN (f16OfInt (ofField 32 (s.get fCLK_ALIGN) / 1000))] [])
  ∧
  -- rejoinIsolated
  (∀ (s : State), s.straps.manager = false → ecnJoin s = 2 → s.get fCLK_STATUS_ALIGN = 2 →
    s.clk.tick ≤ s.clk.edgeAt + 1 → s.ecn.diff ≠ 0 → Room s 1 →
    ∃ t, exec (.rejoin) s = .next t ∧ Does s t [(fECN_EVT_MEMBER, 1), (fECN_STATUS_JOIN, 4)]
      [s.evOf 0x9105 s.straps.pos 0 f16NaN (f16OfInt s.ecn.diff)] [.ecn])
  ∧
  -- rejoinNot
  (∀ (s : State), (s.straps.manager = true ∨ ecnJoin s ≠ 2 ∨ s.get fCLK_STATUS_ALIGN ≠ 2 ∨
    s.clk.edgeAt + 1 < s.clk.tick) →
    ∃ t, exec (.rejoin) s = .next t ∧ t = s)
  ∧
  -- late2
  (∀ (s : State) (z : Nat), s.straps.manager = false → s.ecn.firstHdr = some z → ecnJoin s ≠ 2 →
    s.ecn.late = false → z + 20000 ≤ s.clk.tick → Room s 1 →
    ∃ t, exec (.joinLate) s = .next t ∧ Does s t [] [s.evOf 0x9107 s.straps.pos] [.ecn] ∧
      t.ecn = { s.ecn with late := true })
  ∧
  -- lateNot
  (∀ (s : State), (s.straps.manager = true ∨ ecnJoin s = 2 ∨ s.ecn.late = true ∨ ∀ z, s.ecn.firstHdr = some z →
    s.clk.tick < z + 20000) →
    ∃ t, exec (.joinLate) s = .next t ∧ t = s)
  ∧
  -- setHeld
  (∀ (s : State) (g a : Nat) (l : List (Option SwgItem)), s.straps.manager = false → s.clk.tick < a →
    ∃ t, exec (.ecnSet g a l) s = .next t ∧ t.swg = { s.swg with set := some ⟨a, l, true⟩ } ∧
      t.ecn.waits = s.ecn.waits ++ [⟨5, g, a, [], [], false⟩] ∧ Does s t [] [] [.swg, .ecn]
    ∧ t.ecn.sent = (if ecnJoin s = 2 ∧ ownAligned s = true then (⟨7, [(s.straps.pos : Int),
      (g : Int)]⟩ :: s.ecn.sent).take 64 else s.ecn.sent))
  ∧
  -- modeHeld
  (∀ (s : State) (g a : Nat), s.straps.manager = false → s.clk.tick < a →
    ∃ t, exec (.ecnMode g a) s = .next t ∧ t.ecn.waits = s.ecn.waits ++ [⟨0x0C, g, a, [], [], false⟩] ∧
      Does s t [] [] [.ecn]
    ∧ t.ecn.sent = (if ecnJoin s = 2 ∧ ownAligned s = true then (⟨7, [(s.straps.pos : Int),
      (g : Int)]⟩ :: s.ecn.sent).take 64 else s.ecn.sent))
  ∧
  -- managerIgnores
  (∀ (s : State) (g a : Nat) (l : List (Option SwgItem)) (d : Int) (tb : LeapTable) (p : Fin 8) (m : CommitPart),

    (s.straps.manager = true → exec (.ecnSet g a l) s = .next s ∧ exec (.ecnMode g a) s = .next s ∧
      exec (.ecnStep d a) s = .next s
        ∧ exec (.ecnLeap tb) s = .next s ∧ exec (.ecnReset p) s = .next s ∧ exec (.commitMessage m) s = .next s)
    ∧ (a ≤ s.clk.tick → exec (.ecnSet g a l) s = .next s ∧ exec (.ecnMode g a) s = .next s)
    ∧ (ecnJoin s = 4 ∨ (a : Int) ≤ sysTick s → exec (.ecnStep d a) s = .next s) ∧ (p.val ≠ s.straps.pos →
      exec (.ecnReset p) s = .next s)
    ∧ (m.pos ≠ s.straps.pos ∨ m.crcOk = false ∨ m.apply ≤ s.clk.tick → exec (.commitMessage m) s = .next s))
  ∧
  -- stepHeld
  (∀ (s : State) (d : Int) (bnd : Nat), s.straps.manager = false → ecnJoin s ≠ 4 → sysTick s < (bnd : Int) →
    ∃ t, exec (.ecnStep d bnd) s = .next t ∧ Does s t [(fCLK_STATUS_STEP_PEND, 1)] [] [.clk] ∧
      t.clk = { s.clk with steps := s.clk.steps ++ [(d, bnd)] })
  ∧
  -- leapSet
  (∀ (s : State) (g : Nat), s.straps.manager = false →
    ∃ t, exec (.ecnLeap ⟨g, none⟩) s = .next t ∧ Does s t [(fCLK_LEAP_VALID, 1), (fCLK_LEAP_GPS_UTC, g),
      (fCLK_LEAP_PEND, 0), (fCLK_LEAP_NEG, 0)] [] [])
  ∧
  -- leapPend
  (∀ (s : State) (g at0 : Nat) (neg : Bool), s.straps.manager = false → s.now < (at0 : Int) →
    at0 < 18446744073709551616 →
    ∃ t, exec (.ecnLeap ⟨g, some (neg, at0)⟩) s = .next t ∧ Does s t [(fCLK_LEAP_VALID, 1), (fCLK_LEAP_GPS_UTC,
      g), (fCLK_LEAP_PEND, 1), (fCLK_LEAP_NEG, if neg then 1 else 0), (fCLK_LEAP_AT_LO, at0), (fCLK_LEAP_AT_HI,
      at0 / 4294967296)] [] [])
  ∧
  -- leapPast
  (∀ (s : State) (g at0 : Nat) (neg : Bool), s.straps.manager = false → (at0 : Int) ≤ s.now →
    ∃ t, exec (.ecnLeap ⟨g, some (neg, at0)⟩) s = .next t ∧
      Does s t (if s.bit fCLK_LEAP_VALID then [(fCLK_LEAP_VALID, 1)] else [(fCLK_LEAP_VALID, 1),
      (fCLK_LEAP_GPS_UTC, g)]) [] [])
  ∧
  -- resetDue
  (∀ (s : State) (p : Fin 8), s.straps.manager = false → p.val = s.straps.pos →
    ∃ t, exec (.ecnReset p) s = .next t ∧ t = { s with ecn := { s.ecn with resetAt := some (s.clk.tick + 1) } })
  ∧
  -- commitPart
  (∀ (s : State) (m : CommitPart) (ps : List CommitPart), s.straps.manager = false → m.pos = s.straps.pos →
    m.crcOk = true → s.clk.tick < m.apply →
    (s.cfg.parts.filter (fun p => p.gen == m.gen && p.index != m.index)) ++ [m] = ps → (∃ i < m.count, ∀ p ∈ ps,
    p.index ≠ i) →
    ∃ t, exec (.commitMessage m) s = .next t ∧ t = { s with cfg := { s.cfg with parts := ps } })
  ∧
  -- commitWhole
  (∀ (s : State) (m : CommitPart) (ps : List CommitPart) (its : List CfgItem), s.straps.manager = false →
    m.pos = s.straps.pos → m.crcOk = true → s.clk.tick < m.apply →
    (s.cfg.parts.filter (fun p => p.gen == m.gen && p.index != m.index)) ++ [m] = ps → (∀ i < m.count, ∃ p ∈ ps,
    p.index = i) → (List.range m.count).flatMap (fun i => (ps.find? fun p => p.index == i).elim []
    fun p => p.items) = its → (its = [] ∨ firstBad its { s with cfg := { s.cfg with parts := [] } } = none) →
    ∃ t, exec (.commitMessage m) s = .next t ∧ t.cfg.parts = [] ∧
      (t.cfg.applying.getLast?).map (fun x => (x.mask, x.items, x.apply, x.gen,
      x.persist)) = some (itemMask its, its, m.apply, m.gen, m.persist)
    ∧ t.cfg.applying.length = s.cfg.applying.length + 1 ∧
      t.get64 fCFG_APPLY_TICK_LO.addr = m.apply % 18446744073709551616
    ∧ t.ecn.waits = s.ecn.waits ++ [⟨6, m.gen, m.apply, [], [], false⟩]
    ∧ t.ecn.sent = (if ecnJoin s = 2 ∧ ownAligned s = true then (⟨7, [(s.straps.pos : Int),
      (m.gen : Int)]⟩ :: s.ecn.sent).take 64 else s.ecn.sent)
    ∧ (touchedChs its = [] → hasItem its 0x0202 0 = false → SameMem s t) ∧ Records s t [] ∧ PartsBut s t [.cfg,
      .ecn])
  ∧
  -- commitBad
  (∀ (s : State) (m : CommitPart) (ps : List CommitPart) (its : List CfgItem) (k : Nat),
    s.straps.manager = false → m.pos = s.straps.pos → m.crcOk = true → s.clk.tick < m.apply →
    (s.cfg.parts.filter (fun p => p.gen == m.gen && p.index != m.index)) ++ [m] = ps → (∀ i < m.count, ∃ p ∈ ps,
    p.index = i) → (List.range m.count).flatMap (fun i => (ps.find? fun p => p.index == i).elim []
    fun p => p.items) = its → its ≠ [] → firstBad its { s with cfg := { s.cfg with parts := [] } } = some k →
    ∃ t, exec (.commitMessage m) s = .next t ∧ t.cfg = { s.cfg with parts := [] } ∧ t.ecn = s.ecn ∧
      SameMem s t ∧ PartsBut s t [.cfg])

/-- BEGIN on the manager in OPEN opens a transaction with a new handle and its regions in STAGING, recorded as 0xA001;
it is BUSY while one of them is APPLYING, and REFUSED while another transaction is open or for a bad mask. STAGE
keeps an item, in place of an earlier one of the same bytes, or is REFUSED with the reason of R382; a request of
another owner or handle is answered OWNER. COMMIT starts the validation or is REFUSED with 0xA003. A validation that
passes sets the regions to APPLYING until the apply tick: for the manager alone the first frame boundary at least 4
ticks later, for workers the one after their parts, sent as a COMMIT message; its LOOPS items stand in the staged
areas of both lanes. One that fails names the first failing item, and 0x3006 when the schedule disagrees. ROLLBACK,
120 s without a request and the loss of the connection discard the items with 0xA002. A worker refuses every
request, and outside OPEN none is served. A PERSIST write that ends goes to the other slot with 0xA007, or fails
with 0xA008; a BASE image goes to the other slot, or is REFUSED during a PERSIST write. A fleet request whose
signature verifies acts like the same request of owner 3, whose answer is published; any other is answered REFUSED.
Where its condition does not hold, each command changes nothing. That a command whose conditions do not hold changes
nothing is the model's reading (log entry 15). Where the spec leaves the choice open or has to be read by inference,
the clauses state the model's, of log entries 28, 29, 73, 74, 75, 125, 126, 127, 143, 149. (R365, R379, R381, R382,
R383, R385, R389, R390, R392, R393) -/
def Obligations.ConfigTransactions : Prop :=
  -- begun
  (∀ (s : State) (o : Fin 3) (m : Nat), s.straps.manager = true → cfgServed s = true → s.cfg.tx = none → 0 < m →
    m < 512 → (∀ r : Fin 9, m.testBit r = true → s.get (fRegion r) ≠ 2) → (o.val < 2 ∨ s.wide = false ∨
    fleetState s ≠ 1) → Room s 1 → s.cfg.nextHandle < 65536 →
    ∃ t, exec (.cfgBegin o m) s = .next t ∧
      t.cfg = { s.cfg with tx := some ⟨s.cfg.nextHandle, o.val + 1, m, [], s.clk.tick, none⟩, nextHandle := if s.cfg.nextHandle = 65535 then 1 else s.cfg.nextHandle + 1 }
    ∧ t.get fCFG_TX_HANDLE = s.cfg.nextHandle ∧ t.get fCFG_TX_OWNER = o.val + 1 ∧ t.get fCFG_TX_MASK = m ∧
      (∀ r : Fin 9, t.get (fRegion r) = if m.testBit r then 1 else s.get (fRegion r))
    ∧ t.get fCFG_RESULT_OUTCOME = 0 ∧ t.get fCFG_RESULT_REASON = 0 ∧
      Records s t [s.evOf 0xA001 (o.val + 1) (m % 256)] ∧ SameMem s t
    ∧ Touches s t [fCFG_TX.addr, fCFG_REGION.addr, fCFG_RESULT_OUTCOME.addr] [.cfg, .eth]
    ∧ (o.val < 2 → t.eth = s.eth) ∧ (o.val = 2 → s.wide = true → fleetState s = 2 →
      (t.eth.sent.head?).map (fun x => (x.type, x.payload.drop 16)) = some (0xB, [0#8, 0#8])))
  ∧
  -- beginBusy
  (∀ (s : State) (o : Fin 3) (m : Nat) (r : Fin 9), s.straps.manager = true → cfgServed s = true →
    m.testBit r = true → s.get (fRegion r) = 2 → (o.val < 2 ∨ s.wide = false ∨ fleetState s ≠ 1) →
    ∃ t, exec (.cfgBegin o m) s = .next t ∧ Does s t [(fCFG_RESULT_OUTCOME, 1), (fCFG_RESULT_REASON, 0),
      (fCFG_RESULT_ITEM, 0), (fCFG_EVT_REFUSED, 1)] [] [.eth]
    ∧ (o.val < 2 → t.eth = s.eth) ∧ (o.val = 2 → s.wide = true → fleetState s = 2 →
      (t.eth.sent.head?).map (fun x => (x.type, x.payload.drop 16)) = some (0xB, [1#8, 0#8])))
  ∧
  -- beginOpen
  (∀ (s : State) (o : Fin 3) (m : Nat), s.straps.manager = true → cfgServed s = true → (s.cfg.tx ≠ none ∨
    m = 0 ∨ 512 ≤ m) → (∀ r : Fin 9, m.testBit r = true → s.get (fRegion r) ≠ 2) → (o.val < 2 ∨ s.wide = false ∨
    fleetState s ≠ 1) →
    ∃ t, exec (.cfgBegin o m) s = .next t ∧ Does s t [(fCFG_RESULT_OUTCOME, 2), (fCFG_RESULT_REASON,
      if s.cfg.tx ≠ none then 1 else 2), (fCFG_RESULT_ITEM, 0), (fCFG_EVT_REFUSED, 1), (fCFG_CNT_REFUSED,
      s.up fCFG_CNT_REFUSED)] [] [.eth]
    ∧ (o.val < 2 → t.eth = s.eth) ∧ (o.val = 2 → s.wide = true → fleetState s = 2 →
      (t.eth.sent.head?).map (fun x => (x.type, x.payload.drop 16)) = some (0xB, [2#8,
      if s.cfg.tx ≠ none then 1#8 else 2#8])))
  ∧
  -- fleetQueued
  (∀ (s : State) (m : Nat), s.straps.manager = true → cfgServed s = true → s.cfg.tx ≠ none → (∀ r : Fin 9,
    m.testBit r = true → s.get (fRegion r) ≠ 2) → s.wide = true → fleetState s = 1 →
    (s.eth.queue.filter fun x => isUrgent x.type).length < 16 →
    ∃ t, exec (.cfgBegin 2 m) s = .next t ∧ t.get fCFG_RESULT_OUTCOME = 2 ∧ t.get fCFG_RESULT_REASON = 1 ∧
      (t.eth.queue.getLast?).map (fun x => (x.type, x.payload.drop 16)) = some (0xB, [2#8, 1#8]) ∧
      t.eth.queue.length = s.eth.queue.length + 1 ∧ t.cfg = s.cfg)
  ∧
  -- workerRefuses
  (∀ (s : State) (o : Fin 3) (m hd : Nat) (it : CfgItem) (pb : Bool),
    s.straps.manager = false →
    (∃ t, exec (.cfgBegin o m) s = .next t ∧ Does s t [(fCFG_RESULT_OUTCOME, 2), (fCFG_RESULT_REASON, 10),
      (fCFG_RESULT_ITEM, 0), (fCFG_EVT_REFUSED, 1), (fCFG_CNT_REFUSED, s.up fCFG_CNT_REFUSED)] [] []
      ∧ exec (.stage o hd it) s = .next t ∧ exec (.commit o hd pb) s = .next t ∧
        exec (.rollback o hd) s = .next t))
  ∧
  -- notServed
  (∀ (s : State) (o : Fin 3) (m hd : Nat) (it : CfgItem) (pb : Bool),
    s.straps.manager = true → cfgServed s = false →
    exec (.cfgBegin o m) s = .next s ∧ exec (.stage o hd it) s = .next s ∧ exec (.commit o hd pb) s = .next s ∧
      exec (.rollback o hd) s = .next s)
  ∧
  -- staged
  (∀ (s : State) (o : Fin 3) (hd : Nat) (it : CfgItem) (x : CfgTx), s.straps.manager = true →
    cfgServed s = true → s.cfg.tx = some x → x.owner = o.val + 1 → x.handle = hd →
    stageReason s { x with reqAt := s.clk.tick } it = 0 → (o.val < 2 ∨ s.wide = false ∨ fleetState s ≠ 1) →
    ∃ t, exec (.stage o hd it) s = .next t ∧
      t.cfg = { s.cfg with tx := some { x with reqAt := s.clk.tick, items := putItem it x.items } } ∧
      t.get fCFG_RESULT_OUTCOME = 0 ∧ t.get fCFG_RESULT_REASON = 0
    ∧ it ∈ putItem it x.items ∧ (∀ y ∈ x.items, y ∈ putItem it x.items ∨ (y.pos = it.pos ∧ y.code = it.code ∧
      y.index = it.index ∧ y.offset = it.offset ∧ y.length = it.length))
    ∧ SameMem s t ∧ Records s t [] ∧ Touches s t [fCFG_TX.addr, fCFG_RESULT_OUTCOME.addr] [.cfg, .eth]
    ∧ (o.val < 2 → t.eth = s.eth) ∧ (o.val = 2 → s.wide = true → fleetState s = 2 →
      (t.eth.sent.head?).map (fun x => (x.type, x.payload.drop 16)) = some (0xB, [0#8, 0#8])))
  ∧
  -- stageRefused
  (∀ (s : State) (o : Fin 3) (hd : Nat) (it : CfgItem) (x : CfgTx), s.straps.manager = true →
    cfgServed s = true → s.cfg.tx = some x → x.owner = o.val + 1 → x.handle = hd →
    stageReason s { x with reqAt := s.clk.tick } it ≠ 0 → (o.val < 2 ∨ s.wide = false ∨ fleetState s ≠ 1) →
    ∃ t, exec (.stage o hd it) s = .next t ∧ t.cfg = { s.cfg with tx := some { x with reqAt := s.clk.tick } } ∧
      t.get fCFG_RESULT_OUTCOME = 2
    ∧ t.get fCFG_RESULT_REASON = stageReason s { x with reqAt := s.clk.tick } it ∧
      t.get fCFG_CNT_REFUSED = s.up fCFG_CNT_REFUSED
    ∧ (9 ≤ it.region ∨ x.mask.testBit it.region = false → t.get fCFG_RESULT_REASON = 2)
    ∧ SameMem s t ∧ Records s t [] ∧ Touches s t [fCFG_TX.addr, fCFG_RESULT_OUTCOME.addr, fCFG_EVT_REFUSED.addr,
      fCFG_CNT_REFUSED.addr] [.cfg, .eth] ∧ (o.val < 2 → t.eth = s.eth))
  ∧
  -- notOwner
  (∀ (s : State) (o : Fin 3) (hd : Nat) (it : CfgItem), s.straps.manager = true → cfgServed s = true → (∀ x,
    s.cfg.tx = some x → x.owner ≠ o.val + 1 ∨ x.handle ≠ hd) → (o.val < 2 ∨ s.wide = false ∨ fleetState s ≠ 1) →

    ∃ t, exec (.stage o hd it) s = .next t ∧ exec (.rollback o hd) s = .next t
    ∧ Does s t [(fCFG_RESULT_OUTCOME, 2), (fCFG_RESULT_REASON, 9), (fCFG_RESULT_ITEM, 0), (fCFG_EVT_REFUSED, 1),
      (fCFG_CNT_REFUSED, s.up fCFG_CNT_REFUSED)] [] [.eth] ∧ (o.val < 2 → t.eth = s.eth))
  ∧
  -- commitNotOwner
  (∀ (s : State) (o : Fin 3) (hd : Nat) (pb : Bool), s.straps.manager = true → cfgServed s = true → (∀ x,
    s.cfg.tx = some x → x.owner ≠ o.val + 1 ∨ x.handle ≠ hd) → (o.val < 2 ∨ s.wide = false ∨ fleetState s ≠ 1) →
    Room s 1 →
    ∃ t, exec (.commit o hd pb) s = .next t ∧ Does s t [(fCFG_RESULT_OUTCOME, 2), (fCFG_RESULT_REASON, 9),
      (fCFG_RESULT_ITEM, 0), (fCFG_EVT_REFUSED, 1), (fCFG_CNT_REFUSED, s.up fCFG_CNT_REFUSED)]
      [s.evOf 0xA003 (o.val + 1) 9 f16NaN (f16OfNat 0)] [.eth] ∧ (o.val < 2 → t.eth = s.eth))
  ∧
  -- committed
  (∀ (s : State) (o : Fin 3) (hd : Nat) (pb : Bool) (x : CfgTx), s.straps.manager = true → cfgServed s = true →
    s.cfg.tx = some x → x.owner = o.val + 1 → x.handle = hd →
    commitReason s { x with reqAt := s.clk.tick } pb = 0 →
    ∃ t, exec (.commit o hd pb) s = .next t ∧
      t.cfg = { s.cfg with tx := some { x with reqAt := s.clk.tick, validating := some pb } } ∧ SameMem s t ∧
      Records s t [] ∧ Touches s t [fCFG_TX.addr] [.cfg])
  ∧
  -- commitRefused
  (∀ (s : State) (o : Fin 3) (hd : Nat) (pb : Bool) (x : CfgTx), s.straps.manager = true → cfgServed s = true →
    s.cfg.tx = some x → x.owner = o.val + 1 → x.handle = hd →
    commitReason s { x with reqAt := s.clk.tick } pb ≠ 0 → (o.val < 2 ∨ s.wide = false ∨ fleetState s ≠ 1) →
    Room s 1 →
    ∃ t, exec (.commit o hd pb) s = .next t ∧ t.cfg = { s.cfg with tx := some { x with reqAt := s.clk.tick } } ∧
      t.get fCFG_RESULT_OUTCOME = 2 ∧
      t.get fCFG_RESULT_REASON = commitReason s { x with reqAt := s.clk.tick } pb
    ∧
      Records s t [s.evOf 0xA003 (o.val + 1) (commitReason s { x with reqAt := s.clk.tick } pb) f16NaN (f16OfNat 0)]
      ∧ SameMem s t
    ∧ ((∃ it ∈ x.items, it.pos < 8 ∧ it.pos ≠ s.straps.pos ∧ isAligned s it.pos = false) →
      t.get fCFG_RESULT_REASON = 7)
    ∧ Touches s t [fCFG_TX.addr, fCFG_RESULT_OUTCOME.addr, fCFG_EVT_REFUSED.addr, fCFG_CNT_REFUSED.addr] [.cfg,
      .eth] ∧ (o.val < 2 → t.eth = s.eth))
  ∧
  -- validated
  (∀ (s : State) (x : CfgTx) (pb : Bool), s.cfg.tx = some x → x.validating = some pb → otherPos s x.items = [] →
    (∀ it ∈ x.items, it.pos = s.straps.pos) → (x.items = [] ∨ firstBad x.items s = none) → (pb = true →
    expected s = []) → x.owner ≠ 3 → x.mask < 512 →
    ∃ t, exec (.validationDone none) s = .next t ∧ t.cfg.tx = none ∧
      (t.cfg.applying.getLast?).map (fun c => (c.handle, c.owner, c.mask, c.items, c.apply, c.persist,
      c.ring)) = some (x.handle, x.owner, x.mask, x.items, boundaryFrom (s.clk.tick + 4), pb, false)
    ∧ t.cfg.applying.length = s.cfg.applying.length + 1
    ∧ (∀ r : Fin 9, x.mask.testBit r = true → t.get (fRegion r) = 2) ∧
      t.get64 fCFG_APPLY_TICK_LO.addr = boundaryFrom (s.clk.tick + 4) % 18446744073709551616
    ∧ s.clk.tick + 4 ≤ boundaryFrom (s.clk.tick + 4) ∧ boundaryFrom (s.clk.tick + 4) < s.clk.tick + 404 ∧
      boundaryFrom (s.clk.tick + 4) % 400 = 0
    ∧ t.get fCFG_RESULT_OUTCOME = 0 ∧ t.rd fCFG_TX.addr = 0#32 ∧ Records s t [] ∧ PartsBut s t [.cfg]
    ∧ Touches s t [fCFG_TX.addr, fCFG_REGION.addr, fCFG_RESULT_OUTCOME.addr, fCFG_APPLY_TICK_LO.addr,
      fCFG_APPLY_TICK_LO.addr + 4] [.cfg]
    ∧ SameMem (stageLoops x.items s) t)
  ∧
  -- stagedAreas
  (∀ (s : State) (items : List CfgItem) (l : Fin 2) (n : Fin 96),
    (n.val ∈ touchedChs items →
      (stageLoops items s).rdBytes (laneBase l + 0x8000 + 0x80 * n) 0x80 = (applyItems items s).rdBytes (chAddr l n) 0x80)
    ∧ (hasItem items 0x0202 0 = true →
      (stageLoops items s).rdBytes (laneBase l + 0x7000) 0x1000 = (applyItems items s).rdBytes (paneAddr l 0) 0x1000)
    ∧ ((∀ it ∈ items, it.code ≠ 0x0200 ∧ it.code ≠ 0x0201 ∧ it.code ≠ 0x0202) → stageLoops items s = s))
  ∧
  -- validatedRing
  (∀ (s : State) (x : CfgTx) (pb : Bool) (ws : List Nat), s.cfg.tx = some x → x.validating = some pb →
    (∀ it ∈ x.items, it.pos ≠ s.straps.pos) → ws = (if pb then expected s else otherPos s x.items) → ws ≠ [] →
    x.owner ≠ 3 → x.mask < 512 →
    ∃ t, exec (.validationDone none) s = .next t ∧ ∃ a, (t.cfg.applying.getLast?).map (fun c => (c.handle,
      c.items, c.apply, c.gen, c.persist, c.ring)) = some (x.handle, x.items, a, s.ecn.nextGen, pb, true)
    ∧
      a = boundaryFrom (placeRuns s (ws.flatMap fun p => partSegs (itemSize (x.items.filter fun it => it.pos == p))) (s.clk.tick + 1) + 3)
    ∧ (t.ecn.waits.getLast?).map (fun w => (w.type, w.gen, w.apply, w.need)) = some (6, s.ecn.nextGen, a, ws) ∧
      t.ecn.nextGen = s.ecn.nextGen + 1
    ∧ (∀ p ∈ commitParts s.ecn.nextGen a x.items pb false ws.head!, p ∈ t.cfg.out) ∧ t.cfg.tx = none
    ∧ (∀ r : Fin 9, x.mask.testBit r = true → t.get (fRegion r) = 2) ∧
      t.get64 fCFG_APPLY_TICK_LO.addr = a % 18446744073709551616
    ∧ t.get fCFG_RESULT_OUTCOME = 0 ∧ SameMem s t ∧ Records s t [] ∧ PartsBut s t [.cfg, .ecn])
  ∧
  -- validatedBad
  (∀ (s : State) (x : CfgTx) (pb : Bool) (rem : Option (Fin 1024)) (its : List CfgItem) (idx : List Nat) (own : Option Nat) (k : Nat),
    s.cfg.tx = some x → x.validating = some pb → its = x.items.filter (fun it => it.pos == s.straps.pos) →
    idx = (x.items.zipIdx.filter fun q => q.1.pos == s.straps.pos).map Prod.snd → own = (if its = []
    then none else (firstBad its s).map fun j => idx.getD j 0) → (own = some k ∨ rem.map Fin.val = some k) →
    (∀ j, own = some j ∨ rem.map Fin.val = some j → k ≤ j) → ((∀ it ∈ its, it.region ≠ 1) ∨
    proofOk (applyItems its s) = true) → x.owner ≠ 3 → Room s 1 →
    ∃ t, exec (.validationDone rem) s = .next t ∧
      t.cfg = { s.cfg with tx := some { x with validating := none } } ∧ t.get fCFG_RESULT_OUTCOME = 2 ∧
      t.get fCFG_RESULT_REASON = 6 ∧ t.get fCFG_RESULT_ITEM = k % 2 ^ fldWidth fCFG_RESULT_ITEM
    ∧ Records s t [s.evOf 0xA003 x.owner 6 f16NaN (f16OfNat k)] ∧ SameMem s t ∧ PartsBut s t [.cfg]
    ∧ Touches s t [fCFG_TX.addr, fCFG_RESULT_OUTCOME.addr, fCFG_EVT_REFUSED.addr, fCFG_CNT_REFUSED.addr] [.cfg])
  ∧
  -- scheduleBad
  (∀ (s : State) (x : CfgTx) (pb : Bool) (k : Nat), s.cfg.tx = some x → x.validating = some pb →
    (∀ it ∈ x.items, it.pos = s.straps.pos) → firstBad x.items s = some k → (∃ it ∈ x.items, it.region = 1) →
    proofOk (applyItems x.items s) = false → x.owner ≠ 3 → Room s 2 →
    ∃ t, exec (.validationDone none) s = .next t ∧
      (t.evr.intake.drop s.evr.intake.length).map (fun e => (e.code, e.src)) = [(0x3006,
      (provedLoad (applyItems x.items s) 0x6000).2), (0xA003, x.owner)]
    ∧ t.cfg = { s.cfg with tx := some { x with validating := none } } ∧ t.get fCFG_RESULT_REASON = 6)
  ∧
  -- notValidating
  (∀ (s : State) (r : Option (Fin 1024)), (∀ x, s.cfg.tx = some x → x.validating = none) →
    ∃ t, exec (.validationDone r) s = .next t ∧ t = s)
  ∧
  -- rolledBack
  (∀ (s : State) (o : Fin 3) (hd : Nat) (x : CfgTx), s.straps.manager = true → cfgServed s = true →
    s.cfg.tx = some x → x.owner = o.val + 1 → x.handle = hd → (o.val < 2 ∨ s.wide = false ∨ fleetState s ≠ 1) →
    Room s 1 →
    ∃ t, exec (.rollback o hd) s = .next t ∧ t.cfg = { s.cfg with tx := none } ∧ t.rd fCFG_TX.addr = 0#32 ∧
      (∀ r : Fin 9, t.get (fRegion r) = if x.mask.testBit r then 0 else s.get (fRegion r)) ∧
      t.get fCFG_RESULT_OUTCOME = 0
    ∧ Records s t [s.evOf 0xA002 (o.val + 1) 0] ∧ SameMem s t ∧ Touches s t [fCFG_TX.addr, fCFG_REGION.addr,
      fCFG_RESULT_OUTCOME.addr] [.cfg, .eth] ∧ (o.val < 2 → t.eth = s.eth))
  ∧
  -- timedOutTx
  (∀ (s : State) (x : CfgTx), s.cfg.tx = some x → x.reqAt + 2400000 ≤ s.clk.tick → Room s 1 →
    ∃ t, exec (.stagingTimeout) s = .next t ∧ t.cfg = { s.cfg with tx := none } ∧ (∀ r : Fin 9,
      t.get (fRegion r) = if x.mask.testBit r then 0 else s.get (fRegion r)) ∧
      Records s t [s.evOf 0xA002 x.owner 1]
    ∧ SameMem s t ∧ Touches s t [fCFG_TX.addr, fCFG_REGION.addr] [.cfg])
  ∧
  -- disconnectedTx
  (∀ (s : State) (o : Fin 3) (x : CfgTx), s.cfg.tx = some x → x.owner = o.val + 1 → Room s 1 →
    ∃ t, exec (.requesterDisconnect o) s = .next t ∧ t.cfg = { s.cfg with tx := none } ∧ (∀ r : Fin 9,
      t.get (fRegion r) = if x.mask.testBit r then 0 else s.get (fRegion r)) ∧
      Records s t [s.evOf 0xA002 (o.val + 1) 2]
    ∧ SameMem s t ∧ Touches s t [fCFG_TX.addr, fCFG_REGION.addr] [.cfg])
  ∧
  -- noTx
  (∀ (s : State) (o : Fin 3),
    ((∀ x, s.cfg.tx = some x → s.clk.tick < x.reqAt + 2400000) → exec .stagingTimeout s = .next s)
    ∧ ((∀ x, s.cfg.tx = some x → x.owner ≠ o.val + 1) → exec (.requesterDisconnect o) s = .next s))
  ∧
  -- persisted
  (∀ (s : State) (g : Nat) (i : ImageIn), s.cfg.writing = some g → s.cfg.image = some i → Room s 1 →
    ∃ t, exec (.persistDone false) s = .next t ∧ Does s t [(fCFG_STATUS_PERSIST_BUSY, 0), (fCFG_EVT_PERSIST, 1)]
      [s.evOf 0xA007 (1 - s.get fCFG_STATUS_SLOT) 0 f16NaN (f16OfNat g)] [.cfg]
    ∧ t.cfg.writing = none ∧ t.cfg.others = [] ∧ (t.cfg.nor.head?).map (fun x => (x.1, x.2.kind, x.2.persistGen,
      x.2.seq)) = some (1 - s.get fCFG_STATUS_SLOT, 1, g, s.get fCFG_IMG_SEQ + 1)
    ∧ (t.cfg.nor.head?).map (fun x => x.2.overlay) = some (i.overlay ++ s.cfg.own))
  ∧
  -- persistFails
  (∀ (s : State) (g : Nat) (i : ImageIn), s.cfg.writing = some g → s.cfg.image = some i → Room s 1 →
    ∃ t, exec (.persistDone true) s = .next t ∧ Does s t [(fCFG_STATUS_PERSIST_BUSY, 0), (fCFG_EVT_PERSIST, 1),
      (fCFG_STATUS_PERSIST_FAIL, 1)] [s.evOf 0xA008 (1 - s.get fCFG_STATUS_SLOT)] [.cfg]
    ∧ t.cfg.writing = none ∧ t.cfg.others = s.cfg.others ∧ (t.cfg.nor.head?).map (fun x => (x.1,
      x.2.magicOk)) = some (1 - s.get fCFG_STATUS_SLOT, false))
  ∧
  -- persistNone
  (∀ (s : State) (f : Bool), (s.cfg.writing = none ∨ s.cfg.image = none) →
    ∃ t, exec (.persistDone f) s = .next t ∧ t = s)
  ∧
  -- imageWritten
  (∀ (s : State) (i : ImageIn), s.bit fCFG_STATUS_PERSIST_BUSY = false →
    ∃ t, exec (.baseImageWrite i) s = .next t ∧ Does s t [(fCFG_RESULT_OUTCOME, 0), (fCFG_RESULT_REASON, 0),
      (fCFG_RESULT_ITEM, 0)] [] [.cfg]
    ∧ t.cfg.nor.head? = some (1 - s.get fCFG_STATUS_SLOT,
      { i with kind := 0, seq := s.get fCFG_IMG_SEQ + 1, persistGen := 0, overlay := [] }))
  ∧
  -- imageRefused
  (∀ (s : State) (i : ImageIn), s.bit fCFG_STATUS_PERSIST_BUSY = true →
    ∃ t, exec (.baseImageWrite i) s = .next t ∧ Does s t [(fCFG_RESULT_OUTCOME, 2), (fCFG_RESULT_REASON, 8),
      (fCFG_RESULT_ITEM, 0), (fCFG_EVT_REFUSED, 1), (fCFG_CNT_REFUSED, s.up fCFG_CNT_REFUSED)] [] [])
  ∧
  -- fleetBegin
  (∀ (s : State) (l : List Byte) (m : Nat), s.eth.cfgIn = some l → s.straps.manager = true →
    cfgServed s = true → s.cfg.tx = none → 0 < m → m < 512 → (∀ r : Fin 9, m.testBit r = true →
    s.get (fRegion r) ≠ 2) →
    ∃ t, exec (.cfgRequest true (.cfgBegin m)) s = .next t ∧ t.eth.cfgIn = none ∧
      t.cfg.tx = some ⟨s.cfg.nextHandle, 3, m, [], s.clk.tick, none⟩ ∧ (∀ r : Fin 9, m.testBit r = true →
      t.get (fRegion r) = 1)
    ∧ (s.wide = true → fleetState s = 2 → (t.eth.sent.head?).map (fun x => x.type) = some 0xB) ∧ SameMem s t ∧
      PartsBut s t [.cfg, .eth])
  ∧
  -- fleetUnsigned
  (∀ (s : State) (l : List Byte) (op : CfgOp), s.eth.cfgIn = some l → s.wide = true → fleetState s = 2 →
    ∃ t, exec (.cfgRequest false op) s = .next t ∧ Does s t [] [] [.eth] ∧ t.eth.cfgIn = none ∧
      (t.eth.sent.head?).map (fun x => (x.type, x.payload.drop 16)) = some (0xB, [2#8, 0#8]))
  ∧
  -- fleetAway
  (∀ (s : State) (l : List Byte) (op : CfgOp), s.eth.cfgIn = some l → (s.wide = false ∨ fleetState s = 0) →
    ∃ t, exec (.cfgRequest false op) s = .next t ∧ t = { s with eth := { s.eth with cfgIn := none } })
  ∧
  -- fleetSame
  (∀ (s : State) (l : List Byte) (m hd : Nat) (it : CfgItem) (pb : Bool) (u : State), s.eth.cfgIn = some l →
    u = { s with eth := { s.eth with cfgIn := none } } →
    exec (.cfgRequest true (.cfgBegin m)) s = exec (.cfgBegin 2 m) u ∧
      exec (.cfgRequest true (.stage hd it)) s = exec (.stage 2 hd it) u
    ∧ exec (.cfgRequest true (.commit hd pb)) s = exec (.commit 2 hd pb) u ∧
      exec (.cfgRequest true (.rollback hd)) s = exec (.rollback 2 hd) u)
  ∧
  -- fleetNone
  (∀ (s : State) (k : Bool) (op : CfgOp), s.eth.cfgIn = none →
    ∃ t, exec (.cfgRequest k op) s = .next t ∧ t = s)

/-- In OPEN the manager takes a valid manifest in IDLE and is RECEIVING with 0xA101; a bad one, or one in another state,
is REFUSED with its reason. A part header that passes the checks of R397 is accepted, any other is REFUSED with
0xA102 and the first check that fails, in the order of R397; outside RECEIVING it is REFUSED with STATE. A payload
that hashes right is held for its worker, or verified when it is the manager's own, and the last part verified
everywhere makes STAGED with 0xA104; one that does not is REFUSED with 0xA103, and one without an accepted header
with STATE. DATA goes out in a free slot from where the part stands; a worker that is JOINED writes it and answers
at its end, verified or with a failed hash, and asks again after a gap. STAGED takes the result, and the third
failed transfer is REFUSED. ABANDON, and 600 s without a request, clear the staging with 0xA10E. Where its condition
does not hold, each command changes nothing. That a command whose conditions do not hold changes nothing is the
model's reading (log entry 15). Where the spec leaves the choice open or has to be read by inference, the clauses
state the model's, of log entries 5, 102, 103. (R394, R395, R396, R397, R398, R399, R400, R401, R411, R412) -/
def Obligations.UpdateReception : Prop :=
  -- manifestIn
  (∀ (s : State) (m : ManifestIn), updHears s = true → s.straps.manager = true → updState s = 0 →
    manifestOk m s = true → Room s 1 →
    ∃ t, exec (.manifest m) s = .next t ∧ Does s t [(fUPD_STATUS_STATE, 1), (fUPD_EVT_STATE_CHG, 1),
      (fUPD_RESULT_OUTCOME, 0), (fUPD_RESULT_REASON, 0), (fUPD_RESULT_ENTRY, 0), (fUPD_POS, 0), (fUPD_PROGRESS,
      0)]
      [s.evOf 0xA101 0 0 f16NaN (f16OfNat m.release)] [.upd]
    ∧
      t.upd = { s.upd with man := some m, part := none, good := [], held := [], sent := [], fails := [], reqAt := s.clk.tick })
  ∧
  -- manifestBad
  (∀ (s : State) (m : ManifestIn), updHears s = true → (s.straps.manager = false ∨ updState s ≠ 0 ∨
    manifestOk m s = false) →
    ∃ t, exec (.manifest m) s = .next t ∧ Does s t [(fUPD_RESULT_OUTCOME, 2), (fUPD_RESULT_REASON,
      if s.straps.manager = false ∨ updState s ≠ 0 then 12 else 14), (fUPD_RESULT_ENTRY, 0), (fUPD_EVT_REFUSED,
      1)] [] [])
  ∧
  -- unheard
  (∀ (s : State) (m : ManifestIn) (p : PartIn) (n : Nat) (r : Fin 256),
    updHears s = false → exec (.manifest m) s = .next s ∧ exec (.partHeader p) s = .next s ∧
      exec (.partPayload n) s = .next s ∧ exec .updAbandon s = .next s
    ∧ exec (.updateActivate r) s = .next s ∧ exec .updateConfirm s = .next s ∧
      exec (.updateFallback r) s = .next s)
  ∧
  -- partAccepted
  (∀ (s : State) (p : PartIn) (e : Nat), updHears s = true → s.straps.manager = true → updState s = 1 →
    partFault p s = (0, e) →
    ∃ t, exec (.partHeader p) s = .next t ∧ Does s t [(fUPD_PROGRESS_ENTRY, e), (fUPD_PROGRESS_KIB, 0),
      (fUPD_RESULT_OUTCOME, 0), (fUPD_RESULT_REASON, 0), (fUPD_RESULT_ENTRY, e)] [] [.upd]
    ∧ t.upd = { s.upd with part := some (e, p.payHash), reqAt := s.clk.tick })
  ∧
  -- partRefused
  (∀ (s : State) (p : PartIn) (r e : Nat), updHears s = true → s.straps.manager = true → updState s = 1 →
    partFault p s = (r, e) → r ≠ 0 → Room s 1 →
    ∃ t, exec (.partHeader p) s = .next t ∧ Does s t [(fUPD_RESULT_OUTCOME, 2), (fUPD_RESULT_REASON, r),
      (fUPD_RESULT_ENTRY, e), (fUPD_EVT_REFUSED, 1)] [s.evOf 0xA102 p.pos r] [.upd] ∧
      t.upd = { s.upd with reqAt := s.clk.tick })
  ∧
  -- partNotNow
  (∀ (s : State) (p : PartIn), updHears s = true → (s.straps.manager = false ∨ updState s ≠ 1) →
    ∃ t, exec (.partHeader p) s = .next t ∧ Does s t [(fUPD_RESULT_OUTCOME, 2), (fUPD_RESULT_REASON, 12),
      (fUPD_RESULT_ENTRY, 0), (fUPD_EVT_REFUSED, 1)] [] [])
  ∧
  -- partChecks
  (∀ (s : State) (p : PartIn) (m : ManifestIn) (i : Nat) (e : ManEntry) (lc : Nat) (b : Bool),
    s.upd.man = some m → m.entries.findIdx? (fun e => e.hash == p.hash) = some i → m.entries[i]? = some e →
    lc = (if p.pos = 0 then s.get fSEC_STATUS_LC else p.targetLc) →
    b = (if p.pos = 0 then s.straps.orderB else (s.ecn.orders.find? fun o => o.1 == p.pos).elim false Prod.snd) →

    (partFault p s).2 = i
    ∧ (p.magicOk = false → (partFault p s).1 = 1)
    ∧ (p.magicOk = true → p.pos ∉ updPositions s → (partFault p s).1 = 3)
    ∧ (p.magicOk = true → p.pos ∈ updPositions s → p.orders.testBit (if b then 1 else 0) = false →
      (partFault p s).1 = 4)
    ∧ ((partFault p s).1 = 0 ↔ p.magicOk = true ∧ p.pos ∈ updPositions s ∧
      p.orders.testBit (if b then 1 else 0) = true ∧ p.states.testBit lc = true
        ∧ (∃ k < 2, (keysOf lc).testBit k = true ∧ (k, p.keyId) ∈ s.sec.ids) ∧ p.version = e.version ∧
          s.get fUPD_FLOOR ≤ p.version ∧ p.length = e.length ∧ p.length ≤ partMax p.kind ∧ p.sigOk = true))
  ∧
  -- partUnknown
  (∀ (s : State) (p : PartIn) (m : ManifestIn), s.upd.man = some m → (∀ e ∈ m.entries, e.hash ≠ p.hash) →
    partFault p s = (if p.magicOk then 2 else 1, 0))
  ∧
  -- payloadHeld
  (∀ (s : State) (hs e : Nat) (x : ManEntry), updHears s = true → s.upd.part = some (e, hs) →
    manEntry s e = some x → x.pos ≠ 0 →
    ∃ t, exec (.partPayload hs) s = .next t ∧ Does s t [(fUPD_PROGRESS_KIB, x.length / 1024),
      (fUPD_RESULT_OUTCOME, 0), (fUPD_RESULT_REASON, 0), (fUPD_RESULT_ENTRY, e)] [] [.upd]
    ∧
      t.upd = { s.upd with part := none, reqAt := s.clk.tick, held := s.upd.held.filter (fun y => y != e) ++ [e], sent := (e, 0) :: s.upd.sent.filter (fun y => y.1 != e) })
  ∧
  -- payloadOwn
  (∀ (s : State) (hs e : Nat) (x : ManEntry), updHears s = true → s.upd.part = some (e, hs) →
    manEntry s e = some x → x.pos = 0 → (updState s ≠ 1 ∨ ∃ q ∈ updPositions s, ∃ i < 64, i ≠ e ∧
    i ∉ s.upd.good ∧ (manEntry s i).any (fun y => y.pos == q) = true) →
    ∃ t, exec (.partPayload hs) s = .next t ∧
      t.upd = { s.upd with part := none, reqAt := s.clk.tick, good := e :: s.upd.good.filter (fun y => y != e) } ∧
      t.get fUPD_RESULT_OUTCOME = 0 ∧ t.get fUPD_RESULT_ENTRY = e % 64 ∧
      t.get fUPD_PROGRESS_KIB = x.length / 1024 % 2 ^ 26
    ∧ (positionStaged t 0 = true → t.get fUPD_POS_STAGED % 2 = 1) ∧ SameMem s t ∧ Records s t [] ∧
      Touches s t [fUPD_PROGRESS.addr, fUPD_RESULT.addr, fUPD_POS.addr] [.upd])
  ∧
  -- payloadWrong
  (∀ (s : State) (hs e g : Nat) (x : ManEntry), updHears s = true → s.upd.part = some (e, g) →
    manEntry s e = some x → hs ≠ g → Room s 1 →
    ∃ t, exec (.partPayload hs) s = .next t ∧ Does s t [(fUPD_PROGRESS_KIB, x.length / 1024),
      (fUPD_RESULT_OUTCOME, 2), (fUPD_RESULT_REASON, 10), (fUPD_RESULT_ENTRY, e), (fUPD_EVT_REFUSED, 1)]
      [s.evOf 0xA103 x.pos] [.upd]
    ∧ t.upd = { s.upd with part := none, reqAt := s.clk.tick })
  ∧
  -- payloadLast
  (∀ (s : State) (hs e : Nat) (x : ManEntry) (m : ManifestIn), updHears s = true → s.upd.part = some (e, hs) →
    s.upd.man = some m → m.entries[e]? = some x → x.pos = 0 → updState s = 1 → (∀ i < m.entries.length, i = e ∨
    i ∈ s.upd.good) → m.entries.length ≤ 64 → Room s 1 →
    ∃ t, exec (.partPayload hs) s = .next t ∧ updState t = 2 ∧ t.bit fUPD_EVT_STAGED = true ∧
      t.bit fUPD_EVT_STATE_CHG = true ∧ t.get fUPD_STAGED_VER = m.release % 4294967296 ∧
      Records s t [s.evOf 0xA104]
    ∧ (∀ q ∈ updPositions s, t.bit (bitFld fUPD_POS_STAGED q) = true) ∧ t.get fUPD_RESULT_OUTCOME = 0 ∧
      e ∈ t.upd.good ∧ SameMem s t ∧ PartsBut s t [.upd])
  ∧
  -- payloadUnasked
  (∀ (s : State) (hs : Nat), updHears s = true → s.upd.part = none →
    ∃ t, exec (.partPayload hs) s = .next t ∧ Does s t [(fUPD_RESULT_OUTCOME, 2), (fUPD_RESULT_REASON, 12),
      (fUPD_RESULT_ENTRY, 0), (fUPD_EVT_REFUSED, 1)] [] [])
  ∧
  -- receptionOver
  (∀ (s : State), (updState s = 1 ∨ updState s = 2) → s.upd.reqAt + 12000000 ≤ s.clk.tick → Room s 1 →
    ∃ t, exec (.receptionTimeout) s = .next t ∧ Does s t [(fUPD_STATUS_STATE, 0), (fUPD_EVT_STATE_CHG, 1),
      (fUPD_STAGED_VER, 0)] [s.evOf 0xA10E] [.upd]
    ∧
      t.upd = { s.upd with man := none, part := none, good := [], held := [], sent := [], fails := [], rx := [] })
  ∧
  -- receptionOpen
  (∀ (s : State), ((updState s ≠ 1 ∧ updState s ≠ 2) ∨ s.clk.tick < s.upd.reqAt + 12000000) →
    ∃ t, exec (.receptionTimeout) s = .next t ∧ t = s)
  ∧
  -- abandoned
  (∀ (s : State), updHears s = true → s.straps.manager = true → (updState s = 1 ∨ updState s = 2) → Room s 1 →
    ∃ t, exec (.updAbandon) s = .next t ∧ Does s t [(fUPD_RESULT_OUTCOME, 0), (fUPD_RESULT_REASON, 0),
      (fUPD_RESULT_ENTRY, 0), (fUPD_STATUS_STATE, 0), (fUPD_EVT_STATE_CHG, 1), (fUPD_STAGED_VER, 0)]
      [s.evOf 0xA10E] [.upd] ∧ t.upd.man = none)
  ∧
  -- abandonRefused
  (∀ (s : State), updHears s = true → (s.straps.manager = false ∨ (updState s ≠ 1 ∧ updState s ≠ 2)) →
    ∃ t, exec (.updAbandon) s = .next t ∧ Does s t [(fUPD_RESULT_OUTCOME, 2), (fUPD_RESULT_REASON, 12),
      (fUPD_RESULT_ENTRY, 0), (fUPD_EVT_REFUSED, 1)] [] [])
  ∧
  -- dataOut
  (∀ (s : State) (e : Fin 64) (off : Nat) (bs : List Byte) (k : Option (Bool × Nat)) (rest : List Nat),
    s.straps.manager = true → updState s = 1 → s.upd.held = e.val :: rest → s.upd.sent.lookup e.val = some off →
    bs.length ≤ 22 → slotBusy s s.clk.tick = false →
    ∃ t, exec (.updData e off bs k) s = .next t ∧ Does s t [] [] [.upd, .ecn] ∧
      t.upd.sent.lookup e.val = some (off + bs.length) ∧ t.ecn.sent.head? = some ⟨0x0B, [1, (e.val : Int),
      (off : Int)] ++ bs.map (fun x => (x.toNat : Int))⟩)
  ∧
  -- dataOutNot
  (∀ (s : State) (e : Fin 64) (off : Nat) (bs : List Byte) (k : Option (Bool × Nat)), s.straps.manager = true →
    (updState s ≠ 1 ∨ s.upd.held.head? ≠ some e.val ∨ s.upd.sent.lookup e.val ≠ some off ∨ 22 < bs.length ∨
    slotBusy s s.clk.tick = true) →
    ∃ t, exec (.updData e off bs k) s = .next t ∧ t = s)
  ∧
  -- dataUnjoined
  (∀ (s : State) (e : Fin 64) (off : Nat) (bs : List Byte) (k : Option (Bool × Nat)), s.straps.manager = false →
    ecnJoin s ≠ 2 →
    ∃ t, exec (.updData e off bs k) s = .next t ∧ t = s)
  ∧
  -- dataIn
  (∀ (s : State) (e : Fin 64) (off : Nat) (bs : List Byte), s.straps.manager = false → ecnJoin s = 2 →
    (off = 0 ∨ s.upd.rx.lookup e.val = some off) →
    ∃ t, exec (.updData e off bs none) s = .next t ∧
      t = { s with upd := { s.upd with rx := (e.val, off + bs.length) :: s.upd.rx.filter (fun y => y.1 != e.val) } })
  ∧
  -- dataBad
  (∀ (s : State) (e : Fin 64) (off : Nat) (bs : List Byte) (v : Nat), s.straps.manager = false → ecnJoin s = 2 →
    (off = 0 ∨ s.upd.rx.lookup e.val = some off) →
    ∃ t, exec (.updData e off bs (some (false, v))) s = .next t ∧ t.upd.rx.lookup e.val = some 0 ∧
      t.upd.good = s.upd.good ∧ (t.ecn.sent.head?).map (fun m => (m.type, m.args.take 4)) = some (0x0B, [2,
      (s.straps.pos : Int), (e.val : Int), 1]) ∧ Does s t [] [] [.upd, .ecn])
  ∧
  -- dataGood
  (∀ (s : State) (e : Fin 64) (bs : List Byte) (v n : Nat), s.straps.manager = false → ecnJoin s = 2 → (n = 0 ∨
    s.upd.rx.lookup e.val = some n) →
    ∃ t, exec (.updData e n bs (some (true, v))) s = .next t ∧ Does s t [(fUPD_STAGED_VER, v)] [] [.upd, .ecn] ∧
      e.val ∈ t.upd.good ∧ (t.ecn.sent.head?).map (fun m => (m.type, m.args.take 4)) = some (0x0B, [2,
      (s.straps.pos : Int), (e.val : Int), 0]))
  ∧
  -- dataGap
  (∀ (s : State) (e : Fin 64) (bs : List Byte) (k : Option (Bool × Nat)) (n off : Nat),
    s.straps.manager = false → ecnJoin s = 2 → (s.upd.rx.lookup e.val).getD 0 = n → off ≠ 0 → off ≠ n →
    ∃ t, exec (.updData e off bs k) s = .next t ∧ t = sendMsg 0x0B [2, (s.straps.pos : Int), (e.val : Int), 2,
      (n : Int)] s)
  ∧
  -- stagedNot
  (∀ (s : State) (p : Fin 8) (e : Fin 64) (r : Fin 3) (off : Nat), (s.straps.manager = false ∨ updState s ≠ 1 ∨
    (manEntry s e).any (fun x => x.pos == p.val) = false) →
    ∃ t, exec (.staged p e r off) s = .next t ∧ t = s)
  ∧
  -- partFails
  (∀ (s : State) (p : Fin 8) (e : Fin 64) (r : Fin 3) (off : Nat) (x : ManEntry), s.straps.manager = true →
    updState s = 1 → manEntry s e = some x → x.pos = p.val → r.val ≠ 0 → 2 ≤ (s.upd.fails.lookup e.val).getD 0 →

    ∃ t, exec (.staged p e r off) s = .next t ∧ Does s t [(fUPD_RESULT_OUTCOME, 2), (fUPD_RESULT_REASON, 13),
      (fUPD_RESULT_ENTRY, e), (fUPD_EVT_REFUSED, 1)] [] [.upd] ∧ e.val ∉ t.upd.held)
  ∧
  -- partResent
  (∀ (s : State) (p : Fin 8) (e : Fin 64) (r : Fin 3) (off : Nat) (x : ManEntry), s.straps.manager = true →
    updState s = 1 → manEntry s e = some x → x.pos = p.val → r.val ≠ 0 → (s.upd.fails.lookup e.val).getD 0 < 2 →

    ∃ t, exec (.staged p e r off) s = .next t ∧ Does s t [] [] [.upd] ∧
      t.upd.sent.lookup e.val = some (if r.val = 2 then off else 0) ∧
      t.upd.fails.lookup e.val = some ((s.upd.fails.lookup e.val).getD 0 + 1) ∧ t.upd.held = s.upd.held)
  ∧
  -- partGood
  (∀ (s : State) (p : Fin 8) (e : Fin 64) (off : Nat) (x : ManEntry), s.straps.manager = true → updState s = 1 →
    manEntry s e = some x → x.pos = p.val →
    ∃ t, exec (.staged p e 0 off) s = .next t ∧
      t.upd = { s.upd with good := e.val :: s.upd.good.filter (fun y => y != e.val), held := s.upd.held.filter (fun y => y != e.val) }
    ∧ (updState t = 2 ↔ ∀ q ∈ updPositions s, positionStaged t q = true) ∧ (updState t = 2 →
      t.get fUPD_STAGED_VER = (s.upd.man.elim 0 fun m => m.release) % 4294967296)
    ∧ SameMem s t ∧ PartsBut s t [.upd])

/-- ACTIVATE in STAGED with every interlock of R402 holding is ARMED with an apply tick at a frame boundary at least
2,000 ticks later; a failing interlock refuses it with 0xA105, and another state with STATE. At the apply tick every
module starts its handover in ACTIVATING, its STANDBY lane giving up with reason UPDATE, or the manager returns to
STAGED with 0xA107 when the ring aborted. A module answers DONE when both lanes run the new images and the cluster
and GNSS run, and FAILED otherwise; DONE from all makes UNCONFIRMED with 0xA10A, a FAILED or a DONE that is late
starts the fall-back with 0xA10C, and DONE from all in a fall-back ends in IDLE with 0xA10D. CONFIRM, and 1,800 s of
harvesting, end in IDLE with the new floor and 0xA10B; FALLBACK needs every interlock but STAGED; a LASTING fault
starts the count again with 0xA10F; the count is saved each 60 s. A worker keeps GO and FALLBACK for their apply
ticks, and takes COMMIT and CONFIRM. Where its condition does not hold, each command changes nothing. That a command
whose conditions do not hold changes nothing is the model's reading (log entry 15). Where the spec leaves the choice
open or has to be read by inference, the clauses state the model's, of log entries 101, 102, 103, 104, 158. (R401,
R402, R403, R404, R405, R406, R407, R409, R410, R411, R412) -/
def Obligations.UpdateActivation : Prop :=
  -- armed
  (∀ (s : State) (r : Fin 256), updHears s = true → s.straps.manager = true → updState s = 2 →
    interlocks r s = 0 →
    ∃ t, exec (.updateActivate r) s = .next t ∧ updState t = 3 ∧
      t.get64 fUPD_GO_TICK_LO.addr = boundaryFrom (s.clk.tick + 2000) % 18446744073709551616 ∧
      t.upd.slot = 1 - s.get fUPD_STATUS_SLOT ∧ t.upd.back = false
    ∧ t.get fUPD_POS_READY = 0 ∧ t.get fUPD_POS_DONE = 0 ∧ t.get fUPD_POS_FAILED = 0 ∧
      t.get fUPD_RESULT_OUTCOME = 0
    ∧ (t.ecn.waits.getLast?).map (fun w => (w.type, w.apply, w.need)) = some (0x0B,
      boundaryFrom (s.clk.tick + 2000), expected s)
    ∧ SameMem s t ∧ Records s t [] ∧ PartsBut s t [.upd, .ecn])
  ∧
  -- armRefused
  (∀ (s : State) (r : Fin 256), updHears s = true → s.straps.manager = true → updState s = 2 →
    interlocks r s ≠ 0 → Room s 1 →
    ∃ t, exec (.updateActivate r) s = .next t ∧ Does s t [(fUPD_INTERLOCK_FAIL, interlocks r s),
      (fUPD_RESULT_OUTCOME, 2), (fUPD_RESULT_REASON, 11), (fUPD_RESULT_ENTRY, 0), (fUPD_EVT_REFUSED, 1)]
      [s.evOf 0xA105 0 (interlocks r s)] [.upd]
    ∧ t.upd = { s.upd with reqAt := s.clk.tick })
  ∧
  -- armNotNow
  (∀ (s : State) (r : Fin 256), updHears s = true → (s.straps.manager = false ∨ updState s ≠ 2) →
    ∃ t, exec (.updateActivate r) s = .next t ∧ Does s t [(fUPD_RESULT_OUTCOME, 2), (fUPD_RESULT_REASON, 12),
      (fUPD_RESULT_ENTRY, 0), (fUPD_EVT_REFUSED, 1)] [] [])
  ∧
  -- interlockBits
  (∀ (s : State) (r : Nat) (m : ManifestIn) (i : ImageIn), s.upd.man = some m → s.cfg.image = some i → r < 256 →

    interlocks r s < 256
    ∧ ((interlocks r s).testBit 0 = false ↔ 400 ≤ s.upd.slow ∧ r.testBit 0 = false)
    ∧ ((interlocks r s).testBit 1 = false ↔ s.get fFUS_UNL_STAT_STATE = 0 ∧
      f32IsZero (s.getF (fFUN_REC_SP_TGT 18)) = true ∧ r.testBit 1 = false)
    ∧ ((interlocks r s).testBit 2 = false ↔ (∀ p ∈ expected s, isAligned s p = true) ∧ r.testBit 2 = false)
    ∧ ((interlocks r s).testBit 3 = false ↔ (∀ p ∈ updPositions s, positionStaged s p = true) ∧
      r.testBit 3 = false)
    ∧ ((interlocks r s).testBit 4 = false ↔ (∀ k : Fin 9, s.get (fRegion k) = 0) ∧ s.cfg.writing = none ∧
      r.testBit 4 = false)
    ∧ ((interlocks r s).testBit 6 = false ↔ s.get fPWR_STATUS_STATE = 0 ∧ r.testBit 6 = false)
    ∧ ((interlocks r s).testBit 7 = false ↔ (m.cfgLo ≤ i.version ∧ i.version ≤ m.cfgHi ∧ i.fwLo ≤ m.release ∧
      m.release ≤ i.fwHi) ∧ r.testBit 7 = false)
    ∧ (laneUp s 0 = false ∨ laneUp s 1 = false ∨ inLimp s = true → (interlocks r s).testBit 5 = true))
  ∧
  -- goKept
  (∀ (s : State) (g a : Nat) (sl : Fin 2), s.straps.manager = false → s.clk.tick < a →
    ∃ t, exec (.updGo g a sl) s = .next t ∧ Does s t [(fUPD_GO_TICK_LO, a), (fUPD_GO_TICK_HI, a / 4294967296)]
      [] [.upd, .ecn] ∧ t.upd = { s.upd with slot := sl, back := false } ∧ t.ecn.waits = s.ecn.waits ++ [⟨0x0B,
      g, a, [], [], false⟩])
  ∧
  -- goManager
  (∀ (s : State) (g a : Nat) (sl : Fin 2),
    (s.straps.manager = true ∨ a ≤ s.clk.tick) → exec (.updGo g a sl) s = .next s ∧
      exec (.updFallbackOp g a) s = .next s)
  ∧
  -- goStarts
  (∀ (s : State) (w : EcnWait), waitAt s 0x0B = some w → ringOk s w = true → s.upd.back = false →
    ∃ t, exec (.activationGoTick) s = .next t ∧ updState t = 4 ∧ t.upd.phase = 1 ∧ t.upd.answered = false ∧
      t.upd.newA = false ∧ t.upd.newB = false ∧ t.get fUPD_HANDOVER_MISMATCH = 0 ∧ t.rst.appUp = false
    ∧ (s.wide = true → t.upd.gnsUp = false) ∧ (∀ x ∈ t.ecn.waits, ¬ (x.type = w.type ∧ x.gen = w.gen)) ∧
      t.mem = s.mem)
  ∧
  -- goAborted
  (∀ (s : State) (w : EcnWait), waitAt s 0x0B = some w → s.straps.manager = true → w.halt = true →
    s.upd.back = false → updState s = 3 → Room s 1 →
    ∃ t, exec (.activationGoTick) s = .next t ∧ Does s t [(fUPD_STATUS_STATE, 2), (fUPD_EVT_STATE_CHG, 1),
      (fUPD_RESULT_OUTCOME, 3), (fUPD_RESULT_REASON, 0), (fUPD_RESULT_ENTRY, 0)]
      [s.evOf 0xA107 0 ((w.need.find? fun p => !w.acked.contains p).getD 0)] [.ecn] ∧ t.ecn.haltAt = none)
  ∧
  -- goHandover
  (∀ (s : State) (w : EcnWait) (l : Fin 2), waitAt s 0x0B = some w → ringOk s w = true → s.upd.back = false →
    laneState s l = 1 → (l = 0 ∨ laneState s 0 ≠ 1) →
    ∃ t, exec (.activationGoTick) s = .next t ∧ updState t = 4 ∧ laneState t l = 2 ∧
      t.get fCLM_LAST_GU_REASON = 12 ∧ t.get fCLM_LAST_GU_LANE = l.val ∧ t.bit fCLM_LAST_GU_COUNTED = false)
  ∧
  -- goBack
  (∀ (s : State) (w : EcnWait), waitAt s 0x0B = some w → ringOk s w = true → s.upd.back = true →
    inLimp s = false → laneState s 0 ≠ 3 → laneState s 1 ≠ 3 →
    ∃ t, exec (.activationGoTick) s = .next t ∧ updState t = 6 ∧ t.upd.phase = 1 ∧ t.upd.answered = false ∧
      t.rst.appUp = false ∧ t.mem = s.mem)
  ∧
  -- goBackWarm
  (∀ (s : State) (w : EcnWait), waitAt s 0x0B = some w → ringOk s w = true → s.upd.back = true →
    (inLimp s = true ∨ laneState s 0 = 3 ∨ laneState s 1 = 3) → s.rst.busy < 1 →
    ∃ t, exec (.activationGoTick) s = .next t ∧ t.rst.busy = 1 ∧ t.upd.fellBack = true)
  ∧
  -- goAgain
  (∀ (s : State) (w : EcnWait), waitAt s 0x0B = some w → s.straps.manager = true → w.halt = true →
    s.upd.back = true →
    ∃ t, exec (.activationGoTick) s = .next t ∧ (t.ecn.waits.getLast?).map (fun x => (x.type, x.gen, x.apply,
      x.need)) = some (0x0B, s.ecn.nextGen, boundaryFrom (s.clk.tick + 2000), expected s)
    ∧ Does s t [(fUPD_GO_TICK_LO, boundaryFrom (s.clk.tick + 2000)), (fUPD_GO_TICK_HI,
      boundaryFrom (s.clk.tick + 2000) / 4294967296)] [] [.ecn])
  ∧
  -- goWorkerAborted
  (∀ (s : State) (w : EcnWait), waitAt s 0x0B = some w → s.straps.manager = false → ringOk s w = false →
    Room s 1 →
    ∃ t, exec (.activationGoTick) s = .next t ∧ Does s t [(fECN_EVT_ABORT, 1)] [s.evOf 0x9109 0 w.type] [.ecn] ∧
      (∀ x ∈ t.ecn.waits, ¬ (x.type = w.type ∧ x.gen = w.gen)))
  ∧
  -- goNone
  (∀ (s : State), waitAt s 0x0B = none →
    ∃ t, exec (.activationGoTick) s = .next t ∧ t = s)
  ∧
  -- doneLast
  (∀ (s : State) (p : Fin 8), s.straps.manager = true → updState s = 4 → s.get fUPD_POS_FAILED = 0 →
    (∀ q ∈ updPositions s, q = p.val ∨ s.bit (bitFld fUPD_POS_DONE q) = true) → Room s 2 →
    ∃ t, exec (.updDone p 0) s = .next t ∧ updState t = 5 ∧ t.bit (bitFld fUPD_POS_DONE p) = true ∧
      t.get fUPD_CONFIRM_HARVEST_S = 0 ∧ t.get fUPD_CNT_UPDATES = s.up fUPD_CNT_UPDATES ∧
      (t.ecn.sent.head?).map (fun m => (m.type, m.args)) = some (0x0B, [5])
    ∧ t.upd = { s.upd with harvest := 0, saved := 0, savedAt := s.clk.tick } ∧ Records s t [s.evOf 0xA108 p,
      s.evOf 0xA10A 0 0 f16NaN (f16OfNat (s.get fUPD_HANDOVER_TICKS))]
    ∧ SameMem s t ∧ PartsBut s t [.upd, .ecn])
  ∧
  -- doneWaits
  (∀ (s : State) (p q : Fin 8), s.straps.manager = true → updState s = 4 → s.get fUPD_POS_FAILED = 0 →
    q.val ∈ updPositions s → q ≠ p → s.bit (bitFld fUPD_POS_DONE q) = false → Room s 1 →
    ∃ t, exec (.updDone p 0) s = .next t ∧ Does s t [(bitFld fUPD_POS_DONE p, 1)] [s.evOf 0xA108 p] [])
  ∧
  -- failedOne
  (∀ (s : State) (p : Fin 8), s.straps.manager = true → updState s = 4 → Room s 2 →
    ∃ t, exec (.updDone p 1) s = .next t ∧ updState t = 6 ∧ t.upd.back = true ∧ t.upd.slot = 1 - s.upd.slot ∧
      t.get fUPD_POS_READY = 0 ∧ t.get fUPD_POS_DONE = 0 ∧ t.get fUPD_POS_FAILED = 0
    ∧ Records s t [s.evOf 0xA109 p, s.evOf 0xA10C 0 1] ∧ (t.ecn.waits.getLast?).map (fun w => (w.type, w.apply,
      w.need)) = some (0x0B, boundaryFrom (s.clk.tick + 2000), expected s)
    ∧ SameMem s t ∧ PartsBut s t [.upd, .ecn])
  ∧
  -- doneNot
  (∀ (s : State) (p : Fin 8) (r : Fin 2), (s.straps.manager = false ∨ (updState s ≠ 4 ∧ updState s ≠ 6)) →
    ∃ t, exec (.updDone p r) s = .next t ∧ t = s)
  ∧
  -- doneBackLast
  (∀ (s : State) (p : Fin 8), s.straps.manager = true → updState s = 6 → (∀ q ∈ updPositions s, q = p.val ∨
    s.bit (bitFld fUPD_POS_DONE q) = true) → Room s 2 →
    ∃ t, exec (.updDone p 0) s = .next t ∧ Does s t [(bitFld fUPD_POS_DONE p, 1), (fUPD_STATUS_STATE, 0),
      (fUPD_EVT_STATE_CHG, 1), (fUPD_STAGED_VER, 0), (fUPD_STATUS_DUAL, 0), (fUPD_CNT_FALLBACKS,
      s.up fUPD_CNT_FALLBACKS)] [s.evOf 0xA108 p, s.evOf 0xA10D] [.upd]
    ∧ t.upd.man = none ∧ t.upd.good = [] ∧ t.upd.back = false)
  ∧
  -- failedBack
  (∀ (s : State) (p q : Fin 8), s.straps.manager = true → updState s = 6 → q.val ∈ updPositions s →
    s.bit (bitFld fUPD_POS_DONE q) = false → Room s 1 →
    ∃ t, exec (.updDone p 1) s = .next t ∧ Does s t [(bitFld fUPD_POS_FAILED p, 1)] [s.evOf 0xA109 p] [])
  ∧
  -- restartWorker
  (∀ (s : State) (a g : Bool), s.straps.manager = false → s.upd.answered = false → s.upd.phase = 4 →
    s.upd.fellBack = false → updState s = 4 → fleetState s ≠ 0 → Room s 1 →
    ∃ t, exec (.activationRestartEnd a g) s = .next t ∧ t.upd.answered = true ∧ t.upd.gnsUp = g ∧
      t.rst.appUp = (a || s.rst.appUp)
    ∧ (t.ecn.sent.head?).map (fun m => m.args) = some [4, (s.straps.pos : Int),
      if laneUp s 0 && laneUp s 1 && a && g then 0 else 1]
    ∧ Records s t [s.evOf (if laneUp s 0 && laneUp s 1 && a && g then 0xA108 else 0xA109) s.straps.pos]
    ∧ (laneUp s 0 && laneUp s 1 && a && g → t.get fUPD_STATUS_SLOT = s.upd.slot % 2) ∧ SameMem s t ∧
      PartsBut s t [.upd, .rst, .ecn])
  ∧
  -- restartManager
  (∀ (s : State) (a g : Bool), s.straps.manager = true → s.upd.answered = false → s.upd.phase = 4 →
    s.upd.fellBack = false → updState s = 4 → (laneUp s 0 && laneUp s 1 && a && g) = true →
    s.get fUPD_POS_FAILED = 0 → expected s = [] → fleetState s ≠ 0 →
    ∃ t, exec (.activationRestartEnd a g) s = .next t ∧ updState t = 5 ∧
      t.get fUPD_STATUS_SLOT = s.upd.slot % 2 ∧ t.get fUPD_CNT_UPDATES = s.up fUPD_CNT_UPDATES ∧
      t.upd.answered = true
    ∧ (t.ecn.sent.head?).map (fun m => (m.type, m.args)) = some (0x0B, [5]) ∧ (s.wide = true → pwrState s = 0 →
      t.bit fFUS_STATUS_RUN = true) ∧ SameMem s t ∧ PartsBut s t [.upd, .rst, .ecn, .fus])
  ∧
  -- restartFails
  (∀ (s : State) (a g : Bool), s.straps.manager = true → s.upd.answered = false → s.upd.phase ≠ 0 →
    s.upd.fellBack = false → updState s = 4 → ((s.upd.phase = 4 ∧ laneUp s 0 = true ∧ laneUp s 1 = true ∧
    a = true ∧ g = true) = False) → fleetState s ≠ 0 →
    ∃ t, exec (.activationRestartEnd a g) s = .next t ∧ updState t = 6 ∧ t.upd.back = true ∧
      t.upd.answered = false ∧ t.upd.slot = 1 - s.upd.slot ∧ t.get fUPD_STATUS_SLOT = s.get fUPD_STATUS_SLOT
    ∧ (t.ecn.waits.getLast?).map (fun w => (w.type, w.apply, w.need)) = some (0x0B,
      boundaryFrom (s.clk.tick + 2000), expected s) ∧ SameMem s t ∧ PartsBut s t [.upd, .rst, .ecn, .fus])
  ∧
  -- restartNot
  (∀ (s : State) (a g : Bool), (s.upd.answered = true ∨ s.upd.phase = 0 ∨ (updState s ≠ 4 ∧ updState s ≠ 6)) →
    ∃ t, exec (.activationRestartEnd a g) s = .next t ∧ t = s)
  ∧
  -- doneLate
  (∀ (s : State), s.straps.manager = true → updState s = 4 → (s.get fUPD_POS_FAILED ≠ 0 ∨
    s.get64 fUPD_GO_TICK_LO.addr + 200000 ≤ s.clk.tick) → Room s 1 →
    ∃ t, exec (.activationTimeout) s = .next t ∧ updState t = 6 ∧ t.upd.back = true ∧
      t.upd.slot = 1 - s.upd.slot ∧ Records s t [s.evOf 0xA10C 0 1] ∧
      t.get64 fUPD_GO_TICK_LO.addr = boundaryFrom (s.clk.tick + 2000) % 18446744073709551616
    ∧ SameMem s t ∧ PartsBut s t [.upd, .ecn])
  ∧
  -- doneInTime
  (∀ (s : State), (s.straps.manager = false ∨ updState s ≠ 4 ∨ (s.get fUPD_POS_FAILED = 0 ∧
    s.clk.tick < s.get64 fUPD_GO_TICK_LO.addr + 200000)) →
    ∃ t, exec (.activationTimeout) s = .next t ∧ t = s)
  ∧
  -- commitTaken
  (∀ (s : State) (d : Bool), s.straps.manager = false → updState s = 4 →
    ∃ t, exec (.updCommit d) s = .next t ∧ Does s t [(fUPD_STATUS_STATE, 5), (fUPD_EVT_STATE_CHG, 1),
      (fUPD_STATUS_DUAL, if d then 1 else 0)] [] [])
  ∧
  -- orderNot
  (∀ (s : State) (d : Bool) (f k : Word) (p : Fin 8),
    (s.straps.manager = true ∨ updState s ≠ 4 → exec (.updCommit d) s = .next s) ∧ (s.straps.manager = true ∨
      updState s ≠ 5 → exec (.updConfirmed f) s = .next s)
    ∧ (s.straps.manager = false ∨ updState s ≠ 5 → exec (.updLasting p k) s = .next s))
  ∧
  -- fallbackKept
  (∀ (s : State) (g a : Nat), s.straps.manager = false → s.clk.tick < a →
    ∃ t, exec (.updFallbackOp g a) s = .next t ∧ Does s t [(fUPD_GO_TICK_LO, a), (fUPD_GO_TICK_HI,
      a / 4294967296)] [] [.upd, .ecn] ∧
      t.upd = { s.upd with slot := if s.upd.back then s.upd.slot else 1 - s.upd.slot, back := true, fellBack := false }
    ∧ t.ecn.waits = s.ecn.waits ++ [⟨0x0B, g, a, [], [], false⟩])
  ∧
  -- fellBackByUser
  (∀ (s : State) (r : Fin 256), updHears s = true → s.straps.manager = true → updState s = 5 →
    (interlocks r s = 0 ∨ interlocks r s = 8) → Room s 1 →
    ∃ t, exec (.updateFallback r) s = .next t ∧ updState t = 6 ∧ t.upd.back = true ∧
      t.upd.slot = 1 - s.upd.slot ∧ Records s t [s.evOf 0xA10C 0 0] ∧ t.get fUPD_RESULT_OUTCOME = 0 ∧
      SameMem s t ∧ PartsBut s t [.upd, .ecn])
  ∧
  -- fallbackRefused
  (∀ (s : State) (r : Fin 256), updHears s = true → s.straps.manager = true → updState s = 5 →
    interlocks r s ≠ 0 → interlocks r s ≠ 8 → Room s 1 →
    ∃ t, exec (.updateFallback r) s = .next t ∧ ∃ f,
      f = (if (interlocks r s).testBit 3 then interlocks r s - 8 else interlocks r s)
    ∧ Does s t [(fUPD_INTERLOCK_FAIL, f), (fUPD_RESULT_OUTCOME, 2), (fUPD_RESULT_REASON, 11),
      (fUPD_RESULT_ENTRY, 0), (fUPD_EVT_REFUSED, 1)] [s.evOf 0xA105 0 f] [])
  ∧
  -- fallbackNotNow
  (∀ (s : State) (r : Fin 256), updHears s = true → (s.straps.manager = false ∨ updState s ≠ 5) →
    ∃ t, exec (.updateFallback r) s = .next t ∧ Does s t [(fUPD_RESULT_OUTCOME, 2), (fUPD_RESULT_REASON, 12),
      (fUPD_RESULT_ENTRY, 0), (fUPD_EVT_REFUSED, 1)] [] [])
  ∧
  -- confirmedByUser
  (∀ (s : State), updHears s = true → s.straps.manager = true → updState s = 5 → Room s 1 →
    ∃ t, exec (.updateConfirm) s = .next t ∧ Does s t [(fUPD_RESULT_OUTCOME, 0), (fUPD_RESULT_REASON, 0),
      (fUPD_RESULT_ENTRY, 0), (fUPD_STATUS_STATE, 0), (fUPD_EVT_STATE_CHG, 1), (fUPD_STATUS_DUAL, 0),
      (fUPD_FLOOR, s.upd.man.elim 0 fun m => m.floor), (fUPD_STAGED_VER, 0), (fUPD_CONFIRM_HARVEST_S, 0)]
      [s.evOf 0xA10B 0 0] [.upd, .ecn] ∧ t.upd.man = none ∧ t.upd.oldVer = 0 ∧
        (t.ecn.sent.head?).map (fun m => (m.type, m.args)) = some (0x0B, [8]))
  ∧
  -- confirmRefused
  (∀ (s : State), updHears s = true → (s.straps.manager = false ∨ updState s ≠ 5) →
    ∃ t, exec (.updateConfirm) s = .next t ∧ Does s t [(fUPD_RESULT_OUTCOME, 2), (fUPD_RESULT_REASON, 12),
      (fUPD_RESULT_ENTRY, 0), (fUPD_EVT_REFUSED, 1)] [] [])
  ∧
  -- confirmedWorker
  (∀ (s : State) (f : Word), s.straps.manager = false → updState s = 5 →
    ∃ t, exec (.updConfirmed f) s = .next t ∧ Does s t [(fUPD_STATUS_STATE, 0), (fUPD_EVT_STATE_CHG, 1),
      (fUPD_STATUS_DUAL, 0), (fUPD_FLOOR, f.toNat), (fUPD_STAGED_VER, 0), (fUPD_CONFIRM_HARVEST_S, 0)] [] [.upd]
      ∧ t.upd.phase = 0 ∧ t.upd.oldVer = 0)
  ∧
  -- harvested
  (∀ (s : State), s.straps.manager = true → updState s = 5 → 1800 ≤ s.get fUPD_CONFIRM_HARVEST_S → Room s 1 →
    ∃ t, exec (.harvestConfirm) s = .next t ∧ Does s t [(fUPD_STATUS_STATE, 0), (fUPD_EVT_STATE_CHG, 1),
      (fUPD_STATUS_DUAL, 0), (fUPD_FLOOR, s.upd.man.elim 0 fun m => m.floor), (fUPD_STAGED_VER, 0),
      (fUPD_CONFIRM_HARVEST_S, 0)]
      [s.evOf 0xA10B 0 1] [.upd, .ecn] ∧ (t.ecn.sent.head?).map (fun m => (m.type, m.args)) = some (0x0B, [8]))
  ∧
  -- harvestedNot
  (∀ (s : State), (s.straps.manager = false ∨ updState s ≠ 5 ∨ s.get fUPD_CONFIRM_HARVEST_S < 1800) →
    ∃ t, exec (.harvestConfirm) s = .next t ∧ t = s)
  ∧
  -- lastingTold
  (∀ (s : State) (p : Fin 8) (k : Word), s.straps.manager = true → updState s = 5 → Room s 1 →
    ∃ t, exec (.updLasting p k) s = .next t ∧ Does s t [(fUPD_CONFIRM_HARVEST_S, 0)]
      [s.evOf 0xA10F p 0 f16NaN (f16OfNat k.toNat)] [.upd] ∧ t.upd = { s.upd with harvest := 0 })
  ∧
  -- countSaved
  (∀ (s : State), updState s = 5 → s.upd.savedAt + 1200000 ≤ s.clk.tick →
    ∃ t, exec (.confirmCountSave) s = .next t ∧
      t = { s with upd := { s.upd with saved := s.get fUPD_CONFIRM_HARVEST_S, savedAt := s.clk.tick } })
  ∧
  -- countNotSaved
  (∀ (s : State), (updState s ≠ 5 ∨ s.clk.tick < s.upd.savedAt + 1200000) →
    ∃ t, exec (.confirmCountSave) s = .next t ∧ t = s)

/-- POWER_ON and BROWNOUT clear the memory, the tick count and every register that no store, die or fuse holds, keep the
event flash, the stored map, the NOR and the straps, and start the bring-up from step 1. EXTERNAL keeps the keep-
alive island as well and starts from step 2; in the lower power states it is a wake. WARM keeps the DRAM, the map,
the tick count and phase, and its start leaves out step 3 once that has ended. A fatal fault of the security core is
a WARM reset with its own reason. A reset during option loading counts a restart of it. A reset that arrives during
one of equal or wider reach only sets its bit in RST_CAUSE. A request of the OEM partition, and a module in LATCHED
or below, leave WARM without effect. That a command whose conditions do not hold changes nothing is the model's
reading (log entry 15). Where the spec leaves the choice open or has to be read by inference, the clauses state the
model's, of log entries 22, 43, 82, 83, 91, 93. (R414, R416, R417, R425, R436, R442, R468) -/
def Obligations.ResetSources : Prop :=
  -- powerOn
  (∀ (s : State) (a : Nat), s.rst.busy < 3 → survives 3 a = false → a ∉ [fPWR_STATUS.addr, fMAP_STATUS.addr,
    fCLK_DOM_LOCK.addr, fSYS_STATUS.addr, fECN_STATUS.addr, fCLK_STATUS.addr, fRST_CAUSE.addr] →
    ∃ t, exec (.powerOn) s = .next t ∧ t.rst = { Rst.init with next := 1, busy := 3 } ∧ t.mem = [] ∧
      t.evr = { Evr.init with flash := s.evr.flash } ∧ t.clk.tick = 0 ∧ t.clk.cycle = 0
    ∧ t.get fRST_CAUSE_SRC = 1 ∧ t.get fRST_CAUSE_WARM_WHY = 0 ∧ t.rd a = resetWord a ∧
      t.map.store = s.map.store ∧ t.cfg.nor = s.cfg.nor ∧ t.straps = s.straps ∧ t.pending = s.pending)
  ∧
  -- brownout
  (∀ (s : State) (a : Nat), s.rst.busy < 3 → survives 3 a = false → a ∉ [fPWR_STATUS.addr, fMAP_STATUS.addr,
    fCLK_DOM_LOCK.addr, fSYS_STATUS.addr, fECN_STATUS.addr, fCLK_STATUS.addr, fRST_CAUSE.addr] →
    ∃ t, exec (.brownout) s = .next t ∧ t.rst = { Rst.init with next := 1, busy := 3 } ∧ t.mem = [] ∧
      t.evr = { Evr.init with flash := s.evr.flash } ∧ t.clk.tick = 0 ∧ t.clk.cycle = 0
    ∧ t.get fRST_CAUSE_SRC = 2 ∧ t.get fRST_CAUSE_WARM_WHY = 0 ∧ t.rd a = resetWord a ∧
      t.map.store = s.map.store ∧ t.cfg.nor = s.cfg.nor ∧ t.straps = s.straps ∧ t.pending = s.pending)
  ∧
  -- keysKept
  (∀ (s : State) (a : Nat), fSEC_KEYS.addr ≤ a → a ≤ fSEC_SERIAL_HI.addr →
    ∃ t, exec (.powerOn) s = .next t ∧ t.rd a = s.rd a)
  ∧
  -- keysKeptB
  (∀ (s : State) (a : Nat), fSEC_KEYS.addr ≤ a → a ≤ fSEC_SERIAL_HI.addr →
    ∃ t, exec (.brownout) s = .next t ∧ t.rd a = s.rd a)
  ∧
  -- external
  (∀ (s : State) (a : Nat), s.rst.busy < 2 → pwrState s < 2 → (¬(s.rst.next = 3 ∧ s.rst.stuck = false)) →
    survives 2 a = false → inPage 20 a = false → a ∉ [fPWR_STATUS.addr, fMAP_STATUS.addr, fCLK_DOM_LOCK.addr,
    fSYS_STATUS.addr, fECN_STATUS.addr, fCLK_STATUS.addr, fRST_CAUSE.addr, fRST_CNT.addr, fSEC_EVT.addr] →
    ∃ t, exec (.external) s = .next t ∧ t.rst = { Rst.init with next := 2, busy := 2 } ∧ t.mem = [] ∧
      t.clk.tick = 0 ∧ t.clk.tbase = (s.get fPWR_RTC : Int) * 1000000000 ∧ t.get fPWR_RTC = s.get fPWR_RTC
    ∧ t.get fRST_CAUSE_SRC = (s.get fRST_CAUSE_SRC ||| 4) ∧
      t.get fRST_CAUSE_WARM_WHY = s.get fRST_CAUSE_WARM_WHY ∧ t.get fRST_CNT_EXTERNAL = s.up fRST_CNT_EXTERNAL ∧
      t.rd a = resetWord a
    ∧ (∃ e ∈ t.evr.intake, e.code = 0xC101 ∧ e.flags = t.get fRST_CAUSE_SRC % 256) ∧
      t.evr.sill = s.evr.flash.sill ∧ t.evr.lintel = s.evr.flash.lintel
    ∧ t.map.store = s.map.store ∧ t.cfg.nor = s.cfg.nor ∧ t.straps = s.straps ∧ t.pending = s.pending)
  ∧
  -- externalOptions
  (∀ (s : State), s.rst.busy < 2 → pwrState s < 2 → s.rst.next = 3 → s.rst.stuck = false →
    ∃ t, exec (.external) s = .next t ∧ t.rst.next = 2 ∧ t.rst.busy = 2 ∧ t.rst.stuck = false ∧
      t.get fRST_STATUS_OPT_RESTARTS = min 15 (s.get fRST_STATUS_OPT_RESTARTS + 1) ∧ t.mem = [] ∧
      t.get fRST_CAUSE_SRC = (s.get fRST_CAUSE_SRC ||| 4))
  ∧
  -- externalLow
  (∀ (s : State), 2 ≤ pwrState s →
    ∃ t, exec (.external) s = .next t ∧ t.rst.next = 2 ∧ t.rst.busy = 2 ∧ t.mem = [] ∧ pwrState t = 0 ∧
      t.get fPWR_WAKE_SRC = 16 ∧ t.get fPWR_WAKE_PORT = 0 ∧ t.bit fPWR_EVT_WAKE = true ∧
      t.bit fPWR_EVT_STATE_CHG = true
    ∧ t.get fRST_CNT_EXTERNAL = s.up fRST_CNT_EXTERNAL ∧ t.get fRST_CAUSE_SRC = (s.get fRST_CAUSE_SRC ||| 4) ∧
      t.pending = s.pending)
  ∧
  -- warm
  (∀ (s : State) (req : Req) (a : Nat), reqIsOem req = false → s.rst.busy = 0 → pwrState s < 2 →
    ∃ t, exec (.warm req) s = .next t ∧ t.rst.next = 2 ∧ t.rst.busy = 1 ∧
      t.rst.kept = (s.rst.kept || decide (4 ≤ s.rst.next)) ∧ t.clk.tick = s.clk.tick ∧
      t.clk.cycle = s.clk.cycle ∧ t.clk.tbase = s.clk.tbase ∧ t.get fPWR_RTC = s.get fPWR_RTC
    ∧ t.get fRST_CAUSE_SRC = (s.get fRST_CAUSE_SRC ||| 8) ∧ t.get fRST_CAUSE_WARM_WHY = 1 ∧
      t.get fRST_CNT_WARM = s.up fRST_CNT_WARM
    ∧ t.rd8 a = (if 0x100000000 ≤ a then s.rd8 a else memDefault a) ∧ (∃ e ∈ t.evr.intake, e.code = 0xC101 ∧
      e.flags = t.get fRST_CAUSE_SRC % 256)
    ∧ t.map = s.map ∧ t.cfg.nor = s.cfg.nor ∧ t.cfg.image = s.cfg.image ∧ t.cfg.own = s.cfg.own ∧
      t.straps = s.straps ∧ t.pending = s.pending)
  ∧
  -- warmIgnored
  (∀ (s : State) (req : Req), (reqIsOem req = true ∨ 2 ≤ pwrState s) →
    ∃ t, exec (.warm req) s = .next t ∧ t = s)
  ∧
  -- fatal
  (∀ (s : State), 5 ≤ s.rst.next → pwrState s < 2 → s.rst.busy = 0 →
    ∃ t, exec (.securityCoreFatalFault) s = .next t ∧ t.rst.next = 2 ∧ t.rst.busy = 1 ∧
      t.get fRST_CAUSE_WARM_WHY = 4 ∧ t.get fRST_CAUSE_SRC = (s.get fRST_CAUSE_SRC ||| 8) ∧
      t.clk.tick = s.clk.tick ∧ (∃ e ∈ t.evr.intake, e.code = 0xB00A) ∧ t.map = s.map ∧ t.pending = s.pending)
  ∧
  -- fatalIdle
  (∀ (s : State), (s.rst.next < 5 ∨ 2 ≤ pwrState s) →
    ∃ t, exec (.securityCoreFatalFault) s = .next t ∧ t = s)
  ∧
  -- absorbedPower
  (∀ (s : State), 3 ≤ s.rst.busy →
    ∃ t, exec (.powerOn) s = .next t ∧ Does s t [(bitFld fRST_CAUSE_SRC 0, 1)] [] [])
  ∧
  -- absorbedBrown
  (∀ (s : State), 3 ≤ s.rst.busy →
    ∃ t, exec (.brownout) s = .next t ∧ Does s t [(bitFld fRST_CAUSE_SRC 1, 1)] [] [])
  ∧
  -- absorbedExternal
  (∀ (s : State), 2 ≤ s.rst.busy → pwrState s < 2 →
    ∃ t, exec (.external) s = .next t ∧ Does s t [(bitFld fRST_CAUSE_SRC 2, 1)] [] [])
  ∧
  -- absorbedWarm
  (∀ (s : State) (req : Req), 1 ≤ s.rst.busy → pwrState s < 2 → reqIsOem req = false →
    ∃ t, exec (.warm req) s = .next t ∧ Does s t [(bitFld fRST_CAUSE_SRC 3, 1)] [] [])

/-- A BLOCK reset is SERVED while the block reports idle: its registers return to their configuration, everything
outside the block stays, RST_BLOCK_RES shows it BUSY, and 0xC101 is recorded. It is REFUSED with NOT_IDLE or
NOT_RESETTABLE and recorded as 0xC106, absorbed into a reset of the module in progress, and ignored while another is
BUSY. At its end 0xC107 is recorded and the block starts. That a command whose conditions do not hold changes
nothing is the model's reading (log entry 15). Where the spec leaves the choice open or has to be read by inference,
the clauses state the model's, of log entry 95. (R414, R417, R422) -/
def Obligations.BlockResets : Prop :=
  -- blockServed
  (∀ (s : State) (req : Req) (id : Fin 32) (a : Nat), reqIsOem req = false → s.bit fRST_BLOCK_RES_BUSY = false →
    pwrState s < 2 → id.val < 17 → s.rst.busy = 0 → blockIdle s id = true → Room s 1 → inBlock id a = false →
    a ∉ [fRST_BLOCK_RES.addr, fRST_CAUSE.addr] →
    ∃ t, exec (.rstBlock req id) s = .next t ∧ t.rst = { s.rst with block := some id.val } ∧
      t.get fRST_BLOCK_RES_OUTCOME = 1 ∧ t.bit fRST_BLOCK_RES_BUSY = true ∧ t.get fRST_BLOCK_RES_BLOCK_ID = id ∧
      t.get fRST_BLOCK_RES_REASON = 0
    ∧ t.get fRST_CAUSE_SRC = (s.get fRST_CAUSE_SRC ||| 64) ∧ t.rd a = s.rd a ∧
      Records s t [s.evOf 0xC101 0 (s.get fRST_CAUSE_SRC ||| 64)] ∧ SameMem s t
    ∧ PartsBut s t ([.rst]
      ++ (match id.val with | 0 => [.loopA] | 1 => [.loopB] | 2 => [.clm] | 5 => [.gns] | 6 => [.isp] | 7 => [.fus] | 15 => [.eth] | 16 => [.att] | _ => if 9 ≤ id.val ∧ id.val ≤ 14 then [.can] else [])))
  ∧
  -- blockCleared
  (∀ (s : State) (req : Req) (id : Fin 32) (a : Nat), reqIsOem req = false → s.bit fRST_BLOCK_RES_BUSY = false →
    pwrState s < 2 → id.val < 17 → id.val ≠ 8 → s.rst.busy = 0 → blockIdle s id = true → inBlock id a = true →
    dieHeld a = false → imgMask a = 0 → a ≠ fCLM_STATUS.addr →
    ∃ t, exec (.rstBlock req id) s = .next t ∧ t.rd a = resetWord a)
  ∧
  -- blockNotIdle
  (∀ (s : State) (req : Req) (id : Fin 32), reqIsOem req = false → s.bit fRST_BLOCK_RES_BUSY = false →
    pwrState s < 2 → (17 ≤ id.val ∨ s.rst.busy = 0 ∧ blockIdle s id = false) → Room s 1 →
    ∃ t, exec (.rstBlock req id) s = .next t ∧ Does s t [(fRST_BLOCK_RES_OUTCOME, 2), (fRST_BLOCK_RES_BUSY, 0),
      (fRST_BLOCK_RES_BLOCK_ID, id), (fRST_BLOCK_RES_REASON, if 17 ≤ id.val then 2 else 1), (fRST_EVT_BLOCK, 1)]
      [s.evOf 0xC106 id (if 17 ≤ id.val then 2 else 1)] [])
  ∧
  -- blockIgnored
  (∀ (s : State) (req : Req) (id : Fin 32), (reqIsOem req = true ∨ s.bit fRST_BLOCK_RES_BUSY = true ∨
    2 ≤ pwrState s) →
    ∃ t, exec (.rstBlock req id) s = .next t ∧ t = s)
  ∧
  -- blockAbsorbed
  (∀ (s : State) (req : Req) (id : Fin 32), reqIsOem req = false → s.bit fRST_BLOCK_RES_BUSY = false →
    pwrState s < 2 → id.val < 17 → s.rst.busy ≠ 0 →
    ∃ t, exec (.rstBlock req id) s = .next t ∧ Does s t [(bitFld fRST_CAUSE_SRC 6, 1)] [] [])
  ∧
  -- blockDone
  (∀ (s : State) (gns : GnssStart) (dies : List (Fin 12)) (id : Nat), s.rst.block = some id → Room s 1 →
    ∃ t, exec (.blockResetDone gns dies) s = .next t ∧
      t = startBlock id gns dies ((({ s with rst := { s.rst with block := none } }.putBit fRST_BLOCK_RES_BUSY false).putBit fRST_EVT_BLOCK true).ev 0xC107 id)
    ∧ (id ≤ 1 ∧ s.bit fRST_STATUS_CLAIMS = false ∨ id = 16 → Does s t [(fRST_BLOCK_RES_BUSY, 0),
      (fRST_EVT_BLOCK, 1)] [s.evOf 0xC107 id] [.rst] ∧ t.rst = { s.rst with block := none })
    ∧ t.bit fRST_BLOCK_RES_BUSY = false ∧ t.rst.block = none)
  ∧
  -- blockNone
  (∀ (s : State) (gns : GnssStart) (dies : List (Fin 12)), s.rst.block = none →
    ∃ t, exec (.blockResetDone gns dies) s = .next t ∧ t = s)

/-- Each step of the bring-up ends with its time in RST_T, its number in RST_STATUS.STEP and RST_EVT.STEP, and the next
begins. A WARM start leaves out step 3. The module stops at step 3 on a ring of order B at the manager, a worker at
position 0, or after 15 restarts of option loading; at step 4 when a lane or microcode image fails its signature or
lies below the floor, or every configuration fails, while other images only leave their part out; and at step 5 when
both lanes fail. It then shows FAIL and records 0xC103. A step that is not under way, and a stopped module, change
nothing. FULL is set once in OPEN when every service of the role is ready, with 0xC105 that tells a missed limit; on
a worker the application cluster alone counts. That a command whose conditions do not hold changes nothing is the
model's reading (log entry 15). Where the spec leaves the choice open or has to be read by inference, the clauses
state the model's, of log entries 20, 85, 160. (R4, R44, R328, R418, R419, R420, R421, R423, R436) -/
def Obligations.BringUpSequence : Prop :=
  -- stepKal
  (∀ (s : State) (us : Nat), s.rst.next = 1 → s.rst.stuck = false → pwrState s < 2 →
    ∃ t, exec (.bringupStepComplete (.kal us)) s = .next t ∧
      t.rst = { s.rst with next := 2, busy := 0, us0 := us, ticks := 0 } ∧ t.get fRST_STATUS_STEP = 1 ∧
      t.get (fRST_T 0) = min us 4294967295 ∧ t.bit fRST_EVT_STEP = true
    ∧ t.rd fCLK_DOM_LOCK.addr = 1#32 &&& ~~~(s.rd fCLK_DOM_FAULT.addr) ∧ t.evr.sill = s.evr.flash.sill ∧
      t.evr.lintel = s.evr.flash.lintel
    ∧ (s.evr.intake.length + 2 ≤ 256 → ∃ e ∈ t.evr.intake, e.code = 0xC101 ∧
      e.flags = s.get fRST_CAUSE_SRC % 256) ∧ SameMem s t
    ∧ Touches s t [fRST_STATUS.addr, (fRST_T 0).addr, fRST_EVT.addr, fCLK_DOM_LOCK.addr, fEVR_CLR_CNT.addr]
      [.rst])
  ∧
  -- stepRef
  (∀ (s : State) (us : Nat), s.rst.next = 2 → s.rst.stuck = false → pwrState s < 2 → (s.rst.kept = true ∨
    s.get fRST_STATUS_OPT_RESTARTS < 15) →
    ∃ t, exec (.bringupStepComplete (.ref us)) s = .next t ∧ t.rst.next = (if s.rst.kept then 4 else 3) ∧
      t.rst.busy = 0 ∧ t.rst.stuck = false ∧ t.clk = { s.clk with stopped := false } ∧
      t.pic = { s.pic with latches := [] }
    ∧ t.get fRST_STATUS_STEP = 2 ∧ t.get (fRST_T 1) = min us 4294967295 ∧ t.bit fRST_EVT_STEP = true ∧
      (∀ n ∈ s.pic.latches, n < 384 → t.pend n = true) ∧ SameMem s t ∧ PartsBut s t [.rst, .clk, .pic])
  ∧
  -- stepOptions
  (∀ (s : State) (us : Nat) (manager : Bool) (pos : Fin 8), s.rst.next = 3 → s.rst.stuck = false →
    pwrState s < 2 → (¬(manager = true ∧ s.straps.orderB = true)) → (¬(manager = false ∧ pos = 0)) →
    ∃ t, exec (.bringupStepComplete (.options us true manager pos)) s = .next t ∧ t.straps = ⟨manager,
      s.straps.orderB, if manager then 0 else pos⟩ ∧ t.bit fSYS_STATUS_MANAGER = manager ∧
      t.bit fECN_STATUS_MANAGER = manager ∧ t.get fECN_STATUS_POS = t.straps.pos
    ∧ t.rst = { s.rst with next := 4, busy := 0, us0 := us, ticks := 0 } ∧ t.get fRST_STATUS_STEP = 3 ∧
      t.get (fRST_T 2) = min us 4294967295 ∧ Records s t [] ∧ SameMem s t ∧ PartsBut s t [.rst, .straps])
  ∧
  -- stepOptionsStop
  (∀ (s : State) (us : Nat) (manager : Bool) (pos : Fin 8), s.rst.next = 3 → s.rst.stuck = false →
    pwrState s < 2 → Room s 2 → (manager = true ∧ s.straps.orderB = true ∨ manager = false ∧ pos = 0) →
    ∃ t, exec (.bringupStepComplete (.options us true manager pos)) s = .next t ∧
      t.rst = { s.rst with stuck := true, busy := 0 } ∧ t.get fRST_STATUS_FAIL = (if manager then 4 else 5) ∧
      SameMem s t ∧ PartsBut s t [.rst, .straps]
    ∧ Records s t [s.evOf (if manager then 0x1010 else 0x1011), s.evOf 0xC103 3 (if manager then 4 else 5)])
  ∧
  -- stepOptionsAgain
  (∀ (s : State) (us : Nat) (manager : Bool) (pos : Fin 8), s.rst.next = 3 → s.rst.stuck = false →
    pwrState s < 2 → s.get fRST_STATUS_OPT_RESTARTS < 14 →
    ∃ t, exec (.bringupStepComplete (.options us false manager pos)) s = .next t ∧
      Does s t [(fRST_STATUS_OPT_RESTARTS, s.get fRST_STATUS_OPT_RESTARTS + 1)]
      (if s.evr.intake.length < 256 then [s.evOf 0xC102 0 0 f16NaN (f16OfNat (s.get fRST_STATUS_OPT_RESTARTS + 1))]
      else []) [] ∨ 256 ≤ s.evr.intake.length)
  ∧
  -- stepOptionsGiveUp
  (∀ (s : State) (us : Nat) (manager : Bool) (pos : Fin 8), s.rst.next = 3 → s.rst.stuck = false →
    pwrState s < 2 → 14 ≤ s.get fRST_STATUS_OPT_RESTARTS →
    ∃ t, exec (.bringupStepComplete (.options us false manager pos)) s = .next t ∧
      t.rst = { s.rst with stuck := true, busy := 0 } ∧ t.get fRST_STATUS_FAIL = 6 ∧
      t.get fRST_STATUS_OPT_RESTARTS = 15 ∧ SameMem s t ∧ PartsBut s t [.rst])
  ∧
  -- stepBoot
  (∀ (s : State) (us : Nat) (fail : Fin 64) (vers : List Nat) (copyOk stagedOk : Bool), s.rst.next = 4 →
    s.rst.stuck = false → pwrState s < 2 → bootFails fail vers s = 0 →
    (readConfig copyOk (showKeys { s with sec := { s.sec with bootFail := 0 } })).1 = true →
    ∃ t, exec (.bringupStepComplete (.boot us fail vers copyOk stagedOk)) s = .next t ∧ t.rst.next = 5 ∧
      t.rst.busy = 0 ∧ t.get fRST_STATUS_STEP = 4 ∧ t.get (fRST_T 3) = min us 4294967295 ∧
      t.bit fRST_EVT_STEP = true ∧ t.bit fSEC_STATUS_BOOT_OK = true ∧ t.sec.bootFail = 0)
  ∧
  -- stepBootPart
  (∀ (s : State) (us : Nat) (fail : Fin 64) (vers : List Nat) (copyOk stagedOk : Bool) (u : State),
    s.rst.next = 4 → s.rst.stuck = false → pwrState s < 2 → (∀ k < 3,
    (bootFails fail vers s).testBit k = false) →
    u = showKeys { forUp 6 (fun k t => if (bootFails fail vers s).testBit k then bootBad k t else t) s with sec := { s.sec with bootFail := bootFails fail vers s } } →
    (readConfig copyOk u).1 = true →
    ∃ t, exec (.bringupStepComplete (.boot us fail vers copyOk stagedOk)) s = .next t ∧ t.rst.next = 5 ∧
      t.get fRST_STATUS_STEP = 4 ∧ t.bit fSEC_STATUS_BOOT_OK = true ∧ t.sec.bootFail = bootFails fail vers s)
  ∧
  -- bootCheck
  (∀ (s : State) (fail : Nat) (vers : List Nat) (k : Fin 6),
    (bootFails fail vers s).testBit k = true ↔ fail.testBit k = true ∨ vers.getD k 0 < s.get fUPD_FLOOR)
  ∧
  -- stepBootBad
  (∀ (s : State) (us : Nat) (fail : Fin 64) (vers : List Nat) (copyOk stagedOk : Bool), s.rst.next = 4 →
    s.rst.stuck = false → pwrState s < 2 → (∃ k < 3, (bootFails fail vers s).testBit k = true) →
    ∃ t, exec (.bringupStepComplete (.boot us fail vers copyOk stagedOk)) s = .next t ∧
      t.rst = { s.rst with stuck := true, busy := 0 } ∧ t.get fRST_STATUS_FAIL = 1 ∧
      t.sec.bootFail = bootFails fail vers s ∧ t.get fSEC_KEYS_VALID = keysOf (s.get fSEC_STATUS_LC) ∧
      (∀ k : Fin 6, (bootFails fail vers s).testBit k = true → t.bitAt fSEC_STATUS_BOOT_FAIL k = true)
    ∧ (Room s 7 → (∃ e ∈ t.evr.intake, e.code = 0xB001) ∧ ∃ e ∈ t.evr.intake, e.code = 0xC103 ∧ e.src = 4 ∧
      e.flags = 1) ∧ SameMem s t ∧ PartsBut s t [.rst, .sec])
  ∧
  -- stepBootNoConfig
  (∀ (s : State) (us : Nat) (fail : Fin 64) (vers : List Nat) (copyOk stagedOk : Bool), s.rst.next = 4 →
    s.rst.stuck = false → pwrState s < 2 → bootFails fail vers s = 0 → s.cfg.nor = [] → s.rst.kept = false →
    ∃ t, exec (.bringupStepComplete (.boot us fail vers copyOk stagedOk)) s = .next t ∧
      t.rst = { s.rst with stuck := true, busy := 0 } ∧ t.get fRST_STATUS_FAIL = 2 ∧
      t.bitAt fSEC_STATUS_BOOT_FAIL 6 = true ∧ t.get fCFG_STATUS_FAIL_CHK = 1 ∧ SameMem s t ∧
      PartsBut s t [.rst, .sec]
    ∧ (Room s 5 → Records s t [s.evOf 0xA009 0 1, s.evOf 0xA009 1 1, s.evOf 0xA00A, s.evOf 0xB001 0 6,
      s.evOf 0xC103 4 2]))
  ∧
  -- stepLanes
  (∀ (s : State) (us : Nat) (a b : Bool), s.rst.next = 5 → s.rst.stuck = false → pwrState s < 2 →
    ∃ t, exec (.bringupStepComplete (.lanes us a b)) s = .next t ∧ (t.lane 0).passed = a ∧
      (t.lane 1).passed = b ∧ SameMem s t ∧ PartsBut s t [.rst, .clm]
    ∧ (if a || b then t.rst = { s.rst with next := 6, busy := 0, us0 := us, ticks := 0 } ∧
      t.get fRST_STATUS_STEP = 5 ∧ t.get (fRST_T 4) = min us 4294967295 ∧ Records s t []
      else t.rst = { s.rst with stuck := true, busy := 0 } ∧ t.get fRST_STATUS_FAIL = 3 ∧ (Room s 1 →
      Records s t [s.evOf 0xC103 5 3])))
  ∧
  -- stepStages
  (∀ (s : State) (us : Nat) (dies : List (Fin 12 × Bool)) (a : Nat), s.rst.next = 6 → s.rst.stuck = false →
    pwrState s < 2 → a ∉ [fRST_STATUS.addr, (fRST_T 5).addr, fRST_EVT.addr, fCLK_DOM_LOCK.addr] →
    ∃ t, exec (.bringupStepComplete (.stages us dies)) s = .next t ∧ t.rst.next = 7 ∧
      t.get fRST_STATUS_STEP = 6 ∧ t.get (fRST_T 5) = min us 4294967295 ∧
      t.rd a = (handshake (List.range 12) dies true s).rd a ∧
      t.dies = (handshake (List.range 12) dies true s).dies
    ∧ t.evr = (handshake (List.range 12) dies true s).evr ∧ t.mem = (handshake (List.range 12) dies true s).mem)
  ∧
  -- stepServices
  (∀ (s : State) (us : Nat) (gns : GnssStart) (a : Nat), s.rst.next = 7 → s.rst.stuck = false → pwrState s < 2 →
    a ∉ [fRST_STATUS.addr, (fRST_T 6).addr, fRST_EVT.addr, fCLK_DOM_LOCK.addr] →
    ∃ t, exec (.bringupStepComplete (.services us gns)) s = .next t ∧ t.rst.next = 8 ∧
      t.get fRST_STATUS_STEP = 7 ∧ t.get (fRST_T 6) = min us 4294967295 ∧
      t.rd a = (startServices gns s.rst.kept s).rd a
    ∧ t.rst.appUp = !s.sec.bootFail.testBit 3 ∧ t.upd.gnsUp = !s.sec.bootFail.testBit 4
    ∧ t.ecn.listenAt = t.clk.tick ∧ t.ecn.since = t.clk.tick ∧ t.evr = (startServices gns s.rst.kept s).evr)
  ∧
  -- stepRing
  (∀ (s : State) (us : Nat), s.rst.next = 8 → s.rst.stuck = false → pwrState s < 2 → ((s.straps.manager = true ∧
    s.ecn.firstAt.isSome = true) ∨ (s.straps.manager = false ∧ ecnJoin s = 2)) →
    ∃ t, exec (.bringupStepComplete (.ring us)) s = .next t ∧ Does s t [(fRST_STATUS_STEP, 8), (fRST_T 7,
      min us 4294967295), (fRST_EVT_STEP, 1), (wordAt fCLK_DOM_LOCK.addr, t.get (wordAt fCLK_DOM_LOCK.addr))] []
      [.rst] ∧ t.rst = { s.rst with next := 9, busy := 0, us0 := us, ticks := 0 })
  ∧
  -- stepRefStop
  (∀ (s : State) (us : Nat), s.rst.next = 2 → s.rst.stuck = false → pwrState s < 2 → s.rst.kept = false →
    s.get fRST_STATUS_OPT_RESTARTS = 15 →
    ∃ t, exec (.bringupStepComplete (.ref us)) s = .next t ∧ t.rst.stuck = true ∧ t.rst.next = 3 ∧
      t.get fRST_STATUS_FAIL = 6 ∧ t.get fRST_STATUS_STEP = 2 ∧ SameMem s t ∧ PartsBut s t [.rst, .clk, .pic])
  ∧
  -- stepOther
  (∀ (s : State) (inp : BringIn), (s.rst.stuck = true ∨ 2 ≤ pwrState s ∨
    s.rst.next ≠ (match inp with | .kal .. => 1 | .ref .. => 2 | .options .. => 3 | .boot .. => 4 | .lanes .. => 5 | .stages .. => 6 | .services .. => 7 | .ring .. => 8)) →

    ∃ t, exec (.bringupStepComplete inp) s = .next t ∧ t = s)
  ∧
  -- stepRingNot
  (∀ (s : State) (us : Nat), ((s.straps.manager = true ∧ s.ecn.firstAt = none) ∨ (s.straps.manager = false ∧
    ecnJoin s ≠ 2)) →
    ∃ t, exec (.bringupStepComplete (.ring us)) s = .next t ∧ t = s)
  ∧
  -- fullService
  (∀ (s : State) (app : Nat) (late : Bool), 8 ≤ s.rst.next → s.rst.appUp = true → pwrState s = 0 →
    app ≤ s.since9V → (s.straps.manager = true → ∀ k ∈ [1, 2, 3, 4], ∃ x ∈ s.rst.ready, x.1 = k) →
    s.bit fRST_STATUS_FULL = false → (late = true ↔ 6000000 < app ∨ (s.straps.manager = true ∧
    ∃ x ∈ s.rst.ready, svcLimit x.1 < x.2)) → Room s 1 →
    ∃ t, exec (.fullService app) s = .next t ∧ Does s t [(fRST_STATUS_FULL, 1), (fRST_EVT_FULL, 1)]
      [s.evOf 0xC105 0 (if late then 1 else 0) f16NaN (f16OfNat (s.since9V / 1000))] [])
  ∧
  -- fullNot
  (∀ (s : State) (app : Nat), (s.rst.next < 8 ∨ s.rst.appUp = false ∨ pwrState s ≠ 0 ∨ s.since9V < app ∨
    (s.straps.manager = true ∧ ∃ k ∈ [1, 2, 3, 4], ∀ x ∈ s.rst.ready, x.1 ≠ k) ∨
    s.bit fRST_STATUS_FULL = true) →
    ∃ t, exec (.fullService app) s = .next t ∧ t = s)

/-- LOUVRE takes the module from OPEN to LOUVRED: the services of OPEN stop and a STAGING transaction is rolled back,
and the loops, the lanes, the stages and their registers stay as they are. OPEN starts the services again, but for
those whose image failed, unless LIMP holds the module. DESCEND and an IGN that has stayed low for its delay begin a
waiting descent to the state of OFF_STATE. Its start is recorded once, with its reason, where a guard of R429 fails,
and marks tick D where they hold, with the map journal requested. A wake during the wait ends the descent with
0xC003, from PARK on it is held. The wake sources are those of R354 and R427: RESET_N only in the lower states, and
the RTC alarm at its second outside BOLTED. A request of the OEM partition changes nothing. That a command whose
conditions do not hold changes nothing is the model's reading (log entry 15). Where the spec leaves the choice open
or has to be read by inference, the clauses state the model's, of log entry 37. (R37, R382, R428, R429, R430, R442) -/
def Obligations.PowerTransitions : Prop :=
  -- louvre
  (∀ (s : State) (req : Req) (a : Nat), reqIsOem req = false → pwrState s = 0 →
    (inPage 3 a || inPage 4 a || inPage 5 a || inPage 6 a || inPage 7 a || inPage 8 a || inPage 24 a) = true →
    ∃ t, exec (.louvre req) s = .next t ∧ pwrState t = 1 ∧ t.bit fPWR_EVT_STATE_CHG = true ∧
      t.bit fPWR_STATUS_LIMP_HOLD = s.bit fCLM_STATUS_LIMP ∧ t.bit fMAP_STATUS_RUN = false ∧
      t.bit fFUS_STATUS_RUN = false
    ∧ t.isp.on = false ∧ t.eth.services = 0 ∧ t.cfg.tx = none ∧ t.rd a = s.rd a ∧ SameMem s t ∧
      PartsBut s t [.isp, .eth, .can, .cfg] ∧ (Room s 4 → ∃ e ∈ t.evr.intake, e.code = 0xC001 ∧ e.flags = 1))
  ∧
  -- louvreIgnored
  (∀ (s : State) (req : Req), (reqIsOem req = true ∨ pwrState s ≠ 0) →
    ∃ t, exec (.louvre req) s = .next t ∧ t = s)
  ∧
  -- pwrOpen
  (∀ (s : State) (req : Req) (a : Nat), reqIsOem req = false → pwrState s = 1 → s.pwr.parkAt = none →
    inLimp s = false →
    (inPage 3 a || inPage 4 a || inPage 5 a || inPage 6 a || inPage 7 a || inPage 8 a || inPage 24 a) = true →
    ∃ t, exec (.pwrOpen req) s = .next t ∧ pwrState t = 0 ∧ t.bit fPWR_EVT_STATE_CHG = true ∧ t.rd a = s.rd a ∧
      (s.wide = true → t.bit fMAP_STATUS_RUN = true ∧
      t.bit fFUS_STATUS_RUN = (s.bit fFUS_STATUS_RUN || !s.sec.bootFail.testBit 3) ∧
      t.isp.on = (s.isp.on || !s.sec.bootFail.testBit 5))
    ∧ SameMem s t ∧ PartsBut s t [.isp, .eth, .fus] ∧ (Room s 2 → ∃ e ∈ t.evr.intake, e.code = 0xC001 ∧
      e.flags = 0))
  ∧
  -- pwrOpenLimp
  (∀ (s : State) (req : Req), reqIsOem req = false → pwrState s = 1 → s.pwr.parkAt = none → inLimp s = true →
    ∃ t, exec (.pwrOpen req) s = .next t ∧ Does s t [(fPWR_STATUS_LIMP_HOLD, 1)] [] [])
  ∧
  -- pwrOpenIgnored
  (∀ (s : State) (req : Req), (reqIsOem req = true ∨ pwrState s ≠ 1 ∨ s.pwr.parkAt.isSome = true) →
    ∃ t, exec (.pwrOpen req) s = .next t ∧ t = s)
  ∧
  -- descend
  (∀ (s : State) (req : Req), reqIsOem req = false → pwrState s < 2 → s.bit fPWR_STATUS_DESCENT = false →
    ∃ t, exec (.descend req) s = .next t ∧ Does s t [(fPWR_STATUS_DESCENT, 1)] [] [.pwr] ∧
      t.pwr = { s.pwr with target := 2 + s.get fPWR_CFG_OFF_STATE, journalAt := none, parkAt := none, told := false })
  ∧
  -- descendIgnored
  (∀ (s : State) (req : Req), (reqIsOem req = true ∨ 2 ≤ pwrState s ∨ s.bit fPWR_STATUS_DESCENT = true) →
    ∃ t, exec (.descend req) s = .next t ∧ t = s)
  ∧
  -- ignLow
  (∀ (s : State), s.bit fPWR_STATUS_IGN = false → s.bit fSEC_STATUS_BOOT_OK = true →
    s.pwr.ignAt + 2000 * s.get fPWR_CFG_IGN_DLY ≤ s.clk.tick → pwrState s < 2 →
    s.bit fPWR_STATUS_DESCENT = false →
    ∃ t, exec (.ignLowTimeout) s = .next t ∧ Does s t [(fPWR_STATUS_DESCENT, 1)] [] [.pwr] ∧
      t.pwr = { s.pwr with target := 2 + s.get fPWR_CFG_OFF_STATE, journalAt := none, parkAt := none, told := false })
  ∧
  -- ignHigh
  (∀ (s : State), (s.bit fPWR_STATUS_IGN = true ∨ s.bit fSEC_STATUS_BOOT_OK = false ∨
    s.clk.tick < s.pwr.ignAt + 2000 * s.get fPWR_CFG_IGN_DLY ∨ 2 ≤ pwrState s ∨
    s.bit fPWR_STATUS_DESCENT = true) →
    ∃ t, exec (.ignLowTimeout) s = .next t ∧ t = s)
  ∧
  -- descentStart
  (∀ (s : State), s.bit fPWR_STATUS_DESCENT = true → s.pwr.journalAt = none → descentWhy s = 0 →
    ∃ t, exec (.descentStart) s = .next t ∧ Does s t [] [] [.pwr, .map] ∧
      t.pwr = { s.pwr with journalAt := some s.clk.tick } ∧
      t.map = { s.map with journalNow := if s.wide && s.bit fMAP_STATUS_RUN then some s.clk.tick else s.map.journalNow })
  ∧
  -- descentHeld
  (∀ (s : State), s.bit fPWR_STATUS_DESCENT = true → s.pwr.journalAt = none → descentWhy s ≠ 0 →
    s.pwr.told = false → Room s 1 →
    ∃ t, exec (.descentStart) s = .next t ∧ Does s t [] [s.evOf 0xC004 0 (descentWhy s)] [.pwr] ∧
      t.pwr = { s.pwr with told := true })
  ∧
  -- descentGuards
  (∀ (s : State),
    (s.straps.manager = true → s.upd.slow < 400 → descentWhy s = 1) ∧ (s.straps.manager = true →
      400 ≤ s.upd.slow → (unlState s ≠ 0 ∨ f32IsZero (s.getF (fFUN_REC_SP_TGT 18)) = false) → descentWhy s = 2)
    ∧ (s.straps.manager = true → 400 ≤ s.upd.slow → unloadOk s = true → ((∃ k : Fin 9, s.get (fRegion k) ≠ 0) ∨
      s.cfg.writing ≠ none) → descentWhy s = 3)
    ∧ (s.straps.manager = true → 400 ≤ s.upd.slow → unloadOk s = true → (∀ k : Fin 9, s.get (fRegion k) = 0) →
      s.cfg.writing = none → descentWhy s = (if s.get fUPD_STATUS_STATE = 0 ∨ s.get fUPD_STATUS_STATE = 2 ∨
      s.get fUPD_STATUS_STATE = 5 then 0 else 4))
    ∧ (s.straps.manager = false → s.get fCLK_STATUS_ALIGN ≠ 2 → descentWhy s = 5) ∧ (s.straps.manager = false →
      s.get fCLK_STATUS_ALIGN = 2 → s.cfg.writing = none → descentWhy s = 0)
    ∧ (s.straps.manager = false → s.get fCLK_STATUS_ALIGN = 2 → s.cfg.writing ≠ none → descentWhy s = 3))
  ∧
  -- descentNot
  (∀ (s : State), (s.bit fPWR_STATUS_DESCENT = false ∨ s.pwr.journalAt.isSome = true ∨ descentWhy s ≠ 0 ∧
    s.pwr.told = true) →
    ∃ t, exec (.descentStart) s = .next t ∧ t = s)
  ∧
  -- wakeAborts
  (∀ (s : State) (src : Fin 5) (port : Fin 6) (inp : WakeIn), wakeOk src port inp s = true → pwrState s < 2 →
    s.bit fPWR_STATUS_DESCENT = true → s.pwr.parkAt = none → Room s 2 →
    ∃ t, exec (.wake src port inp) s = .next t ∧ Does s t ([(fPWR_STATUS_DESCENT, 0)]
      ++ (if src.val = 0 then [(fPWR_STATUS_IGN, 1)] else []) ++ [(fPWR_WAKE_SRC, 2 ^ src.val), (fPWR_WAKE_PORT,
      if src.val = 1 ∨ src.val = 2 then 2 ^ port.val else 0), (fPWR_CNT_WAKES, s.up fPWR_CNT_WAKES),
      (fPWR_EVT_WAKE, 1), (fPWR_CNT_ABORTS, s.up fPWR_CNT_ABORTS), (fPWR_EVT_DESC_ABORT, 1)])
    [s.evOf 0xC002 0 (2 ^ src.val), s.evOf 0xC003] [.pwr] ∧
      t.pwr = { s.pwr with journalAt := none, told := false })
  ∧
  -- wakeHeld
  (∀ (s : State) (src : Fin 5) (port : Fin 6) (inp : WakeIn), wakeOk src port inp s = true → pwrState s < 2 →
    s.bit fPWR_STATUS_DESCENT = true → s.pwr.parkAt.isSome = true →
    ∃ t, exec (.wake src port inp) s = .next t ∧ Does s t [] [] [.pwr] ∧
      t.pwr = { s.pwr with held := some (src, port, inp) })
  ∧
  -- wakeNot
  (∀ (s : State) (src : Fin 5) (port : Fin 6) (inp : WakeIn), (wakeOk src port inp s = false ∨ pwrState s < 2 ∧
    s.bit fPWR_STATUS_DESCENT = false) →
    ∃ t, exec (.wake src port inp) s = .next t ∧ t = s)
  ∧
  -- wakeSources
  (∀ (s : State) (port : Fin 6) (inp : WakeIn),
    wakeOk 0 port inp s = true ∧ wakeOk 4 port inp s = decide (2 ≤ pwrState s) ∧
      (s.get (fCAN_PORT_CFG_WAKE port) = 1 → wakeOk 1 port inp s = true) ∧
      (s.get (fCAN_PORT_CFG_WAKE port) = 0 → wakeOk 1 port inp s = false ∧ wakeOk 2 port inp s = false)
    ∧ (s.get (fCAN_PORT_CFG_WAKE port) = 2 → wakeOk 1 port inp s = decide (pwrState s = 4)) ∧
      (s.get (fCAN_PORT_CFG_WAKE port) = 2 → pwrState s ≠ 4 → inp.frame = none → wakeOk 2 port inp s = true)
    ∧ (pwrState s = 4 → wakeOk 2 port inp s = false)
    ∧ (∀ i x, s.get (fCAN_PORT_CFG_WAKE port) = 2 → pwrState s ≠ 4 → inp.frame = some (i, x) →
        (wakeOk 2 port inp s = true ↔ x = s.bit (fCAN_WAKE_ID_IDE port) ∧
          (i &&& s.get (fCAN_WAKE_MASK_MASK port)) = (s.get (fCAN_WAKE_ID_ID port) &&& s.get (fCAN_WAKE_MASK_MASK port))))
    ∧ (wakeOk 3 port inp s = true ↔ pwrState s ≠ 4 ∧ s.get fPWR_ALARM ≠ 0 ∧
      s.get fPWR_RTC + inp.elapsed / 20000 = s.get fPWR_ALARM))

/-- PARK comes at the first frame boundary after the journal commit or 5 s: LOUVRED, no claims, every stage released,
and the events flushed. 400 ticks later the output-stage dies lose their supply, and 1,000 ticks later the main die
enters the target state, SHUTTERED in place of LATCHED under LIMP. There the lanes' SRAM is lost, below LATCHED all
memory, halts and sessions end, and a held wake acts at once. A wake from SHUTTERED or BOLTED starts the module from
step 2 as an EXTERNAL reset, as RESET_N does from LATCHED; any other wake from LATCHED resumes it, or leads to step
4 where the retained configuration fails. The time limits, and a battery that lies below its limit, lead from
LATCHED to SHUTTERED and from there to BOLTED; a low battery shows and is recorded. Where its condition does not
hold, each command changes nothing. That a command whose conditions do not hold changes nothing is the model's
reading (log entry 15). Where the spec leaves the choice open or has to be read by inference, the clauses state the
model's, of log entries 90, 96, 97, 162. (R354, R427, R428, R430, R431, R438, R440, R442) -/
def Obligations.DescentAndWake : Prop :=
  -- park
  (∀ (s : State), s.pwr.parkAt = none → s.clk.tick % 400 = 0 → (∃ d, s.pwr.journalAt = some d ∧ d < s.clk.tick ∧
    (((s.map.journalNow = none ∨ s.wide = false ∨ s.bit fMAP_STATUS_RUN = false) ∧ s.map.writing = none) ∨
    d + 100000 ≤ s.clk.tick)) → pwrState s < 2 →
    ∃ t, exec (.park) s = .next t ∧ pwrState t = 1 ∧ t.pwr = { s.pwr with parkAt := some s.clk.tick } ∧
      t.get fCLM_STATUS_CLAIM_A = 0 ∧ t.get fCLM_STATUS_CLAIM_B = 0 ∧ t.evr.intake = [] ∧ t.evr.unwritten = []
    ∧ (∀ c : Fin 64, (t.jamb c).pol = false) ∧ t.clk = s.clk ∧ t.loopA = s.loopA ∧ t.loopB = s.loopB ∧
      t.fn = s.fn ∧ SameMem s t)
  ∧
  -- parkWaits
  (∀ (s : State), (s.pwr.journalAt = none ∨ s.pwr.parkAt.isSome = true ∨ s.clk.tick % 400 ≠ 0 ∨ ∃ d,
    s.pwr.journalAt = some d ∧ (s.clk.tick ≤ d ∨ ((s.map.journalNow ≠ none ∧ s.wide = true ∧
    s.bit fMAP_STATUS_RUN = true) ∨ s.map.writing.isSome = true) ∧ s.clk.tick < d + 100000)) →
    ∃ t, exec (.park) s = .next t ∧ t = s)
  ∧
  -- dieSupplyOff
  (∀ (s : State) (p d : Nat), s.pwr.parkAt = some p → p + 400 ≤ s.clk.tick → s.dies.dieOff = false → d < 12 →
    ∃ t, exec (.dieSupplyOff) s = .next t ∧ t.dies.dieOff = true ∧ t.dies.hs = [] ∧ t.dies.live = [] ∧
      dieUp t d = false ∧ (∀ n : Fin 16, t.get (fVLV_CH_STAT_PHASE n) = 0) ∧ (∀ n : Fin 32,
      t.get (fPSW_CH_STAT_STATE n) = 0) ∧ t.clk = s.clk ∧ t.pwr = s.pwr ∧ SameMem s t)
  ∧
  -- dieSupplyOn
  (∀ (s : State), (s.pwr.parkAt = none ∨ (∃ p, s.pwr.parkAt = some p ∧ s.clk.tick < p + 400) ∨
    s.dies.dieOff = true) →
    ∃ t, exec (.dieSupplyOff) s = .next t ∧ t = s)
  ∧
  -- descentComplete
  (∀ (s : State) (p : Nat), s.pwr.parkAt = some p → p + 1000 ≤ s.clk.tick → s.pwr.held = none → pwrState s < 2 →
    2 ≤ s.pwr.target → s.pwr.target ≤ 4 →
    ∃ t, exec (.descentComplete) s = .next t ∧ pwrState t = (if s.pwr.target = 2 ∧
      inLimp s = true then 3 else s.pwr.target) ∧ t.bit fPWR_STATUS_DESCENT = false ∧
      t.bit fPWR_STATUS_LIMP_HOLD = false ∧ t.get fSEC_HALT_CORES = 0 ∧
      t.get fSEC_STATUS_LEVEL = (if s.get fSEC_STATUS_LEVEL = 2 ∨
      3 ≤ pwrState t then 0 else s.get fSEC_STATUS_LEVEL)
    ∧ t.pwr = { s.pwr with journalAt := none, parkAt := none, told := false, enteredAt := s.get fPWR_RTC } ∧
      t.ecn = { Ecn.init with wasJoined := false } ∧ t.evr.intake = [] ∧ (3 ≤ pwrState t → t.mem = []) ∧
      t.clk = s.clk ∧ t.pending = s.pending)
  ∧
  -- descentCompleteWake
  (∀ (s : State) (p : Nat) (src : Fin 5) (port : Fin 6) (inp : WakeIn), s.pwr.parkAt = some p →
    p + 1000 ≤ s.clk.tick → s.pwr.held = some (src, port, inp) →
    ∃ t, exec (.descentComplete) s = .next t ∧ t = wake src port inp (enterLow (if s.pwr.target = 2 ∧
      inLimp s = true then 3 else s.pwr.target) s))
  ∧
  -- descentNotComplete
  (∀ (s : State), (s.pwr.parkAt = none ∨ ∃ p, s.pwr.parkAt = some p ∧ s.clk.tick < p + 1000) →
    ∃ t, exec (.descentComplete) s = .next t ∧ t = s)
  ∧
  -- wakeStart
  (∀ (s : State) (src : Fin 5) (port : Fin 6) (inp : WakeIn), wakeOk src port inp s = true → 3 ≤ pwrState s →
    ∃ t, exec (.wake src port inp) s = .next t ∧ t.rst.next = 2 ∧ t.rst.busy = 2 ∧ t.mem = [] ∧ t.clk.tick = 0 ∧
      pwrState t = 0 ∧ t.bit fPWR_EVT_STATE_CHG = true ∧ t.bit fPWR_EVT_WAKE = true ∧
      t.get fPWR_WAKE_SRC = 2 ^ src.val ∧ t.get fPWR_WAKE_PORT = (if src.val = 1 ∨
      src.val = 2 then 2 ^ port.val else 0)
    ∧ t.get fRST_CAUSE_SRC = (s.get fRST_CAUSE_SRC ||| 4) ∧ t.get fRST_CNT_EXTERNAL = s.up fRST_CNT_EXTERNAL ∧
      t.get fPWR_RTC = (s.get fPWR_RTC + inp.elapsed / 20000) % 2 ^ 32 ∧ (src.val = 0 →
      t.bit fPWR_STATUS_IGN = true)
    ∧ t.map.store = s.map.store ∧ t.cfg.nor = s.cfg.nor ∧ t.straps = s.straps ∧ t.pending = s.pending)
  ∧
  -- wakeResume
  (∀ (s : State) (src : Fin 5) (port : Fin 6) (inp : WakeIn) (i : ImageIn), wakeOk src port inp s = true →
    pwrState s = 2 → src ≠ 4 → inp.copyOk = true → s.cfg.image = some i → (inp.passA = true ∨
    inp.passB = true) →
    ∃ t, exec (.wake src port inp) s = .next t ∧ t.rst.next = 9 ∧ t.rst.us0 = inp.us ∧ t.rst.ticks = 0 ∧
      t.get fRST_STATUS_STEP = 7 ∧ t.ecn.listenAt = t.clk.tick
    ∧ pwrState t = 0 ∧ t.get fPWR_WAKE_SRC = 2 ^ src.val ∧
      t.clk.tick = s.clk.tick + (if s.straps.manager then inp.elapsed else 0))
  ∧
  -- wakeResumeLanes
  (∀ (s : State) (src : Fin 5) (port : Fin 6) (inp : WakeIn) (i : ImageIn), wakeOk src port inp s = true →
    pwrState s = 2 → src ≠ 4 → inp.copyOk = true → s.cfg.image = some i → inp.passA = false →
    inp.passB = false →
    ∃ t, exec (.wake src port inp) s = .next t ∧ t.rst.stuck = true ∧ t.rst.next = 5 ∧
      t.get fRST_STATUS_FAIL = 3 ∧ pwrState t = 0)
  ∧
  -- wakeResumeFails
  (∀ (s : State) (src : Fin 5) (port : Fin 6) (inp : WakeIn), wakeOk src port inp s = true → pwrState s = 2 →
    src ≠ 4 → (inp.copyOk = false ∨ s.cfg.image = none) →
    ∃ t, exec (.wake src port inp) s = .next t ∧ t.rst.next = 4 ∧ t.rst.kept = false ∧ pwrState t = 0 ∧
      t.bit fPWR_EVT_WAKE = true ∧ t.get fPWR_WAKE_SRC = 2 ^ src.val ∧ t.clk.cycle = 0 ∧
      t.clk.tick = s.clk.tick + (if s.straps.manager then inp.elapsed else 0)
    ∧ t.rd8 0x100000000 = s.rd8 0x100000000 ∧ t.rd8 0 = memDefault 0 ∧ t.map = s.map ∧ t.evr.sill = s.evr.sill ∧
      t.evr.flash = s.evr.flash ∧ t.sec = s.sec ∧ t.pnl = s.pnl ∧ t.straps = s.straps)
  ∧
  -- wakeReset
  (∀ (s : State) (port : Fin 6) (inp : WakeIn), pwrState s = 2 →
    ∃ t, exec (.wake 4 port inp) s = .next t ∧ t.rst.next = 2 ∧ t.rst.busy = 2 ∧ t.mem = [] ∧ t.clk.tick = 0 ∧
      pwrState t = 0 ∧ t.get fPWR_WAKE_SRC = 16 ∧ t.get fRST_CAUSE_SRC = (s.get fRST_CAUSE_SRC ||| 4) ∧
      t.cfg.nor = s.cfg.nor ∧ t.straps = s.straps)
  ∧
  -- latchMax
  (∀ (s : State) (battery : Bool), pwrState s = 2 →
    (if battery then s.get fPWR_CFG_BATT_LOW else s.get fPWR_CFG_LATCH_MAX) ≠ 0 → (battery = true →
    s.get fPWR_KAL_MV10 < 50 * s.get fPWR_CFG_BATT_LOW) → 2 ≤ s.rst.next →
    ∃ t, exec (.latchMaxExpire battery) s = .next t ∧ pwrState t = 3 ∧ t.mem = [] ∧
      t.get fSEC_STATUS_LEVEL = 0 ∧ t.evr.intake = [t.evOf 0xC006 0 2] ∧
      t.pwr = { s.pwr with journalAt := none, parkAt := none, told := false, enteredAt := s.get fPWR_RTC } ∧
      t.clk = s.clk ∧ t.map.store = s.map.store)
  ∧
  -- latchMaxNot
  (∀ (s : State) (battery : Bool), (pwrState s ≠ 2 ∨
    (if battery then s.get fPWR_CFG_BATT_LOW else s.get fPWR_CFG_LATCH_MAX) = 0 ∨ (battery = true ∧
    50 * s.get fPWR_CFG_BATT_LOW ≤ s.get fPWR_KAL_MV10)) →
    ∃ t, exec (.latchMaxExpire battery) s = .next t ∧ t = s)
  ∧
  -- shutMax
  (∀ (s : State) (battery : Bool), pwrState s = 3 →
    (if battery then s.get fPWR_CFG_BATT_LOW else s.get fPWR_CFG_SHUT_MAX) ≠ 0 → (battery = true →
    s.get fPWR_KAL_MV10 < 50 * s.get fPWR_CFG_BATT_LOW) → 2 ≤ s.rst.next →
    ∃ t, exec (.shutMaxExpire battery) s = .next t ∧ pwrState t = 4 ∧ t.mem = [] ∧
      t.evr.intake = [if battery then t.evOf 0xC005 0 0 (kalVolts t) f16NaN else t.evOf 0xC006 0 3] ∧
      t.pwr = { s.pwr with journalAt := none, parkAt := none, told := false, enteredAt := s.get fPWR_RTC } ∧
      t.clk = s.clk)
  ∧
  -- shutMaxNot
  (∀ (s : State) (battery : Bool), (pwrState s ≠ 3 ∨
    (if battery then s.get fPWR_CFG_BATT_LOW else s.get fPWR_CFG_SHUT_MAX) = 0 ∨ (battery = true ∧
    50 * s.get fPWR_CFG_BATT_LOW ≤ s.get fPWR_KAL_MV10)) →
    ∃ t, exec (.shutMaxExpire battery) s = .next t ∧ t = s)
  ∧
  -- batteryLow
  (∀ (s : State) (kal : Fin 4096), s.get fPWR_CFG_BATT_LOW ≠ 0 → kal.val < 50 * s.get fPWR_CFG_BATT_LOW →
    Room s 1 →
    ∃ t, exec (.batteryLow kal) s = .next t ∧ Does s t [(fPWR_KAL_MV10, kal), (fPWR_EVT_BATT_LOW, 1)]
      [s.evOf 0xC005 0 0 (kalVolts (s.put fPWR_KAL_MV10 kal)) f16NaN] [])
  ∧
  -- batteryOk
  (∀ (s : State) (kal : Fin 4096), (s.get fPWR_CFG_BATT_LOW = 0 ∨ 50 * s.get fPWR_CFG_BATT_LOW ≤ kal.val) →
    ∃ t, exec (.batteryLow kal) s = .next t ∧ t = s)

/-- PROVISION with the right signature and the latest nonce moves BLANK or RETURNED to FIELD with its keys, and counts
the return; RETURN in FIELD, with SPEED and no update, moves to RETURNED, destroys the field credential, makes the
stored map unreadable and resets the module. A refused command or token is counted and recorded as 0xB004 with its
reason and changes nothing else. A nonce is eight new words. A token raises the level; a PEEP token serves 8 h of
keep-alive time, a FULL one has no limit and is refused in FIELD. A level that falls at that time is recorded as
0xB005. While the security core does not run, none of the four commands changes anything. That a command whose
conditions do not hold changes nothing is the model's reading (log entry 15). Where the spec leaves the choice open
or has to be read by inference, the clauses state the model's, of log entries 84, 86, 98, 99, 100. (R432, R433,
R434, R437, R438, R443, R444) -/
def Obligations.LifeCycleAndTokens : Prop :=
  -- provision
  (∀ (s : State) (nonce : List Word) (ids : List (Fin 7 × Nat)), secRuns s = true → nonceOk nonce s = true →
    (s.get fSEC_STATUS_LC = 0 ∨ s.get fSEC_STATUS_LC = 2 ∧ s.get fSEC_STATUS_RETURNS < 3) → Room s 1 →
    ∃ t, exec (.provision true nonce ids) s = .next t ∧ t.get fSEC_STATUS_LC = 1 ∧
      t.get fSEC_STATUS_RETURNS = s.get fSEC_STATUS_RETURNS + (if s.get fSEC_STATUS_LC = 2 then 1 else 0) ∧
      t.get fSEC_KEYS_VALID = 0x6D ∧ t.bit fSEC_STATUS_MAPKEY = true ∧ t.bit fSEC_EVT_LC_CHG = true ∧
      t.bit fETH_STATUS_NO_CRED = false
    ∧
      t.sec = { s.sec with ids := ids.map (fun y => (y.1.val, y.2)) ++ s.sec.ids.filter fun x => !ids.any fun y => y.1.val == x.1 }
    ∧ (∀ k : Fin 7,
      t.get64 (fSEC_KEYID_LO k).addr = if Nat.testBit 0x6D k then ((t.sec.ids.find? fun x => x.1 == k.val).elim 0 Prod.snd) % 2 ^ 64 else 0)
    ∧ Records s t [s.evOf 0xB002 0 1] ∧ SameMem s t ∧ PartsBut s t [.sec])
  ∧
  -- provisionRefused
  (∀ (s : State) (sigOk : Bool) (nonce : List Word) (ids : List (Fin 7 × Nat)), secRuns s = true →
    (sigOk = false ∨ nonceOk nonce s = false ∨ s.get fSEC_STATUS_LC = 1 ∨ s.get fSEC_STATUS_LC = 2 ∧
    3 ≤ s.get fSEC_STATUS_RETURNS) → Room s 1 →
    ∃ t, exec (.provision sigOk nonce ids) s = .next t ∧ Does s t [(fSEC_CNT_AUTH_FAIL,
      s.up fSEC_CNT_AUTH_FAIL), (fSEC_EVT_AUTH_FAIL, 1)]
      [s.evOf 0xB004 0 (if sigOk = false then 1 else if nonceOk nonce s = false then 3 else 4)] [])
  ∧
  -- secReturn
  (∀ (s : State) (nonce : List Word), secRuns s = true → keyHeld s 3 = true → nonceOk nonce s = true →
    s.get fSEC_STATUS_LC = 1 → speedOk s = true → s.get fUPD_STATUS_STATE = 0 → s.rst.busy = 0 →
    ∃ t, exec (.secReturn true nonce) s = .next t ∧ t.get fSEC_STATUS_LC = 2 ∧
      t.get fSEC_STATUS_RETURNS = s.get fSEC_STATUS_RETURNS ∧ t.get fSEC_KEYS_VALID = 0x3F ∧ t.map.store = [] ∧
      t.sec.ids = s.sec.ids.filter (fun x => x.1 != 6) ∧ t.sec.nonce = []
    ∧ t.rst.next = 2 ∧ t.rst.busy = 1 ∧ t.get fRST_CAUSE_WARM_WHY = 1 ∧
      t.get fRST_CAUSE_SRC = (s.get fRST_CAUSE_SRC ||| 8) ∧ t.get fRST_CNT_WARM = s.up fRST_CNT_WARM ∧
      t.clk.tick = s.clk.tick)
  ∧
  -- secReturnRefused
  (∀ (s : State) (sigOk : Bool) (nonce : List Word), secRuns s = true → (sigOk = false ∨ keyHeld s 3 = false ∨
    nonceOk nonce s = false ∨ s.get fSEC_STATUS_LC ≠ 1 ∨ speedOk s = false ∨ s.get fUPD_STATUS_STATE ≠ 0) →
    Room s 1 →
    ∃ t, exec (.secReturn sigOk nonce) s = .next t ∧ Does s t [(fSEC_CNT_AUTH_FAIL, s.up fSEC_CNT_AUTH_FAIL),
      (fSEC_EVT_AUTH_FAIL, 1)]
    [s.evOf 0xB004 0 (if sigOk = false ∨
      keyHeld s 3 = false then 1 else if nonceOk nonce s = false then 3 else if s.get fSEC_STATUS_LC ≠ 1 then 4 else 0)]
      [])
  ∧
  -- commandsAsleep
  (∀ (s : State) (sigOk : Bool) (nonce : List Word) (ids : List (Fin 7 × Nat)) (tok : TokenIn),
    secRuns s = false → exec (.provision sigOk nonce ids) s = .next s ∧
      exec (.secReturn sigOk nonce) s = .next s ∧ exec .nonceFetch s = .next s ∧
      exec (.tokenPresent tok) s = .next s)
  ∧
  -- nonceFetch
  (∀ (s : State), secRuns s = true →
    ∃ t, exec (.nonceFetch) s = .next t ∧ Does s t [] [] [.sec, .free] ∧ t.sec.nonce.length = 8 ∧
      t.sec = { s.sec with nonce := t.sec.nonce } ∧ t.free = s.free + 8)
  ∧
  -- tokenOk
  (∀ (s : State) (tok : TokenIn), secRuns s = true → tokenFault tok s = 0 → Room s 1 →
    ∃ t, exec (.tokenPresent tok) s = .next t ∧ Does s t [(fSEC_STATUS_LEVEL,
      if tok.full then 2 else max 1 (s.get fSEC_STATUS_LEVEL)), (fSEC_TOKEN_MIN_LEFT, if tok.full = false ∧
      s.get fSEC_STATUS_LEVEL ≤ 1 then 480 else 0), (fSEC_EVT_LEVEL_CHG, 1)]
    [s.evOf 0xB003 0 (if tok.full then 2 else max 1 (s.get fSEC_STATUS_LEVEL))] [.sec]
    ∧
      t.sec = { s.sec with tokenEnd := if tok.full = false ∧ s.get fSEC_STATUS_LEVEL ≤ 1 then s.get fPWR_RTC + 28800 else 0 })
  ∧
  -- tokenRefused
  (∀ (s : State) (tok : TokenIn), secRuns s = true → tokenFault tok s ≠ 0 → Room s 1 →
    ∃ t, exec (.tokenPresent tok) s = .next t ∧ Does s t [(fSEC_CNT_AUTH_FAIL, s.up fSEC_CNT_AUTH_FAIL),
      (fSEC_EVT_AUTH_FAIL, 1)] [s.evOf 0xB004 0 (tokenFault tok s)] [])
  ∧
  -- tokenRules
  (∀ (s : State) (tok : TokenIn),
    (tok.full = true → s.get fSEC_STATUS_LC = 1 → tokenFault tok s = 4) ∧ (tok.full = true → tok.key ≠ 4 →
      tokenFault tok s ≠ 0) ∧ (tok.full = false → tok.key ≠ 3 → tok.key ≠ 4 → tokenFault tok s = 1)
    ∧ (tok.full = false → tok.key = 3 → s.get fSEC_STATUS_LC = 0 → tokenFault tok s = 1) ∧ (tok.full = false →
      tok.key = 4 → s.get fSEC_STATUS_LC = 1 → tokenFault tok s = 1)
    ∧ (tokenFault tok s = 0 → tok.serial = s.get64 fSEC_SERIAL_LO.addr ∧ tok.nonce = s.sec.nonce ∧
      tok.nonce.length = 8 ∧ tok.lc = s.get fSEC_STATUS_LC ∧ keyHeld s tok.key = true))
  ∧
  -- tokenExpire
  (∀ (s : State), s.get fSEC_STATUS_LEVEL = 1 → s.sec.tokenEnd ≤ s.get fPWR_RTC → Room s 1 →
    ∃ t, exec (.tokenExpire) s = .next t ∧ Does s t [(fSEC_STATUS_LEVEL, 0), (fSEC_TOKEN_MIN_LEFT, 0),
      (fSEC_EVT_LEVEL_CHG, 1)] [s.evOf 0xB005 0 1] [.sec] ∧ t.sec = { s.sec with tokenEnd := 0 })
  ∧
  -- tokenNotExpired
  (∀ (s : State), (s.get fSEC_STATUS_LEVEL ≠ 1 ∨ s.get fPWR_RTC < s.sec.tokenEnd) →
    ∃ t, exec (.tokenExpire) s = .next t ∧ t = s)

/-- A halt of an application core or of a GNSS core under FULL is SERVED at once, and refused where its block is stopped
or the module has none; without FULL it is REFUSED with LEVEL. A halt of a lane core halts both cores of the lane,
which gives up with reason HALT, when the other lane is ACTIVE; it is DEFERRED to the switch tick when the other
lane has been STANDBY for 100,000 ticks, and REFUSED with OTHER_LANE otherwise, with LIMP and with HINGE during a
Hinge swap. A halt is recorded as 0xB006, a refusal as 0xB007. A release clears the halt, records 0xB008, and starts
the lane's recovery from its second step. In LATCHED and below, where the TAP has no supply, and for a core that is
not halted, nothing changes. That a command whose conditions do not hold changes nothing is the model's reading (log
entry 15). Where the spec leaves the choice open or has to be read by inference, the clauses state the model's, of
log entry 87. (R439, R440, R441, R443) -/
def Obligations.Halts : Prop :=
  -- haltServed
  (∀ (s : State) (core : Fin 10), pwrState s < 2 → s.get fSEC_STATUS_LEVEL = 2 →
    s.bitAt fSEC_HALT_CORES core = false → coreLane core = none → coreRuns s core = true → Room s 1 →
    ∃ t, exec (.secHalt core) s = .next t ∧ Does s t [(bitFld fSEC_HALT_CORES core, 1), (fSEC_HALT_RES_OUTCOME,
      1), (fSEC_HALT_RES_CORE, core), (fSEC_HALT_RES_REASON, 0), (fSEC_EVT_HALT, 1), (fSEC_CNT_HALTS,
      s.up fSEC_CNT_HALTS)] [s.evOf 0xB006 core] [])
  ∧
  -- haltAgain
  (∀ (s : State) (core : Fin 10), pwrState s < 2 → s.get fSEC_STATUS_LEVEL = 2 →
    s.bitAt fSEC_HALT_CORES core = true →
    ∃ t, exec (.secHalt core) s = .next t ∧ Does s t [(fSEC_HALT_RES_OUTCOME, 1), (fSEC_HALT_RES_CORE, core),
      (fSEC_HALT_RES_REASON, 0), (fSEC_EVT_HALT, 1)] [] [])
  ∧
  -- haltRefused
  (∀ (s : State) (core : Fin 10) (why : Nat), pwrState s < 2 → ((s.get fSEC_STATUS_LEVEL ≠ 2 ∧ why = 1) ∨
    (s.get fSEC_STATUS_LEVEL = 2 ∧ s.bitAt fSEC_HALT_CORES core = false ∧ ((coreLane core = none ∧
    coreRuns s core = false ∧ why = 5) ∨ (∃ l, coreLane core = some l ∧
    ((inLimp s = true ∧ why = 4) ∨ (inLimp s = false ∧ s.bit fCLM_STATUS_HINGE_RUN = true ∧ why = 3) ∨
      (inLimp s = false ∧ s.bit fCLM_STATUS_HINGE_RUN = false ∧ laneState s (1 - l) ≠ 0
      ∧ (laneState s l ≠ 0 ∨ laneState s (1 - l) ≠ 1 ∨ s.clk.tick < (s.lane (1 - l)).stateAt + 100000) ∧
        why = 2)))))) → Room s 1 →
    ∃ t, exec (.secHalt core) s = .next t ∧ Does s t [(fSEC_HALT_RES_OUTCOME, 3), (fSEC_HALT_RES_CORE, core),
      (fSEC_HALT_RES_REASON, why), (fSEC_EVT_HALT, 1)] [s.evOf 0xB007 core why] [])
  ∧
  -- haltLane
  (∀ (s : State) (core : Fin 10) (l : Nat), pwrState s < 2 → s.get fSEC_STATUS_LEVEL = 2 →
    s.bitAt fSEC_HALT_CORES core = false → coreLane core = some l → inLimp s = false →
    s.bit fCLM_STATUS_HINGE_RUN = false → laneState s (1 - l) = 0 → laneState s l ≠ 0 →
    ∃ t, exec (.secHalt core) s = .next t ∧ t.bitAt fSEC_HALT_CORES (4 + 2 * l) = true ∧
      t.bitAt fSEC_HALT_CORES (5 + 2 * l) = true ∧ (t.lane l).halted = true ∧ (t.lane l).step = 0 ∧
      laneState t (1 - l) = 0 ∧ laneState t l = (if laneState s l = 1 then 2 else laneState s l)
    ∧ t.get fSEC_HALT_RES_OUTCOME = 1 ∧ t.get fSEC_HALT_RES_CORE = core ∧ t.bit fSEC_EVT_HALT = true ∧
      t.get fSEC_CNT_HALTS = s.up fSEC_CNT_HALTS ∧ (laneState s l = 1 → t.get fCLM_LAST_GU_REASON = 11 ∧
      t.get fCLM_LAST_GU_LANE = l ∧ t.bit fCLM_LAST_GU_COUNTED = false)
    ∧ (Room s 8 → ∃ e ∈ t.evr.intake, e.code = 0xB006 ∧ e.src = core.val) ∧ SameMem s t ∧ t.dies = s.dies ∧
      t.fn = s.fn)
  ∧
  -- haltDeferred
  (∀ (s : State) (core : Fin 10) (l : Nat), pwrState s < 2 → s.get fSEC_STATUS_LEVEL = 2 →
    s.bitAt fSEC_HALT_CORES core = false → coreLane core = some l → inLimp s = false →
    s.bit fCLM_STATUS_HINGE_RUN = false → laneState s l = 0 → laneState s (1 - l) = 1 →
    (s.lane (1 - l)).stateAt + 100000 ≤ s.clk.tick →
    ∃ t, exec (.secHalt core) s = .next t ∧ Does s t [(fSEC_HALT_RES_OUTCOME, 2), (fSEC_HALT_RES_CORE, core),
      (fSEC_HALT_RES_REASON, 0), (fSEC_EVT_HALT, 1)] [] [.clm] ∧
      t.clm = { s.clm with haltNext := some core.val })
  ∧
  -- haltAsleep
  (∀ (s : State) (core : Fin 10), 2 ≤ pwrState s →
    ∃ t, exec (.secHalt core) s = .next t ∧ t = s)
  ∧
  -- release
  (∀ (s : State) (core : Fin 10), s.get fSEC_STATUS_LEVEL = 2 → s.bitAt fSEC_HALT_CORES core = true →
    coreLane core = none → Room s 1 →
    ∃ t, exec (.haltRelease core) s = .next t ∧ Does s t [(bitFld fSEC_HALT_CORES core, 0), (fSEC_EVT_HALT, 1)]
      [s.evOf 0xB008 core] [])
  ∧
  -- releaseLane
  (∀ (s : State) (core : Fin 10) (l : Nat), s.get fSEC_STATUS_LEVEL = 2 → s.bitAt fSEC_HALT_CORES core = true →
    coreLane core = some l → Room s 1 →
    ∃ t, exec (.haltRelease core) s = .next t ∧ Does s t [(bitFld fSEC_HALT_CORES (4 + 2 * l), 0),
      (bitFld fSEC_HALT_CORES (5 + 2 * l), 0), (fSEC_EVT_HALT, 1)] [s.evOf 0xB008 core] [.clm]
    ∧ t.lane l = (if laneState s l = 2 then (if laneState s (1 - l) = 0 ∧
      inLimp s = false then { s.lane l with halted := false, step := 2, since := s.clk.tick, recAt := s.clk.tick } else { s.lane l with halted := false, step := 0 }) else { s.lane l with halted := false })
    ∧ t.lane (1 - l) = s.lane (1 - l))
  ∧
  -- releaseNot
  (∀ (s : State) (core : Fin 10), (s.get fSEC_STATUS_LEVEL ≠ 2 ∨ s.bitAt fSEC_HALT_CORES core = false) →
    ∃ t, exec (.haltRelease core) s = .next t ∧ t = s)

/-- A drive frame takes the shadow unless a composition is in progress, checks the CRC of the active memory and drives
the glass. A mismatch is counted and recorded as 0xE001, and the third in a row blanks the panel with 0xE002;
blanked, it checks again once per frame boundary until a check passes. In the timing of the keep-alive oscillator
the long slots add to the accumulators of the segments; an accumulator at DCB_LIM reverses the next frame, and one
of 8 × DCB_LIM records 0xE003 and holds the lines at level 0 for 1 s, which clears the accumulators. While the
driver does not drive the glass in LATCHED and below, its lines rest. The driver runs from step 2 on in OPEN and
LOUVRED, and in LATCHED where LATCH_SHOW is set; the backlight is on in OPEN and LOUVRED. That a command whose
conditions do not hold changes nothing is the model's reading (log entry 15). Where the spec leaves the choice open
or has to be read by inference, the clauses state the model's, of log entries 88, 106. (R474, R476, R477, R478,
R479, R498) -/
def Obligations.LimpPanel : Prop :=
  -- frameOk
  (∀ (s : State) (composing : Bool) (flips m : BitVec 192), driverOn s = true → pwrState s < 2 →
    (s.bit fPNL_STATUS_FAULT = false ∨ s.pnl.retry = true) → s.pnl.rev = false → (m = (if composing = true ∧
    s.pnl.bad = 0 then activeFrame s else s.pnl.shadow) ^^^ flips) → frameMemCrc m = s.pnl.ref →
    (worstSeg s).2 < s.get fPNL_CFG_DCB_LIM → (worstSeg s).2 ≤ s.get fPNL_DCB_MAX →
    ∃ t, exec (.driveFrame composing flips) s = .next t ∧ (∀ w : Fin 6,
      t.rd (fPNL_FRAME w).addr = m.extractLsb' (32 * w) 32) ∧ t.get fPNL_CRC_LAST = s.pnl.ref.toNat ∧
      t.get fPNL_CRC_REF = s.pnl.ref.toNat ∧ t.bit fPNL_STATUS_FAULT = false ∧
      t.bit fPNL_STATUS_REVERSED = false ∧ t.bit fPNL_STATUS_KA_TIMING = false
    ∧ t.pnl = { s.pnl with retry := false, bad := 0, rev := false } ∧ Records s t [] ∧ SameMem s t ∧
      Touches s t ([fPNL_STATUS.addr, fPNL_CRC.addr] ++ (List.range 6).map fun w => (fPNL_FRAME w).addr) [.pnl])
  ∧
  -- frameFlips
  (∀ (s : State) (composing : Bool) (flips m : BitVec 192), driverOn s = true → pwrState s < 2 →
    s.bit fPNL_STATUS_FAULT = false → (m = (if composing = true ∧
    s.pnl.bad = 0 then activeFrame s else s.pnl.shadow) ^^^ flips) → frameMemCrc m ≠ s.pnl.ref →
    (worstSeg s).2 < s.get fPNL_CFG_DCB_LIM → Room s 2 →
    ∃ t, exec (.driveFrame composing flips) s = .next t ∧ t.pnl.bad = s.pnl.bad + 1 ∧
      t.get fPNL_CNT_MISMATCH = s.up fPNL_CNT_MISMATCH ∧ t.bit fPNL_EVT_CRC = true ∧
      t.bit fPNL_STATUS_FAULT = decide (s.pnl.bad = 2) ∧ t.get fPNL_CRC_LAST = (frameMemCrc m).toNat
    ∧ Records s t ([s.evOf 0xE001 0 0 f16NaN (f16OfNat (s.pnl.bad + 1))]
      ++ if s.pnl.bad = 2 then [s.evOf 0xE002] else []) ∧ SameMem s t ∧ PartsBut s t [.pnl])
  ∧
  -- frameBlank
  (∀ (s : State) (composing : Bool) (flips m : BitVec 192), driverOn s = true → pwrState s < 2 →
    s.bit fPNL_STATUS_FAULT = true → s.pnl.retry = false → (m = (if composing = true ∧
    s.pnl.bad = 0 then activeFrame s else s.pnl.shadow) ^^^ flips) → (worstSeg s).2 < s.get fPNL_CFG_DCB_LIM →
    ∃ t, exec (.driveFrame composing flips) s = .next t ∧ t.bit fPNL_STATUS_FAULT = true ∧
      t.pnl.bad = s.pnl.bad ∧ t.get fPNL_CRC_LAST = s.get fPNL_CRC_LAST ∧ (∀ w : Fin 6,
      t.rd (fPNL_FRAME w).addr = m.extractLsb' (32 * w) 32) ∧ Records s t [] ∧ SameMem s t ∧
      PartsBut s t [.pnl])
  ∧
  -- frameStillBad
  (∀ (s : State) (composing : Bool) (flips m : BitVec 192), driverOn s = true → pwrState s < 2 →
    s.bit fPNL_STATUS_FAULT = true → s.pnl.retry = true → 3 ≤ s.pnl.bad → (m = (if composing = true ∧
    s.pnl.bad = 0 then activeFrame s else s.pnl.shadow) ^^^ flips) → frameMemCrc m ≠ s.pnl.ref →
    (worstSeg s).2 < s.get fPNL_CFG_DCB_LIM → Room s 1 →
    ∃ t, exec (.driveFrame composing flips) s = .next t ∧ t.bit fPNL_STATUS_FAULT = true ∧
      t.pnl.bad = s.pnl.bad + 1 ∧ t.pnl.retry = false ∧ t.get fPNL_CNT_MISMATCH = s.up fPNL_CNT_MISMATCH ∧
      Records s t [s.evOf 0xE001 0 0 f16NaN (f16OfNat (s.pnl.bad + 1))] ∧ SameMem s t ∧ PartsBut s t [.pnl])
  ∧
  -- frameReversed
  (∀ (s : State) (composing : Bool) (flips m : BitVec 192), driverOn s = true → pwrState s < 2 →
    s.bit fPNL_STATUS_FAULT = false → s.pnl.rev = true → (m = (if composing = true ∧
    s.pnl.bad = 0 then activeFrame s else s.pnl.shadow) ^^^ flips) → frameMemCrc m = s.pnl.ref →
    (worstSeg s).2 < 8 * s.get fPNL_CFG_DCB_LIM →
    ∃ t, exec (.driveFrame composing flips) s = .next t ∧ t.bit fPNL_STATUS_REVERSED = true ∧
      t.get fPNL_CNT_REVERSALS = s.up fPNL_CNT_REVERSALS ∧
      t.pnl = { s.pnl with retry := false, bad := 0, rev := decide (s.get fPNL_CFG_DCB_LIM ≤ (worstSeg s).2) } ∧
      Records s t [] ∧ SameMem s t)
  ∧
  -- frameKeepAlive
  (∀ (s : State) (composing : Bool) (flips m : BitVec 192) (n : Fin 192), driverOn s = true → pwrState s = 2 →
    s.bit fPNL_STATUS_FAULT = false → (m = (if composing = true ∧
    s.pnl.bad = 0 then activeFrame s else s.pnl.shadow) ^^^ flips) → frameMemCrc m = s.pnl.ref → s.pnl.acc = []
    → s.pnl.phase < 5 → 1 ≤ s.get fPNL_CFG_DCB_LIM →
    ∃ t, exec (.driveFrame composing flips) s = .next t ∧
      dcbAcc t n = (((longSlots s).map fun i => slotLevel (m.getLsbD n) n i).sum) * (if s.pnl.rev then -1 else 1) ∧
      t.pnl.phase = (s.pnl.phase + 8) % 5 ∧ t.bit fPNL_STATUS_KA_TIMING = true ∧ t.pnl.holdAt = none ∧
      Records s t [] ∧ SameMem s t)
  ∧
  -- frameUnbalanced
  (∀ (s : State) (composing : Bool) (flips m : BitVec 192), driverOn s = true → pwrState s < 2 →
    s.bit fPNL_STATUS_FAULT = false → (m = (if composing = true ∧
    s.pnl.bad = 0 then activeFrame s else s.pnl.shadow) ^^^ flips) → frameMemCrc m = s.pnl.ref →
    8 * s.get fPNL_CFG_DCB_LIM ≤ (worstSeg s).2 → Room s 1 →
    ∃ t, exec (.driveFrame composing flips) s = .next t ∧ t.bit fPNL_EVT_DCB = true ∧
      t.pnl = { s.pnl with retry := false, bad := 0, acc := [], rev := false, holdAt := some s.clk.tick } ∧
      Records s t [s.evOf 0xE003 (worstSeg s).1 0 f16NaN (f16OfNat (worstSeg s).2)] ∧ SameMem s t
    ∧ (s.get fPNL_DCB_MAX < (worstSeg s).2 → t.get fPNL_DCB_MAX = min (worstSeg s).2 65535 ∧
      t.get fPNL_DCB_SEG = (worstSeg s).1))
  ∧
  -- frameDark
  (∀ (s : State) (composing : Bool) (flips : BitVec 192), driverOn s = false →
    ∃ t, exec (.driveFrame composing flips) s = .next t ∧ Does s t [] [] [.pnl] ∧
      t.pnl = (if pwrState s < 2 then s.pnl else { s.pnl with acc := [], rev := false }))
  ∧
  -- driverRuns
  (∀ (s : State),
    driverOn s = (decide (2 ≤ s.rst.next) && !s.pnl.dark && s.pnl.holdAt.isNone && (decide (pwrState s < 2) || (decide (pwrState s = 2) && s.bit fPNL_CFG_LATCH_SHOW))))
  ∧
  -- backlight
  (∀ (s : State),
    panelLed s = true ↔ pwrState s = 0 ∨ pwrState s = 1)
  ∧
  -- holdEnd3
  (∀ (s : State) (k : Nat), s.pnl.holdAt = some k → (k + 20000 ≤ s.clk.tick ∨ 2 ≤ pwrState s) →
    ∃ t, exec (.dcbHoldEnd) s = .next t ∧ Does s t [] [] [.pnl] ∧
      t.pnl = { s.pnl with acc := [], rev := false, holdAt := none })
  ∧
  -- holdGoesOn
  (∀ (s : State), (s.pnl.holdAt = none ∨ ∃ k, s.pnl.holdAt = some k ∧ pwrState s < 2 ∧ s.clk.tick < k + 20000) →

    ∃ t, exec (.dcbHoldEnd) s = .next t ∧ t = s)

/-- A tick edge increments the tick counter, starts cycle 0 and carries out the actions of the tick in their order;
while no tick falls it changes nothing, and an ECNIL reset that is due takes its place. The keep-alive seconds count
every 20,000 ticks. Inputs that are off or whose mode changes at this tick are not VALID, the first value of a new
mode carries FIRST unfiltered and the later ones pass the filter; setpoints ramp toward their targets, and those of
functions at home elsewhere have no entry; a lane that does not fill its table keeps it; a lane whose engine does
not run computes nothing; and no lane sends frames before claims are enabled. The frame boundary, before the tick
edge with a count divisible by 400, carries out the step of module time, the commits and locks, the ring mode, the
setpoint set, the transfer of the camera shadows, the exposures and the panel, each seeing the results of those
before it; a step of module time moves the time base by what the manager has pending or the ring announced for that
boundary, and nothing otherwise. That a command whose conditions do not hold changes nothing is the model's reading
(log entry 15). Where the spec leaves the choice open or has to be read by inference, the clauses state the model's,
of log entries 18, 19, 26, 107, 114, 117, 131, 154. (R23, R38, R39, R52, R64, R66, R73, R79, R82, R145, R474, R476) -/
def Obligations.TickAndFrameBoundary : Prop :=
  -- tickEdge
  (∀ (s : State) (inp : TickIn), tickRuns s = true → (s.ecn.resetAt = none ∨ ∃ k, s.ecn.resetAt = some k ∧
    s.clk.tick + 1 < k) →
    ∃ t, exec (.tickEdge inp) s = .next t ∧ t = edgeAll inp (edgeTime inp.ign s) ∧ t.clk.tick = s.clk.tick + 1 ∧
      t.clk.cycle = 0 ∧ t.bit fPWR_STATUS_IGN = inp.ign ∧ t.straps = s.straps ∧ t.pending = s.pending)
  ∧
  -- tickStopped
  (∀ (s : State) (inp : TickIn), tickRuns s = false →
    ∃ t, exec (.tickEdge inp) s = .next t ∧ t = s)
  ∧
  -- tickWhen
  (∀ (s : State),
    tickRuns s = true ↔ pwrState s < 2 ∧ s.clk.stopped = false ∧ (3 ≤ s.rst.next ∨ s.rst.next = 2 ∧
      s.rst.busy = 1))
  ∧
  -- tickEcnilReset
  (∀ (s : State) (inp : TickIn) (k : Nat), tickRuns s = true → s.ecn.resetAt = some k → k ≤ s.clk.tick + 1 →
    s.rst.busy = 0 →
    ∃ t, exec (.tickEdge inp) s = .next t ∧ t.rst.next = 2 ∧ t.rst.busy = 1 ∧ t.clk.tick = s.clk.tick + 1 ∧
      t.clk.cycle = 0 ∧ t.get fRST_CAUSE_SRC = (s.get fRST_CAUSE_SRC ||| 128) ∧
      t.get fRST_CNT_WARM = s.get fRST_CNT_WARM ∧ t.map = s.map ∧ t.straps = s.straps)
  ∧
  -- edgeSecond
  (∀ (s : State) (ign : Bool),
    (edgeTime ign s).clk = { s.clk with tick := s.clk.tick + 1, cycle := 0 } ∧
      (edgeTime ign s).rst = { s.rst with ticks := s.rst.ticks + 1 } ∧
      (edgeTime ign s).bit fPWR_STATUS_IGN = ign
    ∧
      (edgeTime ign s).get fPWR_RTC = (if (s.clk.tick + 1) % 20000 = 0 then (s.get fPWR_RTC + 1) % 2 ^ 32 else s.get fPWR_RTC)
    ∧ (edgeTime ign s).pwr.ignAt = (if s.bit fPWR_STATUS_IGN = true ∧
      ign = false then s.clk.tick + 1 else s.pwr.ignAt) ∧ SameMem s (edgeTime ign s) ∧
      Records s (edgeTime ign s) [])
  ∧
  -- inputOff
  (∀ (s : State) (inp : TickIn) (n : Fin 48) (l : Fin 2),
    (uinNow s n).1 = 0 ∨ 8 ≤ (uinNow s n).1 → (latchUin inp n s).sig l n = ⟨0#32, 0, false, false, false⟩ ∧
      (latchUin inp n s).getF (fFUN_UIN_VAL n) = 0#32 ∧ Records s (latchUin inp n s) [])
  ∧
  -- inputFirst
  (∀ (s : State) (inp : TickIn) (n : Fin 48) (l : Fin 2) (x : F32),
    uinMode s n = 1 ∨ uinMode s n = 2 → (s.uin n).chg ≠ 1 → (s.uin n).fault = false →
      x = meanOf8 (uinIn inp n).adc → uinOut (uinMode s n) x = false →
    (latchUin inp n s).sig l n = (if (s.uin n).chg = 2 ∨ (s.uin n).seeded = false then ⟨x, 0, !(s.uin n).blind,
      false, true⟩
      else ⟨uinFilter (s.get (fFUN_UIN_CFG_TAU n)) (s.uin n).y x, 0, !(s.uin n).blind, false, false⟩)
    ∧ (latchUin inp n s).getF (fFUN_UIN_VAL n) = ((latchUin inp n s).sig l n).val ∧
      Records s (latchUin inp n s) [])
  ∧
  -- inputChanged
  (∀ (s : State) (inp : TickIn) (n : Fin 48) (l : Fin 2),
    (s.uin n).chg = 1 → 1 ≤ (s.uin n).old.1 → (s.uin n).old.1 < 8 → ((latchUin inp n s).sig l n).valid = false ∧
      ((latchUin inp n s).sig l n).first = false ∧
      (latchUin inp n s).getF (fFUN_UIN_VAL n) = ((latchUin inp n s).sig l n).val
    ∧ (latchUin inp n s).uin n = { Uin.init with chg := 2, old := (s.uin n).old } ∧
      Records s (latchUin inp n s) [])
  ∧
  -- mailSwapped
  (∀ (s : State),
    s.mail.ready = true → s.mail.buf = [] → (mailSwap s).mail = { s.mail with ready := false } ∧
      SameMem s (mailSwap s) ∧ (mailSwap s).regs = s.regs)
  ∧
  -- ramp
  (∀ (s : State) (f : Nat) (rate cur tgt : F32),
    (f ≠ 18 → f ≠ 28 → f32IsZero rate = true → rampStep f rate cur tgt = tgt) ∧ (f = 18 ∨ f = 28 →
      rampStep f rate cur tgt = if f32Le 0x3F000000#32 tgt then f32One else 0#32)
    ∧ (f ≠ 18 → f ≠ 28 → f32IsZero rate = false → f32Le (f32Abs (f32Sub tgt cur)) (f32Mul rate f32Tick) = true →
      rampStep f rate cur tgt = tgt)
    ∧ (f ≠ 18 → f ≠ 28 → f32IsZero rate = false →
      f32Le (f32Abs (f32Sub tgt cur)) (f32Mul rate f32Tick) = false →
      rampStep f rate cur tgt = if f32Lt cur tgt then f32Add cur (f32Mul rate f32Tick) else f32Sub cur (f32Mul rate f32Tick)))
  ∧
  -- rampFn
  (∀ (s : State) (l : Fin 2) (f : Fin 30),
    fnHome s f = true →
      ((rampFn l f s).sig l (768 + f)).val = rampStep f (s.getF (fFUN_REC_RATE f)) (s.sig l (768 + f)).val (s.getF (fFUN_REC_SP_TGT f))
    ∧ ((rampFn l f s).sig l (768 + f)).valid = true ∧ (l.val = topLane s →
      (rampFn l f s).getF (fFUN_REC_SP_ACT f) = ((rampFn l f s).sig l (768 + f)).val) ∧
      Records s (rampFn l f s) [])
  ∧
  -- rampElsewhere
  (∀ (s : State) (l : Fin 2) (f : Fin 30),
    fnHome s f = false → ((rampFn l f s).sig l (768 + f)).valid = false ∧ (rampFn l f s).regs = s.regs ∧
      Records s (rampFn l f s) [])
  ∧
  -- keepsTable
  (∀ (s : State) (old : State) (l : Fin 2) (k : Nat),
    laneFills old l = false → k < 2048 →
      (keepSig old l s).rd32 (laneBase l + 4 * k) = old.rd32 (laneBase l + 4 * k))
  ∧
  -- panesOff
  (∀ (s : State) (l : Fin 2),
    s.bit (fLE_STATUS_RUN l) = false → (edgePanes none l s).regs = s.regs ∧ (∀ c : Fin 256,
      (edgePanes none l s).cmd l c = s.cmd l c) ∧ Records s (edgePanes none l s) [] ∧
      (edgePanes none l s).clm = s.clm
    ∧ (laneFills s l = false → edgePanes none l s = s) ∧ (∀ k : Fin 64,
      ((edgePanes none l s).sig l (960 + k)).val = (s.sig l (960 + k)).val))
  ∧
  -- noFrames
  (∀ (s : State),
    (s.bit fRST_STATUS_CLAIMS = false ∨ inLimp s = true ∨ s.pwr.parkAt.isSome = true →
      (edgeSend s).clm = s.clm) ∧ (edgeSend s).regs = s.regs ∧ PartsBut s (edgeSend s) [.clm])
  ∧
  -- frames
  (∀ (s : State),
    laneSends s 0 = true → laneSends s 1 = true → (edgeSend s).clm.sent.length = s.clm.sent.length + 128)
  ∧
  -- zeroCapture
  (∀ (s : State),
    (zeroTick s).fn.zeroTicks = s.fn.zeroTicks + (if s.bit fFUN_STATUS_ZERO_BUSY = true ∧
      s.fn.zeroTicks < 400 then 1 else 0) ∧ (zeroTick s).regs = s.regs ∧ PartsBut s (zeroTick s) [.fn])
  ∧
  -- frameBoundary
  (∀ (s : State), tickRuns s = true → (s.clk.tick + 1) % 400 = 0 →
    ∃ t, exec (.frameBoundary) s = .next t ∧ t.clk.tick = s.clk.tick ∧ t.clk.cycle = s.clk.cycle ∧
      t.pnl.ref = frameMemCrc t.pnl.shadow ∧ t.pnl.retry = true ∧ t.get fPNL_STATUS_SRC = panelSource t ∧
      t.straps = s.straps ∧ t.pending = s.pending
    ∧
      t.regs = (composePanel (exposureStart (shadowTransfer (applySet (ringSet (boundaryCommits (frameStep { s with clk := { s.clk with tick := s.clk.tick + 1, cycle := 0 } }))))))).regs)
  ∧
  -- notBoundary
  (∀ (s : State), (tickRuns s = false ∨ (s.clk.tick + 1) % 400 ≠ 0) →
    ∃ t, exec (.frameBoundary) s = .next t ∧ t = s)
  ∧
  -- frameStepped
  (∀ (s : State),
    s.bit fCLK_STATUS_STEP_PEND = true → isManager s = true → s.clk.steps = [] → Room s 1 →
    (frameStep s).clk = { s.clk with tbase := s.clk.tbase - s.clk.err, stepAt := s.clk.tick, measured := false, resid := 0, err := 0 } ∧
      (frameStep s).bit fCLK_STATUS_STEP_PEND = false ∧ (frameStep s).bit fCLK_EVT_STEPPED = true
    ∧ SameMem s (frameStep s) ∧ PartsBut s (frameStep s) [.clk] ∧ ∃ e ∈ (frameStep s).evr.intake,
      e.code = 0x1051)
  ∧
  -- frameSteppedWorker
  (∀ (s : State) (d : Int) (g : Nat),
    isManager s = false → s.ecn.wasJoined = true → s.ecn.joinFor = none → s.clk.steps = [(d, g)] →
      g ≤ s.clk.tick → Room s 1 →
    (frameStep s).clk = { s.clk with tbase := s.clk.tbase + d, stepAt := s.clk.tick, measured := false, steps := [] } ∧
      (frameStep s).bit fCLK_STATUS_STEP_PEND = false ∧ (frameStep s).bit fCLK_EVT_STEPPED = true
    ∧ SameMem s (frameStep s) ∧ PartsBut s (frameStep s) [.clk] ∧ ∃ e ∈ (frameStep s).evr.intake,
      e.code = 0x1051)
  ∧
  -- frameSteppedEarly
  (∀ (s : State) (d b0 : Int) (g j : Nat),
    isManager s = false → s.ecn.wasJoined = false → s.ecn.joinFor = some (j, b0) → s.clk.steps = [(d, g)] →
      (g : Int) ≤ sysTick s →
    (frameStep s).ecn.joinFor = some (j, b0 + d) ∧ (frameStep s).clk = { s.clk with steps := [] } ∧
      Records s (frameStep s) [] ∧ SameMem s (frameStep s) ∧ PartsBut s (frameStep s) [.clk, .ecn])
  ∧
  -- frameUnstepped
  (∀ (s : State),
    (s.bit fCLK_STATUS_STEP_PEND = false ∨ isManager s = false) → (∀ x ∈ s.clk.steps, sysTick s < (x.2 : Int)) →
      frameStep s = s)
  ∧
  -- lockApplies
  (∀ (s : State) (f : Fin 30) (on : Bool),
    s.fn.lockSet.testBit f = on → (s.fn.lockSet.testBit f = true ∨ s.fn.lockClr.testBit f = true) →
      s.bitAt fFUN_LOCK_LOCK f ≠ on → Room s 1 →
    Does s (applyLock f s) [(bitFld fFUN_LOCK_LOCK f, if on then 1 else 0), (fFUN_REC_CTL_LOCK f,
      if on then 1 else 0), (fFUN_EVT_LOCK_CHG, 1)] [s.evOf 0x3820 (f + 1) (if on then 1 else 0)] [])
  ∧
  -- lockStays
  (∀ (s : State) (f : Fin 30),
    (s.fn.lockSet.testBit f = false ∧ s.fn.lockClr.testBit f = false ∨
      s.bitAt fFUN_LOCK_LOCK f = s.fn.lockSet.testBit f) → applyLock f s = s)
  ∧
  -- setWaits
  (∀ (s : State),
    (∀ x, s.swg.set = some x → x.posted = false ∨ x.apply ≠ s.clk.tick) → applySet s = s)
  ∧
  -- setApplies
  (∀ (s : State) (x : SwgSet),
    s.swg.set = some x → x.posted = true → x.apply = s.clk.tick → (applySet s).swg.set = none ∧
      (applySet s).swg.setAt = some s.clk.tick ∧ (applySet s).get fSWG_UPD_CNT = s.up fSWG_UPD_CNT ∧
      (applySet s).bit fSWG_EVT_SET_APPLIED = true)
  ∧
  -- panelContent
  (∀ (s : State),
    (s.get fRST_STATUS_FAIL ≠ 0 → panelText s = failCode (s.get fRST_STATUS_FAIL)) ∧
      (s.get fRST_STATUS_FAIL = 0 → inLimp s = true → (panelText s).take 6 = [0x4C, 0x49, 0x4D, 0x50, 0x20,
      0x44])
    ∧ (s.get fRST_STATUS_FAIL = 0 → inLimp s = false → s.bit fPNL_CTL_MSG_EN = false → panelText s = [0x50,
      0x30 + s.straps.pos, 0x20, laneLetter (laneState s 0), laneLetter (laneState s 1)]) ∧
      (panelText s).length ≤ 8)

/-- With a command at the front of the queue, a step answers what exec answers for that command on the state with the
rest of the queue. On an empty queue a step answers the state unchanged. The queue is the model's (log entry 14),
the spec names none. (R1) -/
def Obligations.StepRunsFrontCommand : Prop :=
  (∀ (c : Instr) (rest : List Instr) (s : State), s.pending = c :: rest → step s = exec c { s with pending := rest })
  ∧ (∀ (s : State), s.pending = [] → step s = .next s)

/-- At reset the register words and the memory are in canonical form, the recorder's queues and banks are within their
bounds, the cycle number is below 20,000, a manager is at position 0, and no CAN FIFO holds more than 32 frames.
(R38, R461) -/
def Obligations.ResetKeepsInvariant : Prop :=
  Inv State.reset

/-- No command of the table ends in a fault or a refusal, whatever the state and the operands: where the guard of a
command does not hold, its effect is the answer the spec gives it, or none. A run of the block therefore never stops
on a command of its queue. (R1, R8) -/
def Obligations.EveryCommandCompletes : Prop :=
  ∀ (c : Instr) (s : State), ∃ t, exec c s = .next t

/-- From every state that meets the invariant, whatever commands wait, a step that answers a next state answers one that
meets it: the register words and every byte of memory stay in canonical form, so that equal contents are equal data;
the intake queue holds at most 256 events, the Sill at most 4,096 records and the Lintel 512, in the recorder and in
the event flash, and sequence numbers stay below 2^32; the cycle number stays below 20,000; a manager stays at
position 0; and no CAN transmit FIFO holds more than 32 frames. (R3, R4, R38, R346, R461, R464, R468, R470) -/
def Obligations.StepKeepsInvariant : Prop :=
  ∀ (s t : State), Inv s → step s = .next t → Inv t

/-- Where U_MIN is at most U_MAX and v is no NaN, the output of a channel without a rate limit lies from U_MIN to U_MAX;
with one it lies within RLIM_H of U_LAST. A seeding whose first integrator is a number leaves D 0 and the integrator
from U_MIN to U_MAX. A discarded computation leaves memory as it was, counts in NF_CNT, sets the event bit and seeds
the channel at its next computation. A computation without feedback changes nothing of the channel; one of a
DEGRADED channel keeps I and U_LAST. A single destination takes the output with the channel as writer, VALID and the
tick; a split pair takes the output on the side of its sign and 0 on the other; no other command entry changes.
(R96, R97, R98, R99, R100, R102, R103) -/
def Obligations.LoopOutputs : Prop :=
  -- outLimits
  (∀ (s : State) (l : Fin 2) (n : Fin 96) (v : F32),
    f32Le (s.chF (chAddr l n) 0x30) (s.chF (chAddr l n) 0x34) = true → f32IsNaN v = false →
    f32Lt 0#32 (s.chF (chAddr l n) 0x4C) = false →
    f32Le (s.chF (chAddr l n) 0x30) (limitOut s (chAddr l n) v) = true
    ∧ f32Le (limitOut s (chAddr l n) v) (s.chF (chAddr l n) 0x34) = true)
  ∧
  -- outRate
  (∀ (s : State) (l : Fin 2) (n : Fin 96) (v : F32),
    f32Le (s.chF (chAddr l n) 0x30) (s.chF (chAddr l n) 0x34) = true → f32IsNaN v = false →
    f32Lt 0#32 (s.chF (chAddr l n) 0x4C) = true →
    f32Le (f32Sub (s.chF (chAddr l n) 0x5C) (s.chF (chAddr l n) 0x4C)) (f32Add (s.chF (chAddr l n) 0x5C) (s.chF (chAddr l n) 0x4C)) = true →

    f32Le (f32Sub (s.chF (chAddr l n) 0x5C) (s.chF (chAddr l n) 0x4C)) (limitOut s (chAddr l n) v) = true
    ∧ f32Le (limitOut s (chAddr l n) v) (f32Add (s.chF (chAddr l n) 0x5C) (s.chF (chAddr l n) 0x4C)) = true)
  ∧
  -- seedInside
  (∀ (s : State) (l : Fin 2) (n : Fin 96) (g : Gather) (uRep : F32) (bump : Bool),
    f32Le (s.chF (chAddr l n) 0x30) (s.chF (chAddr l n) 0x34) = true → (s.mbit (cINIT (chAddr l n)) = true ∨
    f32IsNaN (f32Sub (f32Sub (s.chF (chAddr l n) 0x5C)
      (pidSum s (chAddr l n) g uRep (s.chF (chAddr l n) 0x50) (s.chF (chAddr l n) 0x54) (s.chF (chAddr l n) 0x58)).p)
      (f32Add (f32Mul (s.chF (chAddr l n) 0x2C) g.ff) uRep)) = false) →
    (pidStep l n g uRep true bump s).d = 0#32
    ∧ f32Le (s.chF (chAddr l n) 0x30) (pidStep l n g uRep true bump s).i = true
    ∧ f32Le (pidStep l n g uRep true bump s).i (s.chF (chAddr l n) 0x34) = true)
  ∧
  -- discard
  (∀ (s : State) (l : Fin 2) (n : Fin 96) (absent degraded : Bool) (m : Option (Nat × F32)) (g : Gather) (uRep : F32) (r : PidOut),

    (storeResult l n true absent degraded m g uRep r s).mem = s.mem
    ∧ (storeResult l n true absent degraded m g uRep r s).get (fLE_NF_CNT l) = s.up (fLE_NF_CNT l)
    ∧ (storeResult l n true absent degraded m g uRep r s).bit (fLE_EVT_NONFINITE l) = true
    ∧ ((storeResult l n true absent degraded m g uRep r s).loop l).seed.contains n.val = true)
  ∧
  -- absentKeeps
  (∀ (s : State) (l : Fin 2) (n : Fin 96) (degraded : Bool) (g : Gather) (uRep : F32) (r : PidOut),
    storeResult l n false true degraded none g uRep r s = s)
  ∧
  -- degradedKeeps
  (∀ (s : State) (l : Fin 2) (n : Fin 96) (g : Gather) (uRep : F32) (r : PidOut),
    (storeResult l n false false true none g uRep r s).chF (chAddr l n) 0x50 = s.chF (chAddr l n) 0x50
    ∧ (storeResult l n false false true none g uRep r s).chF (chAddr l n) 0x5C = s.chF (chAddr l n) 0x5C)
  ∧
  -- destSingle
  (∀ (s : State) (l : Fin 2) (n : Fin 96) (u : F32) (first : Bool) (c : Fin 64),
    s.mget (cDEST (chAddr l n)) = 0 → s.mget (cDESTA (chAddr l n)) = c →
    (writeDest l n u first s).cmd l c = ⟨u, n, true, s.mget (tSTATE (chAddr l n)) == 2,
      s.mbit (tSATHI (chAddr l n)) || s.mbit (tSATLO (chAddr l n)), s.clk.tick % 65536⟩
    ∧ (∀ k : Fin 256, k.val ≠ c.val → (writeDest l n u first s).cmd l k = s.cmd l k))
  ∧
  -- destSplit
  (∀ (s : State) (l : Fin 2) (n : Fin 96) (u : F32) (first : Bool) (c d : Fin 64),
    s.mget (cDEST (chAddr l n)) = 1 → s.mget (cDESTA (chAddr l n)) = c → s.mget (cDESTB (chAddr l n)) = d →
    c ≠ d →
    ((writeDest l n u first s).cmd l c).val = (if f32Le 0#32 u = true then u else 0#32)
    ∧ ((writeDest l n u first s).cmd l d).val = (if f32Le 0#32 u = true then 0#32 else f32Neg' u)
    ∧ (∀ k : Fin 256, k.val ≠ c.val → k.val ≠ d.val → (writeDest l n u first s).cmd l k = s.cmd l k))
end

