-- ==== Sys2Proof/Laws/Tab.lean ====
section
/-!
SUPPORT. The laws of sparse tables: a read after a write, and every write keeps the canonical form.
-/
namespace Sys2Proof.Machine

variable {α : Type}

theorem tabGet_erase_same (d : Nat → α) (t : List (Nat × α)) (k : Nat) : tabGet d (tabErase t k) k = d k := by
  induction t with
  | nil => rfl
  | cons p t ih =>
    obtain ⟨j, v⟩ := p
    by_cases h : j = k <;> simp [tabErase, h, ih, tabGet]

theorem tabGet_erase_other (d : Nat → α) (t : List (Nat × α)) {k j : Nat} (h : j ≠ k) :
    tabGet d (tabErase t k) j = tabGet d t j := by
  induction t with
  | nil => rfl
  | cons p t ih =>
    obtain ⟨i, v⟩ := p
    by_cases hi : i = k
    · subst hi; simp [tabErase, tabGet, ih, Ne.symm h]
    · simp [tabErase, hi, tabGet, ih]

theorem tabGet_insert_other (d : Nat → α) (t : List (Nat × α)) {k j : Nat} (v : α) (h : j ≠ k) :
    tabGet d (tabInsert t k v) j = tabGet d t j := by
  induction t with
  | nil => simp [tabInsert, tabGet, Ne.symm h]
  | cons p t ih =>
    obtain ⟨i, w⟩ := p
    by_cases hi : k < i
    · simp [tabInsert, hi, tabGet, Ne.symm h]
    · simp [tabInsert, hi, tabGet, ih]

theorem tabGet_insert_erase (d : Nat → α) (t : List (Nat × α)) (k : Nat) (v : α) :
    tabGet d (tabInsert (tabErase t k) k v) k = v := by
  induction t with
  | nil => simp [tabErase, tabInsert, tabGet]
  | cons p t ih =>
    obtain ⟨i, w⟩ := p
    by_cases hi : i = k
    · simp [tabErase, hi, ih]
    · by_cases hk : k < i
      · simp [tabErase, hi, tabInsert, hk, tabGet]
      · simp [tabErase, hi, tabInsert, hk, tabGet, ih]

/-- A read after a write to the same key. -/
@[simp] theorem tabGet_set_same [DecidableEq α] (d : Nat → α) (t : List (Nat × α)) (k : Nat) (v : α) :
    tabGet d (tabSet d t k v) k = v := by
  unfold tabSet
  split
  · next h => rw [tabGet_erase_same, h]
  · exact tabGet_insert_erase d t k v

/-- A write leaves every other key alone. -/
theorem tabGet_set_other [DecidableEq α] (d : Nat → α) (t : List (Nat × α)) {k j : Nat} (v : α) (h : j ≠ k) :
    tabGet d (tabSet d t k v) j = tabGet d t j := by
  unfold tabSet
  split
  · exact tabGet_erase_other d t h
  · rw [tabGet_insert_other d _ v h, tabGet_erase_other d t h]

theorem tabAbove_erase {lo k : Nat} {t : List (Nat × α)} (h : tabAbove lo t = true) :
    tabAbove lo (tabErase t k) = true := by
  induction t with
  | nil => rfl
  | cons p t ih =>
    obtain ⟨i, w⟩ := p
    simp only [tabAbove, Bool.and_eq_true, decide_eq_true_eq] at h
    by_cases hi : i = k <;> simp [tabErase, hi, tabAbove, ih h.2, h.1]

theorem tabAbove_insert {lo k : Nat} {v : α} {t : List (Nat × α)} (hk : lo < k) (h : tabAbove lo t = true) :
    tabAbove lo (tabInsert t k v) = true := by
  induction t with
  | nil => simp [tabInsert, tabAbove, hk]
  | cons p t ih =>
    obtain ⟨i, w⟩ := p
    simp only [tabAbove, Bool.and_eq_true, decide_eq_true_eq] at h
    by_cases hi : k < i <;> simp [tabInsert, hi, tabAbove, ih h.2, h.1, h.2, hk]

theorem tabAbove_mono {lo hi : Nat} {t : List (Nat × α)} (hl : lo ≤ hi) (h : tabAbove hi t = true) :
    tabAbove lo t = true := by
  induction t with
  | nil => rfl
  | cons p t ih =>
    obtain ⟨i, w⟩ := p
    simp only [tabAbove, Bool.and_eq_true, decide_eq_true_eq] at h ⊢
    exact ⟨by omega, ih h.2⟩

theorem tabWf_erase [DecidableEq α] {d : Nat → α} {k : Nat} {t : List (Nat × α)} (h : tabWf d t = true) :
    tabWf d (tabErase t k) = true := by
  induction t with
  | nil => rfl
  | cons p t ih =>
    obtain ⟨i, w⟩ := p
    simp only [tabWf, Bool.and_eq_true, decide_eq_true_eq] at h
    by_cases hi : i = k
    · simp [tabErase, hi, ih h.2]
    · simp only [tabErase, hi, if_false, tabWf, Bool.and_eq_true, decide_eq_true_eq]
      exact ⟨⟨h.1.1, tabAbove_erase h.1.2⟩, ih h.2⟩

theorem tabWf_insert [DecidableEq α] {d : Nat → α} {k : Nat} {v : α} {t : List (Nat × α)}
    (hv : v ≠ d k) (hk : ∀ p ∈ t, p.1 ≠ k) (h : tabWf d t = true) : tabWf d (tabInsert t k v) = true := by
  induction t with
  | nil => simp [tabInsert, tabWf, tabAbove, hv]
  | cons p t ih =>
    obtain ⟨i, w⟩ := p
    simp only [tabWf, Bool.and_eq_true, decide_eq_true_eq] at h
    have hne : i ≠ k := hk (i, w) (by simp)
    by_cases hi : k < i
    · simp only [tabInsert, hi, if_true, tabWf, tabAbove, Bool.and_eq_true, decide_eq_true_eq]
      exact ⟨⟨hv, trivial, tabAbove_mono (Nat.le_of_lt hi) h.1.2⟩, ⟨h.1.1, h.1.2⟩, h.2⟩
    · simp only [tabInsert, hi, if_false, tabWf, Bool.and_eq_true, decide_eq_true_eq]
      exact ⟨⟨h.1.1, tabAbove_insert (by omega) h.1.2⟩, ih (fun p hp => hk p (by simp [hp])) h.2⟩

theorem tabErase_ne (t : List (Nat × α)) (k : Nat) : ∀ p ∈ tabErase t k, p.1 ≠ k := by
  induction t with
  | nil => intro p hp; simp [tabErase] at hp
  | cons q t ih =>
    obtain ⟨i, w⟩ := q
    intro p hp
    by_cases hi : i = k
    · simp only [tabErase, hi, if_true] at hp; exact ih p hp
    · simp only [tabErase, hi, if_false, List.mem_cons] at hp
      rcases hp with rfl | hp
      · exact hi
      · exact ih p hp

/-- Every write keeps the canonical form. -/
theorem tabWf_set [DecidableEq α] {d : Nat → α} {t : List (Nat × α)} (k : Nat) (v : α) (h : tabWf d t = true) :
    tabWf d (tabSet d t k v) = true := by
  unfold tabSet
  split
  · exact tabWf_erase h
  · next hv => exact tabWf_insert hv (tabErase_ne t k) (tabWf_erase h)

end Sys2Proof.Machine
end

