-- ==== Sys2Proof/Laws/Keep.lean ====
section
/-!
SUPPORT. What the proofs that every operation keeps the invariant share: stores, loops, and tables.
-/
namespace Sys2Proof.Machine

/-- What the invariant says, as an equivalence. -/
theorem inv_def (s : State) : Inv s ↔
  RegsOk s.regs ∧ MemOk s.mem ∧ EvrOk s.evr ∧ CycleOk s.clk.cycle ∧ StrapsOk s.straps ∧ FifoOk s.can.ports := Iff.rfl
theorem inv_State_wr {s : State} {a w} (h : Inv s) : Inv (s.wr a w) := ⟨tabWf_set _ _ h.1, h.2⟩
theorem inv_State_wr8 {s : State} {a w} (h : Inv s) : Inv (s.wr8 a w) := ⟨h.1, tabWf_set _ _ h.2.1, h.2.2⟩
theorem inv_State_wrBytes {s : State} {a} {l : List Byte} (h : Inv s) : Inv (s.wrBytes a l) := by
  induction l generalizing s a with
  | nil => exact h
  | cons b l ih => exact ih (inv_State_wr8 h)
theorem inv_foldl {α : Type} {f : State → α → State} (hf : ∀ t x, Inv t → Inv (f t x)) {l : List α} {s : State}
    (h : Inv s) : Inv (l.foldl f s) := by
  induction l generalizing s with
  | nil => exact h
  | cons b l ih => exact ih (hf _ _ h)
theorem inv_forUp {n : Nat} {f : Nat → State → State} {s : State} (h : Inv s) (hf : ∀ i t, Inv t → Inv (f i t)) :
    Inv (forUp n f s) := inv_foldl (fun t i ht => hf i t ht) h
theorem inv_forAll {α : Type} {l : List α} {f : α → State → State} {s : State} (h : Inv s)
    (hf : ∀ i t, Inv t → Inv (f i t)) : Inv (forAll l f s) := inv_foldl (fun t i ht => hf i t ht) h
theorem tabWf_filter {α : Type} [DecidableEq α] {d : Nat → α} (p : Nat × α → Bool) {t : List (Nat × α)}
    (h : tabWf d t = true) : tabWf d (t.filter p) = true := by
  have ab : ∀ {lo : Nat} {t : List (Nat × α)}, tabAbove lo t = true → tabAbove lo (t.filter p) = true := by
    intro lo t h
    induction t with
    | nil => rfl
    | cons q t ih =>
      obtain ⟨i, w⟩ := q
      simp only [tabAbove, Bool.and_eq_true, decide_eq_true_eq] at h
      by_cases hp : p (i, w) <;> simp [List.filter, hp, tabAbove, ih h.2, h.1]
  induction t with
  | nil => rfl
  | cons q t ih =>
    obtain ⟨i, w⟩ := q
    simp only [tabWf, Bool.and_eq_true, decide_eq_true_eq] at h
    by_cases hp : p (i, w)
    · simp only [List.filter, hp, tabWf, Bool.and_eq_true, decide_eq_true_eq]
      exact ⟨⟨h.1.1, ab h.1.2⟩, ih h.2⟩
    · simp [List.filter, hp, ih h.2]
theorem regsOk_filter {r} (p : Nat × Word → Bool) (h : RegsOk r) : RegsOk (r.filter p) := tabWf_filter p h
theorem memOk_filter {r} (p : Host.Cell → Bool) (h : MemOk r) : MemOk (r.filter p) := tabWf_filter p h
theorem memOk_nil : MemOk [] := rfl
theorem fifoOk_nil : FifoOk [] := by intro p; simp [tabGet, CanPort.init]
theorem fifoOk_set {l : List (Nat × CanPort)} {p : Nat} {x : CanPort} (h : FifoOk l) (hx : x.fifo.length ≤ 32) :
    FifoOk (tabSet (fun _ => CanPort.init) l p x) := by
  intro q
  by_cases hq : q = p
  · subst hq; simpa using hx
  · rw [tabGet_set_other _ _ _ hq]; exact h q
theorem fifo_le {s : State} (h : Inv s) (p : Nat) : (s.canPort p).fifo.length ≤ 32 := h.2.2.2.2.2 p
theorem length_updFirst (p f) (l : List EvRec) : (updFirst p f l).length = l.length := by
  induction l with
  | nil => rfl
  | cons r l ih => unfold updFirst; split <;> simp [ih]
theorem inv_foldl_fst {α β : Type} {f : State × β → α → State × β} (hf : ∀ r x, Inv r.1 → Inv (f r x).1) {l : List α}
    {r : State × β} (h : Inv r.1) : Inv (l.foldl f r).1 := by
  induction l generalizing r with
  | nil => exact h
  | cons b l ih => exact ih (hf _ _ h)
theorem inv_same {s t : State} (h : Inv s) (hr : t.regs = s.regs) (hm : t.mem = s.mem) (he : t.evr = s.evr)
    (hc : t.clk.cycle = s.clk.cycle) (hs : t.straps = s.straps) (hf : t.can.ports = s.can.ports) : Inv t := by
  unfold Inv at *; rw [hr, hm, he, hc, hs, hf]; exact h

end Sys2Proof.Machine
end

