-- ==== Sys2Proof/Laws/KeepOps.lean ====
section
/-!
SUPPORT. Every operation and command of Machine/Ops.lean keeps the invariant.
-/
namespace Sys2Proof.Machine

theorem inv_State_put {s : State} {x1 : Fld} {x2 : Nat}
    (h0 : Inv s) :
    Inv (State.put s x1 x2) := by
  unfold State.put
  grind [inv_def, inv_State_wr]

theorem inv_State_add {s : State} {x1 : Fld} {x2 : Nat}
    (h0 : Inv s) :
    Inv (State.add s x1 x2) := by
  unfold State.add
  grind [inv_def, inv_State_put]

theorem inv_State_answer {s : State} {x1 : Word}
    (h0 : Inv s) :
    Inv (State.answer s x1) := by
  unfold State.answer
  grind [inv_def]

theorem inv_State_busError {s : State}
    (h0 : Inv s) :
    Inv (State.busError s) := by
  unfold State.busError
  grind [inv_def]

theorem inv_State_clearMem {s : State} {x1 : Nat} {x2 : Nat}
    (h0 : Inv s) :
    Inv (State.clearMem s x1 x2) := by
  unfold State.clearMem
  grind [inv_def, inv_State_wrBytes]

theorem inv_State_copyMem {s : State} {x1 : Nat} {x2 : Nat} {x3 : Nat}
    (h0 : Inv s) :
    Inv (State.copyMem s x1 x2 x3) := by
  unfold State.copyMem
  grind [inv_def, inv_State_wrBytes]

theorem inv_State_putBit {s : State} {x1 : Fld} {x2 : Bool}
    (h0 : Inv s) :
    Inv (State.putBit s x1 x2) := by
  unfold State.putBit
  grind [inv_def, inv_State_put]

theorem inv_State_inc {s : State} {x1 : Fld}
    (h0 : Inv s) :
    Inv (State.inc s x1) := by
  unfold State.inc
  grind [inv_def, inv_State_add]

theorem inv_State_push {s : State} {x1 : Ev}
    (h0 : Inv s) :
    Inv (State.push s x1) := by
  unfold State.push
  split
  · exact h0
  · split
    · exact ⟨h0.1, h0.2.1, ⟨by simp; omega, h0.2.2.1.2⟩, h0.2.2.2⟩
    · exact inv_State_putBit (inv_State_inc (s := { s with evr := { s.evr with lostNow := s.evr.lostNow + 1 } }) h0)

theorem inv_State_evx {s : State} {x1 : Nat} {x2 : Nat} {x3 : Nat} {x4 : F16} {x5 : F16}
    (h0 : Inv s) :
    Inv (State.evx s x1 x2 x3 x4 x5) := by
  unfold State.evx
  grind [inv_def, inv_State_push]

theorem inv_State_ev {s : State} {x1 : Nat} {x2 : optParam Nat 0} {x3 : optParam Nat 0}
    (h0 : Inv s) :
    Inv (State.ev s x1 x2 x3) := by
  unfold State.ev
  grind [inv_def, inv_State_evx]

theorem inv_State_evMax {s : State} {x1 : Nat} {x2 : Nat} {x3 : Nat} {x4 : F16}
    (h0 : Inv s) :
    Inv (State.evMax s x1 x2 x3 x4) := by
  unfold State.evMax
  grind [inv_def, inv_State_evx]

theorem inv_State_fresh {s : State}
    (h0 : Inv s) :
    Inv (State.fresh s).2 := by
  unfold State.fresh
  grind [inv_def]

theorem inv_State_wr32 {s : State} {x1 : Nat} {x2 : Word}
    (h0 : Inv s) :
    Inv (State.wr32 s x1 x2) := by
  unfold State.wr32
  grind [inv_def, inv_State_wr8]

theorem inv_State_mput {s : State} {x1 : Fld} {x2 : Nat}
    (h0 : Inv s) :
    Inv (State.mput s x1 x2) := by
  unfold State.mput
  grind [inv_def, inv_State_wr32]

theorem inv_State_put64 {s : State} {x1 : Nat} {x2 : Nat}
    (h0 : Inv s) :
    Inv (State.put64 s x1 x2) := by
  unfold State.put64
  grind [inv_def, inv_State_put]

theorem inv_State_setBitAt {s : State} {x1 : Fld} {x2 : Nat} {x3 : Bool}
    (h0 : Inv s) :
    Inv (State.setBitAt s x1 x2 x3) := by
  unfold State.setBitAt
  grind [inv_def, inv_State_putBit]

theorem inv_State_svcReady {s : State} {x1 : Nat}
    (h0 : Inv s) :
    Inv (State.svcReady s x1) := by
  unfold State.svcReady
  grind [inv_def]

theorem inv_noteLasting {x0 : Nat} {s : State}
    (h0 : Inv s) :
    Inv (noteLasting x0 s) := by
  unfold noteLasting
  grind [inv_def, inv_State_evMax, inv_State_put]

end Sys2Proof.Machine
end

