-- ==== Sys2Proof/Laws/KeepRecorder.lean ====
section
/-!
SUPPORT. Every operation and command of Machine/Recorder.lean keeps the invariant.
-/
namespace Sys2Proof.Machine

theorem inv_State_setEvrPort {s : State} {x1 : Nat} {x2 : EvrPort}
    (h0 : Inv s) :
    Inv (State.setEvrPort s x1 x2) := by
  exact ⟨h0.1, h0.2.1, h0.2.2.1, h0.2.2.2⟩

theorem inv_evrRebuild {s : State}
    (h0 : Inv s) :
    Inv (evrRebuild s) := by
  unfold evrRebuild
  refine inv_State_put ⟨h0.1, h0.2.1, ?_, h0.2.2.2⟩
  obtain ⟨-, -, h, -⟩ := h0
  unfold EvrOk at *; dsimp only; omega

theorem inv_evrFlush {s : State}
    (h0 : Inv s) :
    Inv (evrFlush s) := by
  unfold evrFlush
  grind [inv_def, EvrOk, length_updFirst]

theorem inv_evDouble {x0 : Ev} {s : State}
    (h0 : Inv s) :
    Inv (evDouble x0 s) := by
  unfold evDouble
  grind [inv_def, EvrOk, length_updFirst]

theorem inv_evOpen {x0 : Ev} {s : State}
    (h0 : Inv s) :
    Inv (evOpen x0 s) := by
  unfold evOpen
  grind [inv_def, inv_State_ev, inv_State_putBit, EvrOk, length_updFirst]

theorem inv_evCount {x0 : EvRec → Bool} {x1 : Ev} {s : State}
    (h0 : Inv s) :
    Inv (evCount x0 x1 s) := by
  unfold evCount
  grind [inv_def, EvrOk, length_updFirst]

theorem inv_evLimited {x0 : Ev} {s : State}
    (h0 : Inv s) :
    Inv (evLimited x0 s) := by
  unfold evLimited
  grind [inv_def, inv_evOpen, inv_State_inc, inv_evCount]

theorem inv_evRepeat {x0 : Ev} {s : State}
    (h0 : Inv s) :
    Inv (evRepeat x0 s) := by
  unfold evRepeat
  grind [inv_def, inv_evCount, inv_evOpen]

theorem inv_evRecord {x0 : Ev} {s : State}
    (h0 : Inv s) :
    Inv (evRecord x0 s) := by
  unfold evRecord
  grind [inv_def, inv_evDouble, inv_evLimited, inv_evRepeat, EvrOk, length_updFirst]

theorem inv_execEventFlashWrite {x0 : Bool} {s : State}
    (h0 : Inv s) :
    ∀ t, execEventFlashWrite x0 s = .next t → Inv t := by
  unfold execEventFlashWrite
  grind [inv_def, inv_State_evMax, inv_State_putBit, inv_evrFlush]

theorem inv_execEvrRdArea {x0 : Req} {x1 : Fin 4} {s : State}
    (h0 : Inv s) :
    ∀ t, execEvrRdArea x0 x1 s = .next t → Inv t := by
  unfold execEvrRdArea
  grind [inv_def, inv_State_setEvrPort]

theorem inv_freshWords {n : Nat} {s : State} (h0 : Inv s) : Inv (freshWords n s).2 := by
  induction n generalizing s with
  | zero => exact h0
  | succ n ih => exact ih (s := { s with free := s.free + 1 }) (inv_same h0 rfl rfl rfl rfl rfl rfl)

theorem inv_execEvrRdSel {x0 : Req} {x1 : Word} {s : State}
    (h0 : Inv s) :
    ∀ t, execEvrRdSel x0 x1 s = .next t → Inv t := by
  unfold execEvrRdSel
  grind [inv_def, inv_State_setEvrPort, inv_freshWords]

theorem inv_execSillClr {x0 : Req} {s : State}
    (h0 : Inv s) :
    ∀ t, execSillClr x0 s = .next t → Inv t := by
  unfold execSillClr
  grind [inv_def, inv_State_putBit, inv_State_inc, inv_evRecord, EvrOk, length_updFirst]

end Sys2Proof.Machine
end

