-- ==== Sys2Proof/Laws/KeepInterrupts.lean ====
section
/-!
SUPPORT. Every operation and command of Machine/Interrupts.lean keeps the invariant.
-/
namespace Sys2Proof.Machine

theorem inv_State_setActive {s : State} {x1 : Nat} {x2 : Bool}
    (h0 : Inv s) :
    Inv (State.setActive s x1 x2) := by
  unfold State.setActive
  grind [inv_def, inv_State_putBit]

theorem inv_State_setPend {s : State} {x1 : Nat} {x2 : Bool}
    (h0 : Inv s) :
    Inv (State.setPend s x1 x2) := by
  unfold State.setPend
  grind [inv_def, inv_State_putBit]

theorem inv_raise {x0 : Nat} {s : State}
    (h0 : Inv s) :
    Inv (raise x0 s) := by
  unfold raise
  grind [inv_def, inv_State_setPend]

theorem inv_execEdgeLatch {x0 : Fin 512} {s : State}
    (h0 : Inv s) :
    ∀ t, execEdgeLatch x0 s = .next t → Inv t := by
  unfold execEdgeLatch
  grind [inv_def, inv_raise, inv_State_putBit, inv_State_ev]

theorem inv_picBits {x0 : Req} {x1 : Nat → Fld} {x2 : Nat} {x3 : Word} {x4 : Word} {s : State}
    (h0 : Inv s) :
    Inv (picBits x0 x1 x2 x3 x4 s) := by
  unfold picBits
  grind [inv_def, inv_State_wr]

theorem inv_execEnClr {x0 : Req} {x1 : Fin 16} {x2 : Word} {x3 : Word} {s : State}
    (h0 : Inv s) :
    ∀ t, execEnClr x0 x1 x2 x3 s = .next t → Inv t := by
  unfold execEnClr
  grind [inv_def, inv_picBits]

theorem inv_execEnSet {x0 : Req} {x1 : Fin 16} {x2 : Word} {s : State}
    (h0 : Inv s) :
    ∀ t, execEnSet x0 x1 x2 s = .next t → Inv t := by
  unfold execEnSet
  grind [inv_def, inv_picBits]

theorem inv_execInterruptRaise {x0 : Fin 512} {s : State}
    (h0 : Inv s) :
    ∀ t, execInterruptRaise x0 s = .next t → Inv t := by
  unfold execInterruptRaise
  grind [inv_def, inv_raise]

theorem inv_execPendClr {x0 : Req} {x1 : Fin 16} {x2 : Word} {x3 : Word} {s : State}
    (h0 : Inv s) :
    ∀ t, execPendClr x0 x1 x2 x3 s = .next t → Inv t := by
  unfold execPendClr
  grind [inv_def, inv_picBits]

theorem inv_execPendSet {x0 : Req} {x1 : Fin 16} {x2 : Word} {s : State}
    (h0 : Inv s) :
    ∀ t, execPendSet x0 x1 x2 s = .next t → Inv t := by
  unfold execPendSet
  grind [inv_def, inv_picBits]

theorem inv_execPicClaim {x0 : Req} {x1 : Fin 11} {x2 : List (Fin 11)} {s : State}
    (h0 : Inv s) :
    ∀ t, execPicClaim x0 x1 x2 s = .next t → Inv t := by
  unfold execPicClaim
  grind [inv_def, inv_State_answer, inv_State_inc, inv_State_setPend, inv_State_setActive]

theorem inv_execPicComplete {x0 : Req} {x1 : Fin 11} {x2 : Fin 1024} {s : State}
    (h0 : Inv s) :
    ∀ t, execPicComplete x0 x1 x2 s = .next t → Inv t := by
  unfold execPicComplete
  grind [inv_def, inv_State_setActive, inv_State_setPend, inv_State_evMax, inv_State_putBit]

theorem inv_execPicSrcWrite {x0 : Req} {x1 : Fin 512} {x2 : Word} {s : State}
    (h0 : Inv s) :
    ∀ t, execPicSrcWrite x0 x1 x2 s = .next t → Inv t := by
  unfold execPicSrcWrite
  grind [inv_def, inv_State_put, inv_State_putBit]

end Sys2Proof.Machine
end

