-- ==== Sys2Proof/Laws/KeepSignals.lean ====
section
/-!
SUPPORT. Every operation and command of Machine/Signals.lean keeps the invariant.
-/
namespace Sys2Proof.Machine

theorem inv_State_ev1 {s : State} {x1 : Nat} {x2 : Nat} {x3 : Nat} {x4 : Nat} {x5 : F16}
    (h0 : Inv s) :
    Inv (State.ev1 s x1 x2 x3 x4 x5) := by
  unfold State.ev1
  grind [inv_def, inv_State_evx]

theorem inv_State_putSig {s : State} {x1 : Nat} {x2 : Nat} {x3 : Sig}
    (h0 : Inv s) :
    Inv (State.putSig s x1 x2 x3) := by
  unfold State.putSig
  grind [inv_def, inv_State_wr32]

theorem inv_State_noSig {s : State} {x1 : Nat} {x2 : Nat}
    (h0 : Inv s) :
    Inv (State.noSig s x1 x2) := by
  unfold State.noSig
  grind [inv_def, inv_State_putSig]

theorem inv_State_putCmd {s : State} {x1 : Nat} {x2 : Nat} {x3 : Cmd}
    (h0 : Inv s) :
    Inv (State.putCmd s x1 x2 x3) := by
  unfold State.putCmd
  grind [inv_def, inv_State_wr32]

theorem inv_State_putF {s : State} {x1 : Fld} {x2 : F32}
    (h0 : Inv s) :
    Inv (State.putF s x1 x2) := by
  unfold State.putF
  grind [inv_def, inv_State_wr]

theorem inv_State_setLoop {s : State} {x1 : Nat} {x2 : Loop}
    (h0 : Inv s) :
    Inv (State.setLoop s x1 x2) := by
  unfold State.setLoop
  grind [inv_def]

theorem inv_State_putNew {s : State} {x1 : Nat} {x2 : Nat} {x3 : Sig}
    (h0 : Inv s) :
    Inv (State.putNew s x1 x2 x3) := by
  unfold State.putNew
  grind [inv_def, inv_State_putSig, inv_State_setLoop]

theorem inv_State_putNews {s : State} {x1 : Nat} {x2 : Sig}
    (h0 : Inv s) :
    Inv (State.putNews s x1 x2) := by
  unfold State.putNews
  grind [inv_def, inv_State_putNew]

theorem inv_State_putSigs {s : State} {x1 : Nat} {x2 : Sig}
    (h0 : Inv s) :
    Inv (State.putSigs s x1 x2) := by
  unfold State.putSigs
  grind [inv_def, inv_State_putSig]

theorem inv_State_setFnSt {s : State} {x1 : Nat} {x2 : FnState}
    (h0 : Inv s) :
    Inv (State.setFnSt s x1 x2) := by
  unfold State.setFnSt
  grind [inv_def]

theorem inv_setTarget {x0 : Nat} {x1 : F32} {s : State}
    (h0 : Inv s) :
    Inv (setTarget x0 x1 s) := by
  unfold setTarget
  grind [inv_def, inv_State_setFnSt, inv_State_putBit, inv_State_putF, inv_State_evx]

theorem inv_request {x0 : Nat} {x1 : Nat} {x2 : F32} {s : State}
    (h0 : Inv s) :
    Inv (request x0 x1 x2 s) := by
  unfold request
  grind [inv_def, inv_setTarget, inv_State_put]

theorem inv_rampFn {x0 : Nat} {x1 : Nat} {s : State}
    (h0 : Inv s) :
    Inv (rampFn x0 x1 s) := by
  unfold rampFn
  grind [inv_def, inv_State_noSig, inv_State_putNew, inv_State_putF]

end Sys2Proof.Machine
end

