-- ==== Sys2Proof/Laws/KeepClock.lean ====
section
/-!
SUPPORT. Every operation and command of Machine/Clock.lean keeps the invariant.
-/
namespace Sys2Proof.Machine

theorem inv_applyStep {x0 : Int} {s : State}
    (h0 : Inv s) :
    Inv (applyStep x0 s) := by
  unfold applyStep
  grind [inv_def, inv_State_putBit, inv_State_put64, inv_State_evMax]

theorem inv_keepSteps {x0 : Int × Nat → Bool} {s : State}
    (h0 : Inv s) :
    Inv (keepSteps x0 s) := by
  unfold keepSteps
  grind [inv_def, inv_State_putBit]

theorem inv_frameStep {s : State}
    (h0 : Inv s) :
    Inv (frameStep s) := by
  unfold frameStep
  grind [inv_def, inv_applyStep, inv_State_putBit, inv_keepSteps]

theorem inv_latchClk {x0 : Nat} {s : State}
    (h0 : Inv s) :
    Inv (latchClk x0 s) := by
  unfold latchClk
  grind [inv_def]

theorem inv_showBound {s : State}
    (h0 : Inv s) :
    Inv (showBound s) := by
  unfold showBound
  grind [inv_def, inv_State_put]

theorem inv_setAlign {x0 : Nat} {s : State}
    (h0 : Inv s) :
    Inv (setAlign x0 s) := by
  unfold setAlign
  grind [inv_def, inv_State_putBit, inv_State_put]

theorem inv_slewTick {s : State}
    (h0 : Inv s) :
    Inv (slewTick s) := by
  unfold slewTick
  grind [inv_def, inv_showBound, inv_State_put, inv_State_ev, inv_setAlign]

theorem inv_execAlignLost {s : State}
    (h0 : Inv s) :
    ∀ t, execAlignLost s = .next t → Inv t := by
  unfold execAlignLost
  grind [inv_def, inv_State_ev, inv_setAlign]

theorem inv_execAlignReached {s : State}
    (h0 : Inv s) :
    ∀ t, execAlignReached s = .next t → Inv t := by
  unfold execAlignReached
  grind [inv_def, inv_State_ev, inv_setAlign]

theorem inv_execClkTickRead {req : Req} {cycle : Fin 20000} {s : State} (h0 : Inv s) :
    ∀ t, execClkTickRead req cycle s = .next t → Inv t := by
  have h : Inv { s with clk := { s.clk with cycle := cycle } } := ⟨h0.1, h0.2.1, h0.2.2.1, cycle.isLt, h0.2.2.2.2⟩
  unfold execClkTickRead
  grind [inv_latchClk, inv_State_answer]

theorem inv_setLeap {x0 : LeapTable} {s : State}
    (h0 : Inv s) :
    Inv (setLeap x0 s) := by
  unfold setLeap
  grind [inv_def, inv_State_putBit, inv_State_put, inv_State_put64]

theorem inv_setTimeStat {x0 : Nat} {s : State}
    (h0 : Inv s) :
    Inv (setTimeStat x0 s) := by
  unfold setTimeStat
  grind [inv_def, inv_State_ev, inv_State_putBit, inv_State_put]

theorem inv_execHoldoverEntry {s : State}
    (h0 : Inv s) :
    ∀ t, execHoldoverEntry s = .next t → Inv t := by
  unfold execHoldoverEntry
  grind [inv_def, inv_setTimeStat]

theorem inv_execHoldoverLimit {s : State}
    (h0 : Inv s) :
    ∀ t, execHoldoverLimit s = .next t → Inv t := by
  unfold execHoldoverLimit
  grind [inv_def, inv_setTimeStat]

theorem inv_execLeapSecond {s : State}
    (h0 : Inv s) :
    ∀ t, execLeapSecond s = .next t → Inv t := by
  unfold execLeapSecond
  grind [inv_def, inv_State_put, inv_State_putBit, inv_State_ev]

theorem inv_timeSolution {x0 : Int} {s : State}
    (h0 : Inv s) :
    Inv (timeSolution x0 s) := by
  unfold timeSolution
  grind [inv_def, inv_State_putBit, inv_State_put, inv_setTimeStat]

theorem inv_execStepSettle {s : State}
    (h0 : Inv s) :
    ∀ t, execStepSettle s = .next t → Inv t := by
  unfold execStepSettle
  grind [inv_def, inv_setTimeStat]

end Sys2Proof.Machine
end

