-- ==== Sys2Proof/Laws/KeepGnss.lean ====
section
/-!
SUPPORT. Every operation and command of Machine/Gnss.lean keeps the invariant.
-/
namespace Sys2Proof.Machine

theorem inv_State_setTrk {s : State} {x1 : Nat} {x2 : Trk}
    (h0 : Inv s) :
    Inv (State.setTrk s x1 x2) := by
  unfold State.setTrk
  grind [inv_def]

theorem inv_bandEpoch {x0 : BandMeas} {x1 : Nat} {s : State}
    (h0 : Inv s) :
    Inv (bandEpoch x0 x1 s) := by
  unfold bandEpoch
  grind [inv_def, inv_State_put, inv_State_evMax, inv_State_putBit, inv_State_setBitAt]

theorem inv_setAnt {x0 : Nat} {x1 : Nat} {x2 : Nat} {s : State}
    (h0 : Inv s) :
    Inv (setAnt x0 x1 x2 s) := by
  unfold setAnt
  grind [inv_def, inv_State_putBit, inv_State_put]

theorem inv_biasOn {s : State}
    (h0 : Inv s) :
    Inv (biasOn s) := by
  unfold biasOn
  grind [inv_def, inv_forUp, inv_setAnt]

theorem inv_latchSol {x0 : Nat} {s : State}
    (h0 : Inv s) :
    Inv (latchSol x0 s) := by
  unfold latchSol
  grind [inv_def]

theorem inv_showNtrk {s : State}
    (h0 : Inv s) :
    Inv (showNtrk s) := by
  unfold showNtrk
  grind [inv_def, inv_State_put]

theorem inv_execAnt0Restore {s : State}
    (h0 : Inv s) :
    ∀ t, execAnt0Restore s = .next t → Inv t := by
  unfold execAnt0Restore
  grind [inv_def, inv_State_ev, inv_State_putBit]

theorem inv_execAnt1Substitute {s : State}
    (h0 : Inv s) :
    ∀ t, execAnt1Substitute s = .next t → Inv t := by
  unfold execAnt1Substitute
  grind [inv_def, inv_State_ev, inv_State_putBit]

theorem inv_setTrial {x0 : Nat} {x1 : Bool} {s : State}
    (h0 : Inv s) :
    Inv (setTrial x0 x1 s) := by
  unfold setTrial
  grind [inv_def]

theorem inv_startTrial {x0 : Nat} {s : State}
    (h0 : Inv s) :
    Inv (startTrial x0 s) := by
  unfold startTrial
  grind [inv_def, inv_setTrial, inv_setAnt]

theorem inv_execAntRetry {x0 : Req} {s : State}
    (h0 : Inv s) :
    ∀ t, execAntRetry x0 s = .next t → Inv t := by
  unfold execAntRetry
  grind [inv_def, inv_forUp, inv_startTrial]

theorem inv_execAntennaOk {x0 : Fin 2} {x1 : Nat} {s : State}
    (h0 : Inv s) :
    ∀ t, execAntennaOk x0 x1 s = .next t → Inv t := by
  unfold execAntennaOk
  grind [inv_def, inv_State_ev, inv_setTrial, inv_setAnt]

theorem inv_execAntennaOpen {x0 : Fin 2} {x1 : Nat} {s : State}
    (h0 : Inv s) :
    ∀ t, execAntennaOpen x0 x1 s = .next t → Inv t := by
  unfold execAntennaOpen
  grind [inv_def, inv_State_evx, inv_setTrial, inv_setAnt]

theorem inv_execAntennaShort {x0 : Fin 2} {x1 : Nat} {x2 : Bool} {s : State}
    (h0 : Inv s) :
    ∀ t, execAntennaShort x0 x1 x2 s = .next t → Inv t := by
  unfold execAntennaShort
  grind [inv_def, inv_setTrial, inv_State_evMax, inv_setAnt]

theorem inv_execAntennaTrial {x0 : Fin 2} {s : State}
    (h0 : Inv s) :
    ∀ t, execAntennaTrial x0 s = .next t → Inv t := by
  unfold execAntennaTrial
  grind [inv_def, inv_startTrial]

theorem inv_execBandReturn {x0 : Fin 2} {x1 : Fin 3} {s : State}
    (h0 : Inv s) :
    ∀ t, execBandReturn x0 x1 s = .next t → Inv t := by
  unfold execBandReturn
  grind [inv_def, inv_State_putBit, inv_State_setBitAt, inv_State_evx]

theorem inv_pumpSearches {s : State}
    (h0 : Inv s) :
    Inv (pumpSearches s) := by
  unfold pumpSearches
  grind [inv_def]

theorem inv_queueSearches {x0 : List Search} {s : State}
    (h0 : Inv s) :
    Inv (queueSearches x0 s) := by
  unfold queueSearches
  grind [inv_def, inv_pumpSearches]

theorem inv_gnsBegin {x0 : Nat} {x1 : List (Nat × Nat)} {s : State}
    (h0 : Inv s) :
    Inv (gnsBegin x0 x1 s) := by
  unfold gnsBegin
  grind [inv_def, inv_forUp, inv_State_putBit, inv_showNtrk, inv_State_put, inv_queueSearches, inv_State_svcReady,
    inv_State_ev]

theorem inv_gnsStart {x0 : GnssStart} {s : State}
    (h0 : Inv s) :
    Inv (gnsStart x0 s) := by
  unfold gnsStart
  grind [inv_def, inv_biasOn, inv_gnsBegin]

theorem inv_rtcmCan {x0 : Nat} {x1 : Bool} {x2 : Nat} {x3 : List Byte} {s : State}
    (h0 : Inv s) :
    Inv (rtcmCan x0 x1 x2 x3 s) := by
  unfold rtcmCan
  grind [inv_def]

theorem inv_execCoastExpire {x0 : Fin 384} {s : State}
    (h0 : Inv s) :
    ∀ t, execCoastExpire x0 s = .next t → Inv t := by
  unfold execCoastExpire
  grind [inv_def, inv_showNtrk, inv_State_putBit, inv_queueSearches]

theorem inv_execColdStartRequest {x0 : Req} {s : State}
    (h0 : Inv s) :
    ∀ t, execColdStartRequest x0 s = .next t → Inv t := by
  unfold execColdStartRequest
  grind [inv_def, inv_gnsBegin]

theorem inv_execCorrAgeOut {s : State}
    (h0 : Inv s) :
    ∀ t, execCorrAgeOut s = .next t → Inv t := by
  unfold execCorrAgeOut
  grind [inv_def, inv_State_putBit, inv_State_evMax]

theorem inv_useSource {x0 : Nat} {s : State}
    (h0 : Inv s) :
    Inv (useSource x0 s) := by
  unfold useSource
  grind [inv_def, inv_State_put, inv_State_ev, inv_State_putBit]

theorem inv_execCorrSourceSwitch {s : State}
    (h0 : Inv s) :
    ∀ t, execCorrSourceSwitch s = .next t → Inv t := by
  unfold execCorrSourceSwitch
  grind [inv_def, inv_State_putBit, inv_useSource]

theorem inv_execDumpLatch {c : Fin 384} {sums : List (Int × Int)} {s : State} (h0 : Inv s) :
    ∀ t, execDumpLatch c sums s = .next t → Inv t := by
  intro t
  unfold execDumpLatch
  extract_lets s2 s3 x full tell s4 s5 s6
  have i2 : Inv s2 := inv_forUp h0 fun m t ht => inv_State_put (inv_State_put ht)
  clear_value s2
  have i3 : Inv s3 := inv_State_put i2
  clear_value s3 tell
  have i4 : Inv s4 := by
    show Inv (if _ then _ else _)
    split
    · exact inv_State_inc i3
    · exact i3
  clear_value s4 full
  have i5 : Inv s5 := by
    show Inv (if _ then _ else _)
    split
    · exact inv_State_evMax i4
    · exact i4
  clear_value s5
  have i6 : Inv s6 := inv_State_setTrk i5
  clear_value s6
  grind [inv_State_putBit]

theorem inv_execGnsSolRead {x0 : Req} {s : State}
    (h0 : Inv s) :
    ∀ t, execGnsSolRead x0 s = .next t → Inv t := by
  unfold execGnsSolRead
  grind [inv_def, inv_State_answer, inv_latchSol]

theorem inv_measEpoch {x0 : EpochMeas} {x1 : Nat} {s : State}
    (h0 : Inv s) :
    Inv (measEpoch x0 x1 s) := by
  unfold measEpoch
  grind [inv_def, inv_State_wr, inv_State_put]

theorem inv_execGnssEpoch {x0 : List EpochMeas} {x1 : List BandMeas} {s : State}
    (h0 : Inv s) :
    ∀ t, execGnssEpoch x0 x1 s = .next t → Inv t := by
  unfold execGnssEpoch
  grind [inv_def, inv_forAll, inv_measEpoch, inv_bandEpoch, inv_State_put]

theorem inv_execLockLoss {x0 : Fin 384} {s : State}
    (h0 : Inv s) :
    ∀ t, execLockLoss x0 s = .next t → Inv t := by
  unfold execLockLoss
  grind [inv_def, inv_State_putBit, inv_State_setTrk]

theorem inv_execNavDataSave {x0 : Bool} {s : State}
    (h0 : Inv s) :
    ∀ t, execNavDataSave x0 s = .next t → Inv t := by
  unfold execNavDataSave
  grind [inv_def, inv_State_ev]

theorem inv_writeNco {x0 : Nat} {x1 : Bool} {x2 : Word} {s : State}
    (h0 : Inv s) :
    Inv (writeNco x0 x1 x2 s) := by
  unfold writeNco
  grind [inv_def, inv_State_inc, inv_State_setTrk, inv_State_wr]

theorem inv_execNcoWrite {x0 : Req} {x1 : Fin 384} {x2 : Bool} {x3 : Word} {s : State}
    (h0 : Inv s) :
    ∀ t, execNcoWrite x0 x1 x2 x3 s = .next t → Inv t := by
  unfold execNcoWrite
  grind [inv_def, inv_writeNco]

theorem inv_tuneNotch {x0 : Nat} {x1 : Nat} {x2 : Nat} {x3 : Int} {x4 : Nat} {s : State}
    (h0 : Inv s) :
    Inv (tuneNotch x0 x1 x2 x3 x4 s) := by
  unfold tuneNotch
  grind [inv_def, inv_State_put]

theorem inv_execNotchEngage {x0 : Fin 2} {x1 : Fin 3} {x2 : Int} {x3 : Nat} {s : State}
    (h0 : Inv s) :
    ∀ t, execNotchEngage x0 x1 x2 x3 s = .next t → Inv t := by
  unfold execNotchEngage
  grind [inv_def, inv_tuneNotch, inv_State_inc, inv_State_setBitAt, inv_State_putBit, inv_State_evMax]

theorem inv_execNotchRelease {x0 : Fin 2} {x1 : Fin 3} {x2 : Fin 4} {x3 : Nat} {s : State}
    (h0 : Inv s) :
    ∀ t, execNotchRelease x0 x1 x2 x3 s = .next t → Inv t := by
  unfold execNotchRelease
  grind [inv_def, inv_State_setBitAt, inv_State_putBit]

theorem inv_execRtcmCanFrame {x0 : Fin 6} {x1 : Bool} {x2 : Nat} {x3 : List Byte} {s : State}
    (h0 : Inv s) :
    ∀ t, execRtcmCanFrame x0 x1 x2 x3 s = .next t → Inv t := by
  unfold execRtcmCanFrame
  grind [inv_def, inv_rtcmCan]

theorem inv_refuseType {x0 : Nat} {s : State}
    (h0 : Inv s) :
    Inv (refuseType x0 s) := by
  unfold refuseType
  grind [inv_def, inv_State_inc, inv_State_evMax]

theorem inv_setObs {x0 : Nat} {s : State}
    (h0 : Inv s) :
    Inv (setObs x0 s) := by
  unfold setObs
  grind [inv_def]

theorem inv_noteStation {x0 : Nat} {x1 : Option (List Int)} {s : State}
    (h0 : Inv s) :
    Inv (noteStation x0 x1 s) := by
  unfold noteStation
  grind [inv_def, inv_State_put, inv_State_ev]

theorem inv_takeRtcm {x0 : Nat} {x1 : List Byte} {s : State}
    (h0 : Inv s) :
    Inv (takeRtcm x0 x1 s) := by
  unfold takeRtcm
  grind [inv_def, inv_State_inc, inv_refuseType, inv_setObs, inv_useSource, inv_noteStation, inv_State_put,
    inv_State_putBit]

theorem inv_execRtcmMessage {x0 : Option (List Byte)} {s : State}
    (h0 : Inv s) :
    ∀ t, execRtcmMessage x0 s = .next t → Inv t := by
  unfold execRtcmMessage
  grind [inv_def, inv_takeRtcm]

theorem inv_handOver {x0 : Search} {x1 : Word} {x2 : Word} {s : State}
    (h0 : Inv s) :
    Inv (handOver x0 x1 x2 s) := by
  unfold handOver
  grind [inv_def, inv_State_putBit, inv_State_put, inv_State_wr, inv_State_setTrk, inv_showNtrk]

theorem inv_execSearchComplete {x0 : Nat} {x1 : Nat} {x2 : Fin 2} {x3 : Nat} {x4 : Word} {x5 : Word} {s : State}
    (h0 : Inv s) :
    ∀ t, execSearchComplete x0 x1 x2 x3 x4 x5 s = .next t → Inv t := by
  unfold execSearchComplete
  grind [inv_def, inv_pumpSearches, inv_handOver]

theorem inv_writeSol {x0 : Solution} {x1 : Residual} {x2 : Nat} {x3 : Nat} {s : State}
    (h0 : Inv s) :
    Inv (writeSol x0 x1 x2 x3 s) := by
  unfold writeSol
  grind [inv_def, inv_State_put64, inv_State_putBit, inv_State_put, inv_forUp]

theorem inv_noteNav {x0 : Solution} {x1 : Nat} {s : State}
    (h0 : Inv s) :
    Inv (noteNav x0 x1 s) := by
  unfold noteNav
  grind [inv_def]

theorem inv_takeSolution {x0 : Solution} {x1 : Nat} {x2 : Residual} {x3 : Nat} {s : State}
    (h0 : Inv s) :
    Inv (takeSolution x0 x1 x2 x3 s) := by
  unfold takeSolution
  grind [inv_def, inv_forAll, inv_State_evMax, inv_State_putBit, inv_writeSol, inv_State_ev, inv_noteNav, inv_setLeap]

theorem inv_noteYield {x0 : Nat} {x1 : Nat} {s : State}
    (h0 : Inv s) :
    Inv (noteYield x0 x1 s) := by
  unfold noteYield
  grind [inv_def]

theorem inv_execSolutionReady {x0 : Solution} {s : State}
    (h0 : Inv s) :
    ∀ t, execSolutionReady x0 s = .next t → Inv t := by
  unfold execSolutionReady
  grind [inv_def, inv_takeSolution, inv_noteYield, inv_timeSolution]

theorem inv_execTp0Edge {x0 : Fin 20000} {s : State}
    (h0 : Inv s) :
    ∀ t, execTp0Edge x0 s = .next t → Inv t := by
  unfold execTp0Edge
  grind [inv_def, inv_State_put]

theorem inv_trackOne {u : TrackUpd} {s : State} (h0 : Inv s) : Inv (trackOne u s) := by
  unfold trackOne
  dsimp only
  split
  · exact h0
  · have i1 : Inv ((s.putBit (fGNS_TRK_DUMP_DUMP_RDY u.ch) false).put (fGNS_TRK_LOCK_CN0 u.ch) (min u.cn0 255)) :=
      inv_State_put (inv_State_putBit h0)
    generalize (s.putBit (fGNS_TRK_DUMP_DUMP_RDY u.ch) false).put (fGNS_TRK_LOCK_CN0 u.ch) (min u.cn0 255) = v at i1 ⊢
    split
    · split
      · exact inv_State_setTrk i1
      · exact inv_writeNco (inv_writeNco (inv_State_setTrk i1))
    · exact inv_writeNco (inv_writeNco (inv_State_putBit (inv_State_putBit (inv_State_setTrk i1))))

theorem inv_execTrackingLoopPeriod {x0 : List TrackUpd} {x1 : List (Nat × Nat × Fin 2)} {s : State}
    (h0 : Inv s) :
    ∀ t, execTrackingLoopPeriod x0 x1 s = .next t → Inv t := by
  unfold execTrackingLoopPeriod
  grind [inv_def, inv_forAll, inv_trackOne, inv_queueSearches]

end Sys2Proof.Machine
end

