-- ==== Sys2Proof/Laws/KeepJamb.lean ====
section
/-!
SUPPORT. Every operation and command of Machine/Jamb.lean keeps the invariant.
-/
namespace Sys2Proof.Machine

theorem inv_State_setJamb {s : State} {x1 : Nat} {x2 : Jamb}
    (h0 : Inv s) :
    Inv (State.setJamb s x1 x2) := by
  unfold State.setJamb
  grind [inv_def]

theorem inv_showSel {x0 : Nat} {x1 : Nat} {s : State}
    (h0 : Inv s) :
    Inv (showSel x0 x1 s) := by
  unfold showSel
  grind [inv_def, inv_State_put, inv_State_setBitAt]

theorem inv_showVal {x0 : Nat} {s : State}
    (h0 : Inv s) :
    Inv (showVal x0 s) := by
  unfold showVal
  grind [inv_def, inv_State_putF]

theorem inv_showPol {x0 : Nat} {x1 : Bool} {s : State}
    (h0 : Inv s) :
    Inv (showPol x0 x1 s) := by
  unfold showPol
  grind [inv_def, inv_State_setBitAt, inv_State_putBit]

theorem inv_applyJamb {x0 : Nat} {s : State}
    (h0 : Inv s) :
    Inv (applyJamb x0 s).2 := by
  unfold applyJamb
  grind [inv_def, inv_showSel, inv_State_setJamb, inv_showVal, inv_State_ev, inv_showPol]

theorem inv_clearSel {x0 : Nat} {s : State}
    (h0 : Inv s) :
    Inv (clearSel x0 s) := by
  unfold clearSel
  grind [inv_def, inv_State_put, inv_State_setBitAt]

theorem inv_applyPolicy {x0 : Nat} {x1 : Nat} {x2 : F32} {s : State}
    (h0 : Inv s) :
    Inv (applyPolicy x0 x1 x2 s) := by
  unfold applyPolicy
  grind [inv_def, inv_showVal, inv_showPol, inv_State_setJamb, inv_clearSel]

theorem inv_dropStage {x0 : Nat} {x1 : Nat} {s : State}
    (h0 : Inv s) :
    Inv (dropStage x0 x1 s) := by
  unfold dropStage
  grind [inv_def, inv_State_setJamb, inv_showSel]

theorem inv_dropDie {x0 : Nat} {x1 : Nat} {s : State}
    (h0 : Inv s) :
    Inv (dropDie x0 x1 s) := by
  unfold dropDie
  grind [inv_def, inv_forAll, inv_dropStage]

theorem inv_setLink {x0 : Nat} {x1 : Nat} {x2 : Bool} {s : State}
    (h0 : Inv s) :
    Inv (setLink x0 x1 x2 s) := by
  unfold setLink
  grind [inv_def, inv_State_putBit]

theorem inv_holdFrame {x0 : Nat} {x1 : Word} {x2 : Word} {s : State}
    (h0 : Inv s) :
    Inv (holdFrame x0 x1 x2 s) := by
  unfold holdFrame
  grind [inv_def, inv_State_setJamb]

end Sys2Proof.Machine
end

