-- ==== Sys2Proof/Laws/KeepCanBus.lean ====
section
/-!
SUPPORT. Every operation and command of Machine/CanBus.lean keeps the invariant.
-/
namespace Sys2Proof.Machine

theorem inv_State_setCanPort {s : State} {p : Nat} {x : CanPort} (h0 : Inv s) (hx : x.fifo.length ≤ 32) :
    Inv (s.setCanPort p x) :=
  ⟨h0.1, h0.2.1, h0.2.2.1, h0.2.2.2.1, h0.2.2.2.2.1, fifoOk_set h0.2.2.2.2.2 hx⟩

theorem inv_setAcl {x0 : Nat} {x1 : Nat} {s : State}
    (h0 : Inv s) :
    Inv (setAcl x0 x1 s) := by
  unfold setAcl
  grind [inv_def, inv_State_putBit, inv_State_put]

theorem inv_showFifo {x0 : Nat} {s : State}
    (h0 : Inv s) :
    Inv (showFifo x0 s) := by
  unfold showFifo
  grind [inv_def, inv_State_setCanPort, inv_State_putBit, inv_State_put, fifo_le]

theorem inv_canExpress {x0 : Nat} {x1 : TxFrame} {s : State}
    (h0 : Inv s) :
    Inv (canExpress x0 x1 s) := by
  unfold canExpress
  grind [inv_def, inv_showFifo, inv_State_setCanPort, fifo_le]

theorem inv_claimAddr {x0 : Nat} {x1 : Nat} {s : State}
    (h0 : Inv s) :
    Inv (claimAddr x0 x1 s) := by
  unfold claimAddr
  grind [inv_def, inv_State_put, inv_setAcl, inv_State_setCanPort, inv_canExpress, fifo_le]

theorem inv_canEnable {x0 : Nat} {s : State}
    (h0 : Inv s) :
    Inv (canEnable x0 s) := by
  unfold canEnable
  grind [inv_def, inv_claimAddr]

theorem inv_canLouvred {s : State}
    (h0 : Inv s) :
    Inv (canLouvred s) := by
  unfold canLouvred
  grind [inv_def, inv_forUp, inv_State_setCanPort, fifo_le]

theorem inv_canOutcome {x0 : Nat} {x1 : Nat} {x2 : Nat} {x3 : Nat} {s : State}
    (h0 : Inv s) :
    Inv (canOutcome x0 x1 x2 x3 s) := by
  unfold canOutcome
  grind [inv_def]

theorem inv_canRefuse {x0 : Nat} {x1 : Nat} {x2 : TxFrame} {s : State}
    (h0 : Inv s) :
    Inv (canRefuse x0 x1 x2 s) := by
  unfold canRefuse
  grind [inv_def, inv_State_putBit, inv_canOutcome]

theorem inv_canQueue {x0 : Nat} {x1 : TxFrame} {s : State}
    (h0 : Inv s) :
    Inv (canQueue x0 x1 s) := by
  unfold canQueue
  grind [inv_def, inv_showFifo, inv_State_inc, inv_State_setCanPort, inv_State_ev, inv_canRefuse, fifo_le]

theorem inv_dropFifo {x0 : Nat} {x1 : Nat} {s : State}
    (h0 : Inv s) :
    Inv (dropFifo x0 x1 s) := by
  unfold dropFifo
  grind [inv_def, inv_forAll, inv_canRefuse, inv_showFifo, inv_State_setCanPort, fifo_le]

theorem inv_fillCan {x0 : Nat} {s : State}
    (h0 : Inv s) :
    Inv (fillCan x0 s) := by
  unfold fillCan
  grind [inv_def, inv_forAll, inv_State_putNew]

theorem inv_hoqTick {s : State}
    (h0 : Inv s) :
    Inv (hoqTick s) := by
  unfold hoqTick
  grind [inv_def, inv_forUp, inv_State_put]

theorem inv_execAddressClaimed {x0 : Fin 6} {s : State}
    (h0 : Inv s) :
    ∀ t, execAddressClaimed x0 s = .next t → Inv t := by
  unfold execAddressClaimed
  grind [inv_def, inv_State_evMax, inv_setAcl]

theorem inv_setCanState {x0 : Nat} {x1 : Nat} {s : State}
    (h0 : Inv s) :
    Inv (setCanState x0 x1 s) := by
  unfold setCanState
  grind [inv_def, inv_State_put, inv_State_setBitAt]

theorem inv_execBusOff {x0 : Fin 6} {x1 : Fin 256} {s : State}
    (h0 : Inv s) :
    ∀ t, execBusOff x0 x1 s = .next t → Inv t := by
  unfold execBusOff
  grind [inv_def, inv_State_put, inv_setCanState, inv_State_setCanPort, inv_State_evMax, inv_State_putBit,
    inv_State_inc, fifo_le]

theorem inv_startRecover {x0 : Nat} {s : State}
    (h0 : Inv s) :
    Inv (startRecover x0 s) := by
  unfold startRecover
  grind [inv_def, inv_State_setCanPort, fifo_le]

theorem inv_execBusOffHoldEnd {x0 : Fin 6} {s : State}
    (h0 : Inv s) :
    ∀ t, execBusOffHoldEnd x0 s = .next t → Inv t := by
  unfold execBusOffHoldEnd
  grind [inv_def, inv_startRecover]

theorem inv_execBusOffRecovered {x0 : Fin 6} {s : State}
    (h0 : Inv s) :
    ∀ t, execBusOffRecovered x0 s = .next t → Inv t := by
  unfold execBusOffRecovered
  grind [inv_def, inv_State_put, inv_setCanState, inv_State_setCanPort, inv_State_ev, inv_State_putBit, fifo_le]

theorem inv_execCanFlush {x0 : Req} {x1 : Fin 64} {s : State}
    (h0 : Inv s) :
    ∀ t, execCanFlush x0 x1 s = .next t → Inv t := by
  unfold execCanFlush
  grind [inv_def, inv_forUp, inv_dropFifo]

theorem inv_j1939Request {x0 : Nat} {x1 : CanFrame} {s : State}
    (h0 : Inv s) :
    Inv (j1939Request x0 x1 s) := by
  unfold j1939Request
  grind [inv_def, inv_canExpress, inv_canQueue]

theorem inv_setCanVal {x0 : Nat} {x1 : CanVal} {s : State}
    (h0 : Inv s) :
    Inv (setCanVal x0 x1 s) := by
  unfold setCanVal
  grind [inv_def]

theorem inv_feedMap {x0 : CanFrame} {x1 : Nat} {x2 : SigMap} {s : State}
    (h0 : Inv s) :
    Inv (feedMap x0 x1 x2 s) := by
  unfold feedMap
  grind [inv_def, inv_setCanVal, inv_State_evMax]

theorem inv_canTake {port : Fin 6} {frame : CanFrame} {s : State} (h0 : Inv s) :
    Inv (j1939Request port frame (s.inc (fCAN_CNT_RX port))) := inv_j1939Request (inv_State_inc h0)

theorem inv_execCanFrameReceive {port : Fin 6} {frame : CanFrame} {s : State} (h0 : Inv s) :
    ∀ t, execCanFrameReceive port frame s = .next t → Inv t := by
  intro t
  unfold execCanFrameReceive
  split
  · rintro ⟨⟩; exact h0
  · split
    · dsimp only
      have i1 : Inv ((s.inc (fCAN_CNT_ERR_PROTO_EXC port)).putBit fCAN_EVT_PROTO_EXC true) :=
        inv_State_putBit (inv_State_inc h0)
      generalize (s.inc (fCAN_CNT_ERR_PROTO_EXC port)).putBit fCAN_EVT_PROTO_EXC true = u at i1 ⊢
      grind [inv_State_ev, inv_State_setCanPort, fifo_le]
    · dsimp only
      have i1 := inv_canTake (port := port) (frame := frame) h0
      generalize j1939Request port frame (s.inc (fCAN_CNT_RX port)) = u at i1 ⊢
      split
      · rintro ⟨⟩; exact inv_rtcmCan i1
      · split
        · rintro ⟨⟩; exact inv_forAll i1 fun m t ht => inv_feedMap ht
        · split
          · rintro ⟨⟩; exact inv_same i1 rfl rfl rfl rfl rfl rfl
          · rintro ⟨⟩; exact i1

theorem inv_execCanRecover {x0 : Req} {x1 : Fin 64} {s : State}
    (h0 : Inv s) :
    ∀ t, execCanRecover x0 x1 s = .next t → Inv t := by
  unfold execCanRecover
  grind [inv_def, inv_forUp, inv_startRecover]

theorem inv_execCanSleep {x0 : Fin 6} {s : State}
    (h0 : Inv s) :
    ∀ t, execCanSleep x0 s = .next t → Inv t := by
  unfold execCanSleep
  grind [inv_def, inv_forAll, inv_canRefuse, inv_dropFifo, inv_showFifo, inv_State_setCanPort, inv_State_evMax,
    inv_setCanState, fifo_le]

theorem inv_popHead {x0 : Nat} {s : State}
    (h0 : Inv s) :
    Inv (popHead x0 s) := by
  unfold popHead
  grind [inv_def, inv_showFifo, inv_State_setCanPort, fifo_le]

theorem inv_execCanTxComplete {x0 : Fin 6} {x1 : Bool} {x2 : Fin 256} {s : State}
    (h0 : Inv s) :
    ∀ t, execCanTxComplete x0 x1 x2 s = .next t → Inv t := by
  unfold execCanTxComplete
  grind [inv_def, inv_canOutcome, inv_State_inc, inv_State_setCanPort, inv_showFifo, inv_State_put, inv_popHead,
    fifo_le]

theorem inv_execCanTxRetry {x0 : Fin 6} {x1 : Bool} {x2 : Bool} {x3 : Fin 256} {s : State}
    (h0 : Inv s) :
    ∀ t, execCanTxRetry x0 x1 x2 x3 s = .next t → Inv t := by
  unfold execCanTxRetry
  grind [inv_def, inv_State_ev, inv_State_inc, inv_canRefuse, inv_State_put, inv_showFifo, inv_State_setCanPort,
    inv_popHead, fifo_le]

theorem inv_execCannotClaimSend {x0 : Fin 6} {s : State}
    (h0 : Inv s) :
    ∀ t, execCannotClaimSend x0 s = .next t → Inv t := by
  unfold execCannotClaimSend
  grind [inv_def, inv_canExpress, inv_State_setCanPort, fifo_le]

theorem inv_execCommandedAddress {x0 : Fin 6} {x1 : Nat} {x2 : Fin 254} {s : State}
    (h0 : Inv s) :
    ∀ t, execCommandedAddress x0 x1 x2 s = .next t → Inv t := by
  unfold execCommandedAddress
  grind [inv_def, inv_claimAddr]

theorem inv_execContendingClaim {x0 : Fin 6} {x1 : Fin 254} {x2 : Nat} {s : State}
    (h0 : Inv s) :
    ∀ t, execContendingClaim x0 x1 x2 s = .next t → Inv t := by
  unfold execContendingClaim
  grind [inv_def, inv_State_setCanPort, inv_canExpress, inv_State_ev, inv_claimAddr, inv_State_put, inv_setAcl,
    fifo_le]

theorem inv_execDm1Send {x0 : Fin 6} {x1 : List Byte} {s : State}
    (h0 : Inv s) :
    ∀ t, execDm1Send x0 x1 s = .next t → Inv t := by
  unfold execDm1Send
  grind [inv_def, inv_State_setCanPort, inv_canQueue, fifo_le]

theorem inv_execErrorPassive {x0 : Fin 6} {x1 : Bool} {x2 : Fin 256} {x3 : Fin 256} {s : State}
    (h0 : Inv s) :
    ∀ t, execErrorPassive x0 x1 x2 x3 s = .next t → Inv t := by
  unfold execErrorPassive
  grind [inv_def, inv_State_put, inv_State_evMax, inv_setCanState]

theorem inv_execHoqLimit {x0 : Fin 6} {s : State}
    (h0 : Inv s) :
    ∀ t, execHoqLimit x0 s = .next t → Inv t := by
  unfold execHoqLimit
  grind [inv_def, inv_State_putBit, inv_State_setCanPort, inv_State_evMax, fifo_le]

theorem inv_execJ1939Transport {x0 : Fin 6} {x1 : TpEvent} {s : State}
    (h0 : Inv s) :
    ∀ t, execJ1939Transport x0 x1 s = .next t → Inv t := by
  unfold execJ1939Transport
  grind [inv_def, inv_State_setCanPort, inv_canQueue, fifo_le]

theorem inv_execNoAddressTimeout {x0 : Fin 6} {s : State}
    (h0 : Inv s) :
    ∀ t, execNoAddressTimeout x0 s = .next t → Inv t := by
  unfold execNoAddressTimeout
  grind [inv_def, inv_dropFifo]

theorem inv_execSignalTimeout {x0 : Fin 256} {s : State}
    (h0 : Inv s) :
    ∀ t, execSignalTimeout x0 s = .next t → Inv t := by
  unfold execSignalTimeout
  grind [inv_def, inv_State_evMax, inv_State_putBit, inv_setCanVal]

theorem inv_execTxMessageDue {x0 : Fin 32} {s : State}
    (h0 : Inv s) :
    ∀ t, execTxMessageDue x0 s = .next t → Inv t := by
  unfold execTxMessageDue
  grind [inv_def, inv_canExpress, inv_canQueue]

theorem inv_execTxsNoclaimPolicy {x0 : Fin 16} {s : State}
    (h0 : Inv s) :
    ∀ t, execTxsNoclaimPolicy x0 s = .next t → Inv t := by
  unfold execTxsNoclaimPolicy
  grind [inv_def, inv_State_ev, inv_applyPolicy]

end Sys2Proof.Machine
end

