-- ==== Sys2Proof/Laws/KeepMailbox.lean ====
section
/-!
SUPPORT. Every operation and command of Machine/Mailbox.lean keeps the invariant.
-/
namespace Sys2Proof.Machine

theorem inv_mailSwap {s : State}
    (h0 : Inv s) :
    Inv (mailSwap s) := by
  unfold mailSwap
  grind [inv_def]

theorem inv_fillMail {x0 : Nat} {s : State}
    (h0 : Inv s) :
    Inv (fillMail x0 s) := by
  unfold fillMail
  grind [inv_def, inv_forAll, inv_State_putNew]

theorem inv_mailPut {x0 : Nat} {x1 : F32} {x2 : Bool} {x3 : Nat} {s : State}
    (h0 : Inv s) :
    Inv (mailPut x0 x1 x2 x3 s) := by
  unfold mailPut
  grind [inv_def]

theorem inv_execMailboxPost {x0 : List (Nat × F32 × Bool × Nat)} {s : State}
    (h0 : Inv s) :
    ∀ t, execMailboxPost x0 s = .next t → Inv t := by
  unfold execMailboxPost
  grind [inv_def, inv_forAll, inv_mailPut]

end Sys2Proof.Machine
end

