-- ==== Sys2Proof/Laws/KeepCamera.lean ====
section
/-!
SUPPORT. Every operation and command of Machine/Camera.lean keeps the invariant.
-/
namespace Sys2Proof.Machine

theorem inv_State_setPipe {s : State} {x1 : Nat} {x2 : Pipe}
    (h0 : Inv s) :
    Inv (State.setPipe s x1 x2) := by
  unfold State.setPipe
  grind [inv_def]

theorem inv_State_wr64 {s : State} {x1 : Nat} {x2 : Nat}
    (h0 : Inv s) :
    Inv (State.wr64 s x1 x2) := by
  unfold State.wr64
  grind [inv_def, inv_State_wr32]

theorem inv_exposureStart {s : State}
    (h0 : Inv s) :
    Inv (exposureStart s) := by
  unfold exposureStart
  grind [inv_def, inv_forUp, inv_State_setPipe]

theorem inv_shadowTransfer {s : State}
    (h0 : Inv s) :
    Inv (shadowTransfer s) := by
  unfold shadowTransfer
  grind [inv_def, inv_forUp, inv_State_wr, inv_State_setPipe, inv_State_put]

theorem inv_statsHead {x0 : Nat} {x1 : Nat} {x2 : Nat} {x3 : Nat} {x4 : Int} {s : State}
    (h0 : Inv s) :
    Inv (statsHead x0 x1 x2 x3 x4 s) := by
  unfold statsHead
  grind [inv_def, inv_State_wr64, inv_State_wr32]

theorem inv_statsInvalid {x0 : Nat} {x1 : CamFrame} {s : State}
    (h0 : Inv s) :
    Inv (statsInvalid x0 x1 s) := by
  unfold statsInvalid
  grind [inv_def, inv_statsHead]

theorem inv_dropLate {x0 : Nat} {x1 : Nat} {s : State}
    (h0 : Inv s) :
    Inv (dropLate x0 x1 s) := by
  unfold dropLate
  grind [inv_def, inv_forAll, inv_statsInvalid, inv_State_setPipe, inv_State_evMax, inv_State_putBit, inv_State_inc]

theorem inv_dropStream {x0 : Nat} {x1 : Nat} {s : State}
    (h0 : Inv s) :
    Inv (dropStream x0 x1 s) := by
  unfold dropStream
  grind [inv_def, inv_State_putBit, inv_State_inc, inv_State_ev, inv_State_setPipe]

theorem inv_ispStop {s : State}
    (h0 : Inv s) :
    Inv (ispStop s) := by
  unfold ispStop
  grind [inv_def, inv_forUp, inv_State_setPipe]

theorem inv_ispStart {s : State}
    (h0 : Inv s) :
    Inv (ispStart s) := by
  unfold ispStart
  grind [inv_def, inv_forUp, inv_State_setPipe, inv_State_putBit]

theorem inv_setPort {x0 : Nat} {x1 : Nat} {s : State}
    (h0 : Inv s) :
    Inv (setPort x0 x1 s) := by
  unfold setPort
  grind [inv_def, inv_State_putBit, inv_State_put]

theorem inv_execCamLinkDown {x0 : Fin 6} {s : State}
    (h0 : Inv s) :
    ∀ t, execCamLinkDown x0 s = .next t → Inv t := by
  unfold execCamLinkDown
  grind [inv_def, inv_State_ev, inv_setPort]

theorem inv_execExposureCommand {x0 : Fin 6} {s : State}
    (h0 : Inv s) :
    ∀ t, execExposureCommand x0 s = .next t → Inv t := by
  unfold execExposureCommand
  grind [inv_def, inv_State_setPipe]

theorem inv_execFrameLate {x0 : Fin 6} {x1 : Nat} {s : State}
    (h0 : Inv s) :
    ∀ t, execFrameLate x0 x1 s = .next t → Inv t := by
  unfold execFrameLate
  grind [inv_def, inv_dropLate]

theorem inv_execIspShadowWrite {x0 : Req} {x1 : Fin 6} {x2 : Fin 11} {x3 : Word} {s : State}
    (h0 : Inv s) :
    ∀ t, execIspShadowWrite x0 x1 x2 x3 s = .next t → Inv t := by
  unfold execIspShadowWrite
  grind [inv_def, inv_State_inc, inv_State_setPipe]

theorem inv_flushFrames {x0 : Nat} {x1 : Nat} {s : State}
    (h0 : Inv s) :
    Inv (flushFrames x0 x1 s) := by
  unfold flushFrames
  grind [inv_def, inv_forAll, inv_statsInvalid, inv_State_setPipe]

theorem inv_execPortAbsent {x0 : Fin 6} {s : State}
    (h0 : Inv s) :
    ∀ t, execPortAbsent x0 s = .next t → Inv t := by
  unfold execPortAbsent
  grind [inv_def, inv_State_ev, inv_setPort, inv_flushFrames]

theorem inv_wrWords {x0 : Nat} {x1 : List Word} {s : State}
    (h0 : Inv s) :
    Inv (wrWords x0 x1 s) := by
  unfold wrWords
  grind [inv_def, inv_forAll, inv_State_wr32]

theorem inv_postGrain {x0 : Nat} {x1 : F32 × F32 × Bool} {s : State}
    (h0 : Inv s) :
    Inv (postGrain x0 x1 s) := by
  unfold postGrain
  grind [inv_def, inv_mailPut]

theorem inv_grainStats {x0 : Nat} {x1 : CamFrame} {x2 : Blocks} {s : State}
    (h0 : Inv s) :
    Inv (grainStats x0 x1 x2 s) := by
  unfold grainStats
  grind [inv_def, inv_wrWords, inv_State_put]

theorem inv_execStatsWritten {x0 : Fin 6} {x1 : Nat} {s : State}
    (h0 : Inv s) :
    ∀ t, execStatsWritten x0 x1 s = .next t → Inv t := by
  unfold execStatsWritten
  grind [inv_def, inv_statsHead, inv_State_wrBytes, inv_wrWords, inv_postGrain, inv_grainStats, inv_State_svcReady,
    inv_State_putBit, inv_State_put, inv_State_setPipe]

theorem inv_takeFrame {x0 : Nat} {x1 : StreamIn} {s : State}
    (h0 : Inv s) :
    Inv (takeFrame x0 x1 s) := by
  unfold takeFrame
  grind [inv_def, inv_flushFrames, inv_setPort, inv_State_setPipe, inv_State_evMax, inv_State_putBit, inv_State_put]

theorem inv_execStreamFrame {x0 : Fin 6} {x1 : StreamIn} {s : State}
    (h0 : Inv s) :
    ∀ t, execStreamFrame x0 x1 s = .next t → Inv t := by
  unfold execStreamFrame
  grind [inv_def, inv_dropStream, inv_dropLate, inv_takeFrame]

end Sys2Proof.Machine
end

