-- ==== Sys2Proof/Laws/KeepInputs.lean ====
section
/-!
SUPPORT. Every operation and command of Machine/Inputs.lean keeps the invariant.
-/
namespace Sys2Proof.Machine

theorem inv_State_setLossIn {s : State} {x1 : Nat} {x2 : LossIn}
    (h0 : Inv s) :
    Inv (State.setLossIn s x1 x2) := by
  unfold State.setLossIn
  grind [inv_def]

theorem inv_State_setPair {s : State} {x1 : Nat} {x2 : UinPair}
    (h0 : Inv s) :
    Inv (State.setPair s x1 x2) := by
  unfold State.setPair
  grind [inv_def]

theorem inv_State_setUin {s : State} {x1 : Nat} {x2 : Uin}
    (h0 : Inv s) :
    Inv (State.setUin s x1 x2) := by
  unfold State.setUin
  grind [inv_def]

theorem inv_applyLock {x0 : Nat} {s : State}
    (h0 : Inv s) :
    Inv (applyLock x0 s) := by
  unfold applyLock
  grind [inv_def, inv_State_putBit, inv_State_setBitAt, inv_State_ev]

theorem inv_applyLocks {s : State}
    (h0 : Inv s) :
    Inv (applyLocks s) := by
  unfold applyLocks
  grind [inv_def, inv_forUp, inv_applyLock]

theorem inv_lockBits {x0 : Nat} {s : State}
    (h0 : Inv s) :
    Inv (lockBits x0 s) := by
  unfold lockBits
  grind [inv_def]

theorem inv_unlockBits {x0 : Nat} {s : State}
    (h0 : Inv s) :
    Inv (unlockBits x0 s) := by
  unfold unlockBits
  grind [inv_def]

theorem inv_clearFirst {x0 : Nat} {s : State}
    (h0 : Inv s) :
    Inv (clearFirst x0 s) := by
  unfold clearFirst
  grind [inv_def, inv_State_setPair]

theorem inv_deriveOne {x0 : Nat} {x1 : Nat} {x2 : Option Sig} {s : State}
    (h0 : Inv s) :
    Inv (deriveOne x0 x1 x2 s) := by
  unfold deriveOne
  grind [inv_def, inv_State_putNew, inv_State_putSig]

theorem inv_deriveCrop {x0 : Bool} {x1 : Nat} {s : State}
    (h0 : Inv s) :
    Inv (deriveCrop x0 x1 s) := by
  unfold deriveCrop
  grind [inv_def, inv_deriveOne]

theorem inv_deriveGroup {x0 : Nat} {x1 : Nat} {s : State}
    (h0 : Inv s) :
    Inv (deriveGroup x0 x1 s) := by
  unfold deriveGroup
  grind [inv_def, inv_State_putSig, inv_State_putNew, inv_State_putF]

theorem inv_latchPair {x0 : TickIn} {x1 : Nat} {s : State}
    (h0 : Inv s) :
    Inv (latchPair x0 x1 s) := by
  unfold latchPair
  grind [inv_def, inv_State_setPair]

theorem inv_latchOff {x0 : Nat} {s : State}
    (h0 : Inv s) :
    Inv (latchOff x0 s) := by
  unfold latchOff
  grind [inv_def, inv_State_setUin, inv_State_putSigs, inv_State_putF]

theorem inv_latchChanged {x0 : TickIn} {x1 : Nat} {s : State}
    (h0 : Inv s) :
    Inv (latchChanged x0 x1 s) := by
  unfold latchChanged
  grind [inv_def, inv_State_setUin, inv_State_putSigs, inv_State_putF]

theorem inv_openShunt {x0 : Nat} {x1 : F32} {s : State}
    (h0 : Inv s) :
    Inv (openShunt x0 x1 s) := by
  unfold openShunt
  grind [inv_def]

theorem inv_uinFail {x0 : Nat} {x1 : F16} {x2 : F16} {s : State}
    (h0 : Inv s) :
    Inv (uinFail x0 x1 x2 s) := by
  unfold uinFail
  grind [inv_def, inv_State_setUin, inv_State_evx, inv_State_putBit]

theorem inv_uinRange {x0 : Nat} {x1 : F32} {s : State}
    (h0 : Inv s) :
    Inv (uinRange x0 x1 s) := by
  unfold uinRange
  grind [inv_def, inv_uinFail, inv_openShunt]

theorem inv_latchRunning {x0 : TickIn} {x1 : Nat} {s : State}
    (h0 : Inv s) :
    Inv (latchRunning x0 x1 s) := by
  unfold latchRunning
  grind [inv_def, inv_State_setUin, inv_openShunt, inv_uinRange, inv_State_putSigs, inv_State_putF]

theorem inv_latchUin {x0 : TickIn} {x1 : Nat} {s : State}
    (h0 : Inv s) :
    Inv (latchUin x0 x1 s) := by
  unfold latchUin
  grind [inv_def, inv_latchOff, inv_latchChanged, inv_latchRunning]

theorem inv_latchAngle {x0 : Nat} {s : State}
    (h0 : Inv s) :
    Inv (latchAngle x0 s) := by
  unfold latchAngle
  grind [inv_def, inv_State_putSigs]

theorem inv_latchLoss {x0 : Nat} {s : State}
    (h0 : Inv s) :
    Inv (latchLoss x0 s) := by
  unfold latchLoss
  grind [inv_def, inv_State_putSigs, inv_State_setLossIn, inv_State_putNews, inv_State_putF]

theorem inv_zeroTick {s : State}
    (h0 : Inv s) :
    Inv (zeroTick s) := by
  unfold zeroTick
  grind [inv_def]

theorem inv_execEdgeTimeout {x0 : Fin 48} {s : State}
    (h0 : Inv s) :
    ∀ t, execEdgeTimeout x0 s = .next t → Inv t := by
  unfold execEdgeTimeout
  grind [inv_def, inv_State_setUin]

theorem inv_execFlowZero {x0 : Req} {s : State}
    (h0 : Inv s) :
    ∀ t, execFlowZero x0 s = .next t → Inv t := by
  unfold execFlowZero
  grind [inv_def, inv_State_putBit]

theorem inv_execFlowZeroDone {s : State}
    (h0 : Inv s) :
    ∀ t, execFlowZeroDone s = .next t → Inv t := by
  unfold execFlowZeroDone
  grind [inv_def, inv_State_putBit, inv_State_evx, inv_State_putF, inv_State_put]

theorem inv_execIndexEdge {x0 : Fin 24} {x1 : Nat} {s : State}
    (h0 : Inv s) :
    ∀ t, execIndexEdge x0 x1 s = .next t → Inv t := by
  unfold execIndexEdge
  grind [inv_def, inv_State_setPair]

theorem inv_execIndexMissing {x0 : Fin 24} {s : State}
    (h0 : Inv s) :
    ∀ t, execIndexMissing x0 s = .next t → Inv t := by
  unfold execIndexMissing
  grind [inv_def, inv_uinFail]

theorem inv_execLockRequest {x0 : Req} {x1 : Word} {s : State}
    (h0 : Inv s) :
    ∀ t, execLockRequest x0 x1 s = .next t → Inv t := by
  unfold execLockRequest
  grind [inv_def, inv_lockBits]

theorem inv_execLossImpact {x0 : Fin 16} {x1 : Nat} {x2 : Nat} {x3 : Nat} {s : State}
    (h0 : Inv s) :
    ∀ t, execLossImpact x0 x1 x2 x3 s = .next t → Inv t := by
  unfold execLossImpact
  grind [inv_def, inv_State_evx, inv_State_inc, inv_State_setLossIn]

theorem inv_execLossSilent {x0 : Fin 16} {s : State}
    (h0 : Inv s) :
    ∀ t, execLossSilent x0 s = .next t → Inv t := by
  unfold execLossSilent
  grind [inv_def, inv_State_setLossIn, inv_State_putSig, inv_forUp, inv_State_evx, inv_State_putBit,
    inv_State_setBitAt]

theorem inv_execMa20ShuntReclose {x0 : Fin 48} {s : State}
    (h0 : Inv s) :
    ∀ t, execMa20ShuntReclose x0 s = .next t → Inv t := by
  unfold execMa20ShuntReclose
  grind [inv_def]

theorem inv_execQuadIllegalTransition {x0 : Fin 24} {s : State}
    (h0 : Inv s) :
    ∀ t, execQuadIllegalTransition x0 s = .next t → Inv t := by
  unfold execQuadIllegalTransition
  grind [inv_def, inv_State_setUin, inv_State_ev, inv_State_putBit]

theorem inv_execUinFault {x0 : Fin 48} {x1 : F32} {s : State}
    (h0 : Inv s) :
    ∀ t, execUinFault x0 x1 s = .next t → Inv t := by
  unfold execUinFault
  grind [inv_def, inv_uinRange]

theorem inv_execUinFaultCleared {x0 : Fin 48} {s : State}
    (h0 : Inv s) :
    ∀ t, execUinFaultCleared x0 s = .next t → Inv t := by
  unfold execUinFaultCleared
  grind [inv_def, inv_State_ev, inv_State_setUin]

theorem inv_execUnlockRequest {x0 : Req} {x1 : Word} {s : State}
    (h0 : Inv s) :
    ∀ t, execUnlockRequest x0 x1 s = .next t → Inv t := by
  unfold execUnlockRequest
  grind [inv_def, inv_unlockBits]

end Sys2Proof.Machine
end

