-- ==== Sys2Proof/Laws/KeepFleet.lean ====
section
/-!
SUPPORT. Every operation and command of Machine/Fleet.lean keeps the invariant.
-/
namespace Sys2Proof.Machine

theorem inv_showAlerts {s : State}
    (h0 : Inv s) :
    Inv (showAlerts s) := by
  unfold showAlerts
  grind [inv_def, inv_State_put]

theorem inv_refusePub {x0 : Nat} {s : State}
    (h0 : Inv s) :
    Inv (refusePub x0 s) := by
  unfold refusePub
  grind [inv_def, inv_State_putBit, inv_State_inc, inv_State_ev]

theorem inv_queuePub {x0 : Pub} {s : State}
    (h0 : Inv s) :
    Inv (queuePub x0 s) := by
  unfold queuePub
  grind [inv_def, inv_showAlerts, inv_refusePub]

theorem inv_publish {x0 : Nat} {x1 : List Byte} {s : State}
    (h0 : Inv s) :
    Inv (publish x0 x1 s) := by
  unfold publish
  grind [inv_def, inv_queuePub]

theorem inv_alertOf {x0 : Ev} {s : State}
    (h0 : Inv s) :
    Inv (alertOf x0 s) := by
  unfold alertOf
  grind [inv_def, inv_publish]

theorem inv_execEventIntake {s : State} (h0 : Inv s) : ∀ t, execEventIntake s = .next t → Inv t := by
  intro t h
  unfold execEventIntake at h
  split at h
  · cases h; exact h0
  · rename_i e rest he
    have h1 : Inv { s with evr := { s.evr with intake := rest } } := by
      refine ⟨h0.1, h0.2.1, ⟨?_, h0.2.2.1.2⟩, h0.2.2.2⟩
      have := h0.2.2.1.1
      rw [he] at this
      simp only [List.length_cons] at this
      show rest.length ≤ 256
      omega
    have h2 := inv_alertOf (x0 := e) (inv_evRecord (x0 := e) h1)
    dsimp only at h
    generalize alertOf e _ = s2 at h2 h
    split at h
    · cases h; exact h2
    · cases h
      exact inv_State_evMax ⟨h2.1, h2.2.1, h2.2.2.1, h2.2.2.2⟩

theorem inv_unsubscribe {s : State}
    (h0 : Inv s) :
    Inv (unsubscribe s) := by
  unfold unsubscribe
  grind [inv_def, inv_State_put]

end Sys2Proof.Machine
end

