-- ==== Sys2Proof/Laws/KeepFusion.lean ====
section
/-!
SUPPORT. Every operation and command of Machine/Fusion.lean keeps the invariant.
-/
namespace Sys2Proof.Machine

theorem inv_State_setTrack {s : State} {x1 : Nat} {x2 : Option Track}
    (h0 : Inv s) :
    Inv (State.setTrack s x1 x2) := by
  unfold State.setTrack
  grind [inv_def]

theorem inv_beginTrack {x0 : Nat} {x1 : F32} {x2 : ResultIn} {x3 : NewTrack} {s : State}
    (h0 : Inv s) :
    Inv (beginTrack x0 x1 x2 x3 s) := by
  unfold beginTrack
  grind [inv_def, inv_State_setTrack]

theorem inv_setWhy {x0 : Nat} {s : State}
    (h0 : Inv s) :
    Inv (setWhy x0 s) := by
  unfold setWhy
  grind [inv_def, inv_State_put]

theorem inv_setGuid {x0 : Nat} {s : State}
    (h0 : Inv s) :
    Inv (setGuid x0 s) := by
  unfold setGuid
  grind [inv_def, inv_State_putBit, inv_State_put]

theorem inv_showFell {s : State}
    (h0 : Inv s) :
    Inv (showFell s) := by
  unfold showFell
  grind [inv_def, inv_State_ev, inv_State_put, inv_setWhy, inv_setGuid]

theorem inv_fallback {x0 : Nat} {s : State}
    (h0 : Inv s) :
    Inv (fallback x0 s) := by
  unfold fallback
  grind [inv_def, inv_request]

theorem inv_guidIdle {x0 : Nat} {s : State}
    (h0 : Inv s) :
    Inv (guidIdle x0 s) := by
  unfold guidIdle
  grind [inv_def, inv_forAll, inv_fallback, inv_State_ev, inv_State_put, inv_setWhy, inv_setGuid]

theorem inv_guidLockCheck {s : State}
    (h0 : Inv s) :
    Inv (guidLockCheck s) := by
  unfold guidLockCheck
  grind [inv_def, inv_showFell, inv_guidIdle]

theorem inv_latchRes {x0 : Nat} {s : State}
    (h0 : Inv s) :
    Inv (latchRes x0 s) := by
  unfold latchRes
  grind [inv_def]

theorem inv_dropTrack {x0 : Nat} {s : State}
    (h0 : Inv s) :
    Inv (dropTrack x0 s) := by
  unfold dropTrack
  grind [inv_def, inv_State_setTrack, inv_State_put]

theorem inv_fusStop {s : State}
    (h0 : Inv s) :
    Inv (fusStop s) := by
  unfold fusStop
  grind [inv_def, inv_State_putBit]

theorem inv_setSrc {x0 : Nat} {x1 : Nat} {s : State}
    (h0 : Inv s) :
    Inv (setSrc x0 x1 s) := by
  unfold setSrc
  grind [inv_def, inv_State_ev, inv_State_put]

theorem inv_fusStart {s : State}
    (h0 : Inv s) :
    Inv (fusStart s) := by
  unfold fusStart
  grind [inv_def, inv_forUp, inv_setSrc, inv_State_putBit, inv_State_put]

theorem inv_execDisengage {x0 : Req} {s : State}
    (h0 : Inv s) :
    ∀ t, execDisengage x0 s = .next t → Inv t := by
  unfold execDisengage
  grind [inv_def, inv_guidIdle]

theorem inv_execEngage {x0 : Req} {x1 : Bool} {s : State}
    (h0 : Inv s) :
    ∀ t, execEngage x0 x1 s = .next t → Inv t := by
  unfold execEngage
  grind [inv_def, inv_execDisengage, inv_setWhy, inv_State_put, inv_setGuid, inv_State_ev]

theorem inv_guidPost {x0 : Nat} {x1 : Nat} {x2 : F32} {s : State}
    (h0 : Inv s) :
    Inv (guidPost x0 x1 x2 s) := by
  unfold guidPost
  grind [inv_def, inv_mailPut]

theorem inv_guidTake {x0 : Nat} {x1 : Nat} {x2 : F32} {s : State}
    (h0 : Inv s) :
    Inv (guidTake x0 x1 x2 s) := by
  unfold guidTake
  grind [inv_def, inv_guidPost, inv_State_put]

theorem inv_setUnl {x0 : Nat} {s : State}
    (h0 : Inv s) :
    Inv (setUnl x0 s) := by
  unfold setUnl
  grind [inv_def, inv_State_ev, inv_State_putBit, inv_State_put, inv_publish, inv_unsubscribe]

theorem inv_unlBegin {s : State}
    (h0 : Inv s) :
    Inv (unlBegin s) := by
  unfold unlBegin
  grind [inv_def, inv_guidTake, inv_setUnl]

theorem inv_unlAbort {x0 : Nat} {s : State}
    (h0 : Inv s) :
    Inv (unlAbort x0 s) := by
  unfold unlAbort
  grind [inv_def, inv_publish, inv_State_ev, inv_State_put, inv_guidPost, inv_request, inv_setUnl, inv_forAll,
    inv_fallback]

theorem inv_unlStopOp {s : State}
    (h0 : Inv s) :
    Inv (unlStopOp s) := by
  unfold unlStopOp
  grind [inv_def, inv_guidPost, inv_request, inv_setUnl, inv_unlAbort]

theorem inv_execFusResRead {x0 : Req} {s : State}
    (h0 : Inv s) :
    ∀ t, execFusResRead x0 s = .next t → Inv t := by
  unfold execFusResRead
  grind [inv_def, inv_State_answer, inv_latchRes]

theorem inv_execGuidanceFallback {x0 : Fin 30} {s : State}
    (h0 : Inv s) :
    ∀ t, execGuidanceFallback x0 s = .next t → Inv t := by
  unfold execGuidanceFallback
  grind [inv_def, inv_fallback, inv_showFell]

theorem inv_judgeTrack {x0 : Nat} {x1 : Track} {s : State}
    (h0 : Inv s) :
    Inv (judgeTrack x0 x1 s) := by
  unfold judgeTrack
  grind [inv_def, inv_State_setTrack, inv_State_inc, inv_State_putBit, inv_State_evMax, inv_State_ev]

theorem inv_execLateSample {x0 : Nat} {x1 : List TrackObs} {s : State}
    (h0 : Inv s) :
    ∀ t, execLateSample x0 x1 s = .next t → Inv t := by
  unfold execLateSample
  grind [inv_def, inv_State_putBit, inv_forAll, inv_judgeTrack, inv_State_evMax, inv_State_inc]

theorem inv_execLidarSweep {x0 : Fin 2} {x1 : Int} {s : State}
    (h0 : Inv s) :
    ∀ t, execLidarSweep x0 x1 s = .next t → Inv t := by
  unfold execLidarSweep
  grind [inv_def, inv_setSrc]

theorem inv_resultAge {x0 : ResultIn} {s : State}
    (h0 : Inv s) :
    Inv (resultAge x0 s) := by
  unfold resultAge
  grind [inv_def, inv_State_put]

theorem inv_writeEgo {x0 : Nat} {x1 : EgoIn} {s : State}
    (h0 : Inv s) :
    Inv (writeEgo x0 x1 s) := by
  unfold writeEgo
  grind [inv_def, inv_forUp, inv_State_wr, inv_State_put, inv_State_putBit, inv_State_evMax]

theorem inv_resultSources {x0 : ResultIn} {s : State}
    (h0 : Inv s) :
    Inv (resultSources x0 s) := by
  unfold resultSources
  grind [inv_def, inv_forUp, inv_setSrc, inv_State_put, inv_State_putBit, inv_forAll, inv_State_ev]

theorem inv_resultCorridor {x0 : F32} {s : State}
    (h0 : Inv s) :
    Inv (resultCorridor x0 s) := by
  unfold resultCorridor
  grind [inv_def, inv_State_put]

theorem inv_newTrack {x0 : F32} {x1 : ResultIn} {x2 : NewTrack} {s : State}
    (h0 : Inv s) :
    Inv (newTrack x0 x1 x2 s) := by
  unfold newTrack
  grind [inv_def, inv_beginTrack, inv_State_ev, inv_State_putBit, inv_State_inc, inv_State_evx, inv_dropTrack]

theorem inv_freeTrack {x0 : Nat} {s : State}
    (h0 : Inv s) :
    Inv (freeTrack x0 s) := by
  unfold freeTrack
  grind [inv_def, inv_dropTrack]

theorem inv_trackFrame {x0 : F32} {x1 : ResultIn} {x2 : TrackObs} {s : State}
    (h0 : Inv s) :
    Inv (trackFrame x0 x1 x2 s) := by
  unfold trackFrame
  grind [inv_def, inv_freeTrack, inv_judgeTrack]

theorem inv_unlClearing {x0 : Nat} {s : State}
    (h0 : Inv s) :
    Inv (unlClearing x0 s) := by
  unfold unlClearing
  grind [inv_def, inv_guidPost, inv_request]

theorem inv_unlTargets {x0 : Nat} {x1 : UnlIn} {s : State}
    (h0 : Inv s) :
    Inv (unlTargets x0 x1 s) := by
  unfold unlTargets
  grind [inv_def, inv_guidPost, inv_State_put]

theorem inv_unlStart {s : State}
    (h0 : Inv s) :
    Inv (unlStart s) := by
  unfold unlStart
  grind [inv_def, inv_State_put, inv_guidTake, inv_setUnl]

theorem inv_unlMove {x0 : Bool} {x1 : UnlIn} {s : State}
    (h0 : Inv s) :
    Inv (unlMove x0 x1 s) := by
  unfold unlMove
  grind [inv_def, inv_unlAbort, inv_setUnl, inv_unlStart, inv_unlStopOp]

theorem inv_unlSeen {x0 : UnlIn} {s : State}
    (h0 : Inv s) :
    Inv (unlSeen x0 s) := by
  unfold unlSeen
  grind [inv_def, inv_State_put]

theorem inv_unlResult {x0 : Nat} {x1 : UnlIn} {s : State}
    (h0 : Inv s) :
    Inv (unlResult x0 x1 s) := by
  unfold unlResult
  grind [inv_def, inv_unlClearing, inv_unlTargets, inv_unlMove, inv_unlSeen]

theorem inv_resultSwitch {x0 : ResultIn} {s : State}
    (h0 : Inv s) :
    Inv (resultSwitch x0 s) := by
  unfold resultSwitch
  grind [inv_def, inv_State_evMax, inv_State_putBit, inv_State_put]

theorem inv_resultReference {x0 : ResultIn} {s : State}
    (h0 : Inv s) :
    Inv (resultReference x0 s) := by
  unfold resultReference
  grind [inv_def]

theorem inv_obstacleStop {x0 : Nat} {x1 : F32} {x2 : Nat × Track} {s : State}
    (h0 : Inv s) :
    Inv (obstacleStop x0 x1 x2 s) := by
  unfold obstacleStop
  grind [inv_def, inv_State_evx, inv_State_putBit, inv_setGuid, inv_guidTake, inv_guidPost]

theorem inv_resultGuidance {x0 : ResultIn} {s : State}
    (h0 : Inv s) :
    Inv (resultGuidance x0 s) := by
  unfold resultGuidance
  grind [inv_def, inv_resultSwitch, inv_resultReference, inv_obstacleStop, inv_guidIdle, inv_guidPost,
    inv_State_put, inv_State_evMax]

theorem inv_writeTrack {x0 : Nat} {s : State}
    (h0 : Inv s) :
    Inv (writeTrack x0 s) := by
  unfold writeTrack
  grind [inv_def, inv_forUp, inv_State_wr]

theorem inv_keepPose {x0 : Nat} {s : State}
    (h0 : Inv s) :
    Inv (keepPose x0 s) := by
  unfold keepPose
  grind [inv_def]

theorem inv_execResultIssue {x0 : ResultIn} {s : State}
    (h0 : Inv s) :
    ∀ t, execResultIssue x0 s = .next t → Inv t := by
  unfold execResultIssue
  grind [inv_def, inv_resultAge, inv_writeEgo, inv_resultSources, inv_resultCorridor, inv_forAll, inv_newTrack,
    inv_trackFrame, inv_unlResult, inv_resultGuidance, inv_forUp, inv_writeTrack, inv_State_put, inv_State_putBit,
    inv_State_put64, inv_keepPose, inv_State_svcReady]

theorem inv_execResume {x0 : Req} {s : State}
    (h0 : Inv s) :
    ∀ t, execResume x0 s = .next t → Inv t := by
  unfold execResume
  grind [inv_def, inv_setWhy, inv_request, inv_setGuid]

theorem inv_execUnlConfirm {x0 : Req} {x1 : Bool} {s : State}
    (h0 : Inv s) :
    ∀ t, execUnlConfirm x0 x1 s = .next t → Inv t := by
  unfold execUnlConfirm
  grind [inv_def, inv_unlStopOp, inv_unlStart]

end Sys2Proof.Machine
end

