-- ==== Sys2Proof/Laws/KeepMapEng.lean ====
section
/-!
SUPPORT. Every operation and command of Machine/MapEng.lean keeps the invariant.
-/
namespace Sys2Proof.Machine

theorem inv_putCell {x0 : Nat} {x1 : MapKey} {x2 : Cell} {s : State}
    (h0 : Inv s) :
    Inv (putCell x0 x1 x2 s) := by
  unfold putCell
  grind [inv_def, inv_State_wrBytes]

theorem inv_applyInc {x0 : Nat} {x1 : MapInc} {s : State}
    (h0 : Inv s) :
    Inv (applyInc x0 x1 s) := by
  unfold applyInc
  grind [inv_def, inv_putCell, inv_State_putBit]

theorem inv_mapCold {s : State}
    (h0 : Inv s) :
    Inv (mapCold s) := by
  unfold mapCold
  grind [inv_def]

theorem inv_unattr {x0 : F32} {s : State}
    (h0 : Inv s) :
    Inv (unattr x0 s) := by
  unfold unattr
  grind [inv_def, inv_State_putBit, inv_State_wr]

theorem inv_notMapped {x0 : Nat} {x1 : F32} {s : State}
    (h0 : Inv s) :
    Inv (notMapped x0 x1 s) := by
  unfold notMapped
  grind [inv_def, inv_State_evMax, inv_unattr]

theorem inv_setIv {x0 : Nat} {x1 : MapIv} {s : State}
    (h0 : Inv s) :
    Inv (setIv x0 x1 s) := by
  unfold setIv
  grind [inv_def]

theorem inv_touch {x0 : Nat} {s : State}
    (h0 : Inv s) :
    Inv (touch x0 s) := by
  unfold touch
  grind [inv_def]

theorem inv_ensureTile {x0 : MapTile} {s : State}
    (h0 : Inv s) :
    Inv (ensureTile x0 s).2 := by
  unfold ensureTile
  split
  · exact inv_touch h0
  extract_lets stored slot
  clear_value slot
  cases slot with
  | none => exact h0
  | some n =>
    dsimp only
    have i4 : Inv ((((((s.put (fMAP_DIR_KEY_TX n) (toField 16 x0.tx)).put (fMAP_DIR_KEY_TY n) (toField 16 x0.ty)).put
        (fMAP_DIR_STAT n) 0).put (fMAP_DIR_STAT_FIELD n) x0.field).putBit (fMAP_DIR_STAT_VALID n) true).putBit
        (fMAP_DIR_STAT_LOADING n) stored) := by grind [inv_State_put, inv_State_putBit]
    generalize (((((s.put (fMAP_DIR_KEY_TX n) (toField 16 x0.tx)).put (fMAP_DIR_KEY_TY n) (toField 16 x0.ty)).put
        (fMAP_DIR_STAT n) 0).put (fMAP_DIR_STAT_FIELD n) x0.field).putBit (fMAP_DIR_STAT_VALID n) true).putBit
        (fMAP_DIR_STAT_LOADING n) stored = s4 at *
    refine inv_touch ?_
    split
    · exact i4
    · exact ⟨i4.1, memOk_filter _ i4.2.1, i4.2.2⟩

theorem inv_refuseInc {x0 : Nat} {x1 : Nat} {x2 : Int} {s : State}
    (h0 : Inv s) :
    Inv (refuseInc x0 x1 x2 s) := by
  unfold refuseInc
  grind [inv_def, inv_State_inc, inv_unattr, inv_State_ev, inv_State_putBit]

theorem inv_sendInc {x0 : MapInc} {s : State}
    (h0 : Inv s) :
    Inv (sendInc x0 s) := by
  unfold sendInc
  grind [inv_def, inv_ensureTile, inv_refuseInc, inv_applyInc]

theorem inv_writeCells {j : Nat} {m : MapSample} {corr : Bool} {s : State} (h0 : Inv s) : Inv (writeCells j m corr
  s) := by
  unfold writeCells
  extract_lets v side s2 step
  have hs : ∀ (acc : State × List MapCut) (c : MapCut), Inv acc.1 → Inv (step acc c).1 := by
    intro acc c h
    simp only [step]
    grind [inv_notMapped, inv_sendInc, inv_State_inc, inv_unattr, inv_State_putBit, inv_State_evMax, inv_putCell]
  clear_value step
  split
  · exact h0
  · exact inv_setIv (inv_foldl_fst hs h0)

theorem inv_giveMass {x0 : Nat} {x1 : F32} {x2 : MapSample} {x3 : Bool} {s : State}
    (h0 : Inv s) :
    Inv (giveMass x0 x1 x2 x3 s) := by
  unfold giveMass
  grind [inv_def, inv_setIv, inv_State_wr, inv_writeCells, inv_notMapped]

theorem inv_attributeMass {x0 : MapSample} {s : State}
    (h0 : Inv s) :
    Inv (attributeMass x0 s) := by
  unfold attributeMass
  grind [inv_def, inv_State_evMax, inv_notMapped, inv_forAll, inv_giveMass, inv_forUp, inv_setIv]

theorem inv_cutAll {x0 : Nat} {x1 : MapIv} {x2 : MapSample} {s : State}
    (h0 : Inv s) :
    Inv (cutAll x0 x1 x2 s) := by
  unfold cutAll
  grind [inv_def, inv_forAll, inv_sendInc]

theorem inv_mapStop {s : State}
    (h0 : Inv s) :
    Inv (mapStop s) := by
  unfold mapStop
  grind [inv_def, inv_State_putBit]

theorem inv_showKernel {s : State}
    (h0 : Inv s) :
    Inv (showKernel s) := by
  unfold showKernel
  grind [inv_def, inv_forUp, inv_State_put]

theorem inv_mapStart {x0 : Bool} {s : State}
    (h0 : Inv s) :
    Inv (mapStart x0 s) := by
  unfold mapStart
  grind [inv_def, inv_State_putBit, inv_State_evMax, inv_State_ev, inv_showKernel]

theorem inv_mapCtl {x0 : Req} {x1 : MapEng → MapEng} {s : State}
    (h0 : Inv s) :
    ∀ t, mapCtl x0 x1 s = .next t → Inv t := by
  unfold mapCtl
  grind [inv_def]

theorem inv_execFieldClose {x0 : Req} {s : State}
    (h0 : Inv s) :
    ∀ t, execFieldClose x0 s = .next t → Inv t := by
  unfold execFieldClose
  grind [inv_def, inv_mapCtl]

theorem inv_execFieldDelete {x0 : Nat} {s : State}
    (h0 : Inv s) :
    ∀ t, execFieldDelete x0 s = .next t → Inv t := by
  unfold execFieldDelete
  grind [inv_def, inv_State_putBit]

theorem inv_putStore {x0 : List (MapKey × List Byte)} {s : State}
    (h0 : Inv s) :
    Inv (putStore x0 s) := by
  unfold putStore
  grind [inv_def, inv_forAll]

theorem inv_execJournalCommit {x0 : Bool} {x1 : Bool} {s : State}
    (h0 : Inv s) :
    ∀ t, execJournalCommit x0 x1 s = .next t → Inv t := by
  unfold execJournalCommit
  grind [inv_def, inv_State_ev, inv_State_putBit, inv_State_evMax, inv_State_inc, inv_State_put, inv_putStore,
    inv_forUp]

theorem inv_execJournalNow {x0 : Req} {s : State}
    (h0 : Inv s) :
    ∀ t, execJournalNow x0 s = .next t → Inv t := by
  unfold execJournalNow
  grind [inv_def, inv_mapCtl]

theorem inv_execKerReset {x0 : Req} {s : State}
    (h0 : Inv s) :
    ∀ t, execKerReset x0 s = .next t → Inv t := by
  unfold execKerReset
  grind [inv_def, inv_mapCtl]

theorem inv_postSample {x0 : Nat} {s : State}
    (h0 : Inv s) :
    Inv (postSample x0 s) := by
  unfold postSample
  grind [inv_def, inv_notMapped, inv_State_put]

theorem inv_mapCommit {x0 : Nat} {s : State}
    (h0 : Inv s) :
    Inv (mapCommit x0 s) := by
  unfold mapCommit
  grind [inv_def, inv_State_put, inv_State_putBit, inv_State_ev, inv_State_wr]

theorem inv_setKernel {x0 : List F32} {s : State}
    (h0 : Inv s) :
    Inv (setKernel x0 s) := by
  unfold setKernel
  grind [inv_def, inv_showKernel]

theorem inv_reattribute {s : State}
    (h0 : Inv s) :
    Inv (reattribute s) := by
  unfold reattribute
  grind [inv_def, inv_forAll, inv_giveMass]

theorem inv_kernelStep {x0 : Nat} {x1 : Bool} {s : State}
    (h0 : Inv s) :
    Inv (kernelStep x0 x1 s) := by
  unfold kernelStep
  grind [inv_def, inv_State_ev, inv_State_putBit, inv_State_inc, inv_setKernel, inv_State_evx, inv_reattribute]

theorem inv_pushIv {x0 : Nat} {x1 : MapIv} {s : State}
    (h0 : Inv s) :
    Inv (pushIv x0 x1 s) := by
  unfold pushIv
  grind [inv_def]

theorem inv_keepResident {x0 : MapPose} {s : State}
    (h0 : Inv s) :
    Inv (keepResident x0 s) := by
  unfold keepResident
  grind [inv_def, inv_forAll, inv_ensureTile, inv_State_ev, inv_State_putBit]

theorem inv_sweep {x0 : MapSample} {s : State}
    (h0 : Inv s) :
    Inv (sweep x0 s) := by
  unfold sweep
  grind [inv_def, inv_State_put, inv_pushIv, inv_keepResident, inv_cutAll]

theorem inv_journalTake {x0 : Nat} {s : State}
    (h0 : Inv s) :
    Inv (journalTake x0 s) := by
  unfold journalTake
  grind [inv_def]

theorem inv_sealCells {x0 : Nat} {s : State}
    (h0 : Inv s) :
    Inv (sealCells x0 s) := by
  unfold sealCells
  grind [inv_def, inv_forAll, inv_State_putBit, inv_putCell, inv_forUp]

theorem inv_histCount {k : Nat} {s : State} (h0 : Inv s) : Inv (histCount k s) := by
  unfold histCount
  dsimp only
  split
  · exact h0
  · refine inv_forAll h0 fun c t ht => ?_
    split
    · exact inv_sendInc ht
    · exact ht

theorem inv_mapReady {s : State}
    (h0 : Inv s) :
    Inv (mapReady s) := by
  unfold mapReady
  grind [inv_def, inv_State_svcReady]

theorem inv_showTiles {s : State}
    (h0 : Inv s) :
    Inv (showTiles s) := by
  unfold showTiles
  grind [inv_def, inv_State_put]

theorem inv_execMapUpdateProcess {x0 : Nat} {s : State}
    (h0 : Inv s) :
    ∀ t, execMapUpdateProcess x0 s = .next t → Inv t := by
  unfold execMapUpdateProcess
  grind [inv_def, inv_State_add, inv_State_put, inv_mapCommit, inv_setKernel, inv_kernelStep, inv_attributeMass,
    inv_sweep, inv_journalTake, inv_sealCells, inv_histCount, inv_State_put64, inv_mapReady, inv_showTiles,
    inv_State_putBit]

theorem inv_execTileExport {x0 : Nat} {x1 : Int} {x2 : Int} {s : State}
    (h0 : Inv s) :
    ∀ t, execTileExport x0 x1 x2 s = .next t → Inv t := by
  unfold execTileExport
  grind [inv_def]

theorem inv_execTileLoaded {x0 : Fin 512} {x1 : List (Fin 256)} {s : State}
    (h0 : Inv s) :
    ∀ t, execTileLoaded x0 x1 s = .next t → Inv t := by
  unfold execTileLoaded
  grind [inv_def, inv_forAll, inv_State_wrBytes, inv_State_ev, inv_State_putBit, inv_mapReady, inv_showTiles,
    inv_applyInc, memOk_filter]

end Sys2Proof.Machine
end

