-- ==== Sys2Proof/Laws/KeepAttach.lean ====
section
/-!
SUPPORT. Every operation and command of Machine/Attach.lean keeps the invariant.
-/
namespace Sys2Proof.Machine

theorem inv_State_setAttPort {s : State} {x1 : Nat} {x2 : AttPort}
    (h0 : Inv s) :
    Inv (State.setAttPort s x1 x2) := by
  unfold State.setAttPort
  grind [inv_def]

theorem inv_accumulate {x0 : Nat} {s : State}
    (h0 : Inv s) :
    Inv (accumulate x0 s) := by
  unfold accumulate
  grind [inv_def, inv_State_setAttPort]

theorem inv_attPolicy {x0 : Nat} {s : State}
    (h0 : Inv s) :
    Inv (attPolicy x0 s) := by
  unfold attPolicy
  grind [inv_def, inv_State_ev, inv_lockBits, inv_State_putBit, inv_unlockBits]

theorem inv_attRelock {x0 : Nat} {s : State}
    (h0 : Inv s) :
    Inv (attRelock x0 s) := by
  unfold attRelock
  grind [inv_def, inv_State_ev, inv_lockBits]

theorem inv_dropOther {x0 : Nat} {x1 : ElementIn} {s : State}
    (h0 : Inv s) :
    Inv (dropOther x0 x1 s) := by
  unfold dropOther
  grind [inv_def, inv_State_setAttPort, inv_State_ev, inv_State_putBit]

theorem inv_sawCounters {x0 : Nat} {x1 : List Nat} {s : State}
    (h0 : Inv s) :
    Inv (sawCounters x0 x1 s) := by
  unfold sawCounters
  grind [inv_def]

theorem inv_lifeCheck {x0 : Nat} {x1 : Nat} {s : State}
    (h0 : Inv s) :
    Inv (lifeCheck x0 x1 s) := by
  unfold lifeCheck
  grind [inv_def, inv_State_ev, inv_State_putBit, inv_State_setAttPort, inv_State_setBitAt]

theorem inv_setAttState {x0 : Nat} {x1 : Nat} {s : State}
    (h0 : Inv s) :
    Inv (setAttState x0 x1 s) := by
  unfold setAttState
  grind [inv_def, inv_State_setBitAt, inv_State_put, inv_attPolicy]

theorem inv_authOk {x0 : Nat} {x1 : ElementIn} {s : State}
    (h0 : Inv s) :
    Inv (authOk x0 x1 s) := by
  unfold authOk
  grind [inv_def, inv_dropOther, inv_State_put, inv_State_put64, inv_forUp, inv_sawCounters, inv_lifeCheck,
    inv_State_ev, inv_setAttState, inv_State_setAttPort, inv_State_setBitAt, inv_State_putBit]

theorem inv_calWrite {x0 : CalSlot} {x1 : F32} {s : State}
    (h0 : Inv s) :
    Inv (calWrite x0 x1 s) := by
  unfold calWrite
  grind [inv_def, inv_State_wr, inv_State_put]

theorem inv_calCommit {x0 : Nat} {s : State}
    (h0 : Inv s) :
    Inv (calCommit x0 s) := by
  unfold calCommit
  grind [inv_def, inv_State_ev, inv_State_setAttPort, inv_State_putBit, inv_forUp, inv_forAll, inv_calWrite,
    inv_State_evMax]

theorem inv_impactTick {x0 : Nat} {s : State}
    (h0 : Inv s) :
    Inv (impactTick x0 s) := by
  unfold impactTick
  grind [inv_def, inv_State_setAttPort]

theorem inv_execAuthentication {x0 : Fin 4} {x1 : ElementIn} {s : State}
    (h0 : Inv s) :
    ∀ t, execAuthentication x0 x1 s = .next t → Inv t := by
  unfold execAuthentication
  grind [inv_def, inv_State_putBit, inv_State_setAttPort, inv_authOk, inv_State_put, inv_State_ev, inv_setAttState]

theorem inv_writeCounters {x0 : List (Fin 4)} {x1 : Nat} {s : State}
    (h0 : Inv s) :
    Inv (writeCounters x0 x1 s) := by
  unfold writeCounters
  grind [inv_def, inv_State_ev, inv_State_putBit, inv_State_setAttPort, inv_forUp, inv_State_add, inv_lifeCheck,
    inv_sawCounters]

theorem inv_execCounterWrite {x0 : List (Fin 4)} {s : State}
    (h0 : Inv s) :
    ∀ t, execCounterWrite x0 s = .next t → Inv t := by
  unfold execCounterWrite
  grind [inv_def, inv_forUp, inv_writeCounters]

theorem inv_execMapUpdateBoundary {x0 : Nat} {s : State}
    (h0 : Inv s) :
    ∀ t, execMapUpdateBoundary x0 s = .next t → Inv t := by
  unfold execMapUpdateBoundary
  grind [inv_def, inv_forUp, inv_accumulate, inv_postSample]

theorem inv_startAuth {x0 : Nat} {s : State}
    (h0 : Inv s) :
    Inv (startAuth x0 s) := by
  unfold startAuth
  grind [inv_def, inv_State_setAttPort]

theorem inv_execPeriodicReauth {x0 : Fin 4} {s : State}
    (h0 : Inv s) :
    ∀ t, execPeriodicReauth x0 s = .next t → Inv t := by
  intro t h
  unfold execPeriodicReauth at h
  split at h
  · cases h; exact inv_startAuth h0
  · cases h; exact h0

theorem inv_pollPort {x0 : List (Fin 4)} {x1 : Nat} {s : State}
    (h0 : Inv s) :
    Inv (pollPort x0 x1 s) := by
  unfold pollPort
  grind [inv_def, inv_State_setAttPort, inv_State_putBit, inv_State_setBitAt, inv_State_ev, inv_setAttState,
    inv_attPolicy]

theorem inv_execPresencePoll {x0 : List (Fin 4)} {s : State}
    (h0 : Inv s) :
    ∀ t, execPresencePoll x0 s = .next t → Inv t := by
  unfold execPresencePoll
  grind [inv_def, inv_forUp, inv_pollPort]

theorem inv_execReauth {x0 : Req} {x1 : Fin 16} {s : State}
    (h0 : Inv s) :
    ∀ t, execReauth x0 x1 s = .next t → Inv t := by
  unfold execReauth
  grind [inv_def, inv_forUp, inv_startAuth]

end Sys2Proof.Machine
end

