-- ==== Sys2Proof/Laws/KeepSwing.lean ====
section
/-!
SUPPORT. Every operation and command of Machine/Swing.lean keeps the invariant.
-/
namespace Sys2Proof.Machine

theorem inv_setSwgState {x0 : Nat} {s : State}
    (h0 : Inv s) :
    Inv (setSwgState x0 s) := by
  unfold setSwgState
  grind [inv_def, inv_State_ev, inv_State_putBit, inv_State_put]

theorem inv_clearWindow {s : State}
    (h0 : Inv s) :
    Inv (clearWindow s) := by
  unfold clearWindow
  grind [inv_def]

theorem inv_sendSetAt {x0 : Nat} {x1 : Bool} {x2 : Nat} {x3 : Nat → F32} {s : State}
    (h0 : Inv s) :
    Inv (sendSetAt x0 x1 x2 x3 s) := by
  unfold sendSetAt
  grind [inv_def]

theorem inv_sendSet {x0 : Bool} {x1 : Nat → F32} {s : State}
    (h0 : Inv s) :
    Inv (sendSet x0 x1 s) := by
  unfold sendSet
  grind [inv_def, inv_sendSetAt]

theorem inv_toPresets {s : State}
    (h0 : Inv s) :
    Inv (toPresets s) := by
  unfold toPresets
  grind [inv_def, inv_setSwgState, inv_clearWindow, inv_sendSet]

theorem inv_cropDeclared {s : State}
    (h0 : Inv s) :
    Inv (cropDeclared s) := by
  unfold cropDeclared
  grind [inv_def, inv_forUp, inv_State_putF, inv_State_put, inv_State_putBit, inv_State_ev, inv_toPresets]

theorem inv_holdSet {x0 : Bool} {s : State}
    (h0 : Inv s) :
    Inv (holdSet x0 s) := by
  unfold holdSet
  grind [inv_def, inv_sendSet]

theorem inv_steadyLost {s : State}
    (h0 : Inv s) :
    Inv (steadyLost s) := by
  unfold steadyLost
  grind [inv_def, inv_setSwgState, inv_clearWindow, inv_holdSet]

theorem inv_judgeActive {s : State}
    (h0 : Inv s) :
    Inv (judgeActive s) := by
  unfold judgeActive
  extract_lets was s2 now s3 src s4
  have i2 : Inv s2 := inv_forUp h0 (fun j t ht => by dsimp only; grind [inv_State_put, inv_State_putBit,
    inv_State_ev])
  clear_value s2 now
  have i3 : Inv s3 := inv_State_put i2
  clear_value s3
  have i4 : Inv s4 := by
    simp only [s4]
    split
    · exact i3
    · exact inv_clearWindow (s := { s3 with swg := { s3.swg with used := now } }) i3
  clear_value s4
  grind [inv_steadyLost, inv_setSwgState, inv_holdSet]

theorem inv_restartDither {x0 : Nat} {x1 : Nat → F32} {s : State}
    (h0 : Inv s) :
    Inv (restartDither x0 x1 s) := by
  unfold restartDither
  grind [inv_def, inv_State_ev, inv_setSwgState, inv_sendSet, inv_clearWindow]

theorem inv_swingCommitted {s : State}
    (h0 : Inv s) :
    Inv (swingCommitted s) := by
  unfold swingCommitted
  grind [inv_def, inv_judgeActive, inv_restartDither]

theorem inv_applyItem {x0 : SwgSet} {x1 : Nat} {s : State}
    (h0 : Inv s) :
    Inv (applyItem x0 x1 s) := by
  unfold applyItem
  extract_lets f
  split
  · exact inv_State_put h0
  split
  · exact inv_State_put h0
  split
  · exact inv_State_put h0
  extract_lets amp b clamped s2 s3 old rest src s4 s5
  have i2 : Inv s2 := inv_State_putF (inv_State_put h0)
  clear_value s2
  have i3 : Inv s3 := by grind [inv_State_putBit]
  clear_value s3
  have i4 : Inv s4 := by grind [inv_def]
  clear_value s4
  have i5 : Inv s5 := inv_request i4
  clear_value s5
  grind [inv_State_putBit]

theorem inv_applySet {s : State}
    (h0 : Inv s) :
    Inv (applySet s) := by
  unfold applySet
  grind [inv_def, inv_forUp, inv_applyItem, inv_State_putBit, inv_State_put64, inv_State_inc, inv_State_evx]

theorem inv_dropDither {x0 : Nat} {s : State}
    (h0 : Inv s) :
    Inv (dropDither x0 s) := by
  unfold dropDither
  grind [inv_def]

theorem inv_endDither {x0 : Nat} {s : State}
    (h0 : Inv s) :
    Inv (endDither x0 s) := by
  unfold endDither
  grind [inv_def, inv_setTarget]

theorem inv_ditherTick {s : State}
    (h0 : Inv s) :
    Inv (ditherTick s) := by
  unfold ditherTick
  grind [inv_def, inv_forAll, inv_dropDither, inv_endDither, inv_setTarget, inv_State_putBit]

theorem inv_swgBoundary {s : State}
    (h0 : Inv s) :
    Inv (swgBoundary s) := by
  unfold swgBoundary
  grind [inv_def, inv_State_putBit, inv_judgeActive, inv_setSwgState]

theorem inv_execCostFrame {x0 : Nat} {s : State}
    (h0 : Inv s) :
    ∀ t, execCostFrame x0 s = .next t → Inv t := by
  unfold execCostFrame
  grind [inv_def, inv_State_putF, inv_State_put, inv_judgeActive, inv_State_putBit, inv_steadyLost]

theorem inv_execDitherEnd {x0 : Fin 8} {s : State}
    (h0 : Inv s) :
    ∀ t, execDitherEnd x0 s = .next t → Inv t := by
  unfold execDitherEnd
  grind [inv_def, inv_endDither]

theorem inv_execLeaseLost {s : State}
    (h0 : Inv s) :
    ∀ t, execLeaseLost s = .next t → Inv t := by
  unfold execLeaseLost
  grind [inv_def, inv_State_putBit, inv_setSwgState, inv_clearWindow]

theorem inv_execOperatorSetpoint {x0 : Fin 30} {x1 : F32} {s : State}
    (h0 : Inv s) :
    ∀ t, execOperatorSetpoint x0 x1 s = .next t → Inv t := by
  unfold execOperatorSetpoint
  grind [inv_def, inv_State_setFnSt, inv_request, inv_State_evx, inv_State_putBit, inv_restartDither]

theorem inv_execSetMissed {s : State}
    (h0 : Inv s) :
    ∀ t, execSetMissed s = .next t → Inv t := by
  unfold execSetMissed
  grind [inv_def, inv_State_ev, inv_State_putBit, inv_State_inc]

theorem inv_execSteadyReached {s : State}
    (h0 : Inv s) :
    ∀ t, execSteadyReached s = .next t → Inv t := by
  unfold execSteadyReached
  grind [inv_def, inv_setSwgState, inv_holdSet, inv_clearWindow]

theorem inv_swgOff {s : State}
    (h0 : Inv s) :
    Inv (swgOff s) := by
  unfold swgOff
  grind [inv_def, inv_setSwgState, inv_clearWindow, inv_holdSet]

theorem inv_execSwgDisable {x0 : Req} {s : State}
    (h0 : Inv s) :
    ∀ t, execSwgDisable x0 s = .next t → Inv t := by
  unfold execSwgDisable
  grind [inv_def, inv_swgOff]

theorem inv_execSwgEnable {x0 : Req} {x1 : Bool} {s : State}
    (h0 : Inv s) :
    ∀ t, execSwgEnable x0 x1 s = .next t → Inv t := by
  unfold execSwgEnable
  grind [inv_def, inv_swgOff, inv_judgeActive, inv_toPresets]

theorem inv_execSwgRestart {x0 : Req} {s : State}
    (h0 : Inv s) :
    ∀ t, execSwgRestart x0 s = .next t → Inv t := by
  unfold execSwgRestart
  grind [inv_def, inv_forUp, inv_State_put, inv_clearWindow, inv_judgeActive, inv_setSwgState]

theorem inv_judgeFn {x0 : SwgFit} {x1 : Nat} {s : State}
    (h0 : Inv s) :
    Inv (judgeFn x0 x1 s) := by
  unfold judgeFn
  grind [inv_def, inv_State_putF, inv_State_put, inv_State_evx, inv_State_putBit]

theorem inv_execSwingUpdate {s : State}
    (h0 : Inv s) :
    ∀ t, execSwingUpdate s = .next t → Inv t := by
  unfold execSwingUpdate
  grind [inv_def, inv_State_putBit, inv_State_putF, inv_State_ev, inv_sendSetAt, inv_forAll, inv_judgeFn,
    inv_judgeActive]

end Sys2Proof.Machine
end

