-- ==== Sys2Proof/Laws/KeepEther.lean ====
section
/-!
SUPPORT. Every operation and command of Machine/Ether.lean keeps the invariant.
-/
namespace Sys2Proof.Machine

theorem inv_sendTile {x0 : MapTile} {x1 : Nat} {x2 : List (List Byte)} {x3 : List Nat} {s : State}
    (h0 : Inv s) :
    Inv (sendTile x0 x1 x2 x3 s) := by
  unfold sendTile
  refine inv_foldl (fun t i ht => ?_) h0
  dsimp only
  split
  · exact ht
  · exact inv_publish ht

theorem inv_answerTget {x0 : MapTile} {s : State}
    (h0 : Inv s) :
    Inv (answerTget x0 s) := by
  unfold answerTget
  grind [inv_def, inv_sendTile]

theorem inv_discardIn {x0 : Nat} {s : State}
    (h0 : Inv s) :
    Inv (discardIn x0 s) := by
  unfold discardIn
  grind [inv_def, inv_State_putBit, inv_State_inc, inv_State_ev]

theorem inv_setNtrip {x0 : Nat} {s : State}
    (h0 : Inv s) :
    Inv (setNtrip x0 s) := by
  unfold setNtrip
  grind [inv_def, inv_State_putBit, inv_State_put]

theorem inv_setFleet {x0 : Nat} {s : State}
    (h0 : Inv s) :
    Inv (setFleet x0 s) := by
  unfold setFleet
  grind [inv_def, inv_State_putBit, inv_State_put]

theorem inv_netStop {s : State}
    (h0 : Inv s) :
    Inv (netStop s) := by
  unfold netStop
  grind [inv_def, inv_State_ev, inv_setNtrip, inv_setFleet]

theorem inv_ntripTick {s : State}
    (h0 : Inv s) :
    Inv (ntripTick s) := by
  unfold ntripTick
  grind [inv_def, inv_State_put]

theorem inv_fleetAttempt {s : State}
    (h0 : Inv s) :
    Inv (fleetAttempt s) := by
  unfold fleetAttempt
  grind [inv_def, inv_setFleet]

theorem inv_netStart {s : State}
    (h0 : Inv s) :
    Inv (netStart s) := by
  unfold netStart
  grind [inv_def, inv_setNtrip, inv_fleetAttempt]

theorem inv_inbound {x0 : FleetHdr} {x1 : Nat} {x2 : State → State} {s : State}
    (hf2 : ∀  t, Inv t → Inv (x2  t)) (h0 : Inv s) :
    Inv (inbound x0 x1 x2 s) := by
  unfold inbound
  grind [inv_def, inv_discardIn]

theorem inv_takeCartPos {x0 : Nat} {x1 : List Int} {s : State}
    (h0 : Inv s) :
    Inv (takeCartPos x0 x1 s) := by
  unfold takeCartPos
  grind [inv_def, inv_setSrc]

theorem inv_execCartPos {x0 : FleetHdr} {x1 : Int} {x2 : Int} {x3 : Int} {x4 : Nat} {x5 : Nat} {x6 : Nat} {x7 : Nat}
  {s : State}
    (h0 : Inv s) :
    ∀ t, execCartPos x0 x1 x2 x3 x4 x5 x6 x7 s = .next t → Inv t := by
  unfold execCartPos
  grind [inv_def, inv_inbound, inv_takeCartPos]

theorem inv_execEthLinkChange {x0 : Fin 10} {x1 : Bool} {x2 : Fin 8} {s : State}
    (h0 : Inv s) :
    ∀ t, execEthLinkChange x0 x1 x2 s = .next t → Inv t := by
  unfold execEthLinkChange
  grind [inv_def, inv_State_setBitAt, inv_State_put, inv_State_putBit, inv_State_ev, inv_State_evx]

theorem inv_execFleetConnect {s : State}
    (h0 : Inv s) :
    ∀ t, execFleetConnect s = .next t → Inv t := by
  unfold execFleetConnect
  grind [inv_def, inv_State_ev, inv_setFleet, inv_showAlerts]

theorem inv_fleetBackoff {x0 : Bool} {s : State}
    (h0 : Inv s) :
    Inv (fleetBackoff x0 s) := by
  unfold fleetBackoff
  grind [inv_def, inv_setFleet]

theorem inv_execFleetDisconnect {x0 : Fin 3} {s : State}
    (h0 : Inv s) :
    ∀ t, execFleetDisconnect x0 s = .next t → Inv t := by
  unfold execFleetDisconnect
  grind [inv_def, inv_fleetBackoff, inv_State_ev]

theorem inv_takeOffer {x0 : Nat} {s : State}
    (h0 : Inv s) :
    Inv (takeOffer x0 s) := by
  unfold takeOffer
  grind [inv_def, inv_publish, inv_State_wr, inv_unlBegin]

theorem inv_takeEnd {x0 : Nat} {s : State}
    (h0 : Inv s) :
    Inv (takeEnd x0 s) := by
  unfold takeEnd
  grind [inv_def, inv_unlStopOp]

theorem inv_execFleetInbound {x0 : List Byte} {s : State}
    (h0 : Inv s) :
    ∀ t, execFleetInbound x0 s = .next t → Inv t := by
  unfold execFleetInbound
  grind [inv_def, inv_takeCartPos, inv_takeOffer, inv_takeEnd, inv_answerTget, inv_State_putBit, inv_inbound]

theorem inv_execFleetReconnect {x0 : Req} {s : State}
    (h0 : Inv s) :
    ∀ t, execFleetReconnect x0 s = .next t → Inv t := by
  unfold execFleetReconnect
  grind [inv_def, inv_fleetAttempt]

theorem inv_execGgaSend {s : State}
    (h0 : Inv s) :
    ∀ t, execGgaSend s = .next t → Inv t := by
  unfold execGgaSend
  grind [inv_def]

theorem inv_ntripBackoff {x0 : Bool} {s : State}
    (h0 : Inv s) :
    Inv (ntripBackoff x0 s) := by
  unfold ntripBackoff
  grind [inv_def, inv_setNtrip]

theorem inv_execNtripDisconnect {x0 : Bool} {s : State}
    (h0 : Inv s) :
    ∀ t, execNtripDisconnect x0 s = .next t → Inv t := by
  unfold execNtripDisconnect
  grind [inv_def, inv_ntripBackoff, inv_State_ev]

theorem inv_execNtripReconnect {x0 : Req} {s : State}
    (h0 : Inv s) :
    ∀ t, execNtripReconnect x0 s = .next t → Inv t := by
  unfold execNtripReconnect
  grind [inv_def, inv_setNtrip]

theorem inv_execNtripReply {x0 : Bool} {x1 : Nat} {s : State}
    (h0 : Inv s) :
    ∀ t, execNtripReply x0 x1 s = .next t → Inv t := by
  unfold execNtripReply
  grind [inv_def, inv_State_ev, inv_State_inc, inv_setNtrip, inv_ntripBackoff, inv_State_evMax]

theorem inv_execNtripSilence {s : State}
    (h0 : Inv s) :
    ∀ t, execNtripSilence s = .next t → Inv t := by
  unfold execNtripSilence
  grind [inv_def, inv_ntripBackoff, inv_State_ev]

theorem inv_execPdelayExchange {x0 : Fin 10} {x1 : Nat} {s : State}
    (h0 : Inv s) :
    ∀ t, execPdelayExchange x0 x1 s = .next t → Inv t := by
  unfold execPdelayExchange
  grind [inv_def, inv_State_put, inv_State_putBit, inv_State_evMax]

theorem inv_execPeriodicPublish {x0 : Bool} {x1 : Nat} {x2 : Nat} {s : State}
    (h0 : Inv s) :
    ∀ t, execPeriodicPublish x0 x1 x2 s = .next t → Inv t := by
  unfold execPeriodicPublish
  grind [inv_def, inv_publish]

theorem inv_execPtpForeign {x0 : Fin 10} {s : State}
    (h0 : Inv s) :
    ∀ t, execPtpForeign x0 s = .next t → Inv t := by
  unfold execPtpForeign
  grind [inv_def, inv_State_inc, inv_State_ev]

theorem inv_execPtpSync {x0 : Fin 10} {s : State}
    (h0 : Inv s) :
    ∀ t, execPtpSync x0 s = .next t → Inv t := by
  unfold execPtpSync
  grind [inv_def, inv_State_inc]

theorem inv_showTileQ {s : State}
    (h0 : Inv s) :
    Inv (showTileQ s) := by
  unfold showTileQ
  grind [inv_def, inv_State_put]

theorem inv_execPuback {x0 : Nat} {x1 : Nat} {s : State}
    (h0 : Inv s) :
    ∀ t, execPuback x0 x1 s = .next t → Inv t := by
  unfold execPuback
  grind [inv_def, inv_showTileQ, inv_State_putBit]

theorem inv_execPublicationExpire {s : State}
    (h0 : Inv s) :
    ∀ t, execPublicationExpire s = .next t → Inv t := by
  unfold execPublicationExpire
  grind [inv_def, inv_showAlerts, inv_forAll, inv_refusePub]

theorem inv_execReconnectAttempt {x0 : Bool} {s : State}
    (h0 : Inv s) :
    ∀ t, execReconnectAttempt x0 s = .next t → Inv t := by
  unfold execReconnectAttempt
  grind [inv_def, inv_setNtrip, inv_fleetAttempt]

theorem inv_execTget {x0 : FleetHdr} {x1 : Nat} {x2 : Int} {x3 : Int} {s : State}
    (h0 : Inv s) :
    ∀ t, execTget x0 x1 x2 x3 s = .next t → Inv t := by
  unfold execTget
  grind [inv_def, inv_inbound, inv_answerTget]

theorem inv_syncTile {x0 : MapTile} {s : State}
    (h0 : Inv s) :
    Inv (syncTile x0 s) := by
  unfold syncTile
  grind [inv_def, inv_sendTile]

theorem inv_execTileSync {x0 : Option Req} {s : State}
    (h0 : Inv s) :
    ∀ t, execTileSync x0 s = .next t → Inv t := by
  unfold execTileSync
  grind [inv_def, inv_showTileQ, inv_forAll, inv_syncTile]

theorem inv_execTlsHandshake {x0 : Fin 3} {x1 : Bool} {x2 : Nat} {s : State}
    (h0 : Inv s) :
    ∀ t, execTlsHandshake x0 x1 x2 s = .next t → Inv t := by
  unfold execTlsHandshake
  grind [inv_def, inv_State_evMax, inv_fleetBackoff, inv_ntripBackoff, inv_State_inc]

theorem inv_execUend {x0 : FleetHdr} {x1 : Fin 256} {s : State}
    (h0 : Inv s) :
    ∀ t, execUend x0 x1 s = .next t → Inv t := by
  unfold execUend
  grind [inv_def, inv_inbound, inv_takeEnd]

theorem inv_execUnlReq {x0 : Req} {x1 : Bool} {s : State}
    (h0 : Inv s) :
    ∀ t, execUnlReq x0 x1 s = .next t → Inv t := by
  unfold execUnlReq
  grind [inv_def, inv_unlStopOp, inv_publish, inv_unlBegin]

theorem inv_execUnlStop {x0 : Req} {s : State}
    (h0 : Inv s) :
    ∀ t, execUnlStop x0 s = .next t → Inv t := by
  unfold execUnlStop
  grind [inv_def, inv_unlStopOp]

theorem inv_execUnloadEndingDone {s : State}
    (h0 : Inv s) :
    ∀ t, execUnloadEndingDone s = .next t → Inv t := by
  unfold execUnloadEndingDone
  grind [inv_def, inv_guidPost, inv_request, inv_State_put, inv_setUnl]

theorem inv_execUoffer {x0 : FleetHdr} {x1 : Nat} {x2 : Nat} {s : State}
    (h0 : Inv s) :
    ∀ t, execUoffer x0 x1 x2 s = .next t → Inv t := by
  unfold execUoffer
  grind [inv_def, inv_inbound, inv_takeOffer]

theorem inv_execUreqLapse {s : State}
    (h0 : Inv s) :
    ∀ t, execUreqLapse s = .next t → Inv t := by
  unfold execUreqLapse
  grind [inv_def, inv_State_ev]

end Sys2Proof.Machine
end

