-- ==== Sys2Proof/Laws/KeepValve.lean ====
section
/-!
SUPPORT. Every operation and command of Machine/Valve.lean keeps the invariant.
-/
namespace Sys2Proof.Machine

theorem inv_State_setRail {s : State} {x1 : Nat} {x2 : Rail}
    (h0 : Inv s) :
    Inv (State.setRail s x1 x2) := by
  unfold State.setRail
  grind [inv_def]

theorem inv_State_setVlv {s : State} {x1 : Nat} {x2 : VlvCh}
    (h0 : Inv s) :
    Inv (State.setVlv s x1 x2) := by
  unfold State.setVlv
  grind [inv_def]

theorem inv_setPhase {x0 : Nat} {x1 : Nat} {s : State}
    (h0 : Inv s) :
    Inv (setPhase x0 x1 s) := by
  unfold setPhase
  grind [inv_def, inv_State_put]

theorem inv_vlvStop {x0 : Nat} {x1 : Nat} {s : State}
    (h0 : Inv s) :
    Inv (vlvStop x0 x1 s) := by
  unfold vlvStop
  grind [inv_def, inv_setPhase, inv_State_setVlv]

theorem inv_showCode {x0 : Nat} {x1 : Nat} {s : State}
    (h0 : Inv s) :
    Inv (showCode x0 x1 s) := by
  unfold showCode
  grind [inv_def, inv_State_put]

theorem inv_vlvOff {x0 : Nat} {s : State}
    (h0 : Inv s) :
    Inv (vlvOff x0 s) := by
  unfold vlvOff
  grind [inv_def, inv_vlvStop, inv_State_setVlv]

theorem inv_switchOff {x0 : Nat} {x1 : Nat} {x2 : Nat} {s : State}
    (h0 : Inv s) :
    Inv (switchOff x0 x1 x2 s) := by
  unfold switchOff
  grind [inv_def, inv_State_inc]

theorem inv_vlvRequest {x0 : Nat} {s : State}
    (h0 : Inv s) :
    Inv (vlvRequest x0 s) := by
  unfold vlvRequest
  grind [inv_def, inv_setPhase, inv_State_setVlv]

theorem inv_profileTick {x0 : Nat} {x1 : F32} {x2 : Bool} {s : State}
    (h0 : Inv s) :
    Inv (profileTick x0 x1 x2 s) := by
  unfold profileTick
  grind [inv_def, inv_State_setVlv, inv_switchOff, inv_vlvStop, inv_vlvRequest]

theorem inv_propTick {x0 : Nat} {x1 : F32} {x2 : Bool} {s : State}
    (h0 : Inv s) :
    Inv (propTick x0 x1 x2 s) := by
  unfold propTick
  grind [inv_def, inv_State_setVlv, inv_setPhase]

theorem inv_vlvAct {x0 : Nat} {s : State}
    (h0 : Inv s) :
    Inv (vlvAct x0 s) := by
  unfold vlvAct
  grind [inv_def, inv_State_setVlv, inv_vlvStop, inv_showCode, inv_State_ev, inv_vlvOff, inv_profileTick,
    inv_propTick]

theorem inv_vlvRelease {x0 : Bool} {x1 : Nat} {s : State}
    (h0 : Inv s) :
    Inv (vlvRelease x0 x1 s) := by
  unfold vlvRelease
  grind [inv_def, inv_State_setVlv, inv_State_setBitAt, inv_setPhase]

theorem inv_vlvModeChange {x0 : Nat} {s : State}
    (h0 : Inv s) :
    Inv (vlvModeChange x0 s) := by
  unfold vlvModeChange
  grind [inv_def, inv_State_setVlv]

theorem inv_startBoost {x0 : Nat} {x1 : Nat} {x2 : F32} {s : State}
    (h0 : Inv s) :
    Inv (startBoost x0 x1 x2 s) := by
  unfold startBoost
  grind [inv_def, inv_State_setVlv, inv_State_add, inv_setPhase, inv_State_put, inv_State_evMax, inv_State_inc]

theorem inv_refuseBoost {x0 : Nat} {x1 : F32} {x2 : Nat} {s : State}
    (h0 : Inv s) :
    Inv (refuseBoost x0 x1 x2 s) := by
  unfold refuseBoost
  grind [inv_def, inv_State_put, inv_switchOff, inv_showCode, inv_vlvStop, inv_State_setVlv, inv_State_inc,
    inv_State_evx, inv_State_putBit]

theorem inv_boostPrio {us rail : Nat} {r : List F32 × Bool × State} {n : Nat} (h0 : Inv r.2.2) :
    Inv (boostPrio us rail r n).2.2 := by
  unfold boostPrio
  dsimp only
  split
  · exact inv_startBoost h0
  · split
    · exact inv_refuseBoost h0
    · exact h0

theorem inv_boostServe {x0 : Nat} {x1 : Nat} {x2 : Nat} {x3 : List F32} {s : State}
    (h0 : Inv s) :
    Inv (boostServe x0 x1 x2 x3 s).2.2 := by
  unfold boostServe
  have h : ∀ (l : List Nat) (r : List F32 × Bool × State), Inv r.2.2 → Inv (l.foldl (boostPrio x1 x2) r).2.2 := by
    intro l
    induction l with
    | nil => exact fun r h => h
    | cons a l ih => exact fun r h => ih _ (inv_boostPrio h)
  have h2 : ∀ (l : List Nat) (r : List F32 × Bool × State), Inv r.2.2 →
      Inv (l.foldl (fun r p => if r.2.1 then r else (boostQueue r.2.2 x0 p).foldl (boostPrio x1 x2) r) r).2.2 := by
    intro l
    induction l with
    | nil => exact fun r h => h
    | cons a l ih =>
      intro r hr
      refine ih _ ?_
      dsimp only
      split
      · exact hr
      · exact h _ _ hr
  exact h2 _ _ h0

theorem inv_showFree {x0 : Nat} {x1 : F32} {s : State}
    (h0 : Inv s) :
    Inv (showFree x0 x1 s) := by
  unfold showFree
  grind [inv_def, inv_State_put]

theorem inv_showRail {x0 : Nat} {x1 : Nat} {s : State}
    (h0 : Inv s) :
    Inv (showRail x0 x1 s) := by
  unfold showRail
  grind [inv_def, inv_State_setBitAt, inv_State_put]

theorem inv_railTick {x0 : TickIn} {x1 : Nat} {s : State}
    (h0 : Inv s) :
    Inv (railTick x0 x1 s) := by
  unfold railTick
  grind [inv_def, inv_State_setRail, inv_showFree, inv_showRail]

theorem inv_vlvReport {x0 : TickIn} {s : State}
    (h0 : Inv s) :
    Inv (vlvReport x0 s) := by
  unfold vlvReport
  grind [inv_def, inv_forUp, inv_railTick, inv_State_put, inv_State_setVlv]

theorem inv_vlvTick {x0 : Nat} {s : State}
    (h0 : Inv s) :
    Inv (vlvTick x0 s) := by
  unfold vlvTick
  grind [inv_def, inv_vlvStop, inv_State_setVlv, inv_vlvAct]

theorem inv_vlvClearWin {x0 : Nat} {s : State}
    (h0 : Inv s) :
    Inv (vlvClearWin x0 s) := by
  unfold vlvClearWin
  grind [inv_def, inv_State_setVlv]

theorem inv_refuseBank {x0 : Nat} {x1 : Nat} {x2 : F32} {s : State}
    (h0 : Inv s) :
    Inv (refuseBank x0 x1 x2 s) := by
  unfold refuseBank
  grind [inv_def, inv_forAll, inv_refuseBoost]

theorem inv_execBoostConverterFailure {x0 : Fin 4} {s : State}
    (h0 : Inv s) :
    ∀ t, execBoostConverterFailure x0 s = .next t → Inv t := by
  unfold execBoostConverterFailure
  grind [inv_def, inv_refuseBank, inv_State_evx]

theorem inv_execBoostDecision {x0 : Fin 4} {x1 : Fin 50} {x2 : RailIn} {x3 : List F32} {s : State}
    (h0 : Inv s) :
    ∀ t, execBoostDecision x0 x1 x2 x3 s = .next t → Inv t := by
  unfold execBoostDecision
  grind [inv_def, inv_showRail, inv_refuseBank, inv_boostServe, inv_showFree]

theorem inv_vlvFault {x0 : Nat} {x1 : Nat} {s : State}
    (h0 : Inv s) :
    Inv (vlvFault x0 x1 s) := by
  unfold vlvFault
  grind [inv_def, inv_State_setVlv, inv_State_putBit, inv_showCode, inv_vlvStop, inv_State_setBitAt,
    inv_noteLasting, inv_State_evMax]

theorem inv_recordTpk {x0 : Nat} {x1 : Nat} {s : State}
    (h0 : Inv s) :
    Inv (recordTpk x0 x1 s) := by
  unfold recordTpk
  grind [inv_def, inv_State_put, inv_State_setVlv, inv_vlvFault, inv_State_evMax, inv_State_putBit]

theorem inv_execBoostEnd {n : Fin 16} {us : Fin 50} {reached : Bool} {flow : RailIn} {s : State} (h0 : Inv s) :
    ∀ t, execBoostEnd n us reached flow s = .next t → Inv t := by
  intro t
  unfold execBoostEnd
  extract_lets x rail t1 s2 s3
  have i2 : Inv s2 := inv_State_setVlv h0
  have i3 : Inv s3 := by
    show Inv (if _ then _ else _)
    split
    · exact inv_setPhase (inv_switchOff i2)
    · exact inv_setPhase i2
  clear_value s3
  grind [inv_recordTpk]

theorem inv_execBoostFailureCleared {x0 : Fin 4} {s : State}
    (h0 : Inv s) :
    ∀ t, execBoostFailureCleared x0 s = .next t → Inv t := by
  unfold execBoostFailureCleared
  grind [inv_def]

theorem inv_execBoostRequestRefused {x0 : Fin 16} {x1 : Fin 50} {x2 : RailIn} {x3 : List F32} {s : State}
    (h0 : Inv s) :
    ∀ t, execBoostRequestRefused x0 x1 x2 x3 s = .next t → Inv t := by
  unfold execBoostRequestRefused
  grind [inv_def, inv_refuseBoost]

theorem inv_execHoldCurrentLow {x0 : Fin 16} {x1 : F32} {s : State}
    (h0 : Inv s) :
    ∀ t, execHoldCurrentLow x0 x1 s = .next t → Inv t := by
  unfold execHoldCurrentLow
  grind [inv_def, inv_vlvFault, inv_State_evx, inv_State_setVlv]

theorem inv_execMotionKink {x0 : Fin 16} {x1 : Nat} {s : State}
    (h0 : Inv s) :
    ∀ t, execMotionKink x0 x1 s = .next t → Inv t := by
  unfold execMotionKink
  grind [inv_def, inv_State_put, inv_State_setVlv]

theorem inv_execMotionTimeout {x0 : Fin 16} {x1 : Fin 50} {s : State}
    (h0 : Inv s) :
    ∀ t, execMotionTimeout x0 x1 s = .next t → Inv t := by
  unfold execMotionTimeout
  grind [inv_def, inv_State_put, inv_State_setVlv, inv_vlvFault, inv_State_ev]

theorem inv_execPeakEnd {x0 : Fin 16} {x1 : Fin 50} {x2 : RailIn} {s : State}
    (h0 : Inv s) :
    ∀ t, execPeakEnd x0 x1 x2 s = .next t → Inv t := by
  unfold execPeakEnd
  grind [inv_def, inv_setPhase, inv_switchOff]

theorem inv_execPeakNotReached {x0 : Fin 16} {x1 : Fin 50} {s : State}
    (h0 : Inv s) :
    ∀ t, execPeakNotReached x0 x1 s = .next t → Inv t := by
  unfold execPeakNotReached
  grind [inv_def, inv_State_setVlv, inv_vlvFault, inv_State_ev, inv_State_putBit]

theorem inv_execPeakReachedLate {x0 : Fin 16} {x1 : Fin 50} {s : State}
    (h0 : Inv s) :
    ∀ t, execPeakReachedLate x0 x1 s = .next t → Inv t := by
  unfold execPeakReachedLate
  grind [inv_def, inv_recordTpk]

theorem inv_execPropCurrentFault {x0 : Fin 16} {s : State}
    (h0 : Inv s) :
    ∀ t, execPropCurrentFault x0 s = .next t → Inv t := by
  unfold execPropCurrentFault
  grind [inv_def, inv_vlvFault, inv_State_evx, inv_State_setVlv]

theorem inv_execVlvClr {x0 : Req} {x1 : Word} {s : State}
    (h0 : Inv s) :
    ∀ t, execVlvClr x0 x1 s = .next t → Inv t := by
  unfold execVlvClr
  grind [inv_def, inv_forUp, inv_vlvRelease]

theorem inv_execVlvDieCooled {x0 : Fin 4} {x1 : F32} {s : State}
    (h0 : Inv s) :
    ∀ t, execVlvDieCooled x0 x1 s = .next t → Inv t := by
  unfold execVlvDieCooled
  grind [inv_def, inv_State_setBitAt]

theorem inv_execVlvDieOvertemp {x0 : Fin 16} {x1 : F32} {s : State}
    (h0 : Inv s) :
    ∀ t, execVlvDieOvertemp x0 x1 s = .next t → Inv t := by
  unfold execVlvDieOvertemp
  grind [inv_def, inv_State_evMax, inv_State_setBitAt, inv_forUp, inv_showCode, inv_vlvOff]

theorem inv_execVlvOpenLoad {x0 : Fin 16} {x1 : Bool} {x2 : F32} {s : State}
    (h0 : Inv s) :
    ∀ t, execVlvOpenLoad x0 x1 x2 s = .next t → Inv t := by
  unfold execVlvOpenLoad
  grind [inv_def, inv_vlvFault, inv_vlvOff, inv_State_ev]

theorem inv_execVlvOvercurrent {x0 : Fin 16} {x1 : F32} {s : State}
    (h0 : Inv s) :
    ∀ t, execVlvOvercurrent x0 x1 s = .next t → Inv t := by
  unfold execVlvOvercurrent
  grind [inv_def, inv_vlvFault, inv_vlvOff, inv_State_evMax]

end Sys2Proof.Machine
end

