-- ==== Sys2Proof/Laws/KeepSwitch.lean ====
section
/-!
SUPPORT. Every operation and command of Machine/Switch.lean keeps the invariant.
-/
namespace Sys2Proof.Machine

theorem inv_State_setPsw {s : State} {x1 : Nat} {x2 : PswCh}
    (h0 : Inv s) :
    Inv (State.setPsw s x1 x2) := by
  unfold State.setPsw
  grind [inv_def]

theorem inv_showBudget {s : State}
    (h0 : Inv s) :
    Inv (showBudget s) := by
  unfold showBudget
  grind [inv_def, inv_State_put]

theorem inv_setPswState {x0 : Nat} {x1 : Nat} {s : State}
    (h0 : Inv s) :
    Inv (setPswState x0 x1 s) := by
  unfold setPswState
  grind [inv_def, inv_State_put]

theorem inv_pswStop {x0 : Nat} {x1 : Nat} {s : State}
    (h0 : Inv s) :
    Inv (pswStop x0 x1 s) := by
  unfold pswStop
  grind [inv_def, inv_setPswState, inv_State_setPsw]

theorem inv_showHot {x0 : Nat} {s : State}
    (h0 : Inv s) :
    Inv (showHot x0 s) := by
  unfold showHot
  grind [inv_def, inv_State_putBit]

theorem inv_pswAct {x0 : Bool} {x1 : Nat} {s : State}
    (h0 : Inv s) :
    Inv (pswAct x0 x1 s) := by
  unfold pswAct
  grind [inv_def, inv_State_ev, inv_State_setPsw, inv_pswStop, inv_showHot, inv_setPswState]

theorem inv_pswRelease {x0 : Bool} {x1 : Nat} {s : State}
    (h0 : Inv s) :
    Inv (pswRelease x0 x1 s) := by
  unfold pswRelease
  grind [inv_def, inv_State_setPsw, inv_State_setBitAt, inv_showHot, inv_setPswState]

theorem inv_showClamp {x0 : Nat} {s : State}
    (h0 : Inv s) :
    Inv (showClamp x0 s) := by
  unfold showClamp
  grind [inv_def, inv_State_put, inv_State_setPsw]

theorem inv_pswReport {x0 : TickIn} {s : State}
    (h0 : Inv s) :
    Inv (pswReport x0 s) := by
  unfold pswReport
  refine inv_forUp (inv_forUp h0 fun n t ht => ?_) fun q t ht => inv_State_put (inv_State_put ht)
  extract_lets i x t1 ovr low t2
  have i1 : Inv t1 := inv_State_put (inv_State_put ht)
  clear_value t1 ovr low
  have i2 : Inv t2 := by
    show Inv (if _ then _ else _)
    split
    · exact i1
    · exact inv_State_setPsw i1
  clear_value t2
  split
  · exact i2
  · exact inv_showClamp i2

theorem inv_pswTick {x0 : Nat} {s : State}
    (h0 : Inv s) :
    Inv (pswTick x0 s) := by
  unfold pswTick
  grind [inv_def, inv_pswAct]

theorem inv_execArbiterChange {s : State}
    (h0 : Inv s) :
    ∀ t, execArbiterChange s = .next t → Inv t := by
  unfold execArbiterChange
  grind [inv_def, inv_State_putBit, inv_State_put, inv_State_ev]

theorem inv_pswClearWin {x0 : Nat} {s : State}
    (h0 : Inv s) :
    Inv (pswClearWin x0 s) := by
  unfold pswClearWin
  grind [inv_def, inv_State_setPsw]

theorem inv_startSwitch {x0 : Nat} {s : State}
    (h0 : Inv s) :
    Inv (startSwitch x0 s) := by
  unfold startSwitch
  grind [inv_def, inv_State_setPsw, inv_State_add, inv_setPswState, inv_State_put, inv_State_evMax, inv_State_inc]

theorem inv_refuseSwitch {x0 : Nat} {s : State}
    (h0 : Inv s) :
    Inv (refuseSwitch x0 s) := by
  unfold refuseSwitch
  grind [inv_def, inv_setPswState, inv_State_setPsw, inv_State_inc, inv_State_put, inv_State_evx, inv_State_putBit]

theorem inv_switchOne {lim : Nat} {r : Bool × State} {n : Nat} (h0 : Inv r.2) : Inv (switchOne lim r n).2 := by
  unfold switchOne
  dsimp only
  split
  · exact h0
  · split
    · exact inv_startSwitch h0
    · split
      · exact inv_refuseSwitch h0
      · exact h0

theorem inv_switchServe {lim : Nat} {s : State} (h0 : Inv s) : Inv (switchServe lim s) := by
  unfold switchServe
  have h : ∀ (l : List Nat) (r : Bool × State), Inv r.2 → Inv (l.foldl (switchOne lim) r).2 := by
    intro l
    induction l with
    | nil => exact fun r h => h
    | cons a l ih => exact fun r h => ih _ (inv_switchOne h)
  have h2 : ∀ (l : List Nat) (r : Bool × State), Inv r.2 →
      Inv (l.foldl (fun r p => if r.1 then r else (switchQueue r.2 p).foldl (switchOne lim) r) r).2 := by
    intro l
    induction l with
    | nil => exact fun r h => h
    | cons a l ih =>
      intro r hr
      refine ih _ ?_
      dsimp only
      split
      · exact hr
      · exact h _ _ hr
  exact h2 _ _ h0

theorem inv_execBudgetDecision {s : State}
    (h0 : Inv s) :
    ∀ t, execBudgetDecision s = .next t → Inv t := by
  unfold execBudgetDecision
  grind [inv_def, inv_State_put, inv_switchServe, inv_showBudget]

theorem inv_execCaseRise {x0 : Fin 8} {x1 : F32} {x2 : F32} {s : State}
    (h0 : Inv s) :
    ∀ t, execCaseRise x0 x1 x2 s = .next t → Inv t := by
  unfold execCaseRise
  grind [inv_def, inv_State_evx, inv_State_putBit]

theorem inv_execClampLockRelease {x0 : Fin 32} {s : State}
    (h0 : Inv s) :
    ∀ t, execClampLockRelease x0 s = .next t → Inv t := by
  unfold execClampLockRelease
  grind [inv_def, inv_State_ev, inv_State_setBitAt, inv_setPswState, inv_showHot, inv_State_setPsw]

theorem inv_execClampPulse {x0 : Fin 32} {x1 : Nat} {s : State}
    (h0 : Inv s) :
    ∀ t, execClampPulse x0 x1 s = .next t → Inv t := by
  unfold execClampPulse
  grind [inv_def, inv_State_setPsw, inv_State_put, inv_showClamp, inv_State_evMax, inv_pswStop, inv_State_setBitAt,
    inv_showBudget, inv_State_putBit]

theorem inv_pswFault {x0 : Nat} {x1 : Nat} {s : State}
    (h0 : Inv s) :
    Inv (pswFault x0 x1 s) := by
  unfold pswFault
  grind [inv_def, inv_State_setPsw, inv_State_putBit, inv_State_put, inv_pswStop, inv_State_setBitAt,
    inv_showBudget, inv_noteLasting, inv_State_evMax, inv_setPswState]

theorem inv_execDtLimit {x0 : Fin 32} {x1 : F32} {x2 : F32} {s : State}
    (h0 : Inv s) :
    ∀ t, execDtLimit x0 x1 x2 s = .next t → Inv t := by
  unfold execDtLimit
  grind [inv_def, inv_pswFault, inv_State_evx]

theorem inv_execInrushEnd {x0 : Fin 32} {s : State}
    (h0 : Inv s) :
    ∀ t, execInrushEnd x0 s = .next t → Inv t := by
  unfold execInrushEnd
  grind [inv_def, inv_setPswState]

theorem inv_execJunctionOvertemp {x0 : Fin 32} {x1 : F32} {s : State}
    (h0 : Inv s) :
    ∀ t, execJunctionOvertemp x0 x1 s = .next t → Inv t := by
  unfold execJunctionOvertemp
  grind [inv_def, inv_pswFault, inv_State_evMax, inv_showHot, inv_State_setPsw]

theorem inv_execPswClr {x0 : Req} {x1 : Word} {s : State}
    (h0 : Inv s) :
    ∀ t, execPswClr x0 x1 s = .next t → Inv t := by
  unfold execPswClr
  grind [inv_def, inv_forUp, inv_pswRelease]

theorem inv_execPswOpenLoad {x0 : Fin 32} {x1 : Bool} {x2 : F32} {s : State}
    (h0 : Inv s) :
    ∀ t, execPswOpenLoad x0 x1 x2 s = .next t → Inv t := by
  unfold execPswOpenLoad
  grind [inv_def, inv_State_ev, inv_State_putBit]

theorem inv_execPswOverload {x0 : Fin 32} {x1 : F32} {x2 : Nat} {x3 : Bool} {s : State}
    (h0 : Inv s) :
    ∀ t, execPswOverload x0 x1 x2 x3 s = .next t → Inv t := by
  unfold execPswOverload
  grind [inv_def, inv_pswFault, inv_State_evMax]

theorem inv_execPswRetry {x0 : Fin 32} {x1 : F32} {x2 : F32} {s : State}
    (h0 : Inv s) :
    ∀ t, execPswRetry x0 x1 x2 s = .next t → Inv t := by
  unfold execPswRetry
  grind [inv_def, inv_State_setPsw, inv_showHot, inv_State_add, inv_setPswState]

theorem inv_execPswShort {x0 : Fin 32} {x1 : F32} {s : State}
    (h0 : Inv s) :
    ∀ t, execPswShort x0 x1 s = .next t → Inv t := by
  unfold execPswShort
  grind [inv_def, inv_pswFault, inv_State_evMax]

theorem inv_execSwitchOnRefused {x0 : Fin 32} {s : State}
    (h0 : Inv s) :
    ∀ t, execSwitchOnRefused x0 s = .next t → Inv t := by
  unfold execSwitchOnRefused
  grind [inv_def, inv_showBudget, inv_refuseSwitch]

end Sys2Proof.Machine
end

