-- ==== Sys2Proof/Laws/KeepCfgMap.lean ====
section
/-!
SUPPORT. Every operation and command of Machine/CfgMap.lean keeps the invariant.
-/
namespace Sys2Proof.Machine

theorem inv_wrImage {x0 : Nat} {x1 : Word} {s : State}
    (h0 : Inv s) :
    Inv (wrImage x0 x1 s) := by
  unfold wrImage
  grind [inv_def, inv_State_wr]

theorem inv_cfgWr {x0 : CfgSlot} {x1 : Word} {s : State}
    (h0 : Inv s) :
    Inv (cfgWr x0 x1 s) := by
  unfold cfgWr
  grind [inv_def, inv_wrImage, inv_State_wr32, inv_State_setPipe]

theorem inv_applyItemVal {x0 : CfgItem} {s : State}
    (h0 : Inv s) :
    Inv (applyItemVal x0 s) := by
  unfold applyItemVal
  grind [inv_def, inv_forUp, inv_cfgWr, inv_wrImage, inv_State_putF]

theorem inv_applyItems {x0 : List CfgItem} {s : State}
    (h0 : Inv s) :
    Inv (applyItems x0 s) := by
  unfold applyItems
  grind [inv_def, inv_forAll, inv_applyItemVal]

end Sys2Proof.Machine
end

