-- ==== Sys2Proof/Laws/KeepLoop.lean ====
section
/-!
SUPPORT. Every operation and command of Machine/Loop.lean keeps the invariant.
-/
namespace Sys2Proof.Machine

theorem inv_State_mputBit {s : State} {x1 : Fld} {x2 : Bool}
    (h0 : Inv s) :
    Inv (State.mputBit s x1 x2) := by
  unfold State.mputBit
  grind [inv_def, inv_State_mput]

theorem inv_ageLoopSig {x0 : Nat} {x1 : Nat} {s : State}
    (h0 : Inv s) :
    Inv (ageLoopSig x0 x1 s) := by
  unfold ageLoopSig
  grind [inv_def, inv_State_putSig]

theorem inv_deriveRec {x0 : Nat} {s : State}
    (h0 : Inv s) :
    Inv (deriveRec x0 s) := by
  unfold deriveRec
  grind [inv_def, inv_State_wr32]

theorem inv_seedNext {x0 : Nat} {x1 : Nat} {s : State}
    (h0 : Inv s) :
    Inv (seedNext x0 x1 s) := by
  unfold seedNext
  grind [inv_def, inv_State_setLoop]

theorem inv_schedEvent {s : State} {s1 : State}
    (h0 : Inv s) (h1 : Inv s1) :
    Inv (schedEvent s s1) := by
  unfold schedEvent
  grind [inv_def, inv_State_evx]

theorem inv_gather {l n : Nat} {s : State} (h0 : Inv s) : Inv (gather l n s).2 := by
  unfold gather
  grind [inv_def, inv_State_wr32, inv_State_mputBit, inv_State_putBit, inv_State_ev1, inv_State_wr, inv_State_mput,
    inv_State_inc, inv_seedNext]

theorem inv_startChannel {x0 : Nat} {x1 : Nat} {s : State}
    (h0 : Inv s) :
    Inv (startChannel x0 x1 s) := by
  unfold startChannel
  grind [inv_def, inv_State_wr32, inv_State_setLoop]

theorem inv_repTerm {l n : Nat} {g : Gather} {s : State} (h0 : Inv s) : Inv (repTerm l n g s).2.2 := by
  unfold repTerm
  extract_lets a src ang ageMax w b wrap frz s2 rb s3 le m0 mlim m
  have i2 : Inv s2 := inv_State_mputBit (inv_State_mput h0)
  have i3 : Inv s3 := by
    show Inv (if _ then _ else _)
    split
    · exact inv_State_mput i2
    · exact i2
  clear_value s3 s2 le m0 mlim m rb
  split
  · exact h0
  split
  · exact inv_State_mputBit h0
  split
  · exact i2
  · exact i3

theorem inv_keepRep {x0 : Nat} {x1 : Nat} {x2 : Option (Nat × F32)} {s : State}
    (h0 : Inv s) :
    Inv (keepRep x0 x1 x2 s) := by
  unfold keepRep
  grind [inv_def, inv_State_wr32]

theorem inv_writePid {x0 : Nat} {x1 : Nat} {x2 : PidOut} {s : State}
    (h0 : Inv s) :
    Inv (writePid x0 x1 x2 s) := by
  unfold writePid
  grind [inv_def, inv_State_wr32, inv_State_mputBit, inv_State_setLoop]

theorem inv_storeResult {x0 : Nat} {x1 : Nat} {x2 : Bool} {x3 : Bool} {x4 : Bool} {x5 : Option (Nat × F32)} {x6 :
  Gather} {x7 : F32} {x8 : PidOut} {s : State}
    (h0 : Inv s) :
    Inv (storeResult x0 x1 x2 x3 x4 x5 x6 x7 x8 s) := by
  unfold storeResult
  grind [inv_def, inv_State_ev1, inv_State_putBit, inv_State_inc, inv_seedNext, inv_keepRep, inv_State_wr32,
    inv_writePid]

theorem inv_pushLine {x0 : Nat} {x1 : Nat} {x2 : F32} {s : State}
    (h0 : Inv s) :
    Inv (pushLine x0 x1 x2 s) := by
  unfold pushLine
  grind [inv_def, inv_State_mput, inv_State_wr8]

theorem inv_fixLine {x0 : Nat} {x1 : Nat} {x2 : F32} {s : State}
    (h0 : Inv s) :
    Inv (fixLine x0 x1 x2 s) := by
  unfold fixLine
  grind [inv_def, inv_pushLine, inv_State_mput]

theorem inv_enterFallback {x0 : Nat} {x1 : Nat} {x2 : Bool} {s : State}
    (h0 : Inv s) :
    Inv (enterFallback x0 x1 x2 s) := by
  unfold enterFallback
  grind [inv_def, inv_State_wr32, inv_fixLine]

theorem inv_judge {x0 : Nat} {x1 : Nat} {x2 : Nat} {x3 : F32} {s : State}
    (h0 : Inv s) :
    Inv (judge x0 x1 x2 x3 s).2 := by
  unfold judge
  grind [inv_def, inv_State_wr32]

theorem inv_plausible {l n : Nat} {s : State} (h0 : Inv s) : Inv (plausible l n s).2.2 := by
  unfold plausible
  dsimp only
  split
  · exact h0
  · exact inv_State_wr32 (inv_State_wr32 (inv_judge (inv_judge (inv_State_wr32 h0))))

theorem inv_faultEvent {x0 : Nat} {x1 : Nat} {s : State}
    (h0 : Inv s) :
    Inv (faultEvent x0 x1 s).2 := by
  unfold faultEvent
  grind [inv_def, inv_State_mput, inv_State_wr32, inv_State_setLoop]

theorem inv_degrade {x0 : Nat} {x1 : Nat} {s : State}
    (h0 : Inv s) :
    Inv (degrade x0 x1 s) := by
  unfold degrade
  grind [inv_def, inv_State_putBit, inv_State_mput]

theorem inv_takeLasting {x0 : Nat} {x1 : Nat} {s : State}
    (h0 : Inv s) :
    Inv (takeLasting x0 x1 s) := by
  unfold takeLasting
  grind [inv_def, inv_noteLasting, inv_State_ev1, inv_degrade, inv_State_mputBit]

theorem inv_countFault {x0 : Nat} {x1 : Nat} {s : State}
    (h0 : Inv s) :
    Inv (countFault x0 x1 s) := by
  unfold countFault
  grind [inv_def, inv_faultEvent, inv_takeLasting]

theorem inv_supervise {x0 : Nat} {x1 : Nat} {x2 : Verdict} {x3 : Verdict} {x4 : Bool} {s : State}
    (h0 : Inv s) :
    Inv (supervise x0 x1 x2 x3 x4 s) := by
  unfold supervise
  grind [inv_def, inv_State_mputBit, inv_State_mput, inv_countFault, inv_State_setLoop, inv_State_ev1, inv_seedNext,
    inv_faultEvent, inv_takeLasting, inv_degrade]

theorem inv_superviseChannel {l n : Nat} {bad : Bool} {s : State} (h0 : Inv s) : Inv (superviseChannel l n bad s) :=
  by
  unfold superviseChannel
  extract_lets a
  split
  rename_i v1 v2 s8 h8
  have i8 := inv_plausible (l := l) (n := n) h0
  rw [h8] at i8
  dsimp only at i8
  extract_lets s9 vs s10
  have i9 : Inv s9 := by
    show Inv (if _ then _ else _)
    split
    · exact inv_pushLine i8
    · exact i8
  clear_value s9 vs
  have i10 : Inv s10 := by
    show Inv (if _ then _ else _)
    split
    · exact inv_State_wr32 i9
    · exact i9
  exact inv_supervise i10

theorem inv_seedFirst {x0 : Nat} {x1 : Nat → Bool} {s : State}
    (h0 : Inv s) :
    Inv (seedFirst x0 x1 s) := by
  unfold seedFirst
  grind [inv_def, inv_forUp, inv_seedNext]

theorem inv_writeDest {x0 : Nat} {x1 : Nat} {x2 : F32} {x3 : Bool} {s : State}
    (h0 : Inv s) :
    Inv (writeDest x0 x1 x2 x3 s) := by
  unfold writeDest
  grind [inv_def, inv_State_setLoop, inv_State_putCmd, inv_State_putSig, inv_seedFirst]

theorem inv_computeChannel {l n : Nat} {s : State} (h0 : Inv s) : Inv (computeChannel l n s) := by
  unfold computeChannel
  extract_lets a
  split
  rename_i g s3 h3
  have i3 := inv_gather (l := l) (n := n) (inv_startChannel (x0 := l) (x1 := n) h0)
  rw [h3] at i3
  split
  rename_i uRep mNew s4 h4
  have i4 := inv_repTerm (l := l) (n := n) (g := g) i3
  rw [h4] at i4
  dsimp only at i4
  extract_lets degraded absent seed r mBad degBad bad s5 s6 s7 done s8 s9
  have i5 : Inv s5 := inv_storeResult (inv_State_mputBit i4)
  clear_value s5 r bad degBad mBad
  have i6 : Inv s6 := by
    show Inv (if _ then _ else _)
    split
    · exact inv_State_wr32 i5
    · exact i5
  clear_value s6
  have i7 : Inv s7 := inv_enterFallback (inv_superviseChannel i6)
  clear_value s7
  have i8 : Inv s8 := inv_writeDest i7
  clear_value s8
  have i9 : Inv s9 := by
    show Inv (if _ then _ else _)
    split
    · exact inv_State_mputBit i8
    · exact i8
  exact inv_State_mput i9

theorem inv_countWarm {x0 : Nat} {x1 : Nat} {s : State}
    (h0 : Inv s) :
    Inv (countWarm x0 x1 s) := by
  unfold countWarm
  grind [inv_def, inv_State_wr32]

theorem inv_runPanes {x0 : Nat} {x1 : List Nat} {s : State}
    (h0 : Inv s) :
    Inv (runPanes x0 x1 s) := by
  unfold runPanes
  grind [inv_def, inv_forAll, inv_computeChannel, inv_seedFirst, inv_State_put]

theorem inv_takeSnap {x0 : Nat} {s : State}
    (h0 : Inv s) :
    Inv (takeSnap x0 s) := by
  unfold takeSnap
  grind [inv_def, inv_State_setLoop]

theorem inv_showFn {x0 : Nat} {s : State}
    (h0 : Inv s) :
    Inv (showFn x0 s) := by
  unfold showFn
  grind [inv_def, inv_State_put]

theorem inv_recoverChannel {x0 : Nat} {x1 : Nat} {s : State}
    (h0 : Inv s) :
    Inv (recoverChannel x0 x1 s) := by
  unfold recoverChannel
  grind [inv_def, inv_State_putBit, inv_State_mput, inv_State_ev1, inv_seedNext]

theorem inv_execChannelRecovered {x0 : Fin 96} {s : State}
    (h0 : Inv s) :
    ∀ t, execChannelRecovered x0 s = .next t → Inv t := by
  unfold execChannelRecovered
  grind [inv_def, inv_recoverChannel]

theorem inv_execLoadClr {x0 : Req} {x1 : Lane} {s : State}
    (h0 : Inv s) :
    ∀ t, execLoadClr x0 x1 s = .next t → Inv t := by
  unfold execLoadClr
  grind [inv_def, inv_State_put]

theorem inv_execSnapDone {x0 : Lane} {s : State}
    (h0 : Inv s) :
    ∀ t, execSnapDone x0 s = .next t → Inv t := by
  unfold execSnapDone
  grind [inv_def, inv_State_setLoop, inv_State_putBit, inv_State_put64]

theorem inv_execSnapReq {x0 : Req} {x1 : Lane} {s : State}
    (h0 : Inv s) :
    ∀ t, execSnapReq x0 x1 s = .next t → Inv t := by
  unfold execSnapReq
  grind [inv_def, inv_State_putBit, inv_State_setLoop]

theorem inv_execWarmupEnd {x0 : Fin 96} {s : State}
    (h0 : Inv s) :
    ∀ t, execWarmupEnd x0 s = .next t → Inv t := by
  unfold execWarmupEnd
  grind [inv_def, inv_State_wr32]

end Sys2Proof.Machine
end

