-- ==== Sys2Proof/Laws/KeepEcnil.lean ====
section
/-!
SUPPORT. Every operation and command of Machine/Ecnil.lean keeps the invariant.
-/
namespace Sys2Proof.Machine

theorem inv_State_setEcnPort {s : State} {x1 : Nat} {x2 : EcnPort}
    (h0 : Inv s) :
    Inv (State.setEcnPort s x1 x2) := by
  unfold State.setEcnPort
  grind [inv_def]

theorem inv_settle {x0 : EcnWait} {s : State}
    (h0 : Inv s) :
    Inv (settle x0 s) := by
  unfold settle
  grind [inv_def, inv_State_ev, inv_State_putBit]

theorem inv_setRingMode {x0 : Nat} {s : State}
    (h0 : Inv s) :
    Inv (setRingMode x0 s) := by
  unfold setRingMode
  grind [inv_def, inv_State_putBit, inv_State_put, inv_State_ev]

theorem inv_applyMode {s : State}
    (h0 : Inv s) :
    Inv (applyMode s) := by
  unfold applyMode
  grind [inv_def, inv_settle, inv_setRingMode]

theorem inv_sendMsg {x0 : Nat} {x1 : List Int} {s : State}
    (h0 : Inv s) :
    Inv (sendMsg x0 x1 s) := by
  unfold sendMsg
  grind [inv_def]

theorem inv_sendApply {x0 : Nat} {x1 : Nat} {x2 : List Nat} {x3 : List Int} {s : State}
    (h0 : Inv s) :
    Inv (sendApply x0 x1 x2 x3 s) := by
  unfold sendApply
  grind [inv_def, inv_sendMsg]

theorem inv_sendCommit {x0 : Nat} {x1 : List Nat} {x2 : List CfgItem} {x3 : Bool} {x4 : Bool} {x5 : List Int} {s :
  State}
    (h0 : Inv s) :
    Inv (sendCommit x0 x1 x2 x3 x4 x5 s) := by
  unfold sendCommit
  grind [inv_def, inv_sendApply]

theorem inv_ringSet {s : State}
    (h0 : Inv s) :
    Inv (ringSet s) := by
  unfold ringSet
  grind [inv_def, inv_settle, inv_State_ev, inv_State_putBit, inv_State_inc]

theorem inv_takeWindows {s : State}
    (h0 : Inv s) :
    Inv (takeWindows s) := by
  unfold takeWindows
  grind [inv_def, inv_State_putSigs, inv_forUp, inv_State_putSig, inv_forAll]

theorem inv_fillWindow {s : State}
    (h0 : Inv s) :
    Inv (fillWindow s) := by
  unfold fillWindow
  grind [inv_def]

theorem inv_execAbortCheck {s : State}
    (h0 : Inv s) :
    ∀ t, execAbortCheck s = .next t → Inv t := by
  unfold execAbortCheck
  grind [inv_def, inv_forAll, inv_State_ev, inv_State_putBit]

theorem inv_portDown {x0 : Nat} {s : State}
    (h0 : Inv s) :
    Inv (portDown x0 s) := by
  unfold portDown
  grind [inv_def, inv_State_setEcnPort, inv_State_put, inv_State_putBit, inv_State_ev]

theorem inv_execAnnounce {x0 : Fin 2} {x1 : Nat} {s : State}
    (h0 : Inv s) :
    ∀ t, execAnnounce x0 x1 s = .next t → Inv t := by
  unfold execAnnounce
  grind [inv_def, inv_setRingMode, inv_portDown, inv_State_setEcnPort, inv_State_ev, inv_State_put, inv_State_putBit]

theorem inv_holdMsg {x0 : Nat} {x1 : Nat} {x2 : Nat} {s : State}
    (h0 : Inv s) :
    Inv (holdMsg x0 x1 x2 s) := by
  unfold holdMsg
  grind [inv_def, inv_sendMsg]

theorem inv_execEcnAck {x0 : Fin 8} {x1 : Nat} {s : State}
    (h0 : Inv s) :
    ∀ t, execEcnAck x0 x1 s = .next t → Inv t := by
  unfold execEcnAck
  grind [inv_def, inv_State_setBitAt]

theorem inv_setJoin {x0 : Nat} {s : State}
    (h0 : Inv s) :
    Inv (setJoin x0 s) := by
  unfold setJoin
  grind [inv_def, inv_State_putBit, inv_State_put]

theorem inv_isolate {s : State}
    (h0 : Inv s) :
    Inv (isolate s) := by
  unfold isolate
  grind [inv_def, inv_State_evMax, inv_setJoin]

theorem inv_execEcnAdmit {x0 : Fin 8} {x1 : Nat} {x2 : Int} {x3 : Bool} {s : State}
    (h0 : Inv s) :
    ∀ t, execEcnAdmit x0 x1 x2 x3 s = .next t → Inv t := by
  unfold execEcnAdmit
  grind [inv_def, inv_isolate, inv_keepSteps]

theorem inv_execEcnLeap {x0 : LeapTable} {s : State}
    (h0 : Inv s) :
    ∀ t, execEcnLeap x0 s = .next t → Inv t := by
  unfold execEcnLeap
  grind [inv_def, inv_setLeap]

theorem inv_execEcnMode {x0 : Nat} {x1 : Nat} {s : State}
    (h0 : Inv s) :
    ∀ t, execEcnMode x0 x1 s = .next t → Inv t := by
  unfold execEcnMode
  grind [inv_def, inv_holdMsg]

theorem inv_execEcnRefuse {x0 : Fin 8} {x1 : Fin 5} {s : State}
    (h0 : Inv s) :
    ∀ t, execEcnRefuse x0 x1 s = .next t → Inv t := by
  unfold execEcnRefuse
  grind [inv_def, inv_State_ev, inv_State_put, inv_setJoin]

theorem inv_execEcnReset {x0 : Fin 8} {s : State}
    (h0 : Inv s) :
    ∀ t, execEcnReset x0 s = .next t → Inv t := by
  unfold execEcnReset
  grind [inv_def]

theorem inv_execEcnSet {x0 : Nat} {x1 : Nat} {x2 : List (Option SwgItem)} {s : State}
    (h0 : Inv s) :
    ∀ t, execEcnSet x0 x1 x2 s = .next t → Inv t := by
  unfold execEcnSet
  grind [inv_def, inv_holdMsg]

theorem inv_execEcnStep {x0 : Int} {x1 : Nat} {s : State}
    (h0 : Inv s) :
    ∀ t, execEcnStep x0 x1 s = .next t → Inv t := by
  unfold execEcnStep
  grind [inv_def, inv_keepSteps]

theorem inv_framePort {x0 : Nat} {x1 : EcnFrame} {s : State}
    (h0 : Inv s) :
    Inv (framePort x0 x1 s) := by
  unfold framePort
  grind [inv_def, inv_State_setEcnPort, inv_State_put]

theorem inv_frameHdr {x0 : EcnFrame} {s : State}
    (h0 : Inv s) :
    Inv (frameHdr x0 s) := by
  unfold frameHdr
  grind [inv_def, inv_setTimeStat, inv_setRingMode]

theorem inv_frameEdge {x0 : Nat} {x1 : EcnFrame} {s : State}
    (h0 : Inv s) :
    Inv (frameEdge x0 x1 s) := by
  unfold frameEdge
  grind [inv_def, inv_State_put, inv_setAlign]

theorem inv_frameSlot {x0 : Nat × Word} {s : State}
    (h0 : Inv s) :
    Inv (frameSlot x0 s) := by
  unfold frameSlot
  grind [inv_def, inv_State_putBit, inv_State_setBitAt]

theorem inv_frameWin {x0 : EcnFrame} {x1 : Nat × Bool × List (Word × Word)} {s : State}
    (h0 : Inv s) :
    Inv (frameWin x0 x1 s) := by
  unfold frameWin
  grind [inv_def, inv_State_inc]

theorem inv_execEcnilFrame {x0 : Fin 2} {x1 : EcnFrame} {s : State}
    (h0 : Inv s) :
    ∀ t, execEcnilFrame x0 x1 s = .next t → Inv t := by
  unfold execEcnilFrame
  grind [inv_def, inv_framePort, inv_frameHdr, inv_frameEdge, inv_State_inc, inv_forAll, inv_frameSlot,
    inv_frameWin, CycleOk]

theorem inv_execGenCheck {s : State}
    (h0 : Inv s) :
    ∀ t, execGenCheck s = .next t → Inv t := by
  unfold execGenCheck
  grind [inv_def, inv_State_ev, inv_State_putBit, inv_forUp]

theorem inv_restartTransfer {x0 : Nat} {s : State}
    (h0 : Inv s) :
    Inv (restartTransfer x0 s) := by
  unfold restartTransfer
  grind [inv_def]

theorem inv_execJoin {x0 : Fin 8} {x1 : Nat} {x2 : Bool} {x3 : Nat} {x4 : Nat} {x5 : Nat} {s : State}
    (h0 : Inv s) :
    ∀ t, execJoin x0 x1 x2 x3 x4 x5 s = .next t → Inv t := by
  unfold execJoin
  grind [inv_def, inv_sendMsg, inv_restartTransfer, inv_sendCommit]

theorem inv_execJoinLate {s : State}
    (h0 : Inv s) :
    ∀ t, execJoinLate s = .next t → Inv t := by
  unfold execJoinLate
  grind [inv_def, inv_State_ev]

theorem inv_execJoinSend {x0 : Fin 2} {s : State}
    (h0 : Inv s) :
    ∀ t, execJoinSend x0 s = .next t → Inv t := by
  unfold execJoinSend
  grind [inv_def, inv_setJoin, inv_sendMsg]

theorem inv_execJoinTick {s : State}
    (h0 : Inv s) :
    ∀ t, execJoinTick s = .next t → Inv t := by
  unfold execJoinTick
  grind [inv_def, inv_State_putBit, inv_keepSteps, inv_State_put, inv_State_ev, inv_setAlign, inv_applyStep,
    inv_setJoin, CycleOk]

theorem inv_execJoinTimeout {s : State}
    (h0 : Inv s) :
    ∀ t, execJoinTimeout s = .next t → Inv t := by
  unfold execJoinTimeout
  grind [inv_def, inv_setJoin]

theorem inv_execManagerListenEnd {s : State}
    (h0 : Inv s) :
    ∀ t, execManagerListenEnd s = .next t → Inv t := by
  unfold execManagerListenEnd
  grind [inv_def]

theorem inv_execPortDown {x0 : Fin 2} {x1 : Fin 9} {s : State}
    (h0 : Inv s) :
    ∀ t, execPortDown x0 x1 s = .next t → Inv t := by
  unfold execPortDown
  grind [inv_def, inv_portDown, inv_setRingMode]

theorem inv_execPortUp {x0 : Fin 2} {x1 : Fin 9} {s : State}
    (h0 : Inv s) :
    ∀ t, execPortUp x0 x1 s = .next t → Inv t := by
  unfold execPortUp
  grind [inv_def, inv_State_put, inv_State_setEcnPort, inv_State_ev, inv_State_putBit, inv_sendApply, inv_setRingMode]

theorem inv_execRefusedTimeout {s : State}
    (h0 : Inv s) :
    ∀ t, execRefusedTimeout s = .next t → Inv t := by
  unfold execRefusedTimeout
  grind [inv_def, inv_setJoin]

theorem inv_execRejoin {s : State}
    (h0 : Inv s) :
    ∀ t, execRejoin s = .next t → Inv t := by
  unfold execRejoin
  grind [inv_def, inv_isolate, inv_State_evMax, inv_setAlign]

theorem inv_execSetPost {s : State}
    (h0 : Inv s) :
    ∀ t, execSetPost s = .next t → Inv t := by
  unfold execSetPost
  grind [inv_def, inv_sendApply]

theorem inv_execWorkerResetRequest {x0 : Req} {x1 : Fin 8} {s : State}
    (h0 : Inv s) :
    ∀ t, execWorkerResetRequest x0 x1 s = .next t → Inv t := by
  unfold execWorkerResetRequest
  grind [inv_def, inv_State_ev, inv_sendMsg]

end Sys2Proof.Machine
end

