-- ==== Sys2Proof/Laws/KeepConfigTx.lean ====
section
/-!
SUPPORT. Every operation and command of Machine/ConfigTx.lean keeps the invariant.
-/
namespace Sys2Proof.Machine

theorem inv_functionsCommit {s : State} {x1 : List CfgItem} {s1 : State}
    (h0 : Inv s) (h1 : Inv s1) :
    Inv (functionsCommit s x1 s1) := by
  unfold functionsCommit
  grind [inv_def, inv_forUp, inv_State_setUin, inv_setTarget]

theorem inv_clearRep {x0 : Nat} {x1 : Nat} {s : State}
    (h0 : Inv s) :
    Inv (clearRep x0 x1 s) := by
  unfold clearRep
  grind [inv_def, inv_State_mput, inv_State_clearMem]

theorem inv_loopChannel {s : State} {x1 : Nat} {x2 : Nat} {s1 : State}
    (h0 : Inv s) (h1 : Inv s1) :
    Inv (loopChannel s x1 x2 s1) := by
  unfold loopChannel
  extract_lets a diff diffW diffS enabled back degraded s2 x s3 s4 s5 s6 s7 s8 s9 s10
  have i2 : Inv s2 := inv_deriveRec h1
  clear_value s2 diff diffW diffS enabled back degraded
  have i3 : Inv s3 := by grind [inv_State_setLoop, inv_State_wrBytes]
  clear_value s3
  have i4 : Inv s4 := by grind [inv_seedNext]
  clear_value s4
  have i5 : Inv s5 := by grind [inv_State_ev1, inv_clearRep]
  clear_value s5
  have i6 : Inv s6 := by grind [inv_State_wr32]
  clear_value s6
  have i7 : Inv s7 := by
    simp only [s7]
    split
    · exact i6
    · exact inv_forAll i6 fun o t ht => inv_State_wr32 ht
  clear_value s7
  have i8 : Inv s8 := inv_State_mput i7
  clear_value s8
  have i9 : Inv s9 := by grind [inv_State_mput, inv_State_putBit]
  clear_value s9
  have i10 : Inv s10 := by grind [inv_State_mput, inv_State_mputBit]
  clear_value s10
  grind [inv_State_ev1, inv_State_mput, inv_State_putBit]

theorem inv_showLoops {x0 : Nat} {s : State}
    (h0 : Inv s) :
    Inv (showLoops x0 s) := by
  unfold showLoops
  grind [inv_def, inv_State_put]

theorem inv_freeCmd {x0 : Nat} {x1 : Nat} {s : State}
    (h0 : Inv s) :
    Inv (freeCmd x0 x1 s) := by
  unfold freeCmd
  grind [inv_def, inv_State_putCmd]

theorem inv_loopsCommit {s : State} {x1 : List CfgItem} {s1 : State}
    (h0 : Inv s) (h1 : Inv s1) :
    Inv (loopsCommit s x1 s1) := by
  unfold loopsCommit
  grind [inv_def, inv_forUp, inv_forAll, inv_loopChannel, inv_State_putBit, inv_showLoops, inv_freeCmd, inv_State_ev]

theorem inv_camerasCommit {x0 : List CfgItem} {s : State}
    (h0 : Inv s) :
    Inv (camerasCommit x0 s) := by
  unfold camerasCommit
  grind [inv_def, inv_forUp, inv_State_inc, inv_State_setPipe]

theorem inv_outputsCommit {s : State} {x1 : List CfgItem} {s1 : State}
    (h0 : Inv s) (h1 : Inv s1) :
    Inv (outputsCommit s x1 s1) := by
  unfold outputsCommit
  grind [inv_def, inv_forUp, inv_vlvRelease, inv_vlvModeChange, inv_pswRelease]

theorem inv_swingRegion {x0 : List CfgItem} {s : State}
    (h0 : Inv s) :
    Inv (swingRegion x0 s) := by
  unfold swingRegion
  grind [inv_def, inv_cropDeclared, inv_swingCommitted]

theorem inv_commsCommit {s : State} {x1 : List CfgItem} {s1 : State}
    (h0 : Inv s) (h1 : Inv s1) :
    Inv (commsCommit s x1 s1) := by
  unfold commsCommit
  grind [inv_def, inv_forUp, inv_canEnable]

theorem inv_noteField {s : State}
    (h0 : Inv s) :
    Inv (noteField s) := by
  unfold noteField
  grind [inv_def]

theorem inv_mapRegion {x0 : List CfgItem} {s : State}
    (h0 : Inv s) :
    Inv (mapRegion x0 s) := by
  unfold mapRegion
  grind [inv_def, inv_noteField]

theorem inv_applyCommit {x0 : List CfgItem} {s : State}
    (h0 : Inv s) :
    Inv (applyCommit x0 s) := by
  unfold applyCommit
  grind [inv_def, inv_applyItems, inv_functionsCommit, inv_loopsCommit, inv_camerasCommit, inv_outputsCommit,
    inv_swingRegion, inv_commsCommit, inv_mapRegion]

theorem inv_setRegions {x0 : Nat} {x1 : Nat} {s : State}
    (h0 : Inv s) :
    Inv (setRegions x0 x1 s) := by
  unfold setRegions
  grind [inv_def, inv_forUp, inv_State_put]

theorem inv_startPersist {s : State}
    (h0 : Inv s) :
    Inv (startPersist s) := by
  unfold startPersist
  grind [inv_def, inv_State_putBit]

theorem inv_commitApplied {x0 : CfgCommit} {s : State}
    (h0 : Inv s) :
    Inv (commitApplied x0 s) := by
  unfold commitApplied
  grind [inv_def, inv_applyCommit, inv_State_putBit, inv_State_inc, inv_setRegions, inv_State_put, inv_State_evMax,
    inv_startPersist]

theorem inv_cfgAnswer {x0 : Nat} {x1 : Nat} {x2 : Nat} {x3 : Nat} {s : State}
    (h0 : Inv s) :
    Inv (cfgAnswer x0 x1 x2 x3 s) := by
  unfold cfgAnswer
  grind [inv_def, inv_State_put, inv_State_putBit, inv_State_inc, inv_publish]

theorem inv_showTx {s : State}
    (h0 : Inv s) :
    Inv (showTx s) := by
  unfold showTx
  grind [inv_def, inv_State_wr, inv_State_put]

theorem inv_setTx {x0 : Option CfgTx} {s : State}
    (h0 : Inv s) :
    Inv (setTx x0 s) := by
  unfold setTx
  grind [inv_def, inv_showTx]

theorem inv_commitAborted {x0 : CfgCommit} {x1 : EcnWait} {s : State}
    (h0 : Inv s) :
    Inv (commitAborted x0 x1 s) := by
  unfold commitAborted
  grind [inv_def, inv_State_putBit, inv_setRegions, inv_State_ev, inv_sendCommit, inv_cfgAnswer, inv_setTx]

theorem inv_commitDue {x0 : CfgCommit} {s : State}
    (h0 : Inv s) :
    Inv (commitDue x0 s) := by
  unfold commitDue
  grind [inv_def, inv_commitApplied, inv_settle, inv_commitAborted]

theorem inv_commitBoundary {s : State}
    (h0 : Inv s) :
    Inv (commitBoundary s) := by
  unfold commitBoundary
  grind [inv_def, inv_forAll, inv_commitDue]

theorem inv_commitRefused {x0 : Nat} {x1 : Nat} {x2 : Nat} {s : State}
    (h0 : Inv s) :
    Inv (commitRefused x0 x1 x2 s) := by
  unfold commitRefused
  grind [inv_def, inv_State_evMax, inv_cfgAnswer]

theorem inv_rollBack {x0 : Nat} {s : State}
    (h0 : Inv s) :
    Inv (rollBack x0 s) := by
  unfold rollBack
  grind [inv_def, inv_State_ev, inv_setTx, inv_setRegions]

theorem inv_setNor {x0 : Nat} {x1 : ImageIn} {s : State}
    (h0 : Inv s) :
    Inv (setNor x0 x1 s) := by
  unfold setNor
  grind [inv_def]

theorem inv_execBaseImageWrite {x0 : ImageIn} {s : State}
    (h0 : Inv s) :
    ∀ t, execBaseImageWrite x0 s = .next t → Inv t := by
  unfold execBaseImageWrite
  grind [inv_def, inv_cfgAnswer, inv_setNor]

theorem inv_txBegin {x0 : Nat} {x1 : Nat} {s : State}
    (h0 : Inv s) :
    Inv (txBegin x0 x1 s) := by
  unfold txBegin
  grind [inv_def, inv_cfgAnswer, inv_setRegions, inv_setTx, inv_State_ev]

theorem inv_execCfgBegin {x0 : Fin 3} {x1 : Nat} {s : State}
    (h0 : Inv s) :
    ∀ t, execCfgBegin x0 x1 s = .next t → Inv t := by
  unfold execCfgBegin
  grind [inv_def, inv_txBegin]

theorem inv_txStage {x0 : Nat} {x1 : Nat} {x2 : CfgItem} {s : State}
    (h0 : Inv s) :
    Inv (txStage x0 x1 x2 s) := by
  unfold txStage
  grind [inv_def, inv_cfgAnswer, inv_setTx]

theorem inv_txCommit {x0 : Nat} {x1 : Nat} {x2 : Bool} {s : State}
    (h0 : Inv s) :
    Inv (txCommit x0 x1 x2 s) := by
  unfold txCommit
  grind [inv_def, inv_cfgAnswer, inv_commitRefused, inv_setTx]

theorem inv_txRollback {x0 : Nat} {x1 : Nat} {s : State}
    (h0 : Inv s) :
    Inv (txRollback x0 x1 s) := by
  unfold txRollback
  grind [inv_def, inv_cfgAnswer, inv_rollBack]

theorem inv_execCfgRequest {x0 : Bool} {x1 : CfgOp} {s : State}
    (h0 : Inv s) :
    ∀ t, execCfgRequest x0 x1 s = .next t → Inv t := by
  unfold execCfgRequest
  grind [inv_def, inv_publish, inv_txBegin, inv_txStage, inv_txCommit, inv_txRollback]

theorem inv_execCommit {x0 : Fin 3} {x1 : Nat} {x2 : Bool} {s : State}
    (h0 : Inv s) :
    ∀ t, execCommit x0 x1 x2 s = .next t → Inv t := by
  unfold execCommit
  grind [inv_def, inv_txCommit]

theorem inv_schedRefused {x0 : List CfgItem} {s : State}
    (h0 : Inv s) :
    Inv (schedRefused x0 s) := by
  unfold schedRefused
  grind [inv_def, inv_applyItems, inv_schedEvent]

theorem inv_stageLoops {x0 : List CfgItem} {s : State}
    (h0 : Inv s) :
    Inv (stageLoops x0 s) := by
  unfold stageLoops
  grind [inv_def, inv_applyItems, inv_forUp, inv_forAll, inv_State_wrBytes]

theorem inv_execCommitMessage {x0 : CommitPart} {s : State}
    (h0 : Inv s) :
    ∀ t, execCommitMessage x0 s = .next t → Inv t := by
  unfold execCommitMessage
  grind [inv_def, inv_schedRefused, inv_stageLoops, inv_State_put64, inv_setRegions, inv_holdMsg]

theorem inv_execPersistDone {x0 : Bool} {s : State}
    (h0 : Inv s) :
    ∀ t, execPersistDone x0 s = .next t → Inv t := by
  unfold execPersistDone
  grind [inv_def, inv_State_putBit, inv_State_ev, inv_setNor, inv_State_evMax]

theorem inv_execRequesterDisconnect {x0 : Fin 3} {s : State}
    (h0 : Inv s) :
    ∀ t, execRequesterDisconnect x0 s = .next t → Inv t := by
  unfold execRequesterDisconnect
  grind [inv_def, inv_rollBack]

theorem inv_execRollback {x0 : Fin 3} {x1 : Nat} {s : State}
    (h0 : Inv s) :
    ∀ t, execRollback x0 x1 s = .next t → Inv t := by
  unfold execRollback
  grind [inv_def, inv_txRollback]

theorem inv_execStage {x0 : Fin 3} {x1 : Nat} {x2 : CfgItem} {s : State}
    (h0 : Inv s) :
    ∀ t, execStage x0 x1 x2 s = .next t → Inv t := by
  unfold execStage
  grind [inv_def, inv_txStage]

theorem inv_execStagingTimeout {s : State}
    (h0 : Inv s) :
    ∀ t, execStagingTimeout s = .next t → Inv t := by
  intro t h
  unfold execStagingTimeout at h
  split at h
  · split at h
    · cases h
      exact inv_rollBack h0
    · cases h
      exact h0
  · cases h
    exact h0

theorem inv_startApply {x0 : CfgTx} {x1 : Bool} {s : State}
    (h0 : Inv s) :
    Inv (startApply x0 x1 s) := by
  unfold startApply
  grind [inv_def, inv_sendCommit, inv_stageLoops, inv_setRegions, inv_setTx, inv_cfgAnswer, inv_State_put64]

theorem inv_execValidationDone {x0 : Option (Fin 1024)} {s : State}
    (h0 : Inv s) :
    ∀ t, execValidationDone x0 s = .next t → Inv t := by
  unfold execValidationDone
  grind [inv_def, inv_startApply, inv_schedRefused, inv_commitRefused, inv_setTx]

end Sys2Proof.Machine
end

