-- ==== Sys2Proof/Laws/KeepPowerOps.lean ====
section
/-!
SUPPORT. Every operation and command of Machine/PowerOps.lean keeps the invariant.
-/
namespace Sys2Proof.Machine

theorem inv_showDoms {s : State}
    (h0 : Inv s) :
    Inv (showDoms s) := by
  unfold showDoms
  grind [inv_def, inv_State_wr]

theorem inv_showHold {s : State}
    (h0 : Inv s) :
    Inv (showHold s) := by
  unfold showHold
  grind [inv_def, inv_State_putBit]

theorem inv_setPwr {x0 : Nat} {s : State}
    (h0 : Inv s) :
    Inv (setPwr x0 s) := by
  unfold setPwr
  grind [inv_def, inv_showDoms, inv_State_ev, inv_State_putBit, inv_State_put]

theorem inv_servicesStop {s : State}
    (h0 : Inv s) :
    Inv (servicesStop s) := by
  unfold servicesStop
  grind [inv_def, inv_ispStop, inv_fusStop, inv_netStop, inv_mapStop, inv_canLouvred]

theorem inv_toLouvred {s : State}
    (h0 : Inv s) :
    Inv (toLouvred s) := by
  unfold toLouvred
  grind [inv_def, inv_showHold, inv_setPwr, inv_servicesStop, inv_rollBack]

theorem inv_sealKeyhole {x0 : Nat} {s : State}
    (h0 : Inv s) :
    Inv (sealKeyhole x0 s) := by
  unfold sealKeyhole
  grind [inv_def, inv_State_ev, inv_State_putBit, inv_State_put]

theorem inv_servicesStart {s : State}
    (h0 : Inv s) :
    Inv (servicesStart s) := by
  unfold servicesStart
  grind [inv_def, inv_State_putBit, inv_fusStart, inv_netStart, inv_ispStart]

end Sys2Proof.Machine
end

