-- ==== Sys2Proof/Laws/KeepLanes.lean ====
section
/-!
SUPPORT. Every operation and command of Machine/Lanes.lean keeps the invariant.
-/
namespace Sys2Proof.Machine

theorem inv_State_setLane {s : State} {x1 : Nat} {x2 : LaneSt}
    (h0 : Inv s) :
    Inv (State.setLane s x1 x2) := by
  unfold State.setLane
  grind [inv_def]

theorem inv_actStage {x0 : Nat} {s : State}
    (h0 : Inv s) :
    Inv (actStage x0 s) := by
  unfold actStage
  grind [inv_def, inv_vlvAct, inv_showBudget, inv_pswAct]

theorem inv_reclaim {s : State}
    (h0 : Inv s) :
    Inv (reclaim s) := by
  unfold reclaim
  grind [inv_def]

theorem inv_hingeDueAt {x0 : Nat} {s : State}
    (h0 : Inv s) :
    Inv (hingeDueAt x0 s) := by
  unfold hingeDueAt
  grind [inv_def, inv_State_put, inv_State_putBit, inv_State_ev]

theorem inv_foresee {x0 : Nat} {s : State}
    (h0 : Inv s) :
    Inv (foresee x0 s) := by
  unfold foresee
  grind [inv_def, inv_hingeDueAt]

theorem inv_announceSwap {s : State}
    (h0 : Inv s) :
    Inv (announceSwap s) := by
  unfold announceSwap
  grind [inv_def, inv_foresee, inv_State_put]

theorem inv_announceLate {s : State}
    (h0 : Inv s) :
    Inv (announceLate s) := by
  unfold announceLate
  grind [inv_def, inv_reclaim, inv_announceSwap]

theorem inv_bootFault {x0 : Nat} {x1 : Nat} {s : State}
    (h0 : Inv s) :
    Inv (bootFault x0 x1 s) := by
  unfold bootFault
  grind [inv_def, inv_State_ev, inv_State_setLane]

theorem inv_resetRegs {p : Nat → Bool} {s : State} (h0 : Inv s) : Inv (resetRegs p s) := by
  unfold resetRegs
  exact inv_forAll ⟨regsOk_filter _ h0.1, h0.2⟩ (fun i t ht => inv_wrImage ht)

theorem inv_clearIsland {x0 : Nat} {s : State}
    (h0 : Inv s) :
    Inv (clearIsland x0 s) := by
  unfold clearIsland
  grind [inv_def, inv_State_setLoop, inv_resetRegs]

theorem inv_copyLane {o l : Nat} {s : State} (h0 : Inv s) : Inv (copyLane o l s) := by
  unfold copyLane
  dsimp only
  refine inv_State_setLoop (inv_showLoops (inv_State_putBit (inv_State_putBit (inv_forUp (inv_forAll ?_ fun i t ht
    => inv_State_wr8 ht)
    fun i t ht => inv_State_wr ht))))
  exact ⟨h0.1, memOk_filter _ h0.2.1, h0.2.2⟩

theorem inv_noteSwitch {s : State}
    (h0 : Inv s) :
    Inv (noteSwitch s) := by
  unfold noteSwitch
  grind [inv_def, inv_State_put64]

theorem inv_setClaim {x0 : Nat} {x1 : Nat} {s : State}
    (h0 : Inv s) :
    Inv (setClaim x0 x1 s) := by
  unfold setClaim
  grind [inv_def, inv_noteSwitch, inv_State_put]

theorem inv_setLaneState {x0 : Nat} {x1 : Nat} {s : State}
    (h0 : Inv s) :
    Inv (setLaneState x0 x1 s) := by
  unfold setLaneState
  grind [inv_def, inv_State_setLane, inv_State_put]

theorem inv_takeState {x0 : Nat} {x1 : Nat} {s : State}
    (h0 : Inv s) :
    Inv (takeState x0 x1 s) := by
  unfold takeState
  grind [inv_def, inv_setClaim, inv_setLaneState]

theorem inv_takeOver {x0 : Nat} {s : State}
    (h0 : Inv s) :
    Inv (takeOver x0 s) := by
  unfold takeOver
  grind [inv_def, inv_State_fresh, inv_State_evMax, inv_takeState]

theorem inv_dropLane {x0 : Nat} {x1 : Nat} {s : State}
    (h0 : Inv s) :
    Inv (dropLane x0 x1 s) := by
  unfold dropLane
  grind [inv_def, inv_dropDie, inv_forAll, inv_actStage, inv_takeOver]

theorem inv_nextHinge {s : State}
    (h0 : Inv s) :
    Inv (nextHinge s) := by
  unfold nextHinge
  grind [inv_def, inv_State_put64]

theorem inv_leaveHinge {x0 : Nat} {s : State}
    (h0 : Inv s) :
    Inv (leaveHinge x0 s) := by
  unfold leaveHinge
  grind [inv_def, inv_State_putBit, inv_State_put, inv_State_ev, inv_nextHinge]

theorem inv_showGu {x0 : Nat} {s : State}
    (h0 : Inv s) :
    Inv (showGu x0 s) := by
  unfold showGu
  grind [inv_def, inv_State_put]

theorem inv_noteGiveUp {x0 : Nat} {x1 : Nat} {x2 : Bool} {s : State}
    (h0 : Inv s) :
    Inv (noteGiveUp x0 x1 x2 s) := by
  unfold noteGiveUp
  grind [inv_def, inv_State_setLane, inv_State_putBit, inv_State_put, inv_showGu, inv_State_inc, inv_State_ev]

theorem inv_sendDrop {x0 : Nat} {x1 : Nat} {s : State}
    (h0 : Inv s) :
    Inv (sendDrop x0 x1 s) := by
  unfold sendDrop
  grind [inv_def]

theorem inv_enterLimp {x0 : Nat} {x1 : Nat} {s : State}
    (h0 : Inv s) :
    Inv (enterLimp x0 x1 s) := by
  unfold enterLimp
  grind [inv_def, inv_State_putBit, inv_toLouvred, inv_State_ev, inv_setClaim]

theorem inv_laneReset {x0 : Nat} {s : State}
    (h0 : Inv s) :
    Inv (laneReset x0 s) := by
  unfold laneReset
  grind [inv_def, inv_forUp, inv_State_setActive, inv_State_setPend, inv_clearIsland, inv_State_setBitAt,
    inv_State_ev]

theorem inv_startRecovery {x0 : Nat} {x1 : Nat} {s : State}
    (h0 : Inv s) :
    Inv (startRecovery x0 x1 s) := by
  unfold startRecovery
  grind [inv_def, inv_State_setLane, inv_laneReset]

theorem inv_giveUp {x0 : Nat} {x1 : Nat} {s : State}
    (h0 : Inv s) :
    Inv (giveUp x0 x1 s) := by
  unfold giveUp
  grind [inv_def, inv_leaveHinge, inv_noteGiveUp, inv_sendDrop, inv_State_putBit, inv_takeState, inv_State_ev,
    inv_takeOver, inv_enterLimp, inv_State_setLane, inv_startRecovery]

theorem inv_laneFault {x0 : Nat} {x1 : Nat} {s : State}
    (h0 : Inv s) :
    Inv (laneFault x0 x1 s) := by
  unfold laneFault
  grind [inv_def, inv_bootFault, inv_giveUp]

theorem inv_hingeCheck {x0 : Nat} {s : State}
    (h0 : Inv s) :
    Inv (hingeCheck x0 s) := by
  unfold hingeCheck
  grind [inv_def]

theorem inv_enableClaims {s : State}
    (h0 : Inv s) :
    Inv (enableClaims s) := by
  unfold enableClaims
  grind [inv_def, inv_State_putBit, inv_State_put, inv_takeState, inv_State_setLane, inv_giveUp, inv_State_evMax,
    inv_nextHinge]

theorem inv_exchange {s : State}
    (h0 : Inv s) :
    Inv (exchange s) := by
  unfold exchange
  grind [inv_def, inv_noteSwitch, inv_takeState]

theorem inv_execClaimsEnable {s : State}
    (h0 : Inv s) :
    ∀ t, execClaimsEnable s = .next t → Inv t := by
  unfold execClaimsEnable
  grind [inv_def, inv_enableClaims]

theorem inv_execClockMonitorFault {x0 : Fin 13} {s : State}
    (h0 : Inv s) :
    ∀ t, execClockMonitorFault x0 s = .next t → Inv t := by
  unfold execClockMonitorFault
  grind [inv_def, inv_State_setBitAt, inv_State_ev, inv_laneFault]

theorem inv_execCommandFrame {x0 : Fin 13} {x1 : Lane} {x2 : Word} {x3 : Word} {x4 : Word} {x5 : Fin 20000} {s :
  State}
    (h0 : Inv s) :
    ∀ t, execCommandFrame x0 x1 x2 x3 x4 x5 s = .next t → Inv t := by
  unfold execCommandFrame
  grind [inv_def, inv_setLink, inv_dropLane, inv_holdFrame, inv_State_putBit, inv_State_inc, inv_hingeCheck,
    inv_State_ev]

theorem inv_execDropFrame {x0 : Fin 13} {x1 : Lane} {s : State}
    (h0 : Inv s) :
    ∀ t, execDropFrame x0 x1 s = .next t → Inv t := by
  unfold execDropFrame
  grind [inv_def, inv_dropLane, inv_setLink]

theorem inv_execHingeNow {x0 : Req} {s : State}
    (h0 : Inv s) :
    ∀ t, execHingeNow x0 s = .next t → Inv t := by
  unfold execHingeNow
  grind [inv_def, inv_announceLate, inv_hingeDueAt]

theorem inv_execHingeSwapDue {s : State}
    (h0 : Inv s) :
    ∀ t, execHingeSwapDue s = .next t → Inv t := by
  unfold execHingeSwapDue
  grind [inv_def, inv_announceLate, inv_hingeDueAt]

theorem inv_execHingeSwapEnd {s : State}
    (h0 : Inv s) :
    ∀ t, execHingeSwapEnd s = .next t → Inv t := by
  unfold execHingeSwapEnd
  grind [inv_def, inv_nextHinge, inv_State_putBit, inv_State_put, inv_giveUp, inv_State_ev, inv_exchange]

theorem inv_execHoldWindowEnd {x0 : Fin 64} {s : State}
    (h0 : Inv s) :
    ∀ t, execHoldWindowEnd x0 s = .next t → Inv t := by
  unfold execHoldWindowEnd
  grind [inv_def, inv_actStage, inv_State_setJamb]

theorem inv_noteMismatch {x0 : Nat} {s : State}
    (h0 : Inv s) :
    Inv (noteMismatch x0 s) := by
  unfold noteMismatch
  grind [inv_def, inv_State_inc, inv_State_setJamb, inv_forUp, inv_State_setLane, inv_hingeCheck, inv_State_ev,
    inv_State_putBit]

theorem inv_selectStage {x0 : Nat} {s : State}
    (h0 : Inv s) :
    Inv (selectStage x0 s) := by
  unfold selectStage
  grind [inv_def, inv_State_setJamb, inv_State_ev, inv_State_inc, inv_noteMismatch, inv_hingeCheck]

theorem inv_execJambSelect {s : State}
    (h0 : Inv s) :
    ∀ t, execJambSelect s = .next t → Inv t := by
  unfold execJambSelect
  grind [inv_def, inv_forUp, inv_selectStage]

theorem inv_execJoinWaitExpire {s : State}
    (h0 : Inv s) :
    ∀ t, execJoinWaitExpire s = .next t → Inv t := by
  unfold execJoinWaitExpire
  grind [inv_def, inv_enableClaims, inv_State_ev]

theorem inv_execLaneFault {x0 : Lane} {x1 : Fin 7} {s : State}
    (h0 : Inv s) :
    ∀ t, execLaneFault x0 x1 s = .next t → Inv t := by
  unfold execLaneFault
  grind [inv_def, inv_laneFault]

theorem inv_execLinkSilence {x0 : Fin 13} {x1 : Lane} {s : State}
    (h0 : Inv s) :
    ∀ t, execLinkSilence x0 x1 s = .next t → Inv t := by
  unfold execLinkSilence
  grind [inv_def, inv_dropLane, inv_setLink]

theorem inv_execMismatchGiveUp {x0 : Fin 64} {s : State}
    (h0 : Inv s) :
    ∀ t, execMismatchGiveUp x0 s = .next t → Inv t := by
  unfold execMismatchGiveUp
  grind [inv_def, inv_giveUp]

theorem inv_execNoclaimPolicy {x0 : Fin 48} {s : State}
    (h0 : Inv s) :
    ∀ t, execNoclaimPolicy x0 s = .next t → Inv t := by
  unfold execNoclaimPolicy
  grind [inv_def, inv_State_ev, inv_State_putBit, inv_actStage, inv_applyPolicy]

theorem inv_unsend {x0 : Nat} {x1 : Nat} {s : State}
    (h0 : Inv s) :
    Inv (unsend x0 x1 s) := by
  unfold unsend
  grind [inv_def]

theorem inv_execPaneDeadline {x0 : Lane} {x1 : Fin 256} {x2 : Fin 20000} {s : State}
    (h0 : Inv s) :
    ∀ t, execPaneDeadline x0 x1 x2 s = .next t → Inv t := by
  unfold execPaneDeadline
  grind [inv_def, inv_unsend, inv_State_putBit, inv_State_inc, inv_laneFault, inv_State_evx]

theorem inv_execRecoveryComplete {x0 : Lane} {s : State}
    (h0 : Inv s) :
    ∀ t, execRecoveryComplete x0 s = .next t → Inv t := by
  unfold execRecoveryComplete
  grind [inv_def, inv_reclaim, inv_takeState, inv_State_setLane, inv_State_put, inv_State_evMax, inv_State_putBit]

theorem inv_execRecoveryStepDone {x0 : Lane} {s : State}
    (h0 : Inv s) :
    ∀ t, execRecoveryStepDone x0 s = .next t → Inv t := by
  unfold execRecoveryStepDone
  grind [inv_def, inv_State_setLane, inv_copyLane, inv_State_putBit]

theorem inv_execRecoveryStepFail {x0 : Lane} {s : State}
    (h0 : Inv s) :
    ∀ t, execRecoveryStepFail x0 s = .next t → Inv t := by
  unfold execRecoveryStepFail
  grind [inv_def, inv_giveUp]

theorem inv_execSwitchTick {s : State}
    (h0 : Inv s) :
    ∀ t, execSwitchTick s = .next t → Inv t := by
  unfold execSwitchTick
  grind [inv_def, inv_exchange, inv_State_ev, inv_State_putBit, inv_nextHinge]

theorem inv_execTakeBack {s : State}
    (h0 : Inv s) :
    ∀ t, execTakeBack s = .next t → Inv t := by
  unfold execTakeBack
  grind [inv_def, inv_announceLate]

theorem inv_testGiveUp {x0 : Req} {x1 : Nat} {s : State}
    (h0 : Inv s) :
    Inv (testGiveUp x0 x1 s) := by
  unfold testGiveUp
  grind [inv_def, inv_giveUp]

theorem inv_execTestGuA {x0 : Req} {s : State}
    (h0 : Inv s) :
    ∀ t, execTestGuA x0 s = .next t → Inv t := by
  unfold execTestGuA
  grind [inv_def, inv_testGiveUp]

theorem inv_execTestGuB {x0 : Req} {s : State}
    (h0 : Inv s) :
    ∀ t, execTestGuB x0 s = .next t → Inv t := by
  unfold execTestGuB
  grind [inv_def, inv_testGiveUp]

end Sys2Proof.Machine
end

