-- ==== Sys2Proof/Laws/KeepStartup.lean ====
section
/-!
SUPPORT. Every operation and command of Machine/Startup.lean keeps the invariant.
-/
namespace Sys2Proof.Machine

theorem inv_showStraps {s : State}
    (h0 : Inv s) :
    Inv (showStraps s) := by
  unfold showStraps
  grind [inv_def, inv_State_putBit, inv_State_put, inv_State_wr]

theorem inv_showImage {x0 : Nat} {x1 : ImageIn} {s : State}
    (h0 : Inv s) :
    Inv (showImage x0 x1 s) := by
  unfold showImage
  grind [inv_def, inv_State_putBit, inv_State_put, inv_State_put64]

theorem inv_loadSys {x0 : ImageIn} {s : State}
    (h0 : Inv s) :
    Inv (loadSys x0 s) := by
  unfold loadSys
  grind [inv_def, inv_forUp, inv_State_setPipe, inv_State_setCanPort, fifo_le]

theorem inv_loadImage {x0 : ImageIn} {x1 : List CfgItem} {s : State}
    (h0 : Inv s) :
    Inv (loadImage x0 x1 s) := by
  unfold loadImage
  grind [inv_def, inv_forAll, inv_wrImage, inv_State_wr32, inv_loadSys, inv_applyItems, inv_forUp, inv_State_putBit]

theorem inv_readKept {x0 : ImageIn} {s : State}
    (h0 : Inv s) :
    Inv (readKept x0 s) := by
  unfold readKept
  grind [inv_def, inv_showImage, inv_loadImage]

theorem inv_trySlot {a : Nat} {s t : State} (h0 : Inv s) (h : trySlot a s = .ok t) : Inv t := by
  unfold trySlot at h
  split at h
  · cases h
  · dsimp only at h
    split at h
    · cases h
    · split at h
      · cases h
        exact inv_showImage (inv_loadImage h0)
      · cases h

theorem inv_slotSched {x0 : Nat} {s : State}
    (h0 : Inv s) :
    Inv (slotSched x0 s) := by
  unfold slotSched
  grind [inv_def, inv_loadImage, inv_schedEvent]

theorem inv_readNor {s : State} (h0 : Inv s) : Inv (readNor s).2 := by
  unfold readNor
  extract_lets a
  clear_value a
  split
  · exact inv_trySlot h0 ‹_›
  · rename_i f _
    have i2 : Inv (((slotSched a s).ev 0xA009 a f).put fCFG_STATUS_FAIL_CHK f) := inv_State_put (inv_State_ev
      (inv_slotSched h0))
    generalize ((slotSched a s).ev 0xA009 a f).put fCFG_STATUS_FAIL_CHK f = u at i2 ⊢
    dsimp only
    split
    · exact inv_trySlot i2 ‹_›
    · exact inv_State_ev (inv_State_ev (inv_slotSched i2))

theorem inv_startConfig {s : State} (h0 : Inv s) : Inv (startConfig s) := by
  unfold startConfig
  refine inv_State_putBit (inv_forUp (inv_forUp (inv_forUp (inv_forUp (inv_State_put h0)
    fun l t ht => inv_forUp ht fun n u hu => ?_) fun l t ht => inv_forUp ht fun n u hu => inv_freeCmd hu)
    fun l t ht => inv_State_putBit (inv_State_putBit (inv_showLoops ht))) fun f t ht => ?_)
  · have i := inv_clearRep (x0 := l) (x1 := n) (inv_deriveRec (x0 := chAddr l n) hu)
    dsimp only
    split
    · exact inv_State_mput i
    · exact i
  · split
    · exact inv_request ht
    · exact ht

theorem inv_takeReadback {x0 : Bool} {x1 : Nat} {x2 : Nat} {s : State}
    (h0 : Inv s) :
    Inv (takeReadback x0 x1 x2 s) := by
  unfold takeReadback
  grind [inv_def, inv_State_putCmd, inv_State_setLoop, inv_State_wr32, inv_State_putSig]

theorem inv_freshDie {x0 : Nat} {s : State}
    (h0 : Inv s) :
    Inv (freshDie x0 s) := by
  unfold freshDie
  grind [inv_def, inv_forAll, inv_clearSel, inv_showPol, inv_State_setJamb, inv_State_setBitAt, inv_State_setRail,
    inv_State_wr, inv_State_setVlv, inv_State_setPsw]

theorem inv_showArb {s : State}
    (h0 : Inv s) :
    Inv (showArb s) := by
  unfold showArb
  grind [inv_def, inv_showBudget, inv_State_putBit, inv_State_put]

theorem inv_handshake {x0 : List Nat} {x1 : List (Fin 12 × Bool)} {x2 : Bool} {s : State}
    (h0 : Inv s) :
    Inv (handshake x0 x1 x2 s) := by
  unfold handshake
  grind [inv_def, inv_forAll, inv_freshDie, inv_State_ev, inv_vlvModeChange, inv_forUp, inv_vlvClearWin,
    inv_vlvRelease, inv_pswClearWin, inv_pswRelease, inv_showArb, inv_seedNext, inv_takeReadback, inv_State_setLoop]

theorem inv_startRing {s : State}
    (h0 : Inv s) :
    Inv (startRing s) := by
  unfold startRing
  grind [inv_def]

theorem inv_startServices {x0 : GnssStart} {x1 : Bool} {s : State}
    (h0 : Inv s) :
    Inv (startServices x0 x1 s) := by
  unfold startServices
  grind [inv_def, inv_State_putBit, inv_gnsStart, inv_ispStart, inv_mapStart, inv_fusStart, inv_forUp,
    inv_canEnable, inv_netStart]

end Sys2Proof.Machine
end

