-- ==== Sys2Proof/Laws/KeepReset.lean ====
section
/-!
SUPPORT. Every operation and command of Machine/Reset.lean keeps the invariant.
-/
namespace Sys2Proof.Machine

theorem inv_showKept {s : State} {s1 : State}
    (h0 : Inv s) (h1 : Inv s1) :
    Inv (showKept s s1) := by
  unfold showKept
  grind [inv_def, inv_State_wr, inv_State_putBit, inv_showDoms, inv_showStraps]

theorem inv_shiftDies {x0 : Nat} {s : State}
    (h0 : Inv s) :
    Inv (shiftDies x0 s) := by
  unfold shiftDies
  grind [inv_def, inv_forUp, inv_State_setJamb, inv_State_setVlv, inv_State_setPsw]

theorem inv_takeSlot {s : State}
    (h0 : Inv s) :
    Inv (takeSlot s) := by
  unfold takeSlot
  grind [inv_def, inv_State_put]

theorem inv_updReset {x0 : Nat} {s : State}
    (h0 : Inv s) :
    Inv (updReset x0 s) := by
  unfold updReset
  grind [inv_def, inv_State_put, inv_takeSlot]

theorem inv_clearDie {x0 : Nat} {x1 : Nat → Bool} {s : State}
    (h0 : Inv s) :
    Inv (clearDie x0 x1 s) := by
  unfold clearDie
  extract_lets old rtc s2 s3
  have i2 : Inv s2 := by grind [inv_shiftDies, inv_forUp, inv_dropDie]
  have i3 : Inv s3 := inv_updReset i2
  clear_value s3
  obtain ⟨a, b, c, d, e, f⟩ := i3
  refine ⟨regsOk_filter _ a, ?_, ?_, ?_, e, fifoOk_nil⟩
  · dsimp only; split
    · exact memOk_filter _ b
    · exact memOk_nil
  · exact ⟨Nat.zero_le 256, Nat.zero_le 4096, Nat.zero_le 512, Nat.succ_pos _, c.2.2.2.2⟩
  · dsimp only; split
    · exact d
    · show 0 < 20000; omega

theorem inv_startRecorder {s : State}
    (h0 : Inv s) :
    Inv (startRecorder s) := by
  unfold startRecorder
  have h := inv_evrRebuild h0
  generalize evrRebuild s = s2 at *
  dsimp only
  split
  · exact h
  · exact inv_State_ev ⟨h.1, h.2.1, h.2.2.1, h.2.2.2⟩

theorem inv_optionRestart {s : State}
    (h0 : Inv s) :
    Inv (optionRestart s) := by
  unfold optionRestart
  grind [inv_def, inv_State_evMax, inv_State_put]

theorem inv_applyReset {x0 : Nat} {x1 : Nat} {x2 : Nat} {s : State}
    (h0 : Inv s) :
    Inv (applyReset x0 x1 x2 s) := by
  unfold applyReset
  grind [inv_def, inv_showKept, inv_clearDie, inv_State_setBitAt, inv_State_wr, inv_State_put, inv_State_inc,
    inv_State_ev, inv_startRecorder, inv_State_putBit, inv_optionRestart]

theorem inv_blockRes {x0 : Nat} {x1 : Nat} {x2 : Nat} {x3 : Bool} {s : State}
    (h0 : Inv s) :
    Inv (blockRes x0 x1 x2 x3 s) := by
  unfold blockRes
  grind [inv_def, inv_State_put, inv_State_putBit]

theorem inv_blockRefused {x0 : Nat} {x1 : Nat} {s : State}
    (h0 : Inv s) :
    Inv (blockRefused x0 x1 s) := by
  unfold blockRefused
  grind [inv_def, inv_State_ev, inv_State_putBit, inv_blockRes]

theorem inv_bootBad {x0 : Nat} {s : State}
    (h0 : Inv s) :
    Inv (bootBad x0 s) := by
  unfold bootBad
  grind [inv_def, inv_State_ev, inv_State_setBitAt]

theorem inv_showKeys {s : State}
    (h0 : Inv s) :
    Inv (showKeys s) := by
  unfold showKeys
  grind [inv_def, inv_State_put, inv_forUp, inv_State_put64, inv_State_putBit]

theorem inv_stopAt {x0 : Nat} {x1 : Nat} {s : State}
    (h0 : Inv s) :
    Inv (stopAt x0 x1 s) := by
  unfold stopAt
  grind [inv_def, inv_State_ev, inv_State_put]

theorem inv_readConfig {x0 : Bool} {s : State}
    (h0 : Inv s) :
    Inv (readConfig x0 s).2 := by
  unfold readConfig
  grind [inv_def, inv_readKept, inv_readNor, inv_State_ev]

theorem inv_checkStaged {x0 : Bool} {s : State}
    (h0 : Inv s) :
    Inv (checkStaged x0 s) := by
  unfold checkStaged
  grind [inv_def, inv_State_put]

theorem inv_doneStep {x0 : Nat} {x1 : Nat} {s : State}
    (h0 : Inv s) :
    Inv (doneStep x0 x1 s) := by
  unfold doneStep
  grind [inv_def, inv_State_put, inv_showDoms, inv_State_putBit]

theorem inv_bootTail {us : Nat} {m : List Nat} {s : State} (h0 : Inv s) :
    Inv (doneStep 4 us ({ s with rst := { s.rst with modes := m } }.putBit fSEC_STATUS_BOOT_OK true)) :=
  inv_doneStep (inv_State_putBit (inv_same h0 rfl rfl rfl rfl rfl rfl))

theorem inv_bootFail {fail : Nat} {s : State} (h0 : Inv s) :
    Inv (showKeys { s with sec := { s.sec with bootFail := fail } }) :=
  inv_showKeys (inv_same h0 rfl rfl rfl rfl rfl rfl)

theorem inv_bootStep {us sigs : Nat} {vers : List Nat} {a b : Bool} {s : State} (h0 : Inv s) :
    Inv (bootStep us sigs vers a b s) := by
  unfold bootStep
  extract_lets old fail s2 sec s3 r s4 modes
  have i2 : Inv s2 := inv_forUp h0 fun k t ht => by
    split
    · exact inv_bootBad ht
    · exact ht
  clear_value s2
  have i3 : Inv s3 := inv_bootFail i2
  clear_value s3 fail old
  split
  · exact inv_stopAt i3
  · have i4 : Inv r.2 := inv_readConfig i3
    clear_value r
    split
    · have i5 : Inv s4 := inv_checkStaged (inv_startConfig i4)
      clear_value s4 modes
      exact inv_bootTail i5
    · exact inv_stopAt (inv_bootBad i4)

theorem inv_clearBlock {x0 : Nat} {s : State} (h0 : Inv s) : Inv (clearBlock x0 s) := by
  unfold clearBlock
  have i := inv_resetRegs (p := fun a => inBlock x0 a && !dieHeld a && !(x0 == 8 && a != fMAP_EVT.addr)) h0
  dsimp only
  generalize resetRegs _ s = s2 at i ⊢
  split
  · exact inv_State_setLoop i
  · exact inv_State_setLoop i
  · exact inv_State_putBit (inv_State_put (inv_same i rfl rfl rfl rfl rfl rfl))
  · exact inv_same i rfl rfl rfl rfl rfl rfl
  · exact inv_same i rfl rfl rfl rfl rfl rfl
  · exact inv_same i rfl rfl rfl rfl rfl rfl
  · exact inv_State_putBit i
  · exact inv_same i rfl rfl rfl rfl rfl rfl
  · exact inv_same i rfl rfl rfl rfl rfl rfl
  · split
    · exact inv_State_setCanPort i (Nat.zero_le 32)
    · exact i

theorem inv_resetBy {x0 : Nat} {x1 : Nat} {x2 : Nat} {s : State}
    (h0 : Inv s) :
    Inv (resetBy x0 x1 x2 s) := by
  unfold resetBy
  grind [inv_def, inv_State_setBitAt, inv_applyReset]

theorem inv_evrDrain {s : State}
    (h0 : Inv s) :
    Inv (evrDrain s) := by
  unfold evrDrain
  grind [inv_def, inv_evrFlush, inv_forAll, inv_evRecord, EvrOk, length_updFirst]

theorem inv_ecnilReset {s : State}
    (h0 : Inv s) :
    Inv (ecnilReset s) := by
  unfold ecnilReset
  grind [inv_def, inv_resetBy, inv_evrDrain, inv_State_ev]

theorem inv_startBlock {x0 : Nat} {x1 : GnssStart} {x2 : List (Fin 12)} {s : State}
    (h0 : Inv s) :
    Inv (startBlock x0 x1 x2 s) := by
  unfold startBlock
  grind [inv_def, inv_startRecovery, inv_handshake, inv_gnsStart, inv_ispStart, inv_fusStart, inv_mapStart,
    inv_canEnable, inv_netStart, inv_State_putBit]

theorem inv_execBlockResetDone {x0 : GnssStart} {x1 : List (Fin 12)} {s : State}
    (h0 : Inv s) :
    ∀ t, execBlockResetDone x0 x1 s = .next t → Inv t := by
  unfold execBlockResetDone
  grind [inv_def, inv_State_ev, inv_State_putBit, inv_startBlock]

theorem inv_refValid {x0 : Nat} {s : State}
    (h0 : Inv s) :
    Inv (refValid x0 s) := by
  unfold refValid
  grind [inv_def, inv_forAll, inv_State_setPend, inv_doneStep, inv_stopAt]

theorem inv_loadOptions {us : Nat} {a m : Bool} {pos : Nat} {s : State} (h0 : Inv s) : Inv (loadOptions us a m pos
  s) := by
  unfold loadOptions
  have i : Inv (showStraps { s with straps := ⟨m, s.straps.orderB, if m then 0 else pos⟩ }) :=
    inv_showStraps ⟨h0.1, h0.2.1, h0.2.2.1, h0.2.2.2.1, fun hm => if_pos hm, h0.2.2.2.2.2⟩
  dsimp only
  generalize showStraps _ = s2 at i ⊢
  grind [inv_optionRestart, inv_stopAt, inv_State_ev, inv_doneStep]

theorem inv_lanesStep {x0 : Nat} {x1 : Bool} {x2 : Bool} {s : State}
    (h0 : Inv s) :
    Inv (lanesStep x0 x1 x2 s) := by
  unfold lanesStep
  grind [inv_def, inv_State_setLane, inv_doneStep, inv_stopAt]

theorem inv_execBringupStepComplete {x0 : BringIn} {s : State}
    (h0 : Inv s) :
    ∀ t, execBringupStepComplete x0 s = .next t → Inv t := by
  unfold execBringupStepComplete
  grind [inv_def, inv_startRecorder, inv_doneStep, inv_State_ev, inv_refValid, inv_loadOptions, inv_bootStep,
    inv_lanesStep, inv_handshake, inv_startRing, inv_startServices]

theorem inv_execBrownout {s : State}
    (h0 : Inv s) :
    ∀ t, execBrownout s = .next t → Inv t := by
  unfold execBrownout
  grind [inv_def, inv_resetBy]

theorem inv_execClockFaultRecovery {s : State}
    (h0 : Inv s) :
    ∀ t, execClockFaultRecovery s = .next t → Inv t := by
  unfold execClockFaultRecovery
  grind [inv_def, inv_resetBy]

theorem inv_noteWake {x0 : Nat} {x1 : Nat} {s : State}
    (h0 : Inv s) :
    Inv (noteWake x0 x1 s) := by
  unfold noteWake
  grind [inv_def, inv_State_put, inv_State_ev, inv_State_putBit, inv_State_inc]

theorem inv_wakeReset {src ports : Nat} {s : State} (h0 : Inv s) : Inv (wakeReset src ports s) := by
  unfold wakeReset
  extract_lets waits t src3 t2
  have i5 : Inv t := inv_applyReset h0
  clear_value t
  have i6 : Inv t2 := by
    refine inv_forAll ?_ fun e u hu => inv_State_push hu
    exact ⟨i5.1, i5.2.1, ⟨h0.2.2.1.1, i5.2.2.1.2⟩, i5.2.2.2⟩
  clear_value t2
  exact inv_State_ev (inv_State_putBit (inv_noteWake i6))

theorem inv_execExternal {s : State}
    (h0 : Inv s) :
    ∀ t, execExternal s = .next t → Inv t := by
  unfold execExternal
  grind [inv_def, inv_wakeReset, inv_resetBy]

theorem inv_execFullService {x0 : Nat} {s : State}
    (h0 : Inv s) :
    ∀ t, execFullService x0 s = .next t → Inv t := by
  unfold execFullService
  grind [inv_def, inv_State_putBit, inv_State_evMax]

theorem inv_execPowerOn {s : State}
    (h0 : Inv s) :
    ∀ t, execPowerOn s = .next t → Inv t := by
  unfold execPowerOn
  grind [inv_def, inv_resetBy]

theorem inv_execRstBlock {x0 : Req} {x1 : Fin 32} {s : State}
    (h0 : Inv s) :
    ∀ t, execRstBlock x0 x1 s = .next t → Inv t := by
  unfold execRstBlock
  grind [inv_def, inv_blockRefused, inv_State_setBitAt, inv_blockRes, inv_clearBlock, inv_State_ev]

theorem inv_execSecurityCoreFatalFault {s : State}
    (h0 : Inv s) :
    ∀ t, execSecurityCoreFatalFault s = .next t → Inv t := by
  unfold execSecurityCoreFatalFault
  grind [inv_def, inv_State_ev, inv_resetBy]

theorem inv_execWarm {x0 : Req} {s : State}
    (h0 : Inv s) :
    ∀ t, execWarm x0 s = .next t → Inv t := by
  unfold execWarm
  grind [inv_def, inv_resetBy, inv_evrDrain]

end Sys2Proof.Machine
end

