-- ==== Sys2Proof/Laws/KeepPower.lean ====
section
/-!
SUPPORT. Every operation and command of Machine/Power.lean keeps the invariant.
-/
namespace Sys2Proof.Machine

theorem inv_endSession {x0 : Nat} {s : State}
    (h0 : Inv s) :
    Inv (endSession x0 s) := by
  unfold endSession
  grind [inv_def, inv_forUp, inv_State_ev, inv_State_putBit, inv_State_setBitAt, inv_State_setLane, inv_sealKeyhole]

theorem inv_enterLow {x0 : Nat} {s : State}
    (h0 : Inv s) :
    Inv (enterLow x0 s) := by
  unfold enterLow
  grind [inv_def, inv_evrDrain, inv_setPwr, inv_endSession, inv_State_putBit, inv_mapCold, memOk_filter, memOk_nil]

theorem inv_execBatteryLow {x0 : Fin 4096} {s : State}
    (h0 : Inv s) :
    ∀ t, execBatteryLow x0 s = .next t → Inv t := by
  unfold execBatteryLow
  grind [inv_def, inv_State_putBit, inv_State_put, inv_State_evx]

theorem inv_startDescent {s : State}
    (h0 : Inv s) :
    Inv (startDescent s) := by
  unfold startDescent
  grind [inv_def, inv_State_putBit]

theorem inv_execDescend {x0 : Req} {s : State}
    (h0 : Inv s) :
    ∀ t, execDescend x0 s = .next t → Inv t := by
  unfold execDescend
  grind [inv_def, inv_startDescent]

theorem inv_wakeLatches {s : State} (h0 : Inv s) : Inv (wakeLatches s) := by
  unfold wakeLatches
  have h2 : Inv (forAll s.pic.latches (fun n t => t.setPend n true) s) :=
    inv_forAll h0 fun n t ht => inv_State_setPend ht
  exact inv_same h2 rfl rfl rfl rfl rfl rfl

theorem inv_latchedDie {inp : WakeIn} {s : State} (h0 : Inv s) : Inv (latchedDie inp s) := by
  have h := inv_clearDie (x0 := 1) (x1 := latchedKeeps) h0
  unfold latchedDie
  exact ⟨h.1, h.2.1, h0.2.2.1, Nat.succ_pos _, h.2.2.2.2.1, h.2.2.2.2.2⟩

theorem inv_lanesAt5 {us : Nat} {a b : Bool} {s : State} (h0 : Inv s) :
    Inv (lanesStep us a b { s with rst := { s.rst with next := 5 } }) :=
  inv_lanesStep (inv_same h0 rfl rfl rfl rfl rfl rfl)

theorem inv_resumeTail {inp : WakeIn} {s : State} (h0 : Inv s) :
    Inv (showDoms { s.put fRST_STATUS_STEP 7 with rst := { s.rst with next := 9, us0 := inp.us, ticks := 0 } }) :=
  inv_showDoms (inv_same (inv_State_put h0) rfl rfl rfl rfl rfl rfl)

theorem inv_resumeWith {i : ImageIn} {inp : WakeIn} {s : State} (h0 : Inv s) : Inv (resumeWith i inp s) := by
  unfold resumeWith
  dsimp only
  split
  · exact inv_lanesAt5 (inv_startConfig (inv_readKept h0))
  · exact inv_resumeTail (inv_startRing (inv_startServices (inv_handshake (inv_lanesAt5 (inv_startConfig
    (inv_readKept h0))))))

theorem inv_resumeLatched {inp : WakeIn} {s : State} (h0 : Inv s) : Inv (resumeLatched inp s) := by
  unfold resumeLatched
  have h1 := inv_setPwr (x0 := 0) (inv_wakeLatches (inv_showStraps (inv_State_putBit (x1 := fMAP_STATUS_RUN) (x2 :=
    false)
    (inv_latchedDie (inp := inp) h0))))
  dsimp only
  generalize setPwr 0 _ = s1 at h1 ⊢
  split
  · exact inv_resumeWith h1
  · exact inv_showDoms (inv_State_ev (inv_same h1 rfl rfl rfl rfl rfl rfl))

theorem inv_wake {src port : Nat} {inp : WakeIn} {s : State} (h0 : Inv s) : Inv (wake src port inp s) := by
  unfold wake
  extract_lets ports s2 s3 src2 s4
  have i2 : Inv s2 := inv_State_put h0
  clear_value s2
  have i3 : Inv s3 := by
    show Inv (if _ then _ else _)
    split
    · exact inv_State_putBit i2
    · exact i2
  clear_value s3
  have i4 : Inv s4 := inv_same i3 rfl rfl rfl rfl rfl rfl
  clear_value s4
  split
  · exact inv_resumeLatched (inv_noteWake i4)
  · exact inv_wakeReset i4

theorem inv_execDescentComplete {s : State}
    (h0 : Inv s) :
    ∀ t, execDescentComplete s = .next t → Inv t := by
  unfold execDescentComplete
  grind [inv_def, inv_enterLow, inv_wake]

theorem inv_execDescentStart {s : State}
    (h0 : Inv s) :
    ∀ t, execDescentStart s = .next t → Inv t := by
  unfold execDescentStart
  grind [inv_def, inv_State_ev]

theorem inv_execDieSupplyOff {s : State}
    (h0 : Inv s) :
    ∀ t, execDieSupplyOff s = .next t → Inv t := by
  unfold execDieSupplyOff
  grind [inv_def, inv_forUp, inv_freshDie, inv_setLink]

theorem inv_execIgnLowTimeout {s : State}
    (h0 : Inv s) :
    ∀ t, execIgnLowTimeout s = .next t → Inv t := by
  unfold execIgnLowTimeout
  grind [inv_def, inv_startDescent]

theorem inv_execLatchMaxExpire {x0 : Bool} {s : State}
    (h0 : Inv s) :
    ∀ t, execLatchMaxExpire x0 s = .next t → Inv t := by
  unfold execLatchMaxExpire
  grind [inv_def, inv_State_ev, inv_enterLow]

theorem inv_execLouvre {x0 : Req} {s : State}
    (h0 : Inv s) :
    ∀ t, execLouvre x0 s = .next t → Inv t := by
  unfold execLouvre
  grind [inv_def, inv_toLouvred]

theorem inv_parkStage {x0 : Nat} {s : State}
    (h0 : Inv s) :
    Inv (parkStage x0 s) := by
  unfold parkStage
  grind [inv_def, inv_State_setJamb, inv_showVal, inv_clearSel, inv_showPol]

theorem inv_park {s : State}
    (h0 : Inv s) :
    Inv (park s) := by
  unfold park
  grind [inv_def, inv_forUp, inv_parkStage, inv_toLouvred, inv_vlvStop, inv_State_setVlv, inv_pswStop,
    inv_State_setPsw, inv_setClaim, inv_showBudget, inv_evrDrain]

theorem inv_execPark {s : State}
    (h0 : Inv s) :
    ∀ t, execPark s = .next t → Inv t := by
  unfold execPark
  grind [inv_def, inv_park]

theorem inv_execPwrOpen {x0 : Req} {s : State}
    (h0 : Inv s) :
    ∀ t, execPwrOpen x0 s = .next t → Inv t := by
  unfold execPwrOpen
  grind [inv_def, inv_showHold, inv_servicesStart, inv_setPwr]

theorem inv_execShutMaxExpire {x0 : Bool} {s : State}
    (h0 : Inv s) :
    ∀ t, execShutMaxExpire x0 s = .next t → Inv t := by
  unfold execShutMaxExpire
  grind [inv_def, inv_enterLow, inv_State_evx, inv_State_ev]

theorem inv_execWake {x0 : Fin 5} {x1 : Fin 6} {x2 : WakeIn} {s : State}
    (h0 : Inv s) :
    ∀ t, execWake x0 x1 x2 s = .next t → Inv t := by
  unfold execWake
  grind [inv_def, inv_wake, inv_State_putBit, inv_noteWake, inv_State_ev, inv_State_inc]

end Sys2Proof.Machine
end

