-- ==== Sys2Proof/Laws/KeepSecurity.lean ====
section
/-!
SUPPORT. Every operation and command of Machine/Security.lean keeps the invariant.
-/
namespace Sys2Proof.Machine

theorem inv_authRefused {x0 : Nat} {s : State}
    (h0 : Inv s) :
    Inv (authRefused x0 s) := by
  unfold authRefused
  grind [inv_def, inv_State_ev, inv_State_putBit, inv_State_inc]

theorem inv_haltRes {x0 : Nat} {x1 : Nat} {x2 : Nat} {s : State}
    (h0 : Inv s) :
    Inv (haltRes x0 x1 x2 s) := by
  unfold haltRes
  grind [inv_def, inv_State_putBit, inv_State_put]

theorem inv_haltRefused {x0 : Nat} {x1 : Nat} {s : State}
    (h0 : Inv s) :
    Inv (haltRefused x0 x1 s) := by
  unfold haltRefused
  grind [inv_def, inv_State_ev, inv_haltRes]

theorem inv_haltNote {x0 : Nat} {s : State}
    (h0 : Inv s) :
    Inv (haltNote x0 s) := by
  unfold haltNote
  grind [inv_def, inv_State_ev, inv_State_inc, inv_haltRes]

theorem inv_haltLane {x0 : Nat} {x1 : Nat} {s : State}
    (h0 : Inv s) :
    Inv (haltLane x0 x1 s) := by
  unfold haltLane
  grind [inv_def, inv_giveUp, inv_State_setLane, inv_haltNote, inv_State_setBitAt]

theorem inv_haltDeferred {s : State}
    (h0 : Inv s) :
    Inv (haltDeferred s) := by
  unfold haltDeferred
  grind [inv_def, inv_haltRefused, inv_haltLane]

theorem inv_execHaltRelease {x0 : Fin 10} {s : State}
    (h0 : Inv s) :
    ∀ t, execHaltRelease x0 s = .next t → Inv t := by
  unfold execHaltRelease
  grind [inv_def, inv_State_ev, inv_State_putBit, inv_State_setBitAt, inv_State_setLane, inv_startRecovery]

theorem inv_execNonceFetch {s : State}
    (h0 : Inv s) :
    ∀ t, execNonceFetch s = .next t → Inv t := by
  unfold execNonceFetch
  grind [inv_def, inv_freshWords]

theorem inv_setLifeCycle {x0 : Nat} {s : State}
    (h0 : Inv s) :
    Inv (setLifeCycle x0 s) := by
  unfold setLifeCycle
  grind [inv_def, inv_State_ev, inv_showKeys, inv_State_putBit, inv_State_put]

theorem inv_execProvision {x0 : Bool} {x1 : List Word} {x2 : List (Fin 7 × Nat)} {s : State}
    (h0 : Inv s) :
    ∀ t, execProvision x0 x1 x2 s = .next t → Inv t := by
  unfold execProvision
  grind [inv_def, inv_authRefused, inv_State_put, inv_State_putBit, inv_setLifeCycle]

theorem inv_execSecHalt {x0 : Fin 10} {s : State}
    (h0 : Inv s) :
    ∀ t, execSecHalt x0 s = .next t → Inv t := by
  unfold execSecHalt
  grind [inv_def, inv_haltRefused, inv_haltRes, inv_haltNote, inv_State_setBitAt, inv_haltLane]

theorem inv_execSecReturn {x0 : Bool} {x1 : List Word} {s : State}
    (h0 : Inv s) :
    ∀ t, execSecReturn x0 x1 s = .next t → Inv t := by
  unfold execSecReturn
  grind [inv_def, inv_authRefused, inv_State_ev, inv_State_putBit, inv_setLifeCycle, inv_resetBy, inv_evrDrain]

theorem inv_execTokenExpire {s : State}
    (h0 : Inv s) :
    ∀ t, execTokenExpire s = .next t → Inv t := by
  unfold execTokenExpire
  grind [inv_def, inv_sealKeyhole]

theorem inv_execTokenPresent {x0 : TokenIn} {s : State}
    (h0 : Inv s) :
    ∀ t, execTokenPresent x0 s = .next t → Inv t := by
  unfold execTokenPresent
  grind [inv_def, inv_authRefused, inv_State_put, inv_State_ev, inv_State_putBit]

end Sys2Proof.Machine
end

