-- ==== Sys2Proof/Laws/KeepUpdate.lean ====
section
/-!
SUPPORT. Every operation and command of Machine/Update.lean keeps the invariant.
-/
namespace Sys2Proof.Machine

theorem inv_setUpd {x0 : Nat} {s : State}
    (h0 : Inv s) :
    Inv (setUpd x0 s) := by
  unfold setUpd
  grind [inv_def, inv_State_putBit, inv_State_put]

theorem inv_clearStaging {s : State}
    (h0 : Inv s) :
    Inv (clearStaging s) := by
  unfold clearStaging
  grind [inv_def, inv_State_put, inv_setUpd]

theorem inv_abandonReception {s : State}
    (h0 : Inv s) :
    Inv (abandonReception s) := by
  unfold abandonReception
  grind [inv_def, inv_State_ev, inv_clearStaging]

theorem inv_sendOp {x0 : Nat} {x1 : List Int} {s : State}
    (h0 : Inv s) :
    Inv (sendOp x0 x1 s) := by
  unfold sendOp
  grind [inv_def, inv_sendMsg]

theorem inv_confirmHere {x0 : Nat} {s : State}
    (h0 : Inv s) :
    Inv (confirmHere x0 s) := by
  unfold confirmHere
  grind [inv_def, inv_State_put, inv_State_putBit, inv_setUpd]

theorem inv_confirmAll {x0 : Nat} {s : State}
    (h0 : Inv s) :
    Inv (confirmAll x0 s) := by
  unfold confirmAll
  grind [inv_def, inv_State_ev, inv_sendOp, inv_confirmHere]

theorem inv_handoverSecond {s : State}
    (h0 : Inv s) :
    Inv (handoverSecond s) := by
  unfold handoverSecond
  grind [inv_def, inv_giveUp]

theorem inv_watchInterlocks {s : State}
    (h0 : Inv s) :
    Inv (watchInterlocks s) := by
  unfold watchInterlocks
  grind [inv_def, inv_State_put]

theorem inv_updTick {s : State}
    (h0 : Inv s) :
    Inv (updTick s) := by
  unfold updTick
  grind [inv_def, inv_watchInterlocks, inv_State_inc]

theorem inv_startHandover {s : State}
    (h0 : Inv s) :
    Inv (startHandover s) := by
  unfold startHandover
  grind [inv_def, inv_resetBy, inv_giveUp, inv_fusStop, inv_netStop]

theorem inv_showGo {x0 : Nat} {s : State}
    (h0 : Inv s) :
    Inv (showGo x0 s) := by
  unfold showGo
  grind [inv_def, inv_State_put64]

theorem inv_updResult {x0 : Nat} {x1 : Nat} {x2 : Nat} {s : State}
    (h0 : Inv s) :
    Inv (updResult x0 x1 x2 s) := by
  unfold updResult
  grind [inv_def, inv_State_put]

theorem inv_execActivationGoTick {s : State}
    (h0 : Inv s) :
    ∀ t, execActivationGoTick s = .next t → Inv t := by
  unfold execActivationGoTick
  grind [inv_def, inv_settle, inv_startHandover, inv_setUpd, inv_sendApply, inv_showGo, inv_State_ev, inv_updResult]

theorem inv_startFallback {x0 : Nat} {s : State}
    (h0 : Inv s) :
    Inv (startFallback x0 s) := by
  unfold startFallback
  grind [inv_def, inv_State_put, inv_setUpd, inv_sendApply, inv_State_ev, inv_showGo]

theorem inv_judgeDone {s : State}
    (h0 : Inv s) :
    Inv (judgeDone s) := by
  unfold judgeDone
  grind [inv_def, inv_startFallback, inv_State_evMax, inv_setUpd, inv_State_inc, inv_State_putBit, inv_State_put,
    inv_sendOp, inv_State_ev, inv_clearStaging]

theorem inv_takeDone {x0 : Nat} {x1 : Nat} {s : State}
    (h0 : Inv s) :
    Inv (takeDone x0 x1 s) := by
  unfold takeDone
  grind [inv_def, inv_State_setBitAt, inv_judgeDone, inv_State_ev]

theorem inv_execActivationRestartEnd {x0 : Bool} {x1 : Bool} {s : State}
    (h0 : Inv s) :
    ∀ t, execActivationRestartEnd x0 x1 s = .next t → Inv t := by
  unfold execActivationRestartEnd
  grind [inv_def, inv_takeSlot, inv_netStart, inv_fusStart, inv_takeDone, inv_State_ev, inv_sendOp]

theorem inv_execActivationTimeout {s : State}
    (h0 : Inv s) :
    ∀ t, execActivationTimeout s = .next t → Inv t := by
  unfold execActivationTimeout
  grind [inv_def, inv_startFallback]

theorem inv_execConfirmCountSave {s : State}
    (h0 : Inv s) :
    ∀ t, execConfirmCountSave s = .next t → Inv t := by
  unfold execConfirmCountSave
  grind [inv_def]

theorem inv_execHarvestConfirm {s : State}
    (h0 : Inv s) :
    ∀ t, execHarvestConfirm s = .next t → Inv t := by
  unfold execHarvestConfirm
  grind [inv_def, inv_confirmAll]

theorem inv_updRefused {x0 : Nat} {x1 : Nat} {s : State}
    (h0 : Inv s) :
    Inv (updRefused x0 x1 s) := by
  unfold updRefused
  grind [inv_def, inv_State_putBit, inv_updResult]

theorem inv_updTouch {s : State}
    (h0 : Inv s) :
    Inv (updTouch s) := by
  unfold updTouch
  grind [inv_def]

theorem inv_execManifest {x0 : ManifestIn} {s : State}
    (h0 : Inv s) :
    ∀ t, execManifest x0 s = .next t → Inv t := by
  unfold execManifest
  grind [inv_def, inv_updRefused, inv_updTouch, inv_updResult, inv_setUpd, inv_State_evMax, inv_State_wr]

theorem inv_execPartHeader {x0 : PartIn} {s : State}
    (h0 : Inv s) :
    ∀ t, execPartHeader x0 s = .next t → Inv t := by
  unfold execPartHeader
  grind [inv_def, inv_updRefused, inv_updTouch, inv_State_ev, inv_updResult, inv_State_put]

theorem inv_showStaged {s : State}
    (h0 : Inv s) :
    Inv (showStaged s) := by
  unfold showStaged
  grind [inv_def, inv_State_put, inv_State_ev, inv_State_putBit, inv_setUpd]

theorem inv_execPartPayload {x0 : Nat} {s : State}
    (h0 : Inv s) :
    ∀ t, execPartPayload x0 s = .next t → Inv t := by
  unfold execPartPayload
  grind [inv_def, inv_updRefused, inv_updTouch, inv_State_put, inv_State_ev, inv_updResult, inv_showStaged]

theorem inv_execReceptionTimeout {s : State}
    (h0 : Inv s) :
    ∀ t, execReceptionTimeout s = .next t → Inv t := by
  unfold execReceptionTimeout
  grind [inv_def, inv_abandonReception]

theorem inv_execStaged {x0 : Fin 8} {x1 : Fin 64} {x2 : Fin 3} {x3 : Nat} {s : State}
    (h0 : Inv s) :
    ∀ t, execStaged x0 x1 x2 x3 s = .next t → Inv t := by
  unfold execStaged
  grind [inv_def, inv_showStaged, inv_updRefused]

theorem inv_execUpdAbandon {s : State}
    (h0 : Inv s) :
    ∀ t, execUpdAbandon s = .next t → Inv t := by
  unfold execUpdAbandon
  grind [inv_def, inv_updRefused, inv_abandonReception, inv_updResult]

theorem inv_execUpdCommit {x0 : Bool} {s : State}
    (h0 : Inv s) :
    ∀ t, execUpdCommit x0 s = .next t → Inv t := by
  unfold execUpdCommit
  grind [inv_def, inv_State_putBit, inv_setUpd]

theorem inv_execUpdConfirmed {x0 : Word} {s : State}
    (h0 : Inv s) :
    ∀ t, execUpdConfirmed x0 s = .next t → Inv t := by
  unfold execUpdConfirmed
  grind [inv_def, inv_confirmHere]

theorem inv_execUpdData {x0 : Fin 64} {x1 : Nat} {x2 : List Byte} {x3 : Option (Bool × Nat)} {s : State}
    (h0 : Inv s) :
    ∀ t, execUpdData x0 x1 x2 x3 s = .next t → Inv t := by
  unfold execUpdData
  grind [inv_def, inv_sendOp, inv_State_put]

theorem inv_execUpdDone {x0 : Fin 8} {x1 : Fin 2} {s : State}
    (h0 : Inv s) :
    ∀ t, execUpdDone x0 x1 s = .next t → Inv t := by
  unfold execUpdDone
  grind [inv_def, inv_takeDone]

theorem inv_execUpdFallbackOp {x0 : Nat} {x1 : Nat} {s : State}
    (h0 : Inv s) :
    ∀ t, execUpdFallbackOp x0 x1 s = .next t → Inv t := by
  unfold execUpdFallbackOp
  grind [inv_def, inv_holdMsg, inv_showGo]

theorem inv_execUpdGo {x0 : Nat} {x1 : Nat} {x2 : Fin 2} {s : State}
    (h0 : Inv s) :
    ∀ t, execUpdGo x0 x1 x2 s = .next t → Inv t := by
  unfold execUpdGo
  grind [inv_def, inv_holdMsg, inv_showGo]

theorem inv_execUpdLasting {x0 : Fin 8} {x1 : Word} {s : State}
    (h0 : Inv s) :
    ∀ t, execUpdLasting x0 x1 s = .next t → Inv t := by
  unfold execUpdLasting
  grind [inv_def, inv_State_put, inv_State_evMax]

theorem inv_execUpdateActivate {x0 : Fin 256} {s : State}
    (h0 : Inv s) :
    ∀ t, execUpdateActivate x0 s = .next t → Inv t := by
  unfold execUpdateActivate
  grind [inv_def, inv_updRefused, inv_updTouch, inv_State_put, inv_State_ev, inv_showGo, inv_updResult, inv_setUpd,
    inv_sendApply]

theorem inv_execUpdateConfirm {s : State}
    (h0 : Inv s) :
    ∀ t, execUpdateConfirm s = .next t → Inv t := by
  unfold execUpdateConfirm
  grind [inv_def, inv_updRefused, inv_confirmAll, inv_updResult]

theorem inv_execUpdateFallback {x0 : Fin 256} {s : State}
    (h0 : Inv s) :
    ∀ t, execUpdateFallback x0 s = .next t → Inv t := by
  unfold execUpdateFallback
  grind [inv_def, inv_updRefused, inv_State_put, inv_State_ev, inv_startFallback, inv_updResult]

end Sys2Proof.Machine
end

