-- ==== Sys2Proof/Laws/KeepAccess.lean ====
section
/-!
SUPPORT. Every operation and command of Machine/Access.lean keeps the invariant.
-/
namespace Sys2Proof.Machine

theorem inv_readEffect {x0 : Nat} {x1 : Nat} {x2 : Word} {s : State}
    (h0 : Inv s) :
    Inv (readEffect x0 x1 x2 s) := by
  unfold readEffect
  grind [inv_def, inv_latchClk, inv_latchSol, inv_latchRes, inv_State_wr]

theorem inv_readReg {x0 : Nat} {x1 : Nat} {x2 : Word} {s : State}
    (h0 : Inv s) :
    Inv (readReg x0 x1 x2 s) := by
  unfold readReg
  grind [inv_def, inv_State_busError, inv_State_answer, inv_readEffect]

theorem inv_debugRead {x0 : Nat} {s : State}
    (h0 : Inv s) :
    Inv (debugRead x0 s) := by
  unfold debugRead
  grind [inv_def, inv_readReg, inv_State_answer, inv_State_busError]

theorem inv_writeReg {x0 : Req} {x1 : Nat} {x2 : Word} {x3 : Word} {s : State}
    (h0 : Inv s) :
    Inv (writeReg x0 x1 x2 x3 s) := by
  unfold writeReg
  grind [inv_def, inv_State_busError, inv_State_wr, inv_showNtrk]

theorem inv_debugWrite {x0 : Nat} {x1 : Word} {s : State}
    (h0 : Inv s) :
    Inv (debugWrite x0 x1 s) := by
  unfold debugWrite
  grind [inv_def, inv_writeReg, inv_State_wr32]

theorem inv_eccLane {x0 : Nat} {x1 : Bool} {s : State}
    (h0 : Inv s) :
    Inv (eccLane x0 x1 s) := by
  unfold eccLane
  grind [inv_def, inv_laneFault]

theorem inv_execBusErrorAccess {x0 : Req} {x1 : Nat} {x2 : Bool} {s : State}
    (h0 : Inv s) :
    ∀ t, execBusErrorAccess x0 x1 x2 s = .next t → Inv t := by
  unfold execBusErrorAccess
  grind [inv_def, inv_State_busError]

theorem inv_execDebugAccess {x0 : Nat} {x1 : Option Word} {s : State}
    (h0 : Inv s) :
    ∀ t, execDebugAccess x0 x1 s = .next t → Inv t := by
  unfold execDebugAccess
  grind [inv_def, inv_debugRead, inv_debugWrite]

theorem inv_noteEcc {x0 : Nat} {x1 : Bool} {x2 : Nat} {s : State}
    (h0 : Inv s) :
    Inv (noteEcc x0 x1 x2 s) := by
  unfold noteEcc
  grind [inv_def, inv_State_putBit, inv_State_inc, inv_State_ev]

theorem inv_execEccError {x0 : Req} {x1 : Nat} {x2 : Bool} {s : State}
    (h0 : Inv s) :
    ∀ t, execEccError x0 x1 x2 s = .next t → Inv t := by
  unfold execEccError
  grind [inv_def, inv_eccLane, inv_noteEcc, inv_State_busError]

theorem inv_execRcFieldRead {x0 : Req} {x1 : Nat} {x2 : Word} {s : State}
    (h0 : Inv s) :
    ∀ t, execRcFieldRead x0 x1 x2 s = .next t → Inv t := by
  unfold execRcFieldRead
  grind [inv_def, inv_readReg]

theorem inv_execRegisterWrite {x0 : Req} {x1 : Nat} {x2 : Word} {x3 : Word} {s : State}
    (h0 : Inv s) :
    ∀ t, execRegisterWrite x0 x1 x2 x3 s = .next t → Inv t := by
  unfold execRegisterWrite
  grind [inv_def, inv_writeReg]

theorem inv_execScrubPass {x0 : List (Nat × Bool)} {s : State}
    (h0 : Inv s) :
    ∀ t, execScrubPass x0 s = .next t → Inv t := by
  unfold execScrubPass
  grind [inv_def, inv_forAll, inv_eccLane, inv_noteEcc]

theorem inv_execSramAccessViolation {x0 : Req} {x1 : Nat} {x2 : Bool} {s : State}
    (h0 : Inv s) :
    ∀ t, execSramAccessViolation x0 x1 x2 s = .next t → Inv t := by
  unfold execSramAccessViolation
  grind [inv_def, inv_State_ev, inv_State_putBit, inv_State_busError]

end Sys2Proof.Machine
end

