-- ==== Sys2Proof/Laws/KeepPanel.lean ====
section
/-!
SUPPORT. Every operation and command of Machine/Panel.lean keeps the invariant.
-/
namespace Sys2Proof.Machine

theorem inv_accumulateDc {x0 : BitVec 192} {x1 : Bool} {s : State}
    (h0 : Inv s) :
    Inv (accumulateDc x0 x1 s) := by
  unfold accumulateDc
  grind [inv_def, inv_forUp]

theorem inv_composePanel {s : State}
    (h0 : Inv s) :
    Inv (composePanel s) := by
  unfold composePanel
  grind [inv_def, inv_State_put]

theorem inv_restLines {s : State}
    (h0 : Inv s) :
    Inv (restLines s) := by
  unfold restLines
  grind [inv_def]

theorem inv_checkBalance {s : State}
    (h0 : Inv s) :
    Inv (checkBalance s) := by
  unfold checkBalance
  grind [inv_def, inv_State_put, inv_restLines, inv_State_evMax, inv_State_putBit]

theorem inv_checkFrame {s : State} (h0 : Inv s) : Inv (checkFrame s) := by
  unfold checkFrame
  have i2 := inv_State_put (x1 := fPNL_CRC_REF) (x2 := s.pnl.ref.toNat)
    (inv_State_put (x1 := fPNL_CRC_LAST) (x2 := (frameMemCrc (activeFrame s)).toNat) h0)
  dsimp only
  generalize (s.put fPNL_CRC_LAST (frameMemCrc (activeFrame s)).toNat).put fPNL_CRC_REF s.pnl.ref.toNat = s2 at i2 ⊢
  split
  · have i3 := inv_State_putBit (x1 := fPNL_STATUS_FAULT) (x2 := false) i2
    generalize s2.putBit fPNL_STATUS_FAULT false = s3 at i3 ⊢
    exact inv_same i3 rfl rfl rfl rfl rfl rfl
  · have i3 : Inv { s2 with pnl := { s2.pnl with bad := s2.pnl.bad + 1 } } := inv_same i2 rfl rfl rfl rfl rfl rfl
    have i4 := inv_State_evMax (x1 := 0xE001) (x2 := 0) (x3 := 0) (x4 := f16OfNat (s2.pnl.bad + 1))
      (inv_State_putBit (x1 := fPNL_EVT_CRC) (x2 := true) (inv_State_inc (x1 := fPNL_CNT_MISMATCH) i3))
    split
    · exact inv_State_ev (inv_State_putBit (inv_State_putBit i4))
    · exact i4

theorem inv_execDcbHoldEnd {s : State}
    (h0 : Inv s) :
    ∀ t, execDcbHoldEnd s = .next t → Inv t := by
  unfold execDcbHoldEnd
  grind [inv_def, inv_restLines]

theorem inv_putFrame {x0 : BitVec 192} {s : State}
    (h0 : Inv s) :
    Inv (putFrame x0 s) := by
  unfold putFrame
  grind [inv_def, inv_forUp, inv_State_wr]

theorem inv_execDriveFrame {composing : Bool} {flips : BitVec 192} {s : State} (h0 : Inv s) :
    ∀ t, execDriveFrame composing flips s = .next t → Inv t := by
  intro t h
  unfold execDriveFrame at h
  split at h
  · cases h
    split
    · exact h0
    · exact inv_restLines h0
  · dsimp only at h
    cases h
    refine inv_checkBalance ?_
    have h1 : Inv ((s.putBit fPNL_STATUS_KA_TIMING (pwrState s == 2)).putBit fPNL_STATUS_REVERSED s.pnl.rev) :=
      inv_State_putBit (inv_State_putBit h0)
    generalize (s.putBit fPNL_STATUS_KA_TIMING (pwrState s == 2)).putBit fPNL_STATUS_REVERSED s.pnl.rev = s1 at h1 ⊢
    have h2 : Inv (if s.pnl.rev = true then s1.inc fPNL_CNT_REVERSALS else s1) := by
      split
      · exact inv_State_inc h1
      · exact h1
    generalize (if s.pnl.rev = true then s1.inc fPNL_CNT_REVERSALS else s1) = s2 at h2 ⊢
    have h3 : Inv (if (composing && s2.pnl.bad == 0) = true then s2 else putFrame s2.pnl.shadow s2) := by
      split
      · exact h2
      · exact inv_putFrame h2
    generalize (if (composing && s2.pnl.bad == 0) = true then s2 else putFrame s2.pnl.shadow s2) = s3 at h3 ⊢
    have h4 : Inv (putFrame (activeFrame s3 ^^^ flips) s3) := inv_putFrame h3
    generalize putFrame (activeFrame s3 ^^^ flips) s3 = s4 at h4 ⊢
    have h5 : Inv (if (s4.bit fPNL_STATUS_FAULT && !s4.pnl.retry) = true then s4
        else checkFrame { s4 with pnl := { s4.pnl with retry := false } }) := by
      split
      · exact h4
      · exact inv_checkFrame (inv_same h4 rfl rfl rfl rfl rfl rfl)
    split
    · exact inv_accumulateDc h5
    · exact h5

end Sys2Proof.Machine
end

