-- ==== Sys2Proof/Laws/KeepFrameBoundary.lean ====
section
/-!
SUPPORT. Every operation and command of Machine/FrameBoundary.lean keeps the invariant.
-/
namespace Sys2Proof.Machine

theorem inv_boundaryCommits {s : State}
    (h0 : Inv s) :
    Inv (boundaryCommits s) := by
  unfold boundaryCommits
  grind [inv_def, inv_applyMode, inv_commitBoundary, inv_forUp, inv_calCommit, inv_guidLockCheck, inv_attRelock,
    inv_applyLocks]

theorem inv_boundaryActions {s : State}
    (h0 : Inv s) :
    Inv (boundaryActions s) := by
  unfold boundaryActions
  grind [inv_def, inv_boundaryCommits, inv_frameStep, inv_applySet, inv_ringSet, inv_composePanel,
    inv_exposureStart, inv_shadowTransfer]

theorem inv_execFrameBoundary {s : State}
    (h0 : Inv s) :
    ∀ t, execFrameBoundary s = .next t → Inv t := by
  unfold execFrameBoundary
  grind [inv_def, inv_boundaryActions, CycleOk]

end Sys2Proof.Machine
end

