-- ==== Sys2Proof/Laws/KeepSupply.lean ====
section
/-!
SUPPORT. Every operation and command of Machine/Supply.lean keeps the invariant.
-/
namespace Sys2Proof.Machine

theorem inv_supTick {x0 : F32} {x1 : Bool} {s : State}
    (h0 : Inv s) :
    Inv (supTick x0 x1 s) := by
  unfold supTick
  grind [inv_def]

theorem inv_execAppClockCap {s : State}
    (h0 : Inv s) :
    ∀ t, execAppClockCap s = .next t → Inv t := by
  unfold execAppClockCap
  grind [inv_def, inv_State_evMax]

theorem inv_execAppClockRestore {s : State}
    (h0 : Inv s) :
    ∀ t, execAppClockRestore s = .next t → Inv t := by
  unfold execAppClockRestore
  grind [inv_def, inv_State_evMax]

theorem inv_execCaseOvertemp {s : State}
    (h0 : Inv s) :
    ∀ t, execCaseOvertemp s = .next t → Inv t := by
  unfold execCaseOvertemp
  grind [inv_def, inv_State_evMax]

theorem inv_restartStages {s : State}
    (h0 : Inv s) :
    Inv (restartStages s) := by
  unfold restartStages
  grind [inv_def, inv_forUp, inv_vlvStop, inv_State_setVlv, inv_State_setPsw, inv_pswStop]

theorem inv_execLoadSupplyLoss {s : State}
    (h0 : Inv s) :
    ∀ t, execLoadSupplyLoss s = .next t → Inv t := by
  unfold execLoadSupplyLoss
  grind [inv_def, inv_showBudget, inv_restartStages]

theorem inv_execLoadSupplyReturn {s : State}
    (h0 : Inv s) :
    ∀ t, execLoadSupplyReturn s = .next t → Inv t := by
  unfold execLoadSupplyReturn
  grind [inv_def, inv_restartStages]

theorem inv_execSupplyHigh {x0 : F32} {s : State}
    (h0 : Inv s) :
    ∀ t, execSupplyHigh x0 s = .next t → Inv t := by
  unfold execSupplyHigh
  grind [inv_def, inv_State_evMax]

theorem inv_execSupplyLoss {x0 : F32} {x1 : Bool} {s : State}
    (h0 : Inv s) :
    ∀ t, execSupplyLoss x0 x1 s = .next t → Inv t := by
  unfold execSupplyLoss
  grind [inv_def, inv_restLines, inv_State_ev, inv_State_evx, inv_evrDrain, EvrOk]

theorem inv_execSupplyLow {x0 : F32} {s : State}
    (h0 : Inv s) :
    ∀ t, execSupplyLow x0 s = .next t → Inv t := by
  unfold execSupplyLow
  grind [inv_def, inv_State_evx]

end Sys2Proof.Machine
end

