-- ==== Sys2Proof/Laws/KeepTickEdge.lean ====
section
/-!
SUPPORT. Every operation and command of Machine/TickEdge.lean keeps the invariant.
-/
namespace Sys2Proof.Machine

theorem inv_edgeInputs {x0 : TickIn} {s : State}
    (h0 : Inv s) :
    Inv (edgeInputs x0 s) := by
  unfold edgeInputs
  grind [inv_def, inv_forUp, inv_latchPair, inv_latchUin, inv_clearFirst, inv_latchAngle, inv_latchLoss,
    inv_State_putNews, inv_mailSwap, inv_takeWindows]

theorem inv_hingeReadback {x0 : TickIn} {s : State}
    (h0 : Inv s) :
    Inv (hingeReadback x0 s) := by
  unfold hingeReadback
  grind [inv_def, inv_hingeCheck]

theorem inv_edgeStages {x0 : TickIn} {s : State}
    (h0 : Inv s) :
    Inv (edgeStages x0 s) := by
  unfold edgeStages
  grind [inv_def, inv_pswReport, inv_vlvReport, inv_hingeReadback, inv_forUp, inv_applyJamb, inv_showBudget,
    inv_pswTick, inv_vlvTick]

theorem inv_guidTarget {x0 : Nat} {s : State}
    (h0 : Inv s) :
    Inv (guidTarget x0 s) := by
  unfold guidTarget
  grind [inv_def, inv_setTarget, inv_State_put]

theorem inv_edgeFill {x0 : TickIn} {s : State}
    (h0 : Inv s) :
    Inv (edgeFill x0 s) := by
  unfold edgeFill
  grind [inv_def, inv_forUp, inv_fillMail, inv_fillCan, inv_deriveGroup, inv_deriveCrop, inv_ditherTick, inv_forAll,
    inv_guidTarget, inv_rampFn]

theorem inv_keepSig {s : State} {x1 : Nat} {s1 : State}
    (h0 : Inv s) (h1 : Inv s1) :
    Inv (keepSig s x1 s1) := by
  unfold keepSig
  grind [inv_def, inv_forUp, inv_State_wr32]

theorem inv_resumeStage {x0 : Nat} {x1 : Nat} {s : State}
    (h0 : Inv s) :
    Inv (resumeStage x0 x1 s) := by
  unfold resumeStage
  grind [inv_def, inv_State_setLane, inv_forAll, inv_seedNext, inv_takeReadback]

theorem inv_sendDone {x0 : Nat} {x1 : List Nat} {s : State}
    (h0 : Inv s) :
    Inv (sendDone x0 x1 s) := by
  unfold sendDone
  grind [inv_def]

theorem inv_edgePanes {x0 : Option (Lane × Fin 96)} {x1 : Nat} {s : State}
    (h0 : Inv s) :
    Inv (edgePanes x0 x1 s) := by
  unfold edgePanes
  grind [inv_def, inv_forUp, inv_countWarm, inv_ageLoopSig, inv_sendDone, inv_runPanes, inv_State_ev,
    inv_State_putBit, inv_State_inc, inv_laneFault]

theorem inv_edgeSend {s : State}
    (h0 : Inv s) :
    Inv (edgeSend s) := by
  unfold edgeSend
  grind [inv_def]

theorem inv_edgeMessages {s : State}
    (h0 : Inv s) :
    Inv (edgeMessages s) := by
  unfold edgeMessages
  grind [inv_def, inv_sendMsg]

theorem inv_edgeAll {x0 : TickIn} {s : State}
    (h0 : Inv s) :
    Inv (edgeAll x0 s) := by
  unfold edgeAll
  grind [inv_def, inv_edgeInputs, inv_edgeStages, inv_edgeFill, inv_keepSig, inv_slewTick, inv_zeroTick,
    inv_swgBoundary, inv_forUp, inv_resumeStage, inv_fillWindow, inv_edgePanes, inv_handoverSecond,
    inv_haltDeferred, inv_announceSwap, inv_edgeSend, inv_showGu, inv_takeSnap, inv_showFn, inv_ntripTick,
    inv_hoqTick, inv_edgeMessages, inv_supTick, inv_updTick, inv_impactTick]

theorem inv_edgeTime {x0 : Bool} {s : State}
    (h0 : Inv s) :
    Inv (edgeTime x0 s) := by
  unfold edgeTime
  grind [inv_def, inv_State_putBit, inv_State_put, CycleOk]

theorem inv_execTickEdge {x0 : TickIn} {s : State}
    (h0 : Inv s) :
    ∀ t, execTickEdge x0 s = .next t → Inv t := by
  unfold execTickEdge
  grind [inv_def, inv_edgeTime, inv_ecnilReset, inv_edgeAll]

end Sys2Proof.Machine
end

