-- ==== Sys2Proof/Laws/State.lean ====
section
/-!
SUPPORT. One lemma per field per named operation: what a write to a register, a write to memory and a bus answer leave
alone. No later proof unfolds a record update.
-/
namespace Sys2Proof.Machine

variable (s : State)

@[simp] theorem State.wr_mem (a : Nat) (w : Word) : (s.wr a w).mem = s.mem := rfl
@[simp] theorem State.wr_straps (a : Nat) (w : Word) : (s.wr a w).straps = s.straps := rfl
@[simp] theorem State.wr_bus (a : Nat) (w : Word) : (s.wr a w).bus = s.bus := rfl
@[simp] theorem State.wr_free (a : Nat) (w : Word) : (s.wr a w).free = s.free := rfl
@[simp] theorem State.wr_clk (a : Nat) (w : Word) : (s.wr a w).clk = s.clk := rfl
@[simp] theorem State.wr_evr (a : Nat) (w : Word) : (s.wr a w).evr = s.evr := rfl
@[simp] theorem State.wr_pic (a : Nat) (w : Word) : (s.wr a w).pic = s.pic := rfl
@[simp] theorem State.wr_fn (a : Nat) (w : Word) : (s.wr a w).fn = s.fn := rfl
@[simp] theorem State.wr_loopA (a : Nat) (w : Word) : (s.wr a w).loopA = s.loopA := rfl
@[simp] theorem State.wr_loopB (a : Nat) (w : Word) : (s.wr a w).loopB = s.loopB := rfl
@[simp] theorem State.wr_mail (a : Nat) (w : Word) : (s.wr a w).mail = s.mail := rfl
@[simp] theorem State.wr_dies (a : Nat) (w : Word) : (s.wr a w).dies = s.dies := rfl
@[simp] theorem State.wr_clm (a : Nat) (w : Word) : (s.wr a w).clm = s.clm := rfl
@[simp] theorem State.wr_gns (a : Nat) (w : Word) : (s.wr a w).gns = s.gns := rfl
@[simp] theorem State.wr_isp (a : Nat) (w : Word) : (s.wr a w).isp = s.isp := rfl
@[simp] theorem State.wr_fus (a : Nat) (w : Word) : (s.wr a w).fus = s.fus := rfl
@[simp] theorem State.wr_ecn (a : Nat) (w : Word) : (s.wr a w).ecn = s.ecn := rfl
@[simp] theorem State.wr_can (a : Nat) (w : Word) : (s.wr a w).can = s.can := rfl
@[simp] theorem State.wr_map (a : Nat) (w : Word) : (s.wr a w).map = s.map := rfl
@[simp] theorem State.wr_att (a : Nat) (w : Word) : (s.wr a w).att = s.att := rfl
@[simp] theorem State.wr_eth (a : Nat) (w : Word) : (s.wr a w).eth = s.eth := rfl
@[simp] theorem State.wr_swg (a : Nat) (w : Word) : (s.wr a w).swg = s.swg := rfl
@[simp] theorem State.wr_cfg (a : Nat) (w : Word) : (s.wr a w).cfg = s.cfg := rfl
@[simp] theorem State.wr_pwr (a : Nat) (w : Word) : (s.wr a w).pwr = s.pwr := rfl
@[simp] theorem State.wr_rst (a : Nat) (w : Word) : (s.wr a w).rst = s.rst := rfl
@[simp] theorem State.wr_upd (a : Nat) (w : Word) : (s.wr a w).upd = s.upd := rfl
@[simp] theorem State.wr_sec (a : Nat) (w : Word) : (s.wr a w).sec = s.sec := rfl
@[simp] theorem State.wr_pnl (a : Nat) (w : Word) : (s.wr a w).pnl = s.pnl := rfl
@[simp] theorem State.wr_sup (a : Nat) (w : Word) : (s.wr a w).sup = s.sup := rfl
@[simp] theorem State.wr_pending (a : Nat) (w : Word) : (s.wr a w).pending = s.pending := rfl

@[simp] theorem State.put_mem (f : Fld) (v : Nat) : (s.put f v).mem = s.mem := rfl
@[simp] theorem State.put_straps (f : Fld) (v : Nat) : (s.put f v).straps = s.straps := rfl
@[simp] theorem State.put_bus (f : Fld) (v : Nat) : (s.put f v).bus = s.bus := rfl
@[simp] theorem State.put_free (f : Fld) (v : Nat) : (s.put f v).free = s.free := rfl
@[simp] theorem State.put_clk (f : Fld) (v : Nat) : (s.put f v).clk = s.clk := rfl
@[simp] theorem State.put_evr (f : Fld) (v : Nat) : (s.put f v).evr = s.evr := rfl
@[simp] theorem State.put_pic (f : Fld) (v : Nat) : (s.put f v).pic = s.pic := rfl
@[simp] theorem State.put_fn (f : Fld) (v : Nat) : (s.put f v).fn = s.fn := rfl
@[simp] theorem State.put_loopA (f : Fld) (v : Nat) : (s.put f v).loopA = s.loopA := rfl
@[simp] theorem State.put_loopB (f : Fld) (v : Nat) : (s.put f v).loopB = s.loopB := rfl
@[simp] theorem State.put_mail (f : Fld) (v : Nat) : (s.put f v).mail = s.mail := rfl
@[simp] theorem State.put_dies (f : Fld) (v : Nat) : (s.put f v).dies = s.dies := rfl
@[simp] theorem State.put_clm (f : Fld) (v : Nat) : (s.put f v).clm = s.clm := rfl
@[simp] theorem State.put_gns (f : Fld) (v : Nat) : (s.put f v).gns = s.gns := rfl
@[simp] theorem State.put_isp (f : Fld) (v : Nat) : (s.put f v).isp = s.isp := rfl
@[simp] theorem State.put_fus (f : Fld) (v : Nat) : (s.put f v).fus = s.fus := rfl
@[simp] theorem State.put_ecn (f : Fld) (v : Nat) : (s.put f v).ecn = s.ecn := rfl
@[simp] theorem State.put_can (f : Fld) (v : Nat) : (s.put f v).can = s.can := rfl
@[simp] theorem State.put_map (f : Fld) (v : Nat) : (s.put f v).map = s.map := rfl
@[simp] theorem State.put_att (f : Fld) (v : Nat) : (s.put f v).att = s.att := rfl
@[simp] theorem State.put_eth (f : Fld) (v : Nat) : (s.put f v).eth = s.eth := rfl
@[simp] theorem State.put_swg (f : Fld) (v : Nat) : (s.put f v).swg = s.swg := rfl
@[simp] theorem State.put_cfg (f : Fld) (v : Nat) : (s.put f v).cfg = s.cfg := rfl
@[simp] theorem State.put_pwr (f : Fld) (v : Nat) : (s.put f v).pwr = s.pwr := rfl
@[simp] theorem State.put_rst (f : Fld) (v : Nat) : (s.put f v).rst = s.rst := rfl
@[simp] theorem State.put_upd (f : Fld) (v : Nat) : (s.put f v).upd = s.upd := rfl
@[simp] theorem State.put_sec (f : Fld) (v : Nat) : (s.put f v).sec = s.sec := rfl
@[simp] theorem State.put_pnl (f : Fld) (v : Nat) : (s.put f v).pnl = s.pnl := rfl
@[simp] theorem State.put_sup (f : Fld) (v : Nat) : (s.put f v).sup = s.sup := rfl
@[simp] theorem State.put_pending (f : Fld) (v : Nat) : (s.put f v).pending = s.pending := rfl

@[simp] theorem State.putBit_mem (f : Fld) (b : Bool) : (s.putBit f b).mem = s.mem := rfl
@[simp] theorem State.putBit_straps (f : Fld) (b : Bool) : (s.putBit f b).straps = s.straps := rfl
@[simp] theorem State.putBit_bus (f : Fld) (b : Bool) : (s.putBit f b).bus = s.bus := rfl
@[simp] theorem State.putBit_free (f : Fld) (b : Bool) : (s.putBit f b).free = s.free := rfl
@[simp] theorem State.putBit_clk (f : Fld) (b : Bool) : (s.putBit f b).clk = s.clk := rfl
@[simp] theorem State.putBit_evr (f : Fld) (b : Bool) : (s.putBit f b).evr = s.evr := rfl
@[simp] theorem State.putBit_pic (f : Fld) (b : Bool) : (s.putBit f b).pic = s.pic := rfl
@[simp] theorem State.putBit_fn (f : Fld) (b : Bool) : (s.putBit f b).fn = s.fn := rfl
@[simp] theorem State.putBit_loopA (f : Fld) (b : Bool) : (s.putBit f b).loopA = s.loopA := rfl
@[simp] theorem State.putBit_loopB (f : Fld) (b : Bool) : (s.putBit f b).loopB = s.loopB := rfl
@[simp] theorem State.putBit_mail (f : Fld) (b : Bool) : (s.putBit f b).mail = s.mail := rfl
@[simp] theorem State.putBit_dies (f : Fld) (b : Bool) : (s.putBit f b).dies = s.dies := rfl
@[simp] theorem State.putBit_clm (f : Fld) (b : Bool) : (s.putBit f b).clm = s.clm := rfl
@[simp] theorem State.putBit_gns (f : Fld) (b : Bool) : (s.putBit f b).gns = s.gns := rfl
@[simp] theorem State.putBit_isp (f : Fld) (b : Bool) : (s.putBit f b).isp = s.isp := rfl
@[simp] theorem State.putBit_fus (f : Fld) (b : Bool) : (s.putBit f b).fus = s.fus := rfl
@[simp] theorem State.putBit_ecn (f : Fld) (b : Bool) : (s.putBit f b).ecn = s.ecn := rfl
@[simp] theorem State.putBit_can (f : Fld) (b : Bool) : (s.putBit f b).can = s.can := rfl
@[simp] theorem State.putBit_map (f : Fld) (b : Bool) : (s.putBit f b).map = s.map := rfl
@[simp] theorem State.putBit_att (f : Fld) (b : Bool) : (s.putBit f b).att = s.att := rfl
@[simp] theorem State.putBit_eth (f : Fld) (b : Bool) : (s.putBit f b).eth = s.eth := rfl
@[simp] theorem State.putBit_swg (f : Fld) (b : Bool) : (s.putBit f b).swg = s.swg := rfl
@[simp] theorem State.putBit_cfg (f : Fld) (b : Bool) : (s.putBit f b).cfg = s.cfg := rfl
@[simp] theorem State.putBit_pwr (f : Fld) (b : Bool) : (s.putBit f b).pwr = s.pwr := rfl
@[simp] theorem State.putBit_rst (f : Fld) (b : Bool) : (s.putBit f b).rst = s.rst := rfl
@[simp] theorem State.putBit_upd (f : Fld) (b : Bool) : (s.putBit f b).upd = s.upd := rfl
@[simp] theorem State.putBit_sec (f : Fld) (b : Bool) : (s.putBit f b).sec = s.sec := rfl
@[simp] theorem State.putBit_pnl (f : Fld) (b : Bool) : (s.putBit f b).pnl = s.pnl := rfl
@[simp] theorem State.putBit_sup (f : Fld) (b : Bool) : (s.putBit f b).sup = s.sup := rfl
@[simp] theorem State.putBit_pending (f : Fld) (b : Bool) : (s.putBit f b).pending = s.pending := rfl

@[simp] theorem State.add_mem (f : Fld) (n : Nat) : (s.add f n).mem = s.mem := rfl
@[simp] theorem State.add_straps (f : Fld) (n : Nat) : (s.add f n).straps = s.straps := rfl
@[simp] theorem State.add_bus (f : Fld) (n : Nat) : (s.add f n).bus = s.bus := rfl
@[simp] theorem State.add_free (f : Fld) (n : Nat) : (s.add f n).free = s.free := rfl
@[simp] theorem State.add_clk (f : Fld) (n : Nat) : (s.add f n).clk = s.clk := rfl
@[simp] theorem State.add_evr (f : Fld) (n : Nat) : (s.add f n).evr = s.evr := rfl
@[simp] theorem State.add_pic (f : Fld) (n : Nat) : (s.add f n).pic = s.pic := rfl
@[simp] theorem State.add_fn (f : Fld) (n : Nat) : (s.add f n).fn = s.fn := rfl
@[simp] theorem State.add_loopA (f : Fld) (n : Nat) : (s.add f n).loopA = s.loopA := rfl
@[simp] theorem State.add_loopB (f : Fld) (n : Nat) : (s.add f n).loopB = s.loopB := rfl
@[simp] theorem State.add_mail (f : Fld) (n : Nat) : (s.add f n).mail = s.mail := rfl
@[simp] theorem State.add_dies (f : Fld) (n : Nat) : (s.add f n).dies = s.dies := rfl
@[simp] theorem State.add_clm (f : Fld) (n : Nat) : (s.add f n).clm = s.clm := rfl
@[simp] theorem State.add_gns (f : Fld) (n : Nat) : (s.add f n).gns = s.gns := rfl
@[simp] theorem State.add_isp (f : Fld) (n : Nat) : (s.add f n).isp = s.isp := rfl
@[simp] theorem State.add_fus (f : Fld) (n : Nat) : (s.add f n).fus = s.fus := rfl
@[simp] theorem State.add_ecn (f : Fld) (n : Nat) : (s.add f n).ecn = s.ecn := rfl
@[simp] theorem State.add_can (f : Fld) (n : Nat) : (s.add f n).can = s.can := rfl
@[simp] theorem State.add_map (f : Fld) (n : Nat) : (s.add f n).map = s.map := rfl
@[simp] theorem State.add_att (f : Fld) (n : Nat) : (s.add f n).att = s.att := rfl
@[simp] theorem State.add_eth (f : Fld) (n : Nat) : (s.add f n).eth = s.eth := rfl
@[simp] theorem State.add_swg (f : Fld) (n : Nat) : (s.add f n).swg = s.swg := rfl
@[simp] theorem State.add_cfg (f : Fld) (n : Nat) : (s.add f n).cfg = s.cfg := rfl
@[simp] theorem State.add_pwr (f : Fld) (n : Nat) : (s.add f n).pwr = s.pwr := rfl
@[simp] theorem State.add_rst (f : Fld) (n : Nat) : (s.add f n).rst = s.rst := rfl
@[simp] theorem State.add_upd (f : Fld) (n : Nat) : (s.add f n).upd = s.upd := rfl
@[simp] theorem State.add_sec (f : Fld) (n : Nat) : (s.add f n).sec = s.sec := rfl
@[simp] theorem State.add_pnl (f : Fld) (n : Nat) : (s.add f n).pnl = s.pnl := rfl
@[simp] theorem State.add_sup (f : Fld) (n : Nat) : (s.add f n).sup = s.sup := rfl
@[simp] theorem State.add_pending (f : Fld) (n : Nat) : (s.add f n).pending = s.pending := rfl

@[simp] theorem State.inc_mem (f : Fld) : (s.inc f).mem = s.mem := rfl
@[simp] theorem State.inc_straps (f : Fld) : (s.inc f).straps = s.straps := rfl
@[simp] theorem State.inc_bus (f : Fld) : (s.inc f).bus = s.bus := rfl
@[simp] theorem State.inc_free (f : Fld) : (s.inc f).free = s.free := rfl
@[simp] theorem State.inc_clk (f : Fld) : (s.inc f).clk = s.clk := rfl
@[simp] theorem State.inc_evr (f : Fld) : (s.inc f).evr = s.evr := rfl
@[simp] theorem State.inc_pic (f : Fld) : (s.inc f).pic = s.pic := rfl
@[simp] theorem State.inc_fn (f : Fld) : (s.inc f).fn = s.fn := rfl
@[simp] theorem State.inc_loopA (f : Fld) : (s.inc f).loopA = s.loopA := rfl
@[simp] theorem State.inc_loopB (f : Fld) : (s.inc f).loopB = s.loopB := rfl
@[simp] theorem State.inc_mail (f : Fld) : (s.inc f).mail = s.mail := rfl
@[simp] theorem State.inc_dies (f : Fld) : (s.inc f).dies = s.dies := rfl
@[simp] theorem State.inc_clm (f : Fld) : (s.inc f).clm = s.clm := rfl
@[simp] theorem State.inc_gns (f : Fld) : (s.inc f).gns = s.gns := rfl
@[simp] theorem State.inc_isp (f : Fld) : (s.inc f).isp = s.isp := rfl
@[simp] theorem State.inc_fus (f : Fld) : (s.inc f).fus = s.fus := rfl
@[simp] theorem State.inc_ecn (f : Fld) : (s.inc f).ecn = s.ecn := rfl
@[simp] theorem State.inc_can (f : Fld) : (s.inc f).can = s.can := rfl
@[simp] theorem State.inc_map (f : Fld) : (s.inc f).map = s.map := rfl
@[simp] theorem State.inc_att (f : Fld) : (s.inc f).att = s.att := rfl
@[simp] theorem State.inc_eth (f : Fld) : (s.inc f).eth = s.eth := rfl
@[simp] theorem State.inc_swg (f : Fld) : (s.inc f).swg = s.swg := rfl
@[simp] theorem State.inc_cfg (f : Fld) : (s.inc f).cfg = s.cfg := rfl
@[simp] theorem State.inc_pwr (f : Fld) : (s.inc f).pwr = s.pwr := rfl
@[simp] theorem State.inc_rst (f : Fld) : (s.inc f).rst = s.rst := rfl
@[simp] theorem State.inc_upd (f : Fld) : (s.inc f).upd = s.upd := rfl
@[simp] theorem State.inc_sec (f : Fld) : (s.inc f).sec = s.sec := rfl
@[simp] theorem State.inc_pnl (f : Fld) : (s.inc f).pnl = s.pnl := rfl
@[simp] theorem State.inc_sup (f : Fld) : (s.inc f).sup = s.sup := rfl
@[simp] theorem State.inc_pending (f : Fld) : (s.inc f).pending = s.pending := rfl

@[simp] theorem State.setBitAt_mem (f : Fld) (n : Nat) (b : Bool) : (s.setBitAt f n b).mem = s.mem := rfl
@[simp] theorem State.setBitAt_straps (f : Fld) (n : Nat) (b : Bool) : (s.setBitAt f n b).straps = s.straps := rfl
@[simp] theorem State.setBitAt_bus (f : Fld) (n : Nat) (b : Bool) : (s.setBitAt f n b).bus = s.bus := rfl
@[simp] theorem State.setBitAt_free (f : Fld) (n : Nat) (b : Bool) : (s.setBitAt f n b).free = s.free := rfl
@[simp] theorem State.setBitAt_clk (f : Fld) (n : Nat) (b : Bool) : (s.setBitAt f n b).clk = s.clk := rfl
@[simp] theorem State.setBitAt_evr (f : Fld) (n : Nat) (b : Bool) : (s.setBitAt f n b).evr = s.evr := rfl
@[simp] theorem State.setBitAt_pic (f : Fld) (n : Nat) (b : Bool) : (s.setBitAt f n b).pic = s.pic := rfl
@[simp] theorem State.setBitAt_fn (f : Fld) (n : Nat) (b : Bool) : (s.setBitAt f n b).fn = s.fn := rfl
@[simp] theorem State.setBitAt_loopA (f : Fld) (n : Nat) (b : Bool) : (s.setBitAt f n b).loopA = s.loopA := rfl
@[simp] theorem State.setBitAt_loopB (f : Fld) (n : Nat) (b : Bool) : (s.setBitAt f n b).loopB = s.loopB := rfl
@[simp] theorem State.setBitAt_mail (f : Fld) (n : Nat) (b : Bool) : (s.setBitAt f n b).mail = s.mail := rfl
@[simp] theorem State.setBitAt_dies (f : Fld) (n : Nat) (b : Bool) : (s.setBitAt f n b).dies = s.dies := rfl
@[simp] theorem State.setBitAt_clm (f : Fld) (n : Nat) (b : Bool) : (s.setBitAt f n b).clm = s.clm := rfl
@[simp] theorem State.setBitAt_gns (f : Fld) (n : Nat) (b : Bool) : (s.setBitAt f n b).gns = s.gns := rfl
@[simp] theorem State.setBitAt_isp (f : Fld) (n : Nat) (b : Bool) : (s.setBitAt f n b).isp = s.isp := rfl
@[simp] theorem State.setBitAt_fus (f : Fld) (n : Nat) (b : Bool) : (s.setBitAt f n b).fus = s.fus := rfl
@[simp] theorem State.setBitAt_ecn (f : Fld) (n : Nat) (b : Bool) : (s.setBitAt f n b).ecn = s.ecn := rfl
@[simp] theorem State.setBitAt_can (f : Fld) (n : Nat) (b : Bool) : (s.setBitAt f n b).can = s.can := rfl
@[simp] theorem State.setBitAt_map (f : Fld) (n : Nat) (b : Bool) : (s.setBitAt f n b).map = s.map := rfl
@[simp] theorem State.setBitAt_att (f : Fld) (n : Nat) (b : Bool) : (s.setBitAt f n b).att = s.att := rfl
@[simp] theorem State.setBitAt_eth (f : Fld) (n : Nat) (b : Bool) : (s.setBitAt f n b).eth = s.eth := rfl
@[simp] theorem State.setBitAt_swg (f : Fld) (n : Nat) (b : Bool) : (s.setBitAt f n b).swg = s.swg := rfl
@[simp] theorem State.setBitAt_cfg (f : Fld) (n : Nat) (b : Bool) : (s.setBitAt f n b).cfg = s.cfg := rfl
@[simp] theorem State.setBitAt_pwr (f : Fld) (n : Nat) (b : Bool) : (s.setBitAt f n b).pwr = s.pwr := rfl
@[simp] theorem State.setBitAt_rst (f : Fld) (n : Nat) (b : Bool) : (s.setBitAt f n b).rst = s.rst := rfl
@[simp] theorem State.setBitAt_upd (f : Fld) (n : Nat) (b : Bool) : (s.setBitAt f n b).upd = s.upd := rfl
@[simp] theorem State.setBitAt_sec (f : Fld) (n : Nat) (b : Bool) : (s.setBitAt f n b).sec = s.sec := rfl
@[simp] theorem State.setBitAt_pnl (f : Fld) (n : Nat) (b : Bool) : (s.setBitAt f n b).pnl = s.pnl := rfl
@[simp] theorem State.setBitAt_sup (f : Fld) (n : Nat) (b : Bool) : (s.setBitAt f n b).sup = s.sup := rfl
@[simp] theorem State.setBitAt_pending (f : Fld) (n : Nat) (b : Bool) : (s.setBitAt f n b).pending = s.pending := rfl

@[simp] theorem State.put64_mem (a v : Nat) : (s.put64 a v).mem = s.mem := rfl
@[simp] theorem State.put64_straps (a v : Nat) : (s.put64 a v).straps = s.straps := rfl
@[simp] theorem State.put64_bus (a v : Nat) : (s.put64 a v).bus = s.bus := rfl
@[simp] theorem State.put64_free (a v : Nat) : (s.put64 a v).free = s.free := rfl
@[simp] theorem State.put64_clk (a v : Nat) : (s.put64 a v).clk = s.clk := rfl
@[simp] theorem State.put64_evr (a v : Nat) : (s.put64 a v).evr = s.evr := rfl
@[simp] theorem State.put64_pic (a v : Nat) : (s.put64 a v).pic = s.pic := rfl
@[simp] theorem State.put64_fn (a v : Nat) : (s.put64 a v).fn = s.fn := rfl
@[simp] theorem State.put64_loopA (a v : Nat) : (s.put64 a v).loopA = s.loopA := rfl
@[simp] theorem State.put64_loopB (a v : Nat) : (s.put64 a v).loopB = s.loopB := rfl
@[simp] theorem State.put64_mail (a v : Nat) : (s.put64 a v).mail = s.mail := rfl
@[simp] theorem State.put64_dies (a v : Nat) : (s.put64 a v).dies = s.dies := rfl
@[simp] theorem State.put64_clm (a v : Nat) : (s.put64 a v).clm = s.clm := rfl
@[simp] theorem State.put64_gns (a v : Nat) : (s.put64 a v).gns = s.gns := rfl
@[simp] theorem State.put64_isp (a v : Nat) : (s.put64 a v).isp = s.isp := rfl
@[simp] theorem State.put64_fus (a v : Nat) : (s.put64 a v).fus = s.fus := rfl
@[simp] theorem State.put64_ecn (a v : Nat) : (s.put64 a v).ecn = s.ecn := rfl
@[simp] theorem State.put64_can (a v : Nat) : (s.put64 a v).can = s.can := rfl
@[simp] theorem State.put64_map (a v : Nat) : (s.put64 a v).map = s.map := rfl
@[simp] theorem State.put64_att (a v : Nat) : (s.put64 a v).att = s.att := rfl
@[simp] theorem State.put64_eth (a v : Nat) : (s.put64 a v).eth = s.eth := rfl
@[simp] theorem State.put64_swg (a v : Nat) : (s.put64 a v).swg = s.swg := rfl
@[simp] theorem State.put64_cfg (a v : Nat) : (s.put64 a v).cfg = s.cfg := rfl
@[simp] theorem State.put64_pwr (a v : Nat) : (s.put64 a v).pwr = s.pwr := rfl
@[simp] theorem State.put64_rst (a v : Nat) : (s.put64 a v).rst = s.rst := rfl
@[simp] theorem State.put64_upd (a v : Nat) : (s.put64 a v).upd = s.upd := rfl
@[simp] theorem State.put64_sec (a v : Nat) : (s.put64 a v).sec = s.sec := rfl
@[simp] theorem State.put64_pnl (a v : Nat) : (s.put64 a v).pnl = s.pnl := rfl
@[simp] theorem State.put64_sup (a v : Nat) : (s.put64 a v).sup = s.sup := rfl
@[simp] theorem State.put64_pending (a v : Nat) : (s.put64 a v).pending = s.pending := rfl

@[simp] theorem State.putF_mem (f : Fld) (v : F32) : (s.putF f v).mem = s.mem := rfl
@[simp] theorem State.putF_straps (f : Fld) (v : F32) : (s.putF f v).straps = s.straps := rfl
@[simp] theorem State.putF_bus (f : Fld) (v : F32) : (s.putF f v).bus = s.bus := rfl
@[simp] theorem State.putF_free (f : Fld) (v : F32) : (s.putF f v).free = s.free := rfl
@[simp] theorem State.putF_clk (f : Fld) (v : F32) : (s.putF f v).clk = s.clk := rfl
@[simp] theorem State.putF_evr (f : Fld) (v : F32) : (s.putF f v).evr = s.evr := rfl
@[simp] theorem State.putF_pic (f : Fld) (v : F32) : (s.putF f v).pic = s.pic := rfl
@[simp] theorem State.putF_fn (f : Fld) (v : F32) : (s.putF f v).fn = s.fn := rfl
@[simp] theorem State.putF_loopA (f : Fld) (v : F32) : (s.putF f v).loopA = s.loopA := rfl
@[simp] theorem State.putF_loopB (f : Fld) (v : F32) : (s.putF f v).loopB = s.loopB := rfl
@[simp] theorem State.putF_mail (f : Fld) (v : F32) : (s.putF f v).mail = s.mail := rfl
@[simp] theorem State.putF_dies (f : Fld) (v : F32) : (s.putF f v).dies = s.dies := rfl
@[simp] theorem State.putF_clm (f : Fld) (v : F32) : (s.putF f v).clm = s.clm := rfl
@[simp] theorem State.putF_gns (f : Fld) (v : F32) : (s.putF f v).gns = s.gns := rfl
@[simp] theorem State.putF_isp (f : Fld) (v : F32) : (s.putF f v).isp = s.isp := rfl
@[simp] theorem State.putF_fus (f : Fld) (v : F32) : (s.putF f v).fus = s.fus := rfl
@[simp] theorem State.putF_ecn (f : Fld) (v : F32) : (s.putF f v).ecn = s.ecn := rfl
@[simp] theorem State.putF_can (f : Fld) (v : F32) : (s.putF f v).can = s.can := rfl
@[simp] theorem State.putF_map (f : Fld) (v : F32) : (s.putF f v).map = s.map := rfl
@[simp] theorem State.putF_att (f : Fld) (v : F32) : (s.putF f v).att = s.att := rfl
@[simp] theorem State.putF_eth (f : Fld) (v : F32) : (s.putF f v).eth = s.eth := rfl
@[simp] theorem State.putF_swg (f : Fld) (v : F32) : (s.putF f v).swg = s.swg := rfl
@[simp] theorem State.putF_cfg (f : Fld) (v : F32) : (s.putF f v).cfg = s.cfg := rfl
@[simp] theorem State.putF_pwr (f : Fld) (v : F32) : (s.putF f v).pwr = s.pwr := rfl
@[simp] theorem State.putF_rst (f : Fld) (v : F32) : (s.putF f v).rst = s.rst := rfl
@[simp] theorem State.putF_upd (f : Fld) (v : F32) : (s.putF f v).upd = s.upd := rfl
@[simp] theorem State.putF_sec (f : Fld) (v : F32) : (s.putF f v).sec = s.sec := rfl
@[simp] theorem State.putF_pnl (f : Fld) (v : F32) : (s.putF f v).pnl = s.pnl := rfl
@[simp] theorem State.putF_sup (f : Fld) (v : F32) : (s.putF f v).sup = s.sup := rfl
@[simp] theorem State.putF_pending (f : Fld) (v : F32) : (s.putF f v).pending = s.pending := rfl

@[simp] theorem State.wr8_regs (a : Nat) (b : Byte) : (s.wr8 a b).regs = s.regs := rfl
@[simp] theorem State.wr8_straps (a : Nat) (b : Byte) : (s.wr8 a b).straps = s.straps := rfl
@[simp] theorem State.wr8_bus (a : Nat) (b : Byte) : (s.wr8 a b).bus = s.bus := rfl
@[simp] theorem State.wr8_free (a : Nat) (b : Byte) : (s.wr8 a b).free = s.free := rfl
@[simp] theorem State.wr8_clk (a : Nat) (b : Byte) : (s.wr8 a b).clk = s.clk := rfl
@[simp] theorem State.wr8_evr (a : Nat) (b : Byte) : (s.wr8 a b).evr = s.evr := rfl
@[simp] theorem State.wr8_pic (a : Nat) (b : Byte) : (s.wr8 a b).pic = s.pic := rfl
@[simp] theorem State.wr8_fn (a : Nat) (b : Byte) : (s.wr8 a b).fn = s.fn := rfl
@[simp] theorem State.wr8_loopA (a : Nat) (b : Byte) : (s.wr8 a b).loopA = s.loopA := rfl
@[simp] theorem State.wr8_loopB (a : Nat) (b : Byte) : (s.wr8 a b).loopB = s.loopB := rfl
@[simp] theorem State.wr8_mail (a : Nat) (b : Byte) : (s.wr8 a b).mail = s.mail := rfl
@[simp] theorem State.wr8_dies (a : Nat) (b : Byte) : (s.wr8 a b).dies = s.dies := rfl
@[simp] theorem State.wr8_clm (a : Nat) (b : Byte) : (s.wr8 a b).clm = s.clm := rfl
@[simp] theorem State.wr8_gns (a : Nat) (b : Byte) : (s.wr8 a b).gns = s.gns := rfl
@[simp] theorem State.wr8_isp (a : Nat) (b : Byte) : (s.wr8 a b).isp = s.isp := rfl
@[simp] theorem State.wr8_fus (a : Nat) (b : Byte) : (s.wr8 a b).fus = s.fus := rfl
@[simp] theorem State.wr8_ecn (a : Nat) (b : Byte) : (s.wr8 a b).ecn = s.ecn := rfl
@[simp] theorem State.wr8_can (a : Nat) (b : Byte) : (s.wr8 a b).can = s.can := rfl
@[simp] theorem State.wr8_map (a : Nat) (b : Byte) : (s.wr8 a b).map = s.map := rfl
@[simp] theorem State.wr8_att (a : Nat) (b : Byte) : (s.wr8 a b).att = s.att := rfl
@[simp] theorem State.wr8_eth (a : Nat) (b : Byte) : (s.wr8 a b).eth = s.eth := rfl
@[simp] theorem State.wr8_swg (a : Nat) (b : Byte) : (s.wr8 a b).swg = s.swg := rfl
@[simp] theorem State.wr8_cfg (a : Nat) (b : Byte) : (s.wr8 a b).cfg = s.cfg := rfl
@[simp] theorem State.wr8_pwr (a : Nat) (b : Byte) : (s.wr8 a b).pwr = s.pwr := rfl
@[simp] theorem State.wr8_rst (a : Nat) (b : Byte) : (s.wr8 a b).rst = s.rst := rfl
@[simp] theorem State.wr8_upd (a : Nat) (b : Byte) : (s.wr8 a b).upd = s.upd := rfl
@[simp] theorem State.wr8_sec (a : Nat) (b : Byte) : (s.wr8 a b).sec = s.sec := rfl
@[simp] theorem State.wr8_pnl (a : Nat) (b : Byte) : (s.wr8 a b).pnl = s.pnl := rfl
@[simp] theorem State.wr8_sup (a : Nat) (b : Byte) : (s.wr8 a b).sup = s.sup := rfl
@[simp] theorem State.wr8_pending (a : Nat) (b : Byte) : (s.wr8 a b).pending = s.pending := rfl

@[simp] theorem State.wr32_regs (a : Nat) (w : Word) : (s.wr32 a w).regs = s.regs := rfl
@[simp] theorem State.wr32_straps (a : Nat) (w : Word) : (s.wr32 a w).straps = s.straps := rfl
@[simp] theorem State.wr32_bus (a : Nat) (w : Word) : (s.wr32 a w).bus = s.bus := rfl
@[simp] theorem State.wr32_free (a : Nat) (w : Word) : (s.wr32 a w).free = s.free := rfl
@[simp] theorem State.wr32_clk (a : Nat) (w : Word) : (s.wr32 a w).clk = s.clk := rfl
@[simp] theorem State.wr32_evr (a : Nat) (w : Word) : (s.wr32 a w).evr = s.evr := rfl
@[simp] theorem State.wr32_pic (a : Nat) (w : Word) : (s.wr32 a w).pic = s.pic := rfl
@[simp] theorem State.wr32_fn (a : Nat) (w : Word) : (s.wr32 a w).fn = s.fn := rfl
@[simp] theorem State.wr32_loopA (a : Nat) (w : Word) : (s.wr32 a w).loopA = s.loopA := rfl
@[simp] theorem State.wr32_loopB (a : Nat) (w : Word) : (s.wr32 a w).loopB = s.loopB := rfl
@[simp] theorem State.wr32_mail (a : Nat) (w : Word) : (s.wr32 a w).mail = s.mail := rfl
@[simp] theorem State.wr32_dies (a : Nat) (w : Word) : (s.wr32 a w).dies = s.dies := rfl
@[simp] theorem State.wr32_clm (a : Nat) (w : Word) : (s.wr32 a w).clm = s.clm := rfl
@[simp] theorem State.wr32_gns (a : Nat) (w : Word) : (s.wr32 a w).gns = s.gns := rfl
@[simp] theorem State.wr32_isp (a : Nat) (w : Word) : (s.wr32 a w).isp = s.isp := rfl
@[simp] theorem State.wr32_fus (a : Nat) (w : Word) : (s.wr32 a w).fus = s.fus := rfl
@[simp] theorem State.wr32_ecn (a : Nat) (w : Word) : (s.wr32 a w).ecn = s.ecn := rfl
@[simp] theorem State.wr32_can (a : Nat) (w : Word) : (s.wr32 a w).can = s.can := rfl
@[simp] theorem State.wr32_map (a : Nat) (w : Word) : (s.wr32 a w).map = s.map := rfl
@[simp] theorem State.wr32_att (a : Nat) (w : Word) : (s.wr32 a w).att = s.att := rfl
@[simp] theorem State.wr32_eth (a : Nat) (w : Word) : (s.wr32 a w).eth = s.eth := rfl
@[simp] theorem State.wr32_swg (a : Nat) (w : Word) : (s.wr32 a w).swg = s.swg := rfl
@[simp] theorem State.wr32_cfg (a : Nat) (w : Word) : (s.wr32 a w).cfg = s.cfg := rfl
@[simp] theorem State.wr32_pwr (a : Nat) (w : Word) : (s.wr32 a w).pwr = s.pwr := rfl
@[simp] theorem State.wr32_rst (a : Nat) (w : Word) : (s.wr32 a w).rst = s.rst := rfl
@[simp] theorem State.wr32_upd (a : Nat) (w : Word) : (s.wr32 a w).upd = s.upd := rfl
@[simp] theorem State.wr32_sec (a : Nat) (w : Word) : (s.wr32 a w).sec = s.sec := rfl
@[simp] theorem State.wr32_pnl (a : Nat) (w : Word) : (s.wr32 a w).pnl = s.pnl := rfl
@[simp] theorem State.wr32_sup (a : Nat) (w : Word) : (s.wr32 a w).sup = s.sup := rfl
@[simp] theorem State.wr32_pending (a : Nat) (w : Word) : (s.wr32 a w).pending = s.pending := rfl

@[simp] theorem State.mput_regs (f : Fld) (v : Nat) : (s.mput f v).regs = s.regs := rfl
@[simp] theorem State.mput_straps (f : Fld) (v : Nat) : (s.mput f v).straps = s.straps := rfl
@[simp] theorem State.mput_bus (f : Fld) (v : Nat) : (s.mput f v).bus = s.bus := rfl
@[simp] theorem State.mput_free (f : Fld) (v : Nat) : (s.mput f v).free = s.free := rfl
@[simp] theorem State.mput_clk (f : Fld) (v : Nat) : (s.mput f v).clk = s.clk := rfl
@[simp] theorem State.mput_evr (f : Fld) (v : Nat) : (s.mput f v).evr = s.evr := rfl
@[simp] theorem State.mput_pic (f : Fld) (v : Nat) : (s.mput f v).pic = s.pic := rfl
@[simp] theorem State.mput_fn (f : Fld) (v : Nat) : (s.mput f v).fn = s.fn := rfl
@[simp] theorem State.mput_loopA (f : Fld) (v : Nat) : (s.mput f v).loopA = s.loopA := rfl
@[simp] theorem State.mput_loopB (f : Fld) (v : Nat) : (s.mput f v).loopB = s.loopB := rfl
@[simp] theorem State.mput_mail (f : Fld) (v : Nat) : (s.mput f v).mail = s.mail := rfl
@[simp] theorem State.mput_dies (f : Fld) (v : Nat) : (s.mput f v).dies = s.dies := rfl
@[simp] theorem State.mput_clm (f : Fld) (v : Nat) : (s.mput f v).clm = s.clm := rfl
@[simp] theorem State.mput_gns (f : Fld) (v : Nat) : (s.mput f v).gns = s.gns := rfl
@[simp] theorem State.mput_isp (f : Fld) (v : Nat) : (s.mput f v).isp = s.isp := rfl
@[simp] theorem State.mput_fus (f : Fld) (v : Nat) : (s.mput f v).fus = s.fus := rfl
@[simp] theorem State.mput_ecn (f : Fld) (v : Nat) : (s.mput f v).ecn = s.ecn := rfl
@[simp] theorem State.mput_can (f : Fld) (v : Nat) : (s.mput f v).can = s.can := rfl
@[simp] theorem State.mput_map (f : Fld) (v : Nat) : (s.mput f v).map = s.map := rfl
@[simp] theorem State.mput_att (f : Fld) (v : Nat) : (s.mput f v).att = s.att := rfl
@[simp] theorem State.mput_eth (f : Fld) (v : Nat) : (s.mput f v).eth = s.eth := rfl
@[simp] theorem State.mput_swg (f : Fld) (v : Nat) : (s.mput f v).swg = s.swg := rfl
@[simp] theorem State.mput_cfg (f : Fld) (v : Nat) : (s.mput f v).cfg = s.cfg := rfl
@[simp] theorem State.mput_pwr (f : Fld) (v : Nat) : (s.mput f v).pwr = s.pwr := rfl
@[simp] theorem State.mput_rst (f : Fld) (v : Nat) : (s.mput f v).rst = s.rst := rfl
@[simp] theorem State.mput_upd (f : Fld) (v : Nat) : (s.mput f v).upd = s.upd := rfl
@[simp] theorem State.mput_sec (f : Fld) (v : Nat) : (s.mput f v).sec = s.sec := rfl
@[simp] theorem State.mput_pnl (f : Fld) (v : Nat) : (s.mput f v).pnl = s.pnl := rfl
@[simp] theorem State.mput_sup (f : Fld) (v : Nat) : (s.mput f v).sup = s.sup := rfl
@[simp] theorem State.mput_pending (f : Fld) (v : Nat) : (s.mput f v).pending = s.pending := rfl

@[simp] theorem State.answer_regs (w : Word) : (s.answer w).regs = s.regs := rfl
@[simp] theorem State.answer_mem (w : Word) : (s.answer w).mem = s.mem := rfl
@[simp] theorem State.answer_straps (w : Word) : (s.answer w).straps = s.straps := rfl
@[simp] theorem State.answer_free (w : Word) : (s.answer w).free = s.free := rfl
@[simp] theorem State.answer_clk (w : Word) : (s.answer w).clk = s.clk := rfl
@[simp] theorem State.answer_evr (w : Word) : (s.answer w).evr = s.evr := rfl
@[simp] theorem State.answer_pic (w : Word) : (s.answer w).pic = s.pic := rfl
@[simp] theorem State.answer_fn (w : Word) : (s.answer w).fn = s.fn := rfl
@[simp] theorem State.answer_loopA (w : Word) : (s.answer w).loopA = s.loopA := rfl
@[simp] theorem State.answer_loopB (w : Word) : (s.answer w).loopB = s.loopB := rfl
@[simp] theorem State.answer_mail (w : Word) : (s.answer w).mail = s.mail := rfl
@[simp] theorem State.answer_dies (w : Word) : (s.answer w).dies = s.dies := rfl
@[simp] theorem State.answer_clm (w : Word) : (s.answer w).clm = s.clm := rfl
@[simp] theorem State.answer_gns (w : Word) : (s.answer w).gns = s.gns := rfl
@[simp] theorem State.answer_isp (w : Word) : (s.answer w).isp = s.isp := rfl
@[simp] theorem State.answer_fus (w : Word) : (s.answer w).fus = s.fus := rfl
@[simp] theorem State.answer_ecn (w : Word) : (s.answer w).ecn = s.ecn := rfl
@[simp] theorem State.answer_can (w : Word) : (s.answer w).can = s.can := rfl
@[simp] theorem State.answer_map (w : Word) : (s.answer w).map = s.map := rfl
@[simp] theorem State.answer_att (w : Word) : (s.answer w).att = s.att := rfl
@[simp] theorem State.answer_eth (w : Word) : (s.answer w).eth = s.eth := rfl
@[simp] theorem State.answer_swg (w : Word) : (s.answer w).swg = s.swg := rfl
@[simp] theorem State.answer_cfg (w : Word) : (s.answer w).cfg = s.cfg := rfl
@[simp] theorem State.answer_pwr (w : Word) : (s.answer w).pwr = s.pwr := rfl
@[simp] theorem State.answer_rst (w : Word) : (s.answer w).rst = s.rst := rfl
@[simp] theorem State.answer_upd (w : Word) : (s.answer w).upd = s.upd := rfl
@[simp] theorem State.answer_sec (w : Word) : (s.answer w).sec = s.sec := rfl
@[simp] theorem State.answer_pnl (w : Word) : (s.answer w).pnl = s.pnl := rfl
@[simp] theorem State.answer_sup (w : Word) : (s.answer w).sup = s.sup := rfl
@[simp] theorem State.answer_pending (w : Word) : (s.answer w).pending = s.pending := rfl

@[simp] theorem State.busError_regs : (s.busError).regs = s.regs := rfl
@[simp] theorem State.busError_mem : (s.busError).mem = s.mem := rfl
@[simp] theorem State.busError_straps : (s.busError).straps = s.straps := rfl
@[simp] theorem State.busError_free : (s.busError).free = s.free := rfl
@[simp] theorem State.busError_clk : (s.busError).clk = s.clk := rfl
@[simp] theorem State.busError_evr : (s.busError).evr = s.evr := rfl
@[simp] theorem State.busError_pic : (s.busError).pic = s.pic := rfl
@[simp] theorem State.busError_fn : (s.busError).fn = s.fn := rfl
@[simp] theorem State.busError_loopA : (s.busError).loopA = s.loopA := rfl
@[simp] theorem State.busError_loopB : (s.busError).loopB = s.loopB := rfl
@[simp] theorem State.busError_mail : (s.busError).mail = s.mail := rfl
@[simp] theorem State.busError_dies : (s.busError).dies = s.dies := rfl
@[simp] theorem State.busError_clm : (s.busError).clm = s.clm := rfl
@[simp] theorem State.busError_gns : (s.busError).gns = s.gns := rfl
@[simp] theorem State.busError_isp : (s.busError).isp = s.isp := rfl
@[simp] theorem State.busError_fus : (s.busError).fus = s.fus := rfl
@[simp] theorem State.busError_ecn : (s.busError).ecn = s.ecn := rfl
@[simp] theorem State.busError_can : (s.busError).can = s.can := rfl
@[simp] theorem State.busError_map : (s.busError).map = s.map := rfl
@[simp] theorem State.busError_att : (s.busError).att = s.att := rfl
@[simp] theorem State.busError_eth : (s.busError).eth = s.eth := rfl
@[simp] theorem State.busError_swg : (s.busError).swg = s.swg := rfl
@[simp] theorem State.busError_cfg : (s.busError).cfg = s.cfg := rfl
@[simp] theorem State.busError_pwr : (s.busError).pwr = s.pwr := rfl
@[simp] theorem State.busError_rst : (s.busError).rst = s.rst := rfl
@[simp] theorem State.busError_upd : (s.busError).upd = s.upd := rfl
@[simp] theorem State.busError_sec : (s.busError).sec = s.sec := rfl
@[simp] theorem State.busError_pnl : (s.busError).pnl = s.pnl := rfl
@[simp] theorem State.busError_sup : (s.busError).sup = s.sup := rfl
@[simp] theorem State.busError_pending : (s.busError).pending = s.pending := rfl

@[simp] theorem State.wrBytes_regs (a : Nat) (l : List Byte) : (s.wrBytes a l).regs = s.regs := by
  induction l generalizing s a with
  | nil => rfl
  | cons b l ih => exact ih _ _
@[simp] theorem State.wrBytes_straps (a : Nat) (l : List Byte) : (s.wrBytes a l).straps = s.straps := by
  induction l generalizing s a with
  | nil => rfl
  | cons b l ih => exact ih _ _
@[simp] theorem State.wrBytes_bus (a : Nat) (l : List Byte) : (s.wrBytes a l).bus = s.bus := by
  induction l generalizing s a with
  | nil => rfl
  | cons b l ih => exact ih _ _
@[simp] theorem State.wrBytes_free (a : Nat) (l : List Byte) : (s.wrBytes a l).free = s.free := by
  induction l generalizing s a with
  | nil => rfl
  | cons b l ih => exact ih _ _
@[simp] theorem State.wrBytes_clk (a : Nat) (l : List Byte) : (s.wrBytes a l).clk = s.clk := by
  induction l generalizing s a with
  | nil => rfl
  | cons b l ih => exact ih _ _
@[simp] theorem State.wrBytes_evr (a : Nat) (l : List Byte) : (s.wrBytes a l).evr = s.evr := by
  induction l generalizing s a with
  | nil => rfl
  | cons b l ih => exact ih _ _
@[simp] theorem State.wrBytes_pic (a : Nat) (l : List Byte) : (s.wrBytes a l).pic = s.pic := by
  induction l generalizing s a with
  | nil => rfl
  | cons b l ih => exact ih _ _
@[simp] theorem State.wrBytes_fn (a : Nat) (l : List Byte) : (s.wrBytes a l).fn = s.fn := by
  induction l generalizing s a with
  | nil => rfl
  | cons b l ih => exact ih _ _
@[simp] theorem State.wrBytes_loopA (a : Nat) (l : List Byte) : (s.wrBytes a l).loopA = s.loopA := by
  induction l generalizing s a with
  | nil => rfl
  | cons b l ih => exact ih _ _
@[simp] theorem State.wrBytes_loopB (a : Nat) (l : List Byte) : (s.wrBytes a l).loopB = s.loopB := by
  induction l generalizing s a with
  | nil => rfl
  | cons b l ih => exact ih _ _
@[simp] theorem State.wrBytes_mail (a : Nat) (l : List Byte) : (s.wrBytes a l).mail = s.mail := by
  induction l generalizing s a with
  | nil => rfl
  | cons b l ih => exact ih _ _
@[simp] theorem State.wrBytes_dies (a : Nat) (l : List Byte) : (s.wrBytes a l).dies = s.dies := by
  induction l generalizing s a with
  | nil => rfl
  | cons b l ih => exact ih _ _
@[simp] theorem State.wrBytes_clm (a : Nat) (l : List Byte) : (s.wrBytes a l).clm = s.clm := by
  induction l generalizing s a with
  | nil => rfl
  | cons b l ih => exact ih _ _
@[simp] theorem State.wrBytes_gns (a : Nat) (l : List Byte) : (s.wrBytes a l).gns = s.gns := by
  induction l generalizing s a with
  | nil => rfl
  | cons b l ih => exact ih _ _
@[simp] theorem State.wrBytes_isp (a : Nat) (l : List Byte) : (s.wrBytes a l).isp = s.isp := by
  induction l generalizing s a with
  | nil => rfl
  | cons b l ih => exact ih _ _
@[simp] theorem State.wrBytes_fus (a : Nat) (l : List Byte) : (s.wrBytes a l).fus = s.fus := by
  induction l generalizing s a with
  | nil => rfl
  | cons b l ih => exact ih _ _
@[simp] theorem State.wrBytes_ecn (a : Nat) (l : List Byte) : (s.wrBytes a l).ecn = s.ecn := by
  induction l generalizing s a with
  | nil => rfl
  | cons b l ih => exact ih _ _
@[simp] theorem State.wrBytes_can (a : Nat) (l : List Byte) : (s.wrBytes a l).can = s.can := by
  induction l generalizing s a with
  | nil => rfl
  | cons b l ih => exact ih _ _
@[simp] theorem State.wrBytes_map (a : Nat) (l : List Byte) : (s.wrBytes a l).map = s.map := by
  induction l generalizing s a with
  | nil => rfl
  | cons b l ih => exact ih _ _
@[simp] theorem State.wrBytes_att (a : Nat) (l : List Byte) : (s.wrBytes a l).att = s.att := by
  induction l generalizing s a with
  | nil => rfl
  | cons b l ih => exact ih _ _
@[simp] theorem State.wrBytes_eth (a : Nat) (l : List Byte) : (s.wrBytes a l).eth = s.eth := by
  induction l generalizing s a with
  | nil => rfl
  | cons b l ih => exact ih _ _
@[simp] theorem State.wrBytes_swg (a : Nat) (l : List Byte) : (s.wrBytes a l).swg = s.swg := by
  induction l generalizing s a with
  | nil => rfl
  | cons b l ih => exact ih _ _
@[simp] theorem State.wrBytes_cfg (a : Nat) (l : List Byte) : (s.wrBytes a l).cfg = s.cfg := by
  induction l generalizing s a with
  | nil => rfl
  | cons b l ih => exact ih _ _
@[simp] theorem State.wrBytes_pwr (a : Nat) (l : List Byte) : (s.wrBytes a l).pwr = s.pwr := by
  induction l generalizing s a with
  | nil => rfl
  | cons b l ih => exact ih _ _
@[simp] theorem State.wrBytes_rst (a : Nat) (l : List Byte) : (s.wrBytes a l).rst = s.rst := by
  induction l generalizing s a with
  | nil => rfl
  | cons b l ih => exact ih _ _
@[simp] theorem State.wrBytes_upd (a : Nat) (l : List Byte) : (s.wrBytes a l).upd = s.upd := by
  induction l generalizing s a with
  | nil => rfl
  | cons b l ih => exact ih _ _
@[simp] theorem State.wrBytes_sec (a : Nat) (l : List Byte) : (s.wrBytes a l).sec = s.sec := by
  induction l generalizing s a with
  | nil => rfl
  | cons b l ih => exact ih _ _
@[simp] theorem State.wrBytes_pnl (a : Nat) (l : List Byte) : (s.wrBytes a l).pnl = s.pnl := by
  induction l generalizing s a with
  | nil => rfl
  | cons b l ih => exact ih _ _
@[simp] theorem State.wrBytes_sup (a : Nat) (l : List Byte) : (s.wrBytes a l).sup = s.sup := by
  induction l generalizing s a with
  | nil => rfl
  | cons b l ih => exact ih _ _
@[simp] theorem State.wrBytes_pending (a : Nat) (l : List Byte) : (s.wrBytes a l).pending = s.pending := by
  induction l generalizing s a with
  | nil => rfl
  | cons b l ih => exact ih _ _

end Sys2Proof.Machine
end

