-- ==== Sys2Proof/Laws/Regs.lean ====
section
/-!
SUPPORT. Reads after writes: registers, fields, memory bytes; the event intake; and that every operation over
registers and memory keeps the canonical form.
-/
namespace Sys2Proof.Machine

variable {s : State}

/-! ## Words -/

@[simp] theorem rd_wr_same (s : State) (a : Nat) (w : Word) : (s.wr a w).rd a = w := by
  simp [State.rd, State.wr]

theorem rd_wr_other (s : State) {a b : Nat} (w : Word) (h : b ≠ a) : (s.wr a w).rd b = s.rd b := by
  simp [State.rd, State.wr, tabGet_set_other _ _ _ h]

theorem rd_wr (s : State) (a b : Nat) (w : Word) : (s.wr a w).rd b = if a = b then w else s.rd b := by
  split
  · next h => subst h; simp
  · next h => exact rd_wr_other s w (Ne.symm h)

theorem rd_put (s : State) (f : Fld) (v a : Nat) :
    (s.put f v).rd a = if f.addr = a then fldPut f (s.rd a) v else s.rd a := by
  unfold State.put
  rw [rd_wr]
  split
  · next h => rw [h]
  · rfl

theorem rd_putBit (s : State) (f : Fld) (b : Bool) (a : Nat) :
    (s.putBit f b).rd a = if f.addr = a then fldPut f (s.rd a) (if b then 1 else 0) else s.rd a := rd_put s f _ a

theorem rd_putF (s : State) (f : Fld) (v : F32) (a : Nat) : (s.putF f v).rd a = if f.addr = a then v else s.rd a :=
  rd_wr s f.addr a v

/-- A write to one register leaves the fields of every other register. -/
theorem get_put_addr (s : State) {f g : Fld} (v : Nat) (h : f.addr ≠ g.addr) : (s.put f v).get g = s.get g := by
  unfold State.get
  rw [rd_put, if_neg h]

theorem bit_put_addr (s : State) {f g : Fld} (v : Nat) (h : f.addr ≠ g.addr) : (s.put f v).bit g = s.bit g := by
  unfold State.bit
  rw [get_put_addr s v h]

/-! ## Fields -/

theorem fldMask_getLsbD (f : Fld) (i : Nat) (hi : i < 32) :
    (fldMask f).getLsbD i = (decide (f.lo ≤ i) && decide (i < f.lo + fldWidth f)) := by
  unfold fldMask
  rw [BitVec.getLsbD_ofNat, Nat.testBit_mul_two_pow]
  by_cases h : f.lo ≤ i
  · rw [Nat.testBit_two_pow_sub_one]
    have : (i - f.lo < fldWidth f) ↔ (i < f.lo + fldWidth f) := by omega
    simp [hi, h, this]
  · simp [h]

/-- The bits of a word with a field replaced. -/
theorem fldPut_getLsbD (f : Fld) (w : Word) (v i : Nat) (hi : i < 32) :
    (fldPut f w v).getLsbD i = if f.lo ≤ i ∧ i < f.lo + fldWidth f then v.testBit (i - f.lo) else w.getLsbD i := by
  unfold fldPut
  rw [BitVec.getLsbD_or, BitVec.getLsbD_and, BitVec.getLsbD_not, fldMask_getLsbD f i hi, BitVec.getLsbD_ofNat,
    Nat.testBit_mul_two_pow, Nat.testBit_mod_two_pow]
  by_cases h1 : f.lo ≤ i <;> by_cases h2 : i < f.lo + fldWidth f
  · have h3 : i - f.lo < fldWidth f := by omega
    simp [hi, h1, h2, h3]
  · have h3 : ¬ i - f.lo < fldWidth f := by omega
    simp [hi, h1, h2, h3]
  · simp [hi, h1]
  · simp [hi, h1]

theorem fldOf_testBit (f : Fld) (w : Word) (i : Nat) :
    (fldOf f w).testBit i = (decide (i < fldWidth f) && w.getLsbD (f.lo + i)) := by
  unfold fldOf
  rw [Nat.testBit_mod_two_pow, Nat.testBit_div_two_pow, Nat.add_comm]
  rfl

/-- A field reads what was put into it, without the bits above its width. -/
theorem fldOf_put_same (f : Fld) (w : Word) (v : Nat) (h : f.lo + fldWidth f ≤ 32) :
    fldOf f (fldPut f w v) = v % 2 ^ fldWidth f := by
  apply Nat.eq_of_testBit_eq
  intro i
  rw [fldOf_testBit, Nat.testBit_mod_two_pow]
  by_cases hi : i < fldWidth f
  · rw [fldPut_getLsbD f w v (f.lo + i) (by omega)]
    have : f.lo + i < f.lo + fldWidth f := by omega
    simp [hi]
  · simp [hi]

/-- Two fields without a common bit do not touch each other. -/
theorem fldOf_put_disjoint (f g : Fld) (w : Word) (v : Nat) (h : f.lo + fldWidth f ≤ g.lo ∨ g.lo + fldWidth g ≤ f.lo) :
    fldOf g (fldPut f w v) = fldOf g w := by
  apply Nat.eq_of_testBit_eq
  intro i
  rw [fldOf_testBit, fldOf_testBit]
  by_cases hi : i < fldWidth g
  · by_cases h32 : g.lo + i < 32
    · rw [fldPut_getLsbD f w v (g.lo + i) h32]
      have : ¬ (f.lo ≤ g.lo + i ∧ g.lo + i < f.lo + fldWidth f) := by omega
      simp [this]
    · simp [BitVec.getLsbD_of_ge _ _ (Nat.le_of_not_lt h32)]
  · simp [hi]

theorem get_put_same (s : State) (f : Fld) (v : Nat) (h : f.lo + fldWidth f ≤ 32) :
    (s.put f v).get f = v % 2 ^ fldWidth f := by
  unfold State.get
  rw [rd_put, if_pos rfl, fldOf_put_same f _ v h]

theorem get_put_disjoint (s : State) {f g : Fld} (v : Nat)
    (h : f.addr ≠ g.addr ∨ f.lo + fldWidth f ≤ g.lo ∨ g.lo + fldWidth g ≤ f.lo) : (s.put f v).get g = s.get g := by
  by_cases ha : f.addr = g.addr
  · unfold State.get
    rw [rd_put, if_pos ha, fldOf_put_disjoint f g _ v (h.resolve_left fun n => n ha)]
  · exact get_put_addr s v ha

/-- Reads depend on the register words alone. -/
theorem rd_congr {s t : State} (h : t.regs = s.regs) (a : Nat) : t.rd a = s.rd a := by
  unfold State.rd; rw [h]

theorem get_congr {s t : State} (h : t.regs = s.regs) (f : Fld) : t.get f = s.get f := by
  unfold State.get; rw [rd_congr h]

theorem bit_congr {s t : State} (h : t.regs = s.regs) (f : Fld) : t.bit f = s.bit f := by
  unfold State.bit; rw [get_congr h]

theorem rd_putAll (ws : List (Fld × Nat)) (s : State) (a : Nat) : (putAll ws s).rd a = wordAfter s ws a := by
  unfold putAll wordAfter
  have key : ∀ (ws : List (Fld × Nat)) (t : State) (w : Word), t.rd a = w →
      (ws.foldl (fun t p => t.put p.1 p.2) t).rd a = ws.foldl (fun w p => if p.1.addr = a then fldPut p.1 w p.2 else w) w := by
    intro ws
    induction ws with
    | nil => exact fun t w h => h
    | cons p ws ih =>
      intro t w h
      refine ih _ _ ?_
      rw [rd_put, h]
  exact key ws s _ rfl

/-! ## Bytes of memory -/

@[simp] theorem rd8_wr8_same (s : State) (a : Nat) (b : Byte) : (s.wr8 a b).rd8 a = b := by
  simp [State.rd8, State.wr8]

theorem rd8_wr8_other (s : State) {a c : Nat} (b : Byte) (h : c ≠ a) : (s.wr8 a b).rd8 c = s.rd8 c := by
  simp [State.rd8, State.wr8, tabGet_set_other _ _ _ h]

theorem rd8_congr {s t : State} (h : t.mem = s.mem) (a : Nat) : t.rd8 a = s.rd8 a := by
  unfold State.rd8; rw [h]

/-- A run of bytes is stored at its addresses and nowhere else. -/
theorem rd8_wrBytes (s : State) (a : Nat) (l : List Byte) (c : Nat) :
    (s.wrBytes a l).rd8 c = if a ≤ c ∧ c < a + l.length then l.getD (c - a) 0#8 else s.rd8 c := by
  induction l generalizing s a with
  | nil =>
    have : ¬ (a ≤ c ∧ c < a + ([] : List Byte).length) := by
      intro hc
      have := hc.2
      simp at this
      omega
    rw [if_neg this]; rfl
  | cons b l ih =>
    show ((s.wr8 a b).wrBytes (a + 1) l).rd8 c = _
    rw [ih]
    by_cases h : c = a
    · subst h
      have h1 : ¬ (c + 1 ≤ c ∧ c < c + 1 + l.length) := by omega
      have h2 : c ≤ c ∧ c < c + (b :: l).length := by simp
      rw [if_neg h1, if_pos h2]; simp
    · rw [rd8_wr8_other _ _ h]
      by_cases h1 : a + 1 ≤ c ∧ c < a + 1 + l.length
      · have h2 : a ≤ c ∧ c < a + (b :: l).length := by simp; omega
        rw [if_pos h1, if_pos h2]
        have : c - a = (c - (a + 1)) + 1 := by omega
        rw [this, List.getD_cons_succ]
      · have h2 : ¬ (a ≤ c ∧ c < a + (b :: l).length) := by simp; omega
        rw [if_neg h1, if_neg h2]

/-! ## The canonical form of memory -/

theorem memory_wf_wr8 (a : Nat) (b : Byte) (h : Memory.wf s.mem) : Memory.wf (s.wr8 a b).mem := tabWf_set a b h

theorem memory_wf_wr32 (a : Nat) (w : Word) (h : Memory.wf s.mem) : Memory.wf (s.wr32 a w).mem :=
  memory_wf_wr8 _ _ (memory_wf_wr8 _ _ (memory_wf_wr8 _ _ (memory_wf_wr8 _ _ h)))

theorem memory_wf_wrBytes (a : Nat) (l : List Byte) (h : Memory.wf s.mem) : Memory.wf (s.wrBytes a l).mem := by
  induction l generalizing s a with
  | nil => exact h
  | cons b l ih => exact ih (s := s.wr8 a b) _ (memory_wf_wr8 _ _ h)

theorem memory_wf_copyMem (a b n : Nat) (h : Memory.wf s.mem) : Memory.wf (s.copyMem a b n).mem := memory_wf_wrBytes _ _ h

theorem memory_wf_clearMem (a n : Nat) (h : Memory.wf s.mem) : Memory.wf (s.clearMem a n).mem := memory_wf_wrBytes _ _ h

theorem memory_wf_mput (f : Fld) (v : Nat) (h : Memory.wf s.mem) : Memory.wf (s.mput f v).mem := memory_wf_wr32 _ _ h

theorem memory_wf_reset : Memory.wf State.reset.mem := rfl

/-! ## Events -/

/-- With room in the intake queue an event joins it, and nothing else changes (R461). -/
theorem push_room {k : Nat} (h : Room s (k + 1)) (e : Ev) :
    s.push e = { s with evr := { s.evr with intake := s.evr.intake ++ [e] } } := by
  unfold State.push State.evrOn
  have h1 : decide (2 ≤ s.rst.next) = true := by simpa using h.1
  have h2 : s.evr.intake.length < 256 := by have := h.2; omega
  simp [h1, h2]

theorem room_congr {s t : State} {k : Nat} (hr : t.rst.next = s.rst.next) (hi : t.evr.intake = s.evr.intake) :
    Room t k ↔ Room s k := by
  unfold Room; rw [hr, hi]

end Sys2Proof.Machine
end

