-- ==== Sys2Proof/Tests/Slice0.lean ====
section
/-!
SUPPORT. Tests: that ill-formed commands are refused, values from IEEE 754 and from the spec's worked examples, and for
each statement a state and operands that meet its hypotheses.
-/
set_option Elab.async false
set_option linter.unusedVariables false

namespace Sys2Proof.Machine

def run0 : State := { State.reset with rst := { Rst.init with next := 10 } }
def img0 : ImageIn := ⟨true, 1, 0, 4096, 9, true, 0, 1, 0, 0, 65535, 1, 0, true, true, true, true, [], [], [], [], ⟨[], [], [], [], [], [], [], [], [], []⟩⟩
def wJamb (n : Nat) (v : F32) (s : State) : State :=
  let s := s.setJamb n { Jamb.init with ever := true, val := v }
  { s with dies := { s.dies with live := [stageDie n] } }
def wSat (c sv : Nat) (s : State) : State :=
  (putAll [(fGNS_TRK_CFG_EN c, 1), (fGNS_TRK_CFG_SV c, sv), (fGNS_TRK_LOCK_CN0 c, 120), (fGNS_TRK_LOCK_LOCK c, 1)] s).setTrk c
    { Trk.init with lockAt := some 0 }
def wSats (n : Nat) : State :=
  forUp n (fun i t => wSat i (i + 1) t)
    { run0.put fGNS_CFG_SYS 1 with gns := { Gns.init with epoch := some 40000 }, clk := { Clk.init with tick := 40000 } }
def runA : State := { run0 with rst := { run0.rst with appUp := true } }
def wSeek : State :=
  { putAll [(fSWG_STATUS_STATE, 3), (fFUN_REC_CTL_SWG 11, 1), (fFUN_REC_CTL_EN 11, 1), (fSWG_FN_CFG_EN 2, 1), (fFUN_REC_CTL_STATE 11, 1)] runA with
    clk := { Clk.init with tick := 1200400 },
    swg := { Swg.init with upd := some 1200000, used := [2], window := (List.range 2400).map (fun k => (⟨2999 - k, some 0x40000000, []⟩ : SwgFrame)) } }

/-! ## Well-formed commands -/

/-- An ill-formed term for each check of `Instr.wf`: all are refused. -/
theorem test_wf_refuses : (([.registerWrite (.core 0) (2 ^ 40) 0 0, .busErrorAccess (.core 0) (2 ^ 40) false, .rcFieldRead (.core 0) (2 ^ 40) 0,
   .sramAccessViolation (.core 0) (2 ^ 40) false, .eccError (.core 0) (2 ^ 40) false, .scrubPass [(2 ^ 40, true)],
   .tickEdge ⟨[], [], [], false, [], [], [], [], none, true, false⟩, .lossImpact 1 32769 2 5,
   .mailboxPost [(1024, 0, true, 0)], .boostDecision 1 0 ⟨0, 0⟩ [], .gnssEpoch [⟨1, 2, 3, 4⟩] [],
   .dumpLatch 3 [(1, -2), (3, 4)], .solutionReady ⟨[], [], 0, [], false, false, [], [], 0, 0, 0, 0, 0, 0, 0, [], none⟩,
   .rtcmMessage (some (List.replicate 1030 0#8)),
   .rtcmCanFrame 2 false 2048 [], .rtcmCanFrame 2 true 99 (List.replicate 65 5#8),
   .streamFrame 1 ⟨true, 2 ^ 64, true, 0, 0, true, 7, [], 0, 0⟩, .streamFrame 1 ⟨true, 5, true, 1, 1, true, 7, [some [4096]], 0, 0⟩,
   .resultIssue ⟨3, [], [], [], [⟨5, 0, [], [], 1, [0, 1], [], 0, 0⟩], [⟨2, [], none, 0, [3], 0, 0⟩], ⟨[], [], 0, 7, none⟩,
     ⟨0, none, 0, 0, 0, 0, 0, 0⟩, ⟨none, none, false, false, 0, 0, 0, false⟩⟩,
   .lateSample 400 [⟨5, 0, [], [], 1, [0, 1], [], 0, 0⟩],
   .authentication 2 ⟨true, true, true, 0x123456789A, 5, [1, 2, 3], [(3, 0)]⟩,
   .canFrameReceive 1 ⟨false, false, 2048, [], 0⟩, .canFrameReceive 1 ⟨false, false, 5, List.replicate 9 0#8, 0⟩,
   .contendingClaim 1 130 (2 ^ 64), .commandedAddress 1 (2 ^ 64) 130, .j1939Transport 1 (.start 256 100 0xFECA true),
   .ecnilFrame 1 ⟨false, 0, 0, 0, 0, 0, false, [(8, 0)], [], none, 0⟩, .ecnAdmit 3 (2 ^ 64) 9 true,
   .ecnSet 7 800 [], .commitMessage ⟨7, 800, 3, 2, 2, false, [], true, false⟩,
   .stage 0 7 ⟨0, 0, 0x0101, 0, 0, 5, .bytes [1, 0, 0, 0]⟩, .baseImageWrite { img0 with regs := [(2 ^ 40, 0)] },
   .cfgRequest true (.stage 7 ⟨256, 0, 0x0101, 0, 0, 4, .bytes [1, 0, 0, 0]⟩), .provision true [] [],
   .secReturn true [], .tokenPresent ⟨true, 4, 0, 0, []⟩,
   .manifest ⟨true, true, 5, 0, 0, 9, 0, [⟨1, 0, 3, 5, 100, 2 ^ 384⟩]⟩,
   .partHeader ⟨true, 2 ^ 384, 1, 0, 3, 7, 5, 100, 9, 1, true, 0⟩, .partPayload (2 ^ 384), .debugAccess (2 ^ 40) none] : List Instr).all fun c => !c.wf) = true := by decide +kernel

theorem test_wf_accepts : ([.registerWrite (.core 0) 0x40000004 0 0, .scrubPass [], .mailboxPost [(1023, 0, true, 0)],
    .canFrameReceive 1 ⟨false, false, 2047, List.replicate 8 0#8, 0⟩, .canFrameReceive 1 ⟨true, false, 2 ^ 28, [], 0⟩,
    .powerOn, .frameBoundary] : List Instr).all Instr.wf = true := by decide +kernel

/-! ## Arithmetic (R88, R459): IEEE 754 values -/

theorem test_f32_third : f32Div 0x3F800000#32 0x40400000#32 = 0x3EAAAAAB#32 := by decide +kernel
theorem test_f32_tenths : f32Add 0x3DCCCCCD#32 0x3E4CCCCD#32 = 0x3E99999A#32 := by decide +kernel
theorem test_f32_tie_to_even : f32Add 0x4B800000#32 0x3F800000#32 = 0x4B800000#32 := by decide +kernel
theorem test_f32_subnormal_flushed : f32Mul 0x00800000#32 0x3F000000#32 = 0#32 := by decide +kernel
theorem test_f16_half : f16OfF32 0x3F000000#32 = 0x3800#16 := by decide +kernel
theorem test_crc32_check : crc32 [0x31, 0x32, 0x33, 0x34, 0x35, 0x36, 0x37, 0x38, 0x39] = 0xCBF43926#32 := by decide +kernel

/-- R78: at the working point 10 × 15.33 / 17.83 is 8.60 t/ha. -/
theorem test_yield_example :
    let y := f32Div (f32Mul 0x41200000#32 0x417547AE#32) 0x418EA3D7#32
    f32Lt 0x4109851F#32 y = true ∧ f32Lt y 0x4109AE14#32 = true := by decide +kernel

/-! ## Worked examples of the chapters -/

/-- The knife drive's AD of R94: 0.851 852. -/
theorem test_knife_drive_ad :
    let tf := f32Div 0x37A7C5AC#32 (f32Mul 0x3B83126F#32 0x41000000#32)
    let h : F32 := 0x38D1B717#32
    let ad := f32Div (f32Sub (f32Mul 0x40000000#32 tf) h) (f32Add (f32Mul 0x40000000#32 tf) h)
    f32Lt 0x3F5A12E0#32 ad = true ∧ f32Lt ad 0x3F5A1300#32 = true := by decide +kernel

/-- R477: long slots 4; 1 and 6; 3; 0 and 5; 2 and 7, and the levels of an on segment on COM0. -/
theorem test_panel_long_slots :
    ([0, 3, 1, 4, 2].map fun p => longSlots { run0 with pnl := { Pnl.init with phase := p } })
      = [[4], [1, 6], [3], [0, 5], [2, 7]] := by decide +kernel
theorem test_panel_levels : ((List.range 8).map (slotLevel true 0)) = [3, -3, 1, -1, 1, -1, 1, -1] := by decide +kernel

/-- Frames that a lane makes are well formed for their stage (R153, R155). -/
theorem test_frame_of_lane :
    let x := mkSent 5 12 0 0x3F800000#32 true false false 1
    frameFault run0 1 0 7 x.w0 x.w1 x.w2 = 0 ∧ frameFault run0 1 1 7 x.w0 x.w1 x.w2 = 3
      ∧ frameFault run0 1 0 18000 x.w0 x.w1 x.w2 = 5 ∧ frameFault run0 1 0 7 (x.w0 + 1) x.w1 x.w2 = 1 := by decide +kernel

/-! ## Registers and reset (R8, R414, R483) -/

theorem test_reset_cause : State.reset.rd fRST_CAUSE.addr = 1#32 := by decide +kernel
theorem test_reset_clk_status : State.reset.rd fCLK_STATUS.addr = 0x56#32 := by decide +kernel
theorem test_reset_evt : State.reset.rd fPNL_TEXT0.addr = 0x20202020#32 := by decide +kernel

/-- A W1C bit is cleared by a 1 and kept by a 0 (R8). -/
theorem test_w1c : ∃ t, exec (.registerWrite (.core 0) fCLK_EVT_STEPPED.addr 0xFFFFFFFF#32 0#32)
    (run0.putBit fCLK_EVT_STEPPED true) = .next t ∧ t.bit fCLK_EVT_STEPPED = false := ⟨_, rfl, by decide +kernel⟩
theorem test_w1c_zero : ∃ t, exec (.registerWrite (.core 0) fCLK_EVT_STEPPED.addr 0#32 0#32)
    (run0.putBit fCLK_EVT_STEPPED true) = .next t ∧ t.bit fCLK_EVT_STEPPED = true := ⟨_, rfl, by decide +kernel⟩

/-- A reserved bit of a register keeps 0 when 1 is written (R7). -/
theorem test_reserved_bit : ∃ t, exec (.registerWrite (.core 0) fCLK_EVT_STEPPED.addr 0xFFFFFFFF#32 0#32) run0 = .next t
    ∧ t.rd fCLK_EVT_STEPPED.addr = 0#32 := ⟨_, rfl, by decide +kernel⟩

/-- Memory keeps its canonical form when the value of an unlisted byte is written. -/
theorem test_mem_canonical : ((run0.wr32 0x1000 0x01020304#32).wr32 0x1000 0#32).mem = [] := by decide +kernel
theorem test_mem_little_endian : ((run0.wr32 0x1000 0x01020304#32).rd8 0x1000) = 4#8 := by decide +kernel

/-- The queue: a step takes the command in front and leaves the rest. -/
theorem test_queue : ∃ t, step { run0 with pending := [.setMissed, .powerOn] } = .next t ∧ t.pending = [.powerOn] :=
  ⟨_, rfl, by decide +kernel⟩

/-! ## Witnesses -/

/-- States and operands that meet the hypotheses of AccessRegisterWrite. -/
theorem witness_AccessRegisterWrite :
    -- regwr
    (∃ (s : State) (req : Req) (a : Nat) (v hw : Word), regAddrOk a = true ∧ heldZero s a = false ∧ mayWrite req
        a = true ∧ ownRow a = false ∧ a ≠ fPNL_CFG.addr ∧ inDims 0x40091000 [(0x40, 384)] a = false) ∧
    -- regwrNoRight
    (∃ (s : State) (req : Req) (a : Nat) (v hw : Word), regAddrOk a = true ∧ heldZero s a = false ∧ (mayWrite
        req a = false ∨ ownRow a = true) ∧ a ≠ fGNS_STATUS_NTRK.addr) ∧
    -- regwrPanel
    (∃ (s : State) (req : Req) (v hw : Word), reqIsOem req = false) ∧
    -- regwrHeld
    (∃ (s : State) (req : Req) (a : Nat) (v hw : Word), regAddrOk a = true ∧ heldZero s a = true) ∧
    -- regwrChannel
    (∃ (s : State) (req : Req) (c : Fin 384) (v hw : Word), s.wide = true ∧ trkOwner req c = true ∧ reqIsOem req
        = false) ∧
    -- regwrNone
    (∃ (s : State) (req : Req) (a : Nat) (v hw : Word), regAddrOk a = false) ∧
    -- rcreadLatch
    (∃ (s : State) (req : Req) (a : Nat) (hw : Word), heldZero s a = false ∧ (a = fCLK_TICK_LO.addr ∨ a =
        fGNS_SOL_TICK_LO.addr ∨ a = fFUS_RES_FRAME_LO.addr)) ∧
    -- rcreadNone
    (∃ (s : State) (req : Req) (a : Nat) (hw : Word), regAddrOk a = false) ∧
    -- rcread
    (∃ (s : State) (req : Req) (a : Nat) (hw : Word), regAddrOk a = true ∧ heldZero s a = false ∧ a ≠
        fCLK_TICK_LO.addr ∧ a ≠ fGNS_SOL_TICK_LO.addr ∧ a ≠ fFUS_RES_FRAME_LO.addr) ∧
    -- rcreadHeld
    (∃ (s : State) (req : Req) (a : Nat) (hw : Word), regAddrOk a = true ∧ heldZero s a = true) :=
   ⟨⟨run0, .core 0, fCLK_EVT_STEPPED.addr, 1, 0, by decide +kernel⟩,
    ⟨run0, .oem 0, fCLK_EVT_STEPPED.addr, 1, 0, by decide +kernel⟩,
    ⟨run0, .core 0, 26, 0, by decide +kernel⟩,
    ⟨{ run0 with straps := ⟨false, false, 1⟩ }, .core 0, fGNS_STATUS_NTRK.addr, 1, 0, by decide +kernel⟩,
    ⟨run0, .core 8, 3, 0x00A10021, 0, by decide +kernel⟩,
    ⟨run0, .core 0, 0x401F0000, 1, 0, by decide +kernel⟩,
    ⟨run0, .core 0, fCLK_TICK_LO.addr, 0, by decide +kernel⟩,
    ⟨run0, .core 0, 0x401F0000, 0, by decide +kernel⟩,
    ⟨run0, .core 0, (fLE_LOAD_MAX 0).addr, 0, by decide +kernel⟩,
    ⟨{ run0 with straps := ⟨false, false, 1⟩ }, .core 0, fGNS_STATUS_NTRK.addr, 0, by decide +kernel⟩⟩

/-- States and operands that meet the hypotheses of AccessErrors. -/
theorem witness_AccessErrors :
    -- busErr
    (∃ (s : State) (req : Req) (a : Nat) (w : Bool), inRegSpace a = true ∧ regAddrOk a = false) ∧
    -- sramViol
    (∃ (s : State) (req : Req) (a : Nat) (w : Bool), inSram a = true ∧ sramMay req (sramHolder a) w = false ∧
        req ≠ .keyhole ∧ Room s 1) ∧
    -- sramOk
    (∃ (s : State) (req : Req) (a : Nat) (w : Bool), sramMay req (sramHolder a) w = true) ∧
    -- eccSingle
    (∃ (s : State) (req : Req) (a : Nat), (inSram a = true ∨ inDram a = true) ∧ Room s 1) ∧
    -- eccDouble
    (∃ (s : State) (req : Req) (a : Nat), (inSram a = true ∨ inDram a = true) ∧ 0x200000 ≤ a ∧ Room s 1) ∧
    -- eccLaneSram
    (∃ (s : State) (req : Req) (a : Nat), a < 0x200000 ∧ Room s 1) ∧
    -- scrubOne
    (∃ (s : State) (a : Nat) (d : Bool), (inSram a = true ∨ inDram a = true) ∧ 0x200000 ≤ a ∧ Room s 1) :=
   ⟨⟨run0, .core 0, 0x401F0000, false, by decide +kernel⟩,
    ⟨run0, .core 0, 0, true, by decide +kernel⟩,
    ⟨run0, .core 4, 0, true, by decide +kernel⟩,
    ⟨run0, .core 0, 0x200000, by decide +kernel⟩,
    ⟨run0, .core 0, 0x200000, by decide +kernel⟩,
    ⟨run0, .core 0, 0x100000, by decide +kernel⟩,
    ⟨run0, 0x200000, true, by decide +kernel⟩⟩

/-- States and operands that meet the hypotheses of AccessDebugRead. -/
theorem witness_AccessDebugRead :
    -- dbgReadMem
    (∃ (s : State) (a : Nat), pwrState s < 2 ∧ s.get fSEC_STATUS_LEVEL ≠ 0 ∧ inRegSpace a = false) ∧
    -- dbgReadReg
    (∃ (s : State) (a : Nat), pwrState s < 2 ∧ s.get fSEC_STATUS_LEVEL ≠ 0 ∧ inRegSpace a = true ∧ regAddrOk a =
        true) ∧
    -- dbgWrite
    (∃ (s : State) (a : Nat) (v : Word), pwrState s < 2 ∧ s.get fSEC_STATUS_LEVEL = 2 ∧ inRegSpace a = false ∧
        debugWrites s a = true) ∧
    -- dbgRegs
    (∃ (s : State) (a : Nat), pwrState s < 2 ∧ s.get fSEC_STATUS_LEVEL ≠ 0 ∧ inRegSpace a = true) ∧
    -- dbgWriteReg
    (∃ (s : State) (a : Nat) (v : Word), pwrState s < 2 ∧ s.get fSEC_STATUS_LEVEL = 2 ∧ inRegSpace a = true) ∧
    -- dbgNone
    (∃ (s : State) (a : Nat) (w : Option Word), (s.get fSEC_STATUS_LEVEL = 0 ∨ 2 ≤ pwrState s ∨ (s.get
        fSEC_STATUS_LEVEL = 1 ∧ w.isSome = true))) :=
   ⟨⟨run0.put fSEC_STATUS_LEVEL 1, 0x200000, by decide +kernel⟩,
    ⟨run0.put fSEC_STATUS_LEVEL 1, fCLK_TERR.addr, by decide +kernel⟩,
    ⟨run0.put fSEC_STATUS_LEVEL 2, 0x200000, 5, by decide +kernel⟩,
    ⟨run0.put fSEC_STATUS_LEVEL 1, 0x401F0000, by decide +kernel⟩,
    ⟨run0.put fSEC_STATUS_LEVEL 2, fCLK_EVT_STEPPED.addr, 5, by decide +kernel⟩,
    ⟨run0, 0x200000, none, by decide +kernel⟩⟩

/-- States and operands that meet the hypotheses of ClockTimeStatus. -/
theorem witness_ClockTimeStatus :
    -- holdMgr
    (∃ (s : State), s.straps.manager = true ∧ s.get fCLK_STATUS_TIME_STAT = 0 ∧ 10 ≤ s.clk.noSol ∧ Room s 1) ∧
    -- holdWorker
    (∃ (s : State), s.straps.manager = false ∧ s.get fCLK_STATUS_TIME_STAT = 0 ∧ s.get fCLK_STATUS_ALIGN = 2 ∧
        s.clk.lostAt + 10000 ≤ s.clk.tick ∧ Room s 1) ∧
    -- holdLimit
    (∃ (s : State), (s.straps.manager = true ∨ s.get fCLK_STATUS_ALIGN = 2) ∧ s.get fCLK_STATUS_TIME_STAT = 1 ∧
        s.clk.holdAt + 20000 * s.get fCLK_HOLD_LIM_SEC ≤ s.clk.tick ∧ Room s 1) ∧
    -- stepSettle
    (∃ (s : State), (s.straps.manager = true ∨ s.get fCLK_STATUS_ALIGN = 2) ∧ s.get fCLK_STATUS_TIME_STAT = 3 ∧
        s.bit fCLK_STATUS_STEP_PEND = false ∧ s.clk.stepAt + 400 ≤ s.clk.tick ∧ Room s 1) ∧
    -- statusCopied
    (∃ (s : State), s.straps.manager = false ∧ s.get fCLK_STATUS_ALIGN ≠ 2) :=
   ⟨⟨{ run0 with clk := { Clk.init with noSol := 10 } } |>.put fCLK_STATUS_TIME_STAT 0, by decide +kernel⟩,
    ⟨putAll [(fCLK_STATUS_TIME_STAT, 0), (fCLK_STATUS_ALIGN, 2)] { run0 with straps := ⟨false, false, 1⟩, clk := { Clk.init with tick := 10000 } },
      by decide +kernel⟩,
    ⟨putAll [(fCLK_STATUS_TIME_STAT, 1), (fCLK_HOLD_LIM_SEC, 1)] { run0 with clk := { Clk.init with tick := 20000 } },
      by decide +kernel⟩,
    ⟨putAll [(fCLK_STATUS_TIME_STAT, 3)] { run0 with clk := { Clk.init with tick := 400 } }, by decide +kernel⟩,
    ⟨{ run0 with straps := ⟨false, false, 1⟩ }, by decide +kernel⟩⟩

/-- States and operands that meet the hypotheses of ClockLeapAndAlignment. -/
theorem witness_ClockLeapAndAlignment :
    -- leap
    (∃ (s : State), s.bit fCLK_LEAP_PEND = true ∧ (s.get64 fCLK_LEAP_AT_LO.addr : Int) ≤ s.now ∧ Room s 1) ∧
    -- leapNotYet
    (∃ (s : State), (s.bit fCLK_LEAP_PEND = false ∨ s.now < (s.get64 fCLK_LEAP_AT_LO.addr : Int))) ∧
    -- utcPlain
    (∃ (s : State), s.bit fCLK_LEAP_PEND = false) ∧
    -- utcSixty
    (∃ (s : State), s.bit fCLK_LEAP_PEND = true ∧ s.bit fCLK_LEAP_NEG = false ∧ (s.get64 fCLK_LEAP_AT_LO.addr :
        Int) ≤ s.now + 1000000000 ∧ s.now < (s.get64 fCLK_LEAP_AT_LO.addr : Int)) ∧
    -- alignUp
    (∃ (s : State), s.straps.manager = false ∧ s.get fCLK_STATUS_ALIGN = 0 ∧ 400 ≤ s.clk.alignRun ∧ Room s 1) ∧
    -- alignDown
    (∃ (s : State), s.straps.manager = false ∧ s.get fCLK_STATUS_ALIGN ≠ 2 ∧ s.clk.edgeAt + 4 ≤ s.clk.tick ∧
        Room s 1) :=
   ⟨⟨run0.put fCLK_LEAP_PEND 1, by decide +kernel⟩,
    ⟨run0, by decide +kernel⟩,
    ⟨run0, by decide +kernel⟩,
    ⟨putAll [(fCLK_LEAP_PEND, 1)] (run0.put64 fCLK_LEAP_AT_LO.addr 5), by decide +kernel⟩,
    ⟨putAll [(fCLK_STATUS_ALIGN, 0)] { run0 with straps := ⟨false, false, 1⟩, clk := { Clk.init with alignRun := 400 } },
      by decide +kernel⟩,
    ⟨putAll [(fCLK_STATUS_ALIGN, 1)] { run0 with straps := ⟨false, false, 1⟩, clk := { Clk.init with tick := 4 } },
      by decide +kernel⟩⟩

/-- States and operands that meet the hypotheses of ClockMonitorFaults. -/
theorem witness_ClockMonitorFaults :
    -- monTick
    (∃ (s : State) (d : Fin 13), (d.val = 1 ∨ d.val = 2) ∧ Room s 1) ∧
    -- monOther
    (∃ (s : State) (d : Fin 13), d.val ≠ 1 ∧ d.val ≠ 2 ∧ d.val ≠ 3 ∧ d.val ≠ 12 ∧ Room s 1) ∧
    -- monLane
    (∃ (s : State) (d : Fin 13), (d.val = 3 ∨ d.val = 12) ∧ Room s 1) ∧
    -- monRecover
    (∃ (s : State), s.clk.stopped = true) :=
   ⟨⟨run0, 1, by decide +kernel⟩,
    ⟨run0, 4, by decide +kernel⟩,
    ⟨run0, 3, by decide +kernel⟩,
    ⟨{ run0 with clk := { Clk.init with stopped := true } }, by decide +kernel⟩⟩

/-- States and operands that meet the hypotheses of PicClaims. -/
theorem witness_PicClaims :
    -- picClaim
    (∃ (s : State) (req : Req) (c : Fin 11) (rivals : List (Fin 11)) (n : Nat), reqCore req = some c.val ∧ 1 ≤ n
        ∧ n < 511 ∧ picEligible s c n = true ∧ ((∀ m : Fin 511, picEligible s c m = true → m.val = n ∨ s.get
        (fPIC_SRC_PRIO m) < s.get (fPIC_SRC_PRIO n) ∨ (s.get (fPIC_SRC_PRIO m) = s.get (fPIC_SRC_PRIO n) ∧ n <
        m))) ∧ ((∀ r ∈ rivals, c ≤ r ∨ picBest s r ≠ n))) ∧
    -- picSpurious
    (∃ (s : State) (req : Req) (c : Fin 11) (rivals : List (Fin 11)), reqCore req = some c.val ∧ picBest s c ≠ 0
        ∧ ((∃ r ∈ rivals, r < c ∧ picBest s r = picBest s c))) ∧
    -- picNone
    (∃ (s : State) (req : Req) (c : Fin 11) (rivals : List (Fin 11)), (reqCore req ≠ some c.val ∨ picBest s c =
        0)) :=
   ⟨⟨putAll [(picBit fPIC_PEND 194, 1), (picBit fPIC_EN 194, 1), (fPIC_SRC_PRIO 194, 1), (fPIC_SRC_TMASK 194,
      1)] run0, .core 0, 0, [], 194, by decide +kernel⟩,
    ⟨putAll [(picBit fPIC_PEND 194, 1), (picBit fPIC_EN 194, 1), (fPIC_SRC_PRIO 194, 1), (fPIC_SRC_TMASK 194,
      3)] run0, .core 1, 1, [0], by decide +kernel⟩,
    ⟨run0, .core 1, 1, [], by decide +kernel⟩⟩

/-- States and operands that meet the hypotheses of PicCompletion. -/
theorem witness_PicCompletion :
    -- picDone
    (∃ (s : State) (req : Req) (c : Fin 11) (n : Fin 1024), reqCore req = some c.val ∧ s.pic.claimed.contains
        (n.val, c.val) = true) ∧
    -- picBad
    (∃ (s : State) (req : Req) (c : Fin 11) (n : Fin 1024), reqCore req = some c.val ∧ s.pic.claimed.contains
        (n.val, c.val) = false ∧ Room s 1) ∧
    -- picOtherCore
    (∃ (s : State) (req : Req) (c : Fin 11) (n : Fin 1024), reqCore req ≠ some c.val) ∧
    -- picRaise
    (∃ (s : State) (n : Fin 512), picAssigned n = true ∧ (picEdge n = true ∨ picLevel s n = true) ∧ (picEdge
        (raisePartner n) = true ∨ picLevel s (raisePartner n) = true)) ∧
    -- picRaiseOne
    (∃ (s : State) (n : Fin 512), picAssigned n = true ∧ picLevel s n = true ∧ (picEdge (raisePartner n) = false
        ∧ picLevel s (raisePartner n) = false)) ∧
    -- picNotRaised
    (∃ (s : State) (n : Fin 512), (picAssigned n = false ∨ (picEdge n = false ∧ picLevel s n = false)) ∧
        (picAssigned (raisePartner n) = false ∨ (picEdge (raisePartner n) = false ∧ picLevel s (raisePartner n)
        = false))) :=
   ⟨⟨{ run0 with pic := { Pic.init with claimed := [(258, 0)] } }, .core 0, 0, 258, by decide +kernel⟩,
    ⟨run0, .core 0, 0, 258, by decide +kernel⟩,
    ⟨run0, .core 1, 0, 258, by decide +kernel⟩,
    ⟨run0, 194, by decide +kernel⟩,
    ⟨run0.put (fLE_EVT_COMMIT 0) 1, 7, by decide +kernel⟩,
    ⟨run0, 0, by decide +kernel⟩⟩

/-- States and operands that meet the hypotheses of PicPendingAndEnable. -/
theorem witness_PicPendingAndEnable :
    -- pendSet
    (∃ (s : State) (req : Req) (m : Fin 16) (bits : Word), reqIsOem req = false) ∧
    -- pendClr
    (∃ (s : State) (req : Req) (m : Fin 16) (bits raised : Word), reqIsOem req = false) ∧
    -- enSet
    (∃ (s : State) (req : Req) (m : Fin 16) (bits : Word), reqIsOem req = false) ∧
    -- enClr
    (∃ (s : State) (req : Req) (m : Fin 16) (bits sets : Word), reqIsOem req = false) :=
   ⟨⟨run0, .core 0, 6, 4, by decide +kernel⟩,
    ⟨run0, .core 0, 6, 4, 0, by decide +kernel⟩,
    ⟨run0, .core 0, 6, 4, by decide +kernel⟩,
    ⟨run0, .core 0, 6, 4, 0, by decide +kernel⟩⟩

/-- States and operands that meet the hypotheses of PicSourcesAndLatches. -/
theorem witness_PicSourcesAndLatches :
    -- srcWrite
    (∃ (s : State) (req : Req) (n : Fin 512) (v : Word), picAssigned n = true ∧ s.bit (fPIC_SRC_LOCK n) = false
        ∧ picSrcMay req n = true) ∧
    -- srcLocked
    (∃ (s : State) (req : Req) (n : Fin 512) (v : Word), s.bit (fPIC_SRC_LOCK n) = true) ∧
    -- srcNoRight
    (∃ (s : State) (req : Req) (n : Fin 512) (v : Word), (picAssigned n = false ∨ picSrcMay req n = false)) ∧
    -- latchFirst
    (∃ (s : State) (n : Fin 512), tickRuns s = false ∧ picLatched n = true ∧ s.pic.latches.contains n.val =
        false) ∧
    -- latchMore
    (∃ (s : State) (n : Fin 512), tickRuns s = false ∧ picLatched n = true ∧ s.pic.latches.contains n.val = true
        ∧ Room s 1) ∧
    -- latchTick
    (∃ (s : State) (n : Fin 512), tickRuns s = true ∧ picLatched n = true) ∧
    -- latchRelease
    (∃ (s : State) (us : Nat), s.rst.next = 2 ∧ s.rst.stuck = false ∧ pwrState s < 2 ∧ s.rst.kept = true) :=
   ⟨⟨run0, .core 4, 1, 0x8311, by decide +kernel⟩,
    ⟨run0.put (fPIC_SRC_LOCK 1) 1, .core 4, 1, 0x8311, by decide +kernel⟩,
    ⟨run0, .core 0, 1, 0x8311, by decide +kernel⟩,
    ⟨{ run0 with clk := { Clk.init with stopped := true } }, 288, by decide +kernel⟩,
    ⟨{ run0 with clk := { Clk.init with stopped := true }, pic := { Pic.init with latches := [288] } }, 288,
      by decide +kernel⟩,
    ⟨run0, 288, by decide +kernel⟩,
    ⟨{ run0 with rst := { Rst.init with next := 2, kept := true }, pic := { Pic.init with latches := [288] } },
      4000, by decide +kernel⟩⟩

/-- States and operands that meet the hypotheses of RecorderQueue. -/
theorem witness_RecorderQueue :
    -- pushRoom
    (∃ (s : State) (e : Ev), 2 ≤ s.rst.next ∧ s.evr.intake.length < 256) ∧
    -- pushFull
    (∃ (s : State) (e : Ev), 2 ≤ s.rst.next ∧ 256 ≤ s.evr.intake.length) ∧
    -- pushOff
    (∃ (s : State) (e : Ev), s.rst.next < 2) :=
   ⟨⟨run0, ⟨0x1070, 0, 0, 0, 0, 0, 0⟩, by decide +kernel⟩,
    ⟨{ run0 with evr := { Evr.init with intake := List.replicate 256 ⟨0x1070, 0, 0, 0, 0, 0, 0⟩ } }, ⟨0x1070, 0,
      0, 0, 0, 0, 0⟩, by decide +kernel⟩,
    ⟨State.reset, ⟨0x1070, 0, 0, 0, 0, 0, 0⟩, by decide +kernel⟩⟩

/-- States and operands that meet the hypotheses of RecorderIntake. -/
theorem witness_RecorderIntake :
    -- inRepeat
    (∃ (s : State) (e : Ev) (rest : List Ev) (r : EvRec), s.evr.intake = e :: rest ∧ evIsAssigned e.code = true
        ∧ e.code ≠ 0x2030 ∧ evRateLimited e.code = false ∧ s.evr.sill.find? (fun x => x.code == e.code && x.src
        == e.src) = some r ∧ e.tick - r.firstTick < 72000000 ∧ r.count < 0xFFFFFFFF ∧ s.evr.lostNow = 0) ∧
    -- inOpen
    (∃ (s : State) (e : Ev) (rest : List Ev), s.evr.intake = e :: rest ∧ evIsAssigned e.code = true ∧ e.code ≠
        0x2030 ∧ evRateLimited e.code = false ∧ s.evr.sill.find? (fun x => x.code == e.code && x.src == e.src) =
        none ∧ s.evr.lostNow = 0 ∧ s.evr.lintel.length < 511) ∧
    -- inLimited
    (∃ (s : State) (e : Ev) (rest : List Ev), s.evr.intake = e :: rest ∧ evIsAssigned e.code = true ∧ e.code ≠
        0x2030 ∧ evRateLimited e.code = true ∧ (s.evr.opens.filter fun o => o.1 == e.code && decide (s.clk.tick
        < o.2 + 20000)).length < 4 ∧ s.evr.lostNow = 0 ∧ s.evr.lintel.length < 511) ∧
    -- inSuppressed
    (∃ (s : State) (e : Ev) (rest : List Ev), s.evr.intake = e :: rest ∧ evIsAssigned e.code = true ∧ e.code ≠
        0x2030 ∧ evRateLimited e.code = true ∧ 4 ≤ (s.evr.opens.filter fun o => o.1 == e.code && decide
        (s.clk.tick < o.2 + 20000)).length ∧ s.evr.lostNow = 0) ∧
    -- inDouble
    (∃ (s : State) (e : Ev) (rest : List Ev), s.evr.intake = e :: rest ∧ e.code = 0x2030 ∧ s.evr.lostNow = 0 ∧
        s.evr.lintel.length < 511) ∧
    -- inLintelFull
    (∃ (s : State) (e : Ev) (rest : List Ev), s.evr.intake = e :: rest ∧ evIsAssigned e.code = true ∧ e.code ≠
        0x2030 ∧ evRateLimited e.code = false ∧ s.evr.sill.find? (fun x => x.code == e.code && x.src == e.src) =
        none ∧ s.evr.lostNow = 0 ∧ 511 ≤ s.evr.lintel.length ∧ s.eth.alertList.contains e.code = false ∧ Room s
        1) ∧
    -- inReserved
    (∃ (s : State) (e : Ev) (rest : List Ev), s.evr.intake = e :: rest ∧ evIsAssigned e.code = false ∧
        s.evr.lostNow ≠ 0 ∧ s.eth.alertList.contains e.code = false ∧ 2 ≤ s.rst.next ∧ s.evr.intake.length ≤
        256) :=
   ⟨⟨{ run0 with evr := { Evr.init with intake := [⟨0x3001, 0, 0, 0, 0, 0, 0⟩], sill := [evOpenRec ⟨0x3001, 0, 0, 0, 0, 0, 0⟩ 0] } },
      ⟨0x3001, 0, 0, 0, 0, 0, 0⟩, [], evOpenRec ⟨0x3001, 0, 0, 0, 0, 0, 0⟩ 0, by decide +kernel⟩,
    ⟨{ run0 with evr := { Evr.init with intake := [⟨0x3001, 0, 0, 0, 0, 0, 0⟩] } }, ⟨0x3001, 0, 0, 0, 0, 0, 0⟩,
      [], by decide +kernel⟩,
    ⟨{ run0 with evr := { Evr.init with intake := [⟨0xC001, 0, 0, 0, 0, 0, 0⟩] } }, ⟨0xC001, 0, 0, 0, 0, 0, 0⟩,
      [], by decide +kernel⟩,
    ⟨{ run0 with evr := { Evr.init with intake := [⟨0xC001, 0, 0, 0, 0, 0, 0⟩], opens := List.replicate 4 (0xC001, 0) } },
      ⟨0xC001, 0, 0, 0, 0, 0, 0⟩, [], by decide +kernel⟩,
    ⟨{ run0 with evr := { Evr.init with intake := [⟨0x2030, 0, 0, 0, 0, 0, 0⟩] } }, ⟨0x2030, 0, 0, 0, 0, 0, 0⟩,
      [], by decide +kernel⟩,
    ⟨{ run0 with evr := { Evr.init with intake := [⟨0x3001, 0, 0, 0, 0, 0, 0⟩], lintel := List.replicate 511 (evOpenRec ⟨0x3002, 0, 0, 0, 0, 0, 0⟩ 0) } },
      ⟨0x3001, 0, 0, 0, 0, 0, 0⟩, [], by decide +kernel⟩,
    ⟨{ run0 with evr := { Evr.init with intake := [⟨0xF000, 0, 0, 0, 0, 0, 0⟩], lostNow := 3 } }, ⟨0xF000, 0, 0,
      0, 0, 0, 0⟩, [], by decide +kernel⟩⟩

/-- States and operands that meet the hypotheses of RecorderClearAndRead. -/
theorem witness_RecorderClearAndRead :
    -- sillClr
    (∃ (s : State) (req : Req), s.evr.clearing = false ∧ s.evr.lintel.length < 511) ∧
    -- sillClrFull
    (∃ (s : State) (req : Req), s.evr.clearing = false ∧ 511 ≤ s.evr.lintel.length ∧ Room s 1) ∧
    -- sillClrBusy
    (∃ (s : State) (req : Req), s.evr.clearing = true) ∧
    -- rdSelHeld
    (∃ (s : State) (req : Req) (ix : Word) (r : EvRec), evrSelect s.evr (s.evrPort (reqBank req)).area ix.toNat
        = .ok r) ∧
    -- rdSelNotHeld
    (∃ (s : State) (req : Req) (ix : Word) (e : Nat), evrSelect s.evr (s.evrPort (reqBank req)).area ix.toNat =
        .error e) ∧
    -- rdArea
    (∃ (s : State) (req : Req) (k : Fin 4), k ≠ 3) ∧
    -- flashFail
    (∃ (s : State), Room s 1) :=
   ⟨⟨run0, .keyhole, by decide +kernel⟩,
    ⟨{ run0 with evr := { Evr.init with lintel := List.replicate 512 (evOpenRec ⟨0x3002, 0, 0, 0, 0, 0, 0⟩ 0) } },
      .oem 0, by decide +kernel⟩,
    ⟨{ run0 with evr := { Evr.init with clearing := true } }, .core 0, by decide +kernel⟩,
    ⟨{ run0 with evr := { Evr.init with sill := [evOpenRec ⟨0x3001, 0, 0, 0, 0, 0, 0⟩ 0], head := 1 } }, .core
      0, 0, evOpenRec ⟨0x3001, 0, 0, 0, 0, 0, 0⟩ 0, rfl⟩,
    ⟨run0, .core 0, 0, 2, rfl⟩,
    ⟨run0, .core 0, 1, by decide +kernel⟩,
    ⟨run0, by decide +kernel⟩⟩

/-- States and operands that meet the hypotheses of InputFaults. -/
theorem witness_InputFaults :
    -- uinFault
    (∃ (s : State) (n : Fin 48) (x : F32), uinOut (uinMode s n) x = true ∧ (s.uin n).fault = false ∧ Room s 1) ∧
    -- uinClear
    (∃ (s : State) (n : Fin 48), (s.uin n).fault = true ∧ 400 ≤ (s.uin n).good ∧ Room s 1) ∧
    -- edgeTimeout
    (∃ (s : State) (n : Fin 48), (uinMode s n = 5 ∨ (uinMode s n = 7 ∧ n.val % 2 = 0)) ∧ 40000000 * s.get
        (fFUN_UIN_CFG_TOUT n) ≤ s.clk.tick * 20000 - ((s.uin n).edge.getD 0)) ∧
    -- edgeStillTime
    (∃ (s : State) (n : Fin 48), (¬ (uinMode s n = 5 ∨ (uinMode s n = 7 ∧ n.val % 2 = 0)) ∨ s.clk.tick * 20000 -
        ((s.uin n).edge.getD 0) < 40000000 * s.get (fFUN_UIN_CFG_TOUT n))) ∧
    -- quadIllegal
    (∃ (s : State) (p : Fin 24), uinMode s (2 * p.val) = 6 ∧ Room s 1) ∧
    -- indexMissing
    (∃ (s : State) (p : Fin 24), uinMode s (2 * p.val) = 7 ∧ 2 *
        (match angleOf s p with | some a => s.get (fFUN_ANG_PPR a) | none => if (s.pair p).idx < 2 then 32767 else (s.pair p).between)
        ≤ (s.pair p).pulses ∧ ((s.uin (2 * p.val)).fault = false ∨ (s.uin (2 * p.val + 1)).fault = false) ∧ Room
        s 2) ∧
    -- indexEdge
    (∃ (s : State) (p : Fin 24) (k : Nat), uinMode s (2 * p.val) = 7) :=
   ⟨⟨run0.put (fFUN_UIN_CFG_MODE 3) 1, 3, 0x40C00000, by decide +kernel⟩,
    ⟨run0.setUin 3 { Uin.init with fault := true, good := 400 }, 3, by decide +kernel⟩,
    ⟨{ run0.put (fFUN_UIN_CFG_MODE 3) 5 with clk := { Clk.init with tick := 2000 } }, 3, by decide +kernel⟩,
    ⟨run0, 3, by decide +kernel⟩,
    ⟨run0.put (fFUN_UIN_CFG_MODE 4) 6, 2, by decide +kernel⟩,
    ⟨(run0.put (fFUN_UIN_CFG_MODE 4) 7).setPair 2 { UinPair.init with pulses := 65534 }, 2, by decide +kernel⟩,
    ⟨run0.put (fFUN_UIN_CFG_MODE 4) 7, 2, 5, by decide +kernel⟩⟩

/-- States and operands that meet the hypotheses of LossSensors. -/
theorem witness_LossSensors :
    -- lossKernel
    (∃ (s : State) (n : Fin 16) (peak rise gap : Nat), s.bit (fFUN_LOSS_CFG_EN n) = true ∧ s.get
        (fFUN_LOSS_CFG_DEAD n) ≤ gap ∧ 128 * s.get (fFUN_LOSS_CFG_A_MIN n) < 2 * peak ∧ peak < 32768 ∧ 128 *
        s.get (fFUN_LOSS_CFG_A_MIN n) ≤ peak ∧ peak ≤ 128 * s.get (fFUN_LOSS_CFG_A_MAX n) ∧ rise ≤ s.get
        (fFUN_LOSS_CFG_RISE_MAX n)) ∧
    -- lossOther
    (∃ (s : State) (n : Fin 16) (peak rise gap : Nat), s.bit (fFUN_LOSS_CFG_EN n) = true ∧ s.get
        (fFUN_LOSS_CFG_DEAD n) ≤ gap ∧ 128 * s.get (fFUN_LOSS_CFG_A_MIN n) < 2 * peak ∧ peak < 32768 ∧ (peak <
        128 * s.get (fFUN_LOSS_CFG_A_MIN n) ∨ 128 * s.get (fFUN_LOSS_CFG_A_MAX n) < peak ∨ s.get
        (fFUN_LOSS_CFG_RISE_MAX n) < rise)) ∧
    -- lossSat
    (∃ (s : State) (n : Fin 16) (peak rise gap : Nat), s.bit (fFUN_LOSS_CFG_EN n) = true ∧ s.get
        (fFUN_LOSS_CFG_DEAD n) ≤ gap ∧ 128 * s.get (fFUN_LOSS_CFG_A_MIN n) < 2 * peak ∧ 32768 ≤ peak ∧ Room s 1) ∧
    -- lossDead
    (∃ (s : State) (n : Fin 16) (peak rise gap : Nat), (s.bit (fFUN_LOSS_CFG_EN n) = false ∨ gap < s.get
        (fFUN_LOSS_CFG_DEAD n) ∨ 2 * peak ≤ 128 * s.get (fFUN_LOSS_CFG_A_MIN n))) ∧
    -- lossSilent
    (∃ (s : State) (n : Fin 16), s.bit (fFUN_LOSS_CFG_EN n) = true ∧ 1200000 ≤ (s.lossIn n).quiet ∧ (s.lossIn
        n).silent = false ∧ Room s 1) :=
   ⟨⟨putAll [(fFUN_LOSS_CFG_EN 1, 1), (fFUN_LOSS_CFG_A_MAX 1, 200), (fFUN_LOSS_CFG_DEAD 1, 1),
      (fFUN_LOSS_CFG_RISE_MAX 1, 9), (fFUN_LOSS_CFG_A_MIN 1, 1)] run0, 1, 300, 2, 5, by decide +kernel⟩,
    ⟨putAll [(fFUN_LOSS_CFG_EN 1, 1), (fFUN_LOSS_CFG_A_MAX 1, 200), (fFUN_LOSS_CFG_DEAD 1, 1),
      (fFUN_LOSS_CFG_RISE_MAX 1, 9), (fFUN_LOSS_CFG_A_MIN 1, 1)] run0, 1, 300, 20, 5, by decide +kernel⟩,
    ⟨putAll [(fFUN_LOSS_CFG_EN 1, 1), (fFUN_LOSS_CFG_A_MIN 1, 1), (fFUN_LOSS_CFG_DEAD 1, 1)] run0, 1, 32768, 20,
      5, by decide +kernel⟩,
    ⟨run0, 1, 300, 20, 5, by decide +kernel⟩,
    ⟨(run0.put (fFUN_LOSS_CFG_EN 1) 1).setLossIn 1 { LossIn.init with quiet := 1200000 }, 1, by decide +kernel⟩⟩

/-- States and operands that meet the hypotheses of ZeroCaptureAndLocks. -/
theorem witness_ZeroCaptureAndLocks :
    -- zeroStart
    (∃ (s : State) (req : Req), reqIsOem req = false ∧ s.bit fFUN_STATUS_ZERO_BUSY = false) ∧
    -- zeroBusy
    (∃ (s : State) (req : Req), (reqIsOem req = true ∨ s.bit fFUN_STATUS_ZERO_BUSY = true)) ∧
    -- zeroServed
    (∃ (s : State), s.bit fFUN_STATUS_ZERO_BUSY = true ∧ 400 ≤ s.fn.zeroTicks ∧ s.fn.zeroBad = false ∧ f32Lt
        (grainFlow s (f32Div s.fn.zeroSum (f32OfNat 400))) (f32Mul 0x3DCCCCCD#32 (s.getF fFUN_FLOW_FS)) = true ∧
        Room s 1) ∧
    -- zeroRefused
    (∃ (s : State), s.bit fFUN_STATUS_ZERO_BUSY = true ∧ 400 ≤ s.fn.zeroTicks ∧ (s.fn.zeroBad = true ∨ f32Lt
        (grainFlow s (f32Div s.fn.zeroSum (f32OfNat 400))) (f32Mul 0x3DCCCCCD#32 (s.getF fFUN_FLOW_FS)) = false)
        ∧ Room s 1) ∧
    -- lockReq
    (∃ (s : State) (req : Req) (bits : Word), reqIsOem req = false) ∧
    -- unlockReq
    (∃ (s : State) (req : Req) (bits : Word), reqIsOem req = false) ∧
    -- lockApply
    (∃ (s : State) (f : Fin 30), s.fn.lockSet.testBit f = true ∧ s.bitAt fFUN_LOCK_LOCK f = false ∧ Room s 1) :=
   ⟨⟨run0, .core 0, by decide +kernel⟩,
    ⟨run0, .oem 0, by decide +kernel⟩,
    ⟨{ (putAll [(fFUN_STATUS_ZERO_BUSY, 1), (fFUN_FLOW_FS, 0x41200000)] run0) with fn := { Fun.init with zeroTicks := 400 } },
      by decide +kernel⟩,
    ⟨{ (putAll [(fFUN_STATUS_ZERO_BUSY, 1)] run0) with fn := { Fun.init with zeroTicks := 400, zeroBad := true } },
      by decide +kernel⟩,
    ⟨run0, .core 0, 5, by decide +kernel⟩,
    ⟨run0, .core 0, 5, by decide +kernel⟩,
    ⟨{ run0 with fn := { Fun.init with lockSet := 4 } }, 2, by decide +kernel⟩⟩

/-- States and operands that meet the hypotheses of LoopEngineCommands. -/
theorem witness_LoopEngineCommands :
    -- snapReq
    (∃ (s : State) (req : Req) (lane : Lane), reqIsOem req = false ∧ reqIsApp req = false ∧ s.bit (fLE_SNAP_BUSY
        (laneIx lane)) = false) ∧
    -- snapBusy
    (∃ (s : State) (req : Req) (lane : Lane), (s.bit (fLE_SNAP_BUSY (laneIx lane)) = true ∨ reqIsOem req = true
        ∨ reqIsApp req = true)) ∧
    -- snapDone
    (∃ (s : State) (lane : Lane) (cells : List Host.Cell) (k : Nat), (s.loop (laneIx lane)).snapNew = some
        (cells, k) ∧ s.bit (fLE_SNAP_BUSY (laneIx lane)) = true) ∧
    -- loadClr
    (∃ (s : State) (req : Req) (lane : Lane), reqIsOem req = false ∧ reqIsApp req = false) ∧
    -- loadClrNoRight
    (∃ (s : State) (req : Req) (lane : Lane), (reqIsOem req = true ∨ reqIsApp req = true)) ∧
    -- warmEnd
    (∃ (s : State) (n : Fin 96), (s.rd32 (winAddr 0 n + 0x14)).toNat ≤ 1 ∧ (s.rd32 (winAddr 1 n + 0x14)).toNat ≤
        1) ∧
    -- chanRecovered
    (∃ (s : State) (n : Fin 96), s.mget (tSTATE (chAddr 0 n)) = 2 ∧ s.mget (tSTATE (chAddr 1 n)) = 2 ∧ s.mbit
        (uLASTING (chAddr 0 n)) = false ∧ s.mbit (uLASTING (chAddr 1 n)) = false ∧ 400 ≤ s.mget (uGOOD (chAddr 0
        n)) ∧ 400 ≤ s.mget (uGOOD (chAddr 1 n)) ∧ Room s 1) ∧
    -- chanOther
    (∃ (s : State) (n : Fin 96), ((∀ l, l < 2 → s.mget (tSTATE (chAddr l n)) = 2 ∧ s.mbit (uLASTING (chAddr l
        n)) = false ∧ s.mget (uGOOD (chAddr l n)) = 0 ∧ 400 ≤ tabGet (fun _ => 0) (s.loop l).otherGood n)) ∧
        Room s 2) ∧
    -- chanNotYet
    (∃ (s : State) (n : Fin 96), ((∀ l, l < 2 → s.mget (uGOOD (chAddr l n)) < 400 ∧ (s.mget (uGOOD (chAddr l n))
        ≠ 0 ∨ tabGet (fun _ => 0) (s.loop l).otherGood n < 400)))) ∧
    -- chanLasting
    (∃ (s : State) (n : Fin 96), (s.mget (tSTATE (chAddr 0 n)) ≠ 2 ∨ s.mbit (uLASTING (chAddr 0 n)) = true) ∧
        (s.mget (tSTATE (chAddr 1 n)) ≠ 2 ∨ s.mbit (uLASTING (chAddr 1 n)) = true)) ∧
    -- paneDeadline
    (∃ (s : State) (lane : Lane) (k : Fin 256) (cyc : Fin 20000), 17600 ≤ cyc.val ∧ Room s 1) ∧
    -- paneInTime
    (∃ (s : State) (lane : Lane) (k : Fin 256) (cyc : Fin 20000), cyc.val < 17600) ∧
    -- mailOne
    (∃ (s : State) (e : Nat) (v : F32) (ok : Bool) (k : Nat), appOn s = true ∧ s.mail.dests.contains e = true) ∧
    -- mailOther
    (∃ (s : State) (e : Nat) (v : F32) (ok : Bool) (k : Nat), (s.mail.dests.contains e = false ∨ appOn s =
        false)) ∧
    -- mailMore
    (∃ (s : State) (x : Nat × F32 × Bool × Nat) (xs : List (Nat × F32 × Bool × Nat)), appOn s = true) :=
   ⟨⟨run0, .core 4, .A, by decide +kernel⟩,
    ⟨run0.put (fLE_SNAP_BUSY 0) 1, .core 4, .A, by decide +kernel⟩,
    ⟨(run0.put (fLE_SNAP_BUSY 1) 1).setLoop 1 { Loop.init with snapNew := some ([(0x100000, 1)], 5) }, .B,
      [(0x100000, 1)], 5, by decide +kernel⟩,
    ⟨run0, .core 4, .B, by decide +kernel⟩,
    ⟨run0, .core 0, .B, by decide +kernel⟩,
    ⟨run0.wr32 (winAddr 1 3 + 0x14) 1, 3, by decide +kernel⟩,
    ⟨(((run0.mput (tSTATE (chAddr 0 3)) 2).mput (tSTATE (chAddr 1 3)) 2).mput (uGOOD (chAddr 0 3)) 400).mput
      (uGOOD (chAddr 1 3)) 400, 3, by decide +kernel⟩,
    ⟨((run0.mput (tSTATE (chAddr 0 3)) 2).mput (tSTATE (chAddr 1 3)) 2 |>.setLoop 0 { Loop.init with otherGood := [(3, 400)] }).setLoop
      1 { Loop.init with otherGood := [(3, 400)] }, 3, by decide +kernel⟩,
    ⟨run0, 3, by decide +kernel⟩,
    ⟨run0, 3, by decide +kernel⟩,
    ⟨run0, .B, 3, 17600, by decide +kernel⟩,
    ⟨run0, .B, 3, 17599, by decide +kernel⟩,
    ⟨{ run0 with mail := { Mail.init with dests := [800] }, rst := { Rst.init with next := 10, appUp := true } },
      800, 0x3F800000, true, 7, by decide +kernel⟩,
    ⟨run0, 800, 0x3F800000, true, 7, by decide +kernel⟩,
    ⟨{ run0 with rst := { Rst.init with next := 10, appUp := true } }, (800, 0x3F800000, true, 7), [],
      by decide +kernel⟩⟩

/-- States and operands that meet the hypotheses of LaneGiveUps. -/
theorem witness_LaneGiveUps :
    -- faultBoot
    (∃ (s : State) (lane : Lane) (k : Fin 7), k ≠ 0 ∧ s.bit fRST_STATUS_CLAIMS = false ∧ (s.lane (laneIx
        lane)).passed = true ∧ Room s 1) ∧
    -- faultStandby
    (∃ (s : State) (lane : Lane) (k : Fin 7), k ≠ 0 ∧ s.bit fRST_STATUS_CLAIMS = true ∧ laneState s (laneIx
        lane) = 1 ∧ (s.lane (laneIx lane)).halted = false ∧ s.bit fCLM_STATUS_LIMP = false ∧ s.bit
        fCLM_STATUS_HINGE_RUN = false ∧ (recentGiveUps s (laneIx lane)).length < 2 ∧ Room s 1) ∧
    -- faultActive
    (∃ (s : State) (lane : Lane) (k : Fin 7), k ≠ 0 ∧ s.bit fRST_STATUS_CLAIMS = true ∧ laneState s (laneIx
        lane) = 0 ∧ (s.lane (laneIx lane)).halted = false ∧ s.bit fCLM_STATUS_LIMP = false ∧ s.bit
        fCLM_STATUS_HINGE_RUN = false ∧ laneState s (1 - laneIx lane) = 1 ∧ (recentGiveUps s (laneIx
        lane)).length < 2 ∧ Room s 2) ∧
    -- faultLimp
    (∃ (s : State) (lane : Lane) (k : Fin 7), k ≠ 0 ∧ s.bit fRST_STATUS_CLAIMS = true ∧ laneState s (laneIx
        lane) = 0 ∧ (s.lane (laneIx lane)).halted = false ∧ s.bit fCLM_STATUS_LIMP = false ∧ s.bit
        fCLM_STATUS_HINGE_RUN = false ∧ 2 ≤ laneState s (1 - laneIx lane) ∧ (recentGiveUps s (laneIx
        lane)).length < 2 ∧ Room s 8) ∧
    -- recoveryStarts
    (∃ (s : State) (l : Fin 2), laneState s (1 - l.val) = 0 ∧ s.bit fCLM_STATUS_LIMP = false ∧ Room s 1) ∧
    -- faultBarred
    (∃ (s : State) (lane : Lane) (k : Fin 7), k ≠ 0 ∧ s.bit fRST_STATUS_CLAIMS = true ∧ laneState s (laneIx
        lane) = 1 ∧ (s.lane (laneIx lane)).halted = false ∧ s.bit fCLM_STATUS_LIMP = false ∧ s.bit
        fCLM_STATUS_HINGE_RUN = false ∧ (recentGiveUps s (laneIx lane)).length = 2 ∧ Room s 2) ∧
    -- faultNone
    (∃ (s : State) (lane : Lane) (k : Fin 7), s.bit fRST_STATUS_CLAIMS = true ∧ (laneState s (laneIx lane) = 3 ∨
        (s.lane (laneIx lane)).halted = true ∨ s.bit fCLM_STATUS_LIMP = true)) ∧
    -- testGuA
    (∃ (s : State) (req : Req), reqIsOem req = false ∧ laneUp s 0 = true ∧ laneUp s 1 = true ∧ (s.lane
        0).stateAt + 100000 ≤ s.clk.tick ∧ (s.lane 1).stateAt + 100000 ≤ s.clk.tick ∧ s.clm.disturb + 100000 ≤
        s.clk.tick) ∧
    -- testGuB
    (∃ (s : State) (req : Req), reqIsOem req = false ∧ laneUp s 0 = true ∧ laneUp s 1 = true ∧ (s.lane
        0).stateAt + 100000 ≤ s.clk.tick ∧ (s.lane 1).stateAt + 100000 ≤ s.clk.tick ∧ s.clm.disturb + 100000 ≤
        s.clk.tick) ∧
    -- testGuEarly
    (∃ (s : State) (req : Req), (s.clk.tick < s.clm.disturb + 100000 ∨ reqIsOem req = true)) ∧
    -- mismBelow
    (∃ (s : State) (c : Fin 64), ((s.jamb c).mism < 3 ∨ laneUp s 0 = false ∨ laneUp s 1 = false)) ∧
    -- mismGiveUp
    (∃ (s : State) (c : Fin 64), 3 ≤ (s.jamb c).mism ∧ laneUp s 0 = true ∧ laneUp s 1 = true) :=
   ⟨⟨run0.setLane 1 { LaneSt.init with passed := true }, .B, 2, by decide +kernel⟩,
    ⟨putAll [(fRST_STATUS_CLAIMS, 1), (fCLM_STATUS_STATE_B, 1), (fCLM_STATUS_STATE_A, 0), (fCLM_STATUS_CLAIM_B,
      8)] run0, .B, 2, by decide +kernel⟩,
    ⟨putAll [(fRST_STATUS_CLAIMS, 1), (fCLM_STATUS_STATE_B, 0), (fCLM_STATUS_CLAIM_B, 12), (fCLM_STATUS_STATE_A,
      1), (fCLM_STATUS_CLAIM_A, 8)] run0, .B, 2, by decide +kernel⟩,
    ⟨putAll [(fRST_STATUS_CLAIMS, 1), (fCLM_STATUS_STATE_B, 0), (fCLM_STATUS_CLAIM_B, 12), (fCLM_STATUS_STATE_A,
      3)] run0, .B, 2, by decide +kernel⟩,
    ⟨putAll [(fCLM_STATUS_STATE_B, 2), (fCLM_STATUS_STATE_A, 0)] run0, 1, by decide +kernel⟩,
    ⟨(putAll [(fRST_STATUS_CLAIMS, 1), (fCLM_STATUS_STATE_B, 1), (fCLM_STATUS_CLAIM_B, 8), (fCLM_STATUS_STATE_A,
      0)] run0).setLane 1 { LaneSt.init with giveUps := [0, 0] }, .B, 2, by decide +kernel⟩,
    ⟨putAll [(fRST_STATUS_CLAIMS, 1), (fCLM_STATUS_STATE_B, 3)] run0, .B, 2, by decide +kernel⟩,
    ⟨{ (putAll [(fCLM_STATUS_STATE_A, 0), (fCLM_STATUS_STATE_B, 1)] run0) with clk := { Clk.init with tick := 100000 } },
      .core 0, by decide +kernel⟩,
    ⟨{ (putAll [(fCLM_STATUS_STATE_A, 0), (fCLM_STATUS_STATE_B, 1)] run0) with clk := { Clk.init with tick := 100000 } },
      .core 0, by decide +kernel⟩,
    ⟨run0, .core 0, by decide +kernel⟩,
    ⟨run0, 5, by decide +kernel⟩,
    ⟨(putAll [(fCLM_STATUS_STATE_A, 0), (fCLM_STATUS_STATE_B, 1)] run0).setJamb 5 { Jamb.init with mism := 3 },
      5, by decide +kernel⟩⟩

/-- States and operands that meet the hypotheses of JambFrames. -/
theorem witness_JambFrames :
    -- frameHeld
    (∃ (s : State) (d : Fin 13) (link : Lane) (w0 w1 w2 : Word) (cyc : Fin 20000), (12 ≤ d.val ∨ s.dies.dieOff =
        false) ∧ isDrop w0 w1 (laneIx link) = false ∧ frameFault s d (laneIx link) cyc w0 w1 w2 = 0) ∧
    -- frameBad
    (∃ (s : State) (d : Fin 13) (link : Lane) (w0 w1 w2 : Word) (cyc : Fin 20000), (12 ≤ d.val ∨ s.dies.dieOff =
        false) ∧ isDrop w0 w1 (laneIx link) = false ∧ frameFault s d (laneIx link) cyc w0 w1 w2 ≠ 0 ∧ s.bit
        fCLM_STATUS_HINGE_RUN = false ∧ Room s 1) ∧
    -- frameDrop
    (∃ (s : State) (d : Fin 13) (link : Lane) (w0 w1 w2 : Word) (cyc : Fin 20000), (12 ≤ d.val ∨ s.dies.dieOff =
        false) ∧ isDrop w0 w1 (laneIx link) = true ∧ frameCrc w0 w1 = w2.extractLsb' 0 16) ∧
    -- frameNoDie
    (∃ (s : State) (d : Fin 13) (link : Lane) (w0 w1 w2 : Word) (cyc : Fin 20000), d.val < 12 ∧ s.dies.dieOff =
        true) ∧
    -- dropFrame
    (∃ (s : State) (d : Fin 13) (lane : Lane), (12 ≤ d.val ∨ s.dies.dieOff = false)) ∧
    -- silence
    (∃ (s : State) (d : Fin 13) (lane : Lane), (12 ≤ d.val ∨ s.dies.dieOff = false)) ∧
    -- noclaim
    (∃ (s : State) (c : Fin 48) (t0 : Nat), (s.jamb c).timer = some t0 ∧ (tickRuns s = false ∨ t0 + 2 ≤
        s.clk.tick)) ∧
    -- noclaimIdle
    (∃ (s : State) (c : Fin 48), (s.jamb c).timer.all (fun t0 => tickRuns s && decide (s.clk.tick < t0 + 2)) =
        true) ∧
    -- holdEnd
    (∃ (s : State) (c : Fin 64), (s.jamb c).pol = true ∧ (s.jamb c).off = false ∧ (if c.val < 48 then s.get
        (fCLM_POL_POLICY c) else s.get (fCAN_TXS_CFG_POLICY (c - 48))) = 0 ∧ (tickRuns s = false ∨ (s.jamb
        c).polAt + 20 * (if c.val < 48 then s.get (fCLM_POL_HOLD_WIN c) else s.get (fCAN_TXS_CFG_HOLD_WIN (c -
        48))) ≤ s.clk.tick)) :=
   ⟨⟨run0, 0, .A, 0x3F800000, frameWord1 2 12 0 true false true 1, (frameCrc 0x3F800000 (frameWord1 2 12 0 true
      false true 1)).setWidth 32, 100, by decide +kernel⟩,
    ⟨run0, 0, .A, 0x3F800000, frameWord1 2 12 0 true false true 1, 0, 100, by decide +kernel⟩,
    ⟨run0, 0, .A, 0, 0xFF, (frameCrc 0 0xFF).setWidth 32, 100, by decide +kernel⟩,
    ⟨{ run0 with dies := { Dies.init with dieOff := true } }, 0, .A, 0, 0, 0, 100, by decide +kernel⟩,
    ⟨(putAll [(fRST_STATUS_CLAIMS, 1), (fCLM_STATUS_STATE_A, 1)] run0).setJamb 5 { Jamb.init with sel := 2, ever := true, val := 7 },
      1, .B, by decide +kernel⟩,
    ⟨(putAll [(fRST_STATUS_CLAIMS, 1), (fCLM_STATUS_STATE_A, 1)] run0).setJamb 5 { Jamb.init with sel := 2, ever := true, val := 7 },
      1, .B, by decide +kernel⟩,
    ⟨({ run0 with clk := { Clk.init with tick := 2 } }).setJamb 5 { Jamb.init with timer := some 0, ever := true },
      5, 0, by decide +kernel⟩,
    ⟨run0, 5, by decide +kernel⟩,
    ⟨(run0.put (fCAN_TXS_CFG_POLICY 1) 0).setJamb 49 { Jamb.init with pol := true }, 49, by decide +kernel⟩⟩

/-- States and operands that meet the hypotheses of LaneRecovery. -/
theorem witness_LaneRecovery :
    -- recStep12
    (∃ (s : State) (lane : Lane), laneState s (laneIx lane) = 2 ∧ (s.lane (laneIx lane)).halted = false ∧
        ((s.lane (laneIx lane)).step = 2 ∨ ((s.lane (laneIx lane)).step = 1 ∧ s.upd.phase ≠ 1 ∧ s.upd.phase ≠ 3)
        ∨ ((s.lane (laneIx lane)).step = 4 ∧ s.clk.tick % 400 = 0))) ∧
    -- recStepNew
    (∃ (s : State) (lane : Lane), laneState s (laneIx lane) = 2 ∧ (s.lane (laneIx lane)).halted = false ∧
        (s.lane (laneIx lane)).step = 1 ∧ (s.upd.phase = 1 ∨ s.upd.phase = 3)) ∧
    -- recCopy
    (∃ (s : State) (lane : Lane), laneState s (laneIx lane) = 2 ∧ (s.lane (laneIx lane)).halted = false ∧
        (s.lane (laneIx lane)).step = 3 ∧ laneState s (1 - laneIx lane) = 0 ∧ Memory.wf s.mem) ∧
    -- recFail
    (∃ (s : State) (lane : Lane), laneState s (laneIx lane) = 2 ∧ (s.lane (laneIx lane)).halted = false ∧
        ((s.lane (laneIx lane)).step = 2 ∨ ((s.lane (laneIx lane)).step = 1 ∧ (s.upd.phase = 1 ∨ s.upd.phase =
        3)) ∨ ((s.lane (laneIx lane)).step = 5 ∧ (s.lane (laneIx lane)).mism = true))) ∧
    -- recDone
    (∃ (s : State) (lane : Lane), laneState s (laneIx lane) = 2 ∧ laneState s (1 - laneIx lane) = 0 ∧ (s.lane
        (laneIx lane)).halted = false ∧ (s.lane (laneIx lane)).step = 5 ∧ (s.lane (laneIx lane)).mism = false ∧
        s.clk.tick % 400 = 0 ∧ (s.lane (laneIx lane)).since + 400 ≤ s.clk.tick ∧ s.upd.phase = 0 ∧ Room s 1) ∧
    -- recWaits
    (∃ (s : State) (lane : Lane), (laneState s (laneIx lane) ≠ 2 ∨ (s.lane (laneIx lane)).step ≠ 5 ∨ s.clk.tick
        % 400 ≠ 0 ∨ s.clk.tick < (s.lane (laneIx lane)).since + 400 ∨ (s.lane (laneIx lane)).mism = true)) :=
   ⟨⟨(run0.put fCLM_STATUS_STATE_B 2).setLane 1 { LaneSt.init with step := 2 }, .B, by decide +kernel⟩,
    ⟨{ (run0.put fCLM_STATUS_STATE_B 2).setLane 1 { LaneSt.init with step := 1 } with upd := { Upd.init with phase := 1 } },
      .B, by decide +kernel⟩,
    ⟨((putAll [(fCLM_STATUS_STATE_B, 2), (fCLM_STATUS_STATE_A, 0)] run0).setLane 1 { LaneSt.init with step := 3 }).wr8
      5 7, .B, by decide +kernel⟩,
    ⟨(run0.put fCLM_STATUS_STATE_B 2).setLane 1 { LaneSt.init with step := 2 }, .B, by decide +kernel⟩,
    ⟨({ (putAll [(fCLM_STATUS_STATE_B, 2), (fCLM_STATUS_STATE_A, 0)] run0) with clk := { Clk.init with tick := 800 } }).setLane
      1 { LaneSt.init with step := 5 }, .B, by decide +kernel⟩,
    ⟨run0, .B, by decide +kernel⟩⟩

/-- States and operands that meet the hypotheses of LaneSwaps. -/
theorem witness_LaneSwaps :
    -- takeBack
    (∃ (s : State), laneState s (homeLane s) = 1 ∧ laneState s (1 - homeLane s) = 0 ∧ (s.lane (homeLane
        s)).stateAt + 100000 ≤ s.clk.tick ∧ s.clm.disturb + 100000 ≤ s.clk.tick ∧ s.bit fCLM_STATUS_HINGE_RUN =
        false ∧ (s.clk.tick + 1) % 400 ≠ 200) ∧
    -- takeBackAnnounced
    (∃ (s : State), laneState s (homeLane s) = 1 ∧ laneState s (1 - homeLane s) = 0 ∧ (s.lane (homeLane
        s)).stateAt + 100000 ≤ s.clk.tick ∧ s.clm.disturb + 100000 ≤ s.clk.tick ∧ s.bit fCLM_STATUS_HINGE_RUN =
        false ∧ (s.clk.tick + 1) % 400 = 200 ∧ s.clm.announced = false) ∧
    -- takeBackEarly
    (∃ (s : State), (s.clk.tick < (s.lane (homeLane s)).stateAt + 100000 ∨ s.clk.tick < s.clm.disturb + 100000)) ∧
    -- hingeNow
    (∃ (s : State) (req : Req), reqIsOem req = false ∧ s.bit fRST_STATUS_CLAIMS = true ∧ s.bit
        fCLM_STATUS_HINGE_RUN = false ∧ hingeWhyAt s s.clk.tick = 0 ∧ (s.clk.tick + 1) % 400 ≠ 200) ∧
    -- hingeDefer
    (∃ (s : State) (req : Req), reqIsOem req = false ∧ s.bit fRST_STATUS_CLAIMS = true ∧ s.bit
        fCLM_STATUS_HINGE_RUN = false ∧ hingeWhyAt s s.clk.tick ≠ 0 ∧ s.bit fCLM_HINGE_STAT_DEFERRED = false ∧
        (s.clk.tick + 1) % 400 ≠ 200 ∧ Room s 1) ∧
    -- hingeWhys
    (∃ (s : State), s.bit fCLM_STATUS_LIMP = false ∧ laneState s (homeLane s) = 0 ∧ laneState s (1 - homeLane s)
        = 1 ∧ (s.lane (1 - homeLane s)).stateAt + 100000 ≤ s.clk.tick) ∧
    -- hingeSwapDue
    (∃ (s : State), s.bit fRST_STATUS_CLAIMS = true ∧ s.bit fCLM_STATUS_HINGE_RUN = false ∧ s.clm.hinge = false
        ∧ (s.bit fCLM_HINGE_STAT_DEFERRED = true ∨ s.get64 fCLM_HINGE_NEXT_LO.addr ≤ s.clk.tick) ∧ hingeWhyAt s
        s.clk.tick = 0 ∧ (s.clk.tick + 1) % 400 ≠ 200) ∧
    -- hingeSwapNotDue
    (∃ (s : State), s.bit fCLM_HINGE_STAT_DEFERRED = false ∧ s.clk.tick < s.get64 fCLM_HINGE_NEXT_LO.addr) ∧
    -- switchTakeBack
    (∃ (s : State), s.clk.tick % 400 = 200 ∧ s.clm.announced = true ∧ laneUp s 0 = true ∧ laneUp s 1 = true ∧
        s.bit fCLM_STATUS_HINGE_RUN = false ∧ s.clm.takeBack = true ∧ Room s 1) ∧
    -- switchHinge
    (∃ (s : State), s.clk.tick % 400 = 200 ∧ s.clm.announced = true ∧ laneUp s 0 = true ∧ laneUp s 1 = true ∧
        s.bit fCLM_STATUS_HINGE_RUN = false ∧ s.clm.takeBack = false ∧ s.upd.phase ≠ 2 ∧ s.clm.haltNext = none) ∧
    -- switchNone
    (∃ (s : State), (s.clk.tick % 400 ≠ 200 ∨ s.clm.announced = false)) ∧
    -- hingeFailed
    (∃ (s : State), s.bit fCLM_STATUS_HINGE_RUN = true ∧ s.clm.hingeFail ≠ 0 ∧ Room s 1) ∧
    -- hingePassed
    (∃ (s : State), s.bit fCLM_STATUS_HINGE_RUN = true ∧ s.clm.hingeFail = 0 ∧ s.clm.hingeAt + 400 ≤ s.clk.tick
        ∧ Room s 1) :=
   ⟨⟨{ (putAll [(fCLM_STATUS_STATE_A, 1), (fCLM_STATUS_STATE_B, 0), (fCLM_STATUS_HOME, 0)] run0) with clk := { Clk.init with tick := 100000 } },
      by decide +kernel⟩,
    ⟨{ (putAll [(fCLM_STATUS_STATE_A, 1), (fCLM_STATUS_STATE_B, 0), (fCLM_STATUS_HOME, 0), (fCLM_STATUS_CLAIM_A, 8), (fCLM_STATUS_CLAIM_B, 12)] run0) with clk := { Clk.init with tick := 100199 } },
      by decide +kernel⟩,
    ⟨run0, by decide +kernel⟩,
    ⟨{ (putAll [(fCLM_STATUS_STATE_B, 1), (fCLM_STATUS_STATE_A, 0), (fRST_STATUS_CLAIMS, 1)] run0) with clk := { Clk.init with tick := 100000 } },
      .core 0, by decide +kernel⟩,
    ⟨(putAll [(fCLM_STATUS_STATE_B, 3), (fCLM_STATUS_STATE_A, 0), (fRST_STATUS_CLAIMS, 1)] run0), .core 0,
      by decide +kernel⟩,
    ⟨{ (putAll [(fCLM_STATUS_STATE_B, 1), (fCLM_STATUS_STATE_A, 0), (fRST_STATUS_CLAIMS, 1)] run0) with clk := { Clk.init with tick := 100000 } },
      by decide +kernel⟩,
    ⟨{ (putAll [(fCLM_STATUS_STATE_B, 1), (fCLM_STATUS_STATE_A, 0), (fRST_STATUS_CLAIMS, 1)] run0) with clk := { Clk.init with tick := 100000 } },
      by decide +kernel⟩,
    ⟨run0.put (wordAt fCLM_HINGE_NEXT_LO.addr) 5, by decide +kernel⟩,
    ⟨{ (putAll [(fCLM_STATUS_STATE_A, 1), (fCLM_STATUS_STATE_B, 0)] run0) with clk := { Clk.init with tick := 200 }, clm := { Clm.init with announced := true, takeBack := true } },
      by decide +kernel⟩,
    ⟨{ (putAll [(fCLM_STATUS_STATE_A, 1), (fCLM_STATUS_STATE_B, 0)] run0) with clk := { Clk.init with tick := 200 }, clm := { Clm.init with announced := true } },
      by decide +kernel⟩,
    ⟨run0, by decide +kernel⟩,
    ⟨{ (run0.put fCLM_STATUS_HINGE_RUN 1) with clm := { Clm.init with hingeFail := 3 } }, by decide +kernel⟩,
    ⟨{ (putAll [(fCLM_STATUS_HINGE_RUN, 1), (fCLM_STATUS_STATE_A, 1), (fCLM_STATUS_STATE_B, 0)] run0) with clk := { Clk.init with tick := 600 }, clm := { Clm.init with hingeAt := 200 } },
      by decide +kernel⟩⟩

/-- States and operands that meet the hypotheses of ClaimsEnabling. -/
theorem witness_ClaimsEnabling :
    -- claimsMgr
    (∃ (s : State), claimsReady s = true ∧ s.straps.manager = true ∧ s.ecn.firstAt.isSome = true ∧ (expected
        s).all (isJoined s) = true) ∧
    -- claimsMgrWaits
    (∃ (s : State), s.straps.manager = true ∧ (s.ecn.firstAt = none ∨ (expected s).all (isJoined s) = false)) ∧
    -- claimsBoth
    (∃ (s : State) (k : Fin 2), homeLane s = k.val ∧ (s.lane 0).passed = true ∧ (s.lane 1).passed = true ∧ Room
        s 1) ∧
    -- claimsOneLane
    (∃ (s : State) (k : Fin 2), (s.lane k).passed = true ∧ (s.lane (1 - k.val)).passed = false ∧ homeLane s < 2
        ∧ s.bit fCLM_STATUS_LIMP = false ∧ s.bit fCLM_STATUS_HINGE_RUN = false ∧ (recentGiveUps s (1 -
        k.val)).length < 2 ∧ Room s 4) ∧
    -- claimsWorker
    (∃ (s : State), claimsReady s = true ∧ s.straps.manager = false ∧ ecnJoin s = 2 ∧ s.ecn.joinedAt + 1 ≤
        s.clk.tick ∧ s.ecn.replay = false) ∧
    -- claimsNotReady
    (∃ (s : State), claimsReady s = false) ∧
    -- joinWait
    (∃ (s : State) (t0 : Nat), claimsReady s = true ∧ s.straps.manager = true ∧ s.ecn.firstAt = some t0 ∧ t0 +
        20 * s.get fECN_CFG_JOIN_WAIT ≤ s.clk.tick) ∧
    -- joinWaits
    (∃ (s : State) (t0 : Nat), s.straps.manager = true ∧ s.ecn.firstAt = some t0 ∧ s.clk.tick < t0 + 20 * s.get
        fECN_CFG_JOIN_WAIT) :=
   ⟨⟨{ (putAll [(fCLM_STATUS_HOME, 0)] run0) with rst := { Rst.init with next := 9 }, ecn := { Ecn.init with firstAt := some 0 }, clm := { Clm.init with laneA := { LaneSt.init with passed := true }, laneB := { LaneSt.init with passed := true } } },
      by decide +kernel⟩,
    ⟨run0, by decide +kernel⟩,
    ⟨{ (putAll [(fCLM_STATUS_HOME, 0)] run0) with rst := { Rst.init with next := 9 }, ecn := { Ecn.init with firstAt := some 0 }, clm := { Clm.init with laneA := { LaneSt.init with passed := true }, laneB := { LaneSt.init with passed := true } } },
      0, by decide +kernel⟩,
    ⟨{ (putAll [(fCLM_STATUS_HOME, 0)] run0) with rst := { Rst.init with next := 9 }, clm := { Clm.init with laneB := { LaneSt.init with passed := true } } },
      1, by decide +kernel⟩,
    ⟨{ (run0.put fECN_STATUS_JOIN 2) with straps := ⟨false, false, 1⟩, rst := { Rst.init with next := 9 }, clk := { Clk.init with tick := 1 } },
      by decide +kernel⟩,
    ⟨run0, by decide +kernel⟩,
    ⟨{ (putAll [(fECN_CFG_EXPECT, 2), (fECN_CFG_JOIN_WAIT, 1)] run0) with rst := { Rst.init with next := 9 }, ecn := { Ecn.init with firstAt := some 0 }, clk := { Clk.init with tick := 20 } },
      0, by decide +kernel⟩,
    ⟨{ (putAll [(fECN_CFG_JOIN_WAIT, 1)] run0) with ecn := { Ecn.init with firstAt := some 0 } }, 0,
      by decide +kernel⟩⟩

/-- States and operands that meet the hypotheses of ValveProfilePhases. -/
theorem witness_ValveProfilePhases :
    -- profileRise
    (∃ (s : State) (n : Fin 16) (v : F32), (s.vlv n).modeChg = false ∧ (s.vlv n).released = false ∧ s.get
        (fVLV_CH_MODE_MODE n) = 1 ∧ stageCmd s n = some v ∧ vlvBad v = false ∧ f32Le 0x3F000000#32 v = true ∧
        ((s.vlv n).on = false ∨ v ≠ (s.vlv n).cmd) ∧ vlvLatched s n = false ∧ vlvHot s n = false) ∧
    -- profileSame
    (∃ (s : State) (n : Fin 16) (v : F32), (s.vlv n).modeChg = false ∧ (s.vlv n).released = false ∧ s.get
        (fVLV_CH_MODE_MODE n) = 1 ∧ stageCmd s n = some v ∧ f32Le 0x3F000000#32 v = true ∧ vlvBad v = false ∧
        (s.vlv n).on = true ∧ v = (s.vlv n).cmd ∧ vlvLatched s n = false ∧ vlvHot s n = false) ∧
    -- profileFall
    (∃ (s : State) (n : Fin 16) (v : F32), (s.vlv n).modeChg = false ∧ (s.vlv n).released = false ∧ s.get
        (fVLV_CH_MODE_MODE n) = 1 ∧ stageCmd s n = some v ∧ vlvBad v = false ∧ f32Le 0x3F000000#32 v = false ∧
        vlvLatched s n = false ∧ vlvHot s n = false) ∧
    -- valveBadCommand
    (∃ (s : State) (n : Fin 16) (v : F32), (s.vlv n).modeChg = false ∧ (s.vlv n).released = false ∧ s.get
        (fVLV_CH_MODE_MODE n) = 1 ∧ stageCmd s n = some v ∧ vlvBad v = true ∧ v ≠ (s.vlv n).cmd ∧ vlvPhase s n =
        0 ∧ vlvLatched s n = false ∧ vlvHot s n = false ∧ Room s 1) ∧
    -- boostServed
    (∃ (s : State) (bank : Fin 4) (n : Nat) (us : Fin 50) (flow : RailIn) (drawn : List F32), n / 4 = bank ∧
        bankRefuses s bank = false ∧ ((∀ i : Fin 4, (s.vlv (4 * bank + i)).wait.isSome = decide (4 * bank + i =
        n))) ∧ boostWaited s n us ≤ deferUs s n ∧ f32Le (eResNow s n) (eFree s bank (railVolt (railAt s bank us
        flow)) drawn) = true ∧ Room s 1) ∧
    -- boostBlocked
    (∃ (s : State) (bank : Fin 4) (n : Nat) (us : Fin 50) (flow : RailIn) (drawn : List F32), n / 4 = bank ∧
        bankRefuses s bank = false ∧ (s.vlv n).wait.isSome = true ∧ ((∀ i : Fin 4, 4 * bank + i ≠ n → (s.vlv (4
        * bank + i)).wait.isSome = true → s.get (fVLV_CH_MODE_PRIO (4 * bank + i)) < s.get (fVLV_CH_MODE_PRIO
        n))) ∧ boostWaited s n us < deferUs s n ∧ f32Le (eResNow s n) (eFree s bank (railVolt (railAt s bank us
        flow)) drawn) = false) ∧
    -- boostBankRefused
    (∃ (s : State) (bank : Fin 4) (us : Fin 50) (flow : RailIn) (drawn : List F32), bankRefuses s bank = true) ∧
    -- boostRefused
    (∃ (s : State) (n : Fin 16) (us : Fin 50) (flow : RailIn) (drawn : List F32), (s.vlv n).wait.isSome = true ∧
        deferUs s n ≤ boostWaited s n us ∧ Room s 1) ∧
    -- boostStillWaits
    (∃ (s : State) (n : Fin 16) (us : Fin 50) (flow : RailIn) (drawn : List F32), ((s.vlv n).wait = none ∨
        boostWaited s n us < deferUs s n)) ∧
    -- boostEndPeak
    (∃ (s : State) (n : Fin 16) (us : Fin 50) (flow : RailIn), vlvPhase s n = 2 ∧ ((s.vlv n).late = true ∨
        (pTpkMin (s.vlv n) ≤ usAt s us - (s.vlv n).boostAt ∧ usAt s us - (s.vlv n).boostAt ≤ pTpkMax (s.vlv
        n)))) ∧
    -- boostEndOut
    (∃ (s : State) (n : Fin 16) (us : Fin 50) (flow : RailIn), vlvPhase s n = 2 ∧ (s.vlv n).late = false ∧ (usAt
        s us - (s.vlv n).boostAt < pTpkMin (s.vlv n) ∨ pTpkMax (s.vlv n) < usAt s us - (s.vlv n).boostAt) ∧ Room
        s 1) ∧
    -- boostEndTime
    (∃ (s : State) (n : Fin 16) (us : Fin 50) (flow : RailIn), vlvPhase s n = 2 ∧ pTBoost (s.vlv n) ≤ usAt s us
        - (s.vlv n).boostAt) ∧
    -- boostEndNotYet
    (∃ (s : State) (n : Fin 16) (us : Fin 50) (r : Bool) (flow : RailIn), (vlvPhase s n ≠ 2 ∨ (r = false ∧ usAt
        s us - (s.vlv n).boostAt < pTBoost (s.vlv n)))) ∧
    -- peakLate
    (∃ (s : State) (n : Fin 16) (us : Fin 50), vlvPhase s n = 3 ∧ (s.vlv n).peaked = false ∧ ((s.vlv n).late =
        true ∨ (pTpkMin (s.vlv n) ≤ usAt s us - (s.vlv n).boostAt ∧ usAt s us - (s.vlv n).boostAt ≤ pTpkMax
        (s.vlv n)))) ∧
    -- peakLateOut
    (∃ (s : State) (n : Fin 16) (us : Fin 50), vlvPhase s n = 3 ∧ (s.vlv n).peaked = false ∧ (s.vlv n).late =
        false ∧ (usAt s us - (s.vlv n).boostAt < pTpkMin (s.vlv n) ∨ pTpkMax (s.vlv n) < usAt s us - (s.vlv
        n).boostAt) ∧ Room s 1) ∧
    -- peakMissing
    (∃ (s : State) (n : Fin 16) (us : Fin 50), 2 ≤ vlvPhase s n ∧ vlvPhase s n ≤ 4 ∧ (s.vlv n).peaked = false ∧
        (s.vlv n).late = false ∧ (s.vlv n).boostAt + 2 * pTpkMax (s.vlv n) ≤ usAt s us ∧ Room s 1) ∧
    -- peakNothing
    (∃ (s : State) (n : Fin 16) (us : Fin 50), (vlvPhase s n < 2 ∨ 4 < vlvPhase s n ∨ (s.vlv n).peaked = true ∨
        (s.vlv n).late = true ∨ usAt s us < (s.vlv n).boostAt + 2 * pTpkMax (s.vlv n))) ∧
    -- peakLateNothing
    (∃ (s : State) (n : Fin 16) (us : Fin 50), (vlvPhase s n ≠ 3 ∨ (s.vlv n).peaked = true)) ∧
    -- motKink
    (∃ (s : State) (n : Fin 16) (k : Nat), vlvPhase s n = 4 ∧ (s.vlv n).motWait = true ∧ pMotMin (s.vlv n) ≤ k ∧
        k ≤ pMotMax (s.vlv n)) ∧
    -- motNoKink
    (∃ (s : State) (n : Fin 16) (k : Nat), (vlvPhase s n ≠ 4 ∨ (s.vlv n).motWait = false ∨ k < pMotMin (s.vlv n)
        ∨ pMotMax (s.vlv n) < k)) ∧
    -- motTimeout
    (∃ (s : State) (n : Fin 16) (us : Fin 50), 2 ≤ vlvPhase s n ∧ vlvPhase s n ≤ 4 ∧ (s.vlv n).motWait = true ∧
        (s.vlv n).boostAt + pMotMax (s.vlv n) ≤ usAt s us ∧ Room s 1) ∧
    -- motNothing
    (∃ (s : State) (n : Fin 16) (us : Fin 50), (vlvPhase s n < 2 ∨ 4 < vlvPhase s n ∨ (s.vlv n).motWait = false
        ∨ usAt s us < (s.vlv n).boostAt + pMotMax (s.vlv n))) :=
   ⟨⟨wJamb 5 0x3F800000 (putAll [(fVLV_CH_MODE_MODE 5, 1)] run0), 5, 0x3F800000, by decide +kernel⟩,
    ⟨(wJamb 5 0x3F800000 (putAll [(fVLV_CH_MODE_MODE 5, 1)] run0)).setVlv 5 { VlvCh.init with cmd := 0x3F800000, on := true },
      5, 0x3F800000, by decide +kernel⟩,
    ⟨wJamb 5 0 (putAll [(fVLV_CH_MODE_MODE 5, 1), (fVLV_CH_STAT_PHASE 5, 4)] run0), 5, 0, by decide +kernel⟩,
    ⟨wJamb 5 0x7FC00000 (putAll [(fVLV_CH_MODE_MODE 5, 1)] run0), 5, 0x7FC00000, by decide +kernel⟩,
    ⟨((putAll [(fVLV_BANK_CFG_V_BOOST 1, 60), (fVLV_CH_CUR_I_PEAK 5, 100), (fVLV_CH_PROF_T_BOOST 5, 200)]
      run0).setVlv 5 { VlvCh.init with wait := some 0, reqAt := 0 }).setRail 1 ⟨168750000, 0, 0⟩, 1, 5, 0, ⟨0,
      0⟩, [], by decide +kernel⟩,
    ⟨(putAll [(fVLV_BANK_CFG_V_BOOST 1, 60), (fVLV_CH_CUR_I_PEAK 5, 100), (fVLV_CH_PROF_T_BOOST 5, 200),
      (fVLV_CH_CUR_DEFER_WIN 5, 10)] run0).setVlv 5 { VlvCh.init with wait := some 0, reqAt := 0 }, 1, 5, 0, ⟨0,
      0⟩, [], by decide +kernel⟩,
    ⟨{ (run0.setVlv 5 { VlvCh.init with wait := some 0 }) with dies := { (run0.setVlv 5 { VlvCh.init with wait := some 0 }).dies with loadOff := true } },
      1, 0, ⟨0, 0⟩, [], by decide +kernel⟩,
    ⟨({ (putAll [(fVLV_CH_CUR_DEFER_WIN 5, 1)] run0) with clk := { Clk.init with tick := 2 } }).setVlv 5 { VlvCh.init with wait := some 0 },
      5, 0, ⟨0, 0⟩, [], by decide +kernel⟩,
    ⟨run0, 5, 0, ⟨0, 0⟩, [], by decide +kernel⟩,
    ⟨(run0.put (fVLV_CH_STAT_PHASE 5) 2).setVlv 5 { VlvCh.init with prof := [0, 0xFFFF0000, 0, 0, 0] }, 5, 0,
      ⟨0, 0⟩, by decide +kernel⟩,
    ⟨(run0.put (fVLV_CH_STAT_PHASE 5) 2).setVlv 5 { VlvCh.init with prof := [0, 0xFFFF0000, 0, 5, 0] }, 5, 0,
      ⟨0, 0⟩, by decide +kernel⟩,
    ⟨(run0.put (fVLV_CH_STAT_PHASE 5) 2).setVlv 5 { VlvCh.init with prof := [0, 0xFFFF0000, 0, 0, 0] }, 5, 0,
      ⟨0, 0⟩, by decide +kernel⟩,
    ⟨run0, 5, 0, true, ⟨0, 0⟩, by decide +kernel⟩,
    ⟨run0.put (fVLV_CH_STAT_PHASE 5) 3, 5, 0, by decide +kernel⟩,
    ⟨(run0.put (fVLV_CH_STAT_PHASE 5) 3).setVlv 5 { VlvCh.init with prof := [0, 0, 0, 5, 0] }, 5, 0,
      by decide +kernel⟩,
    ⟨run0.put (fVLV_CH_STAT_PHASE 5) 3, 5, 0, by decide +kernel⟩,
    ⟨run0, 5, 0, by decide +kernel⟩,
    ⟨run0, 5, 0, by decide +kernel⟩,
    ⟨(run0.put (fVLV_CH_STAT_PHASE 5) 4).setVlv 5 { VlvCh.init with motWait := true }, 5, 0, by decide +kernel⟩,
    ⟨run0, 5, 0, by decide +kernel⟩,
    ⟨(run0.put (fVLV_CH_STAT_PHASE 5) 4).setVlv 5 { VlvCh.init with motWait := true }, 5, 0, by decide +kernel⟩,
    ⟨run0, 5, 0, by decide +kernel⟩⟩

/-- States and operands that meet the hypotheses of ValveFaults. -/
theorem witness_ValveFaults :
    -- vlvFaultPass
    (∃ (s : State) (n : Fin 16) (code : Nat), (windowAdd s (s.vlv n).faults (vlvKcnt s n) (vlvW s n)).2.2 =
        false) ∧
    -- vlvFaultLast
    (∃ (s : State) (n : Fin 16) (code : Nat), (windowAdd s (s.vlv n).faults (vlvKcnt s n) (vlvW s n)).2.2 = true
        ∧ s.get fUPD_STATUS_STATE ≠ 5 ∧ Room s 1) ∧
    -- vlvOpen
    (∃ (s : State) (n : Fin 16) (test : Bool) (meas : F32), ((test = false ∧ (vlvPhase s n = 2 ∨ vlvPhase s n =
        3) ∧ 20 ≤ pIPeak (s.vlv n) ∧ f32Lt meas (f32OfRatio false 3 10) = true) ∨ (test = true ∧ s.bit
        (fVLV_CH_MODE_OL_TEST n) = true ∧ (vlvPhase s n = 0 ∨ vlvPhase s n = 7) ∧ f32Lt (f32OfNat 20) meas =
        true)) ∧ vlvLatched s n = false ∧ Room s 1) ∧
    -- vlvNotOpen
    (∃ (s : State) (n : Fin 16) (test : Bool) (meas : F32), ((test = false ∧ (¬(vlvPhase s n = 2 ∨ vlvPhase s n
        = 3) ∨ pIPeak (s.vlv n) < 20 ∨ f32Lt meas (f32OfRatio false 3 10) = false)) ∨ (test = true ∧ (s.bit
        (fVLV_CH_MODE_OL_TEST n) = false ∨ ¬(vlvPhase s n = 0 ∨ vlvPhase s n = 7) ∨ f32Lt (f32OfNat 20) meas =
        false)))) ∧
    -- vlvOc
    (∃ (s : State) (n : Fin 16) (i : F32), f32Lt (f32OfNat 15) i = true ∧ Room s 1) ∧
    -- vlvNoOc
    (∃ (s : State) (n : Fin 16) (i : F32), f32Lt (f32OfNat 15) i = false) ∧
    -- holdLow
    (∃ (s : State) (n : Fin 16) (i : F32), vlvPhase s n = 4 ∧ 20 ≤ (s.vlv n).lowTicks ∧ Room s 1) ∧
    -- holdNotLow
    (∃ (s : State) (n : Fin 16) (i : F32), (vlvPhase s n ≠ 4 ∨ (s.vlv n).lowTicks < 20)) ∧
    -- propFault
    (∃ (s : State) (n : Fin 16), vlvPhase s n = 5 ∧ 400 ≤ (s.vlv n).outTicks ∧ Room s 1) ∧
    -- propNoFault
    (∃ (s : State) (n : Fin 16), (vlvPhase s n ≠ 5 ∨ (s.vlv n).outTicks < 400)) ∧
    -- boostFail
    (∃ (s : State) (bank : Fin 4), s.dies.failed.contains bank.val = false ∧ 200 ≤ (s.rail bank).low ∧ ((∀ i :
        Fin 4, (s.vlv (4 * bank + i)).wait = none)) ∧ Room s 1) ∧
    -- boostFailWaiting
    (∃ (s : State) (bank : Fin 4), s.dies.failed.contains bank.val = false ∧ 200 ≤ (s.rail bank).low) ∧
    -- boostNoFail
    (∃ (s : State) (bank : Fin 4), (s.dies.failed.contains bank.val = true ∨ (s.rail bank).low < 200)) ∧
    -- vlvHot
    (∃ (s : State) (n : Fin 16) (j : F32), f32Lt (f32OfNat 175) j = true ∧ vlvHot s n = false ∧ Room s 1) ∧
    -- vlvNotHot
    (∃ (s : State) (n : Fin 16) (j : F32), (f32Lt (f32OfNat 175) j = false ∨ vlvHot s n = true)) ∧
    -- vlvClr
    (∃ (s : State) (req : Req) (bits : Word), reqIsOem req = false) ∧
    -- vlvClrOem
    (∃ (s : State) (req : Req) (bits : Word), reqIsOem req = true) :=
   ⟨⟨run0.put (fVLV_CH_DIAG_KCNT 5) 3, 5, 0x4005, by decide +kernel⟩,
    ⟨putAll [(fVLV_CH_DIAG_KCNT 5, 1), (fVLV_CH_PROP_W 5, 10)] run0, 5, 0x4005, by decide +kernel⟩,
    ⟨(run0.put (fVLV_CH_STAT_PHASE 5) 2).setVlv 5 { VlvCh.init with prof := [0, 0, 0xFFFFFFFF, 0, 0] }, 5,
      false, 0, by decide +kernel⟩,
    ⟨run0, 5, false, 0, by decide +kernel⟩,
    ⟨run0, 5, 0x41A00000, by decide +kernel⟩,
    ⟨run0, 5, 0, by decide +kernel⟩,
    ⟨(run0.put (fVLV_CH_STAT_PHASE 5) 4).setVlv 5 { VlvCh.init with lowTicks := 20 }, 5, 0, by decide +kernel⟩,
    ⟨run0, 5, 0, by decide +kernel⟩,
    ⟨(run0.put (fVLV_CH_STAT_PHASE 5) 5).setVlv 5 { VlvCh.init with outTicks := 400 }, 5, by decide +kernel⟩,
    ⟨run0, 5, by decide +kernel⟩,
    ⟨run0.setRail 1 ⟨0, 0, 200⟩, 1, by decide +kernel⟩,
    ⟨(run0.setRail 1 ⟨0, 0, 200⟩).setVlv 5 { VlvCh.init with wait := some 0 }, 1, by decide +kernel⟩,
    ⟨run0, 1, by decide +kernel⟩,
    ⟨run0, 5, 0x43400000, by decide +kernel⟩,
    ⟨run0, 5, 0, by decide +kernel⟩,
    ⟨run0.put (bitFld fVLV_STATUS_LATCHED 5) 1, .core 0, 0x20, by decide +kernel⟩,
    ⟨run0, .oem 0, 0x20, by decide +kernel⟩⟩

/-- States and operands that meet the hypotheses of SwitchBudget. -/
theorem witness_SwitchBudget :
    -- arbNew
    (∃ (s : State), arbQuad s ≠ arbNow s ∧ arbQuad s < 8 ∧ Room s 1) ∧
    -- arbLost
    (∃ (s : State), arbQuad s = 8 ∧ arbNow s ≠ 8 ∧ Room s 1) ∧
    -- arbSame
    (∃ (s : State), arbQuad s = arbNow s) ∧
    -- budgetServe
    (∃ (s : State) (n : Fin 32) (t0 : Nat), arbNow s < 8 ∧ arbMay s (arbNow s) = true ∧ s.dies.arbAt ≠ some
        s.clk.tick ∧ ((∀ k : Fin 32, (s.psw k).wait = if k = n then some t0 else none)) ∧ dieLive s (4 + n.val /
        4) = true ∧ (s.psw n).resv = false ∧ s.clk.tick ≤ t0 + 20 * s.get (fPSW_CH_IND_DEFER_WIN n) ∧
        reservedSum s + iNom s n ≤ 10 * (if (s.sig (topLane s) 161).valid && f32IsFinite (s.sig (topLane s)
        161).val then budgetLimit (s.sig (topLane s) 161).val else s.get fPSW_BUDGET_LIMIT) ∧ Room s 1) ∧
    -- budgetWaits
    (∃ (s : State) (n : Fin 32) (t0 : Nat), arbNow s < 8 ∧ arbMay s (arbNow s) = true ∧ s.dies.arbAt ≠ some
        s.clk.tick ∧ (s.psw n).wait = some t0 ∧ ((∀ k : Fin 32, k ≠ n → (s.psw k).wait.isSome = true → s.get
        (fPSW_CH_CFG_PRIO k) < s.get (fPSW_CH_CFG_PRIO n))) ∧ dieLive s (4 + n.val / 4) = true ∧ s.clk.tick < t0
        + 20 * s.get (fPSW_CH_IND_DEFER_WIN n) ∧ 10 * (if (s.sig (topLane s) 161).valid && f32IsFinite (s.sig
        (topLane s) 161).val then budgetLimit (s.sig (topLane s) 161).val else s.get fPSW_BUDGET_LIMIT) <
        reservedSum s + iNom s n) ∧
    -- budgetIdle
    (∃ (s : State), (arbNow s = 8 ∨ arbMay s (arbNow s) = false ∨ s.dies.arbAt = some s.clk.tick ∨ (∀ k : Fin
        32, (s.psw k).wait = none))) ∧
    -- swRefused
    (∃ (s : State) (n : Fin 32) (t0 : Nat), (s.psw n).wait = some t0 ∧ t0 + 20 * s.get (fPSW_CH_IND_DEFER_WIN n)
        ≤ s.clk.tick ∧ Room s 1) ∧
    -- swStillWaits
    (∃ (s : State) (n : Fin 32), ((s.psw n).wait = none ∨ (∃ t0, (s.psw n).wait = some t0 ∧ s.clk.tick < t0 + 20
        * s.get (fPSW_CH_IND_DEFER_WIN n)))) :=
   ⟨⟨{ run0 with dies := { Dies.init with live := [5] } }, by decide +kernel⟩,
    ⟨run0.put fPSW_ARB_VALID 1, by decide +kernel⟩,
    ⟨run0, by decide +kernel⟩,
    ⟨({ (putAll [(fPSW_ARB_VALID, 1), (fPSW_ARB_QUAD, 1), (fPSW_BUDGET_LIMIT, 90), (fPSW_CH_LIM_I_NOM 9, 20)] run0) with dies := { Dies.init with live := [5, 6] } }).setPsw
      9 { PswCh.init with wait := some 0 }, 9, 0, by decide +kernel⟩,
    ⟨({ (putAll [(fPSW_ARB_VALID, 1), (fPSW_ARB_QUAD, 1), (fPSW_BUDGET_LIMIT, 1), (fPSW_CH_LIM_I_NOM 9, 20), (fPSW_CH_IND_DEFER_WIN 9, 5)] run0) with dies := { Dies.init with live := [5, 6] } }).setPsw
      9 { PswCh.init with wait := some 0 }, 9, 0, by decide +kernel⟩,
    ⟨run0.putSig 0 161 ⟨0x42B80000, 0, true, false, false⟩, by decide +kernel⟩,
    ⟨({ (putAll [(fPSW_CH_IND_DEFER_WIN 9, 1), (fPSW_BUDGET_LIMIT, 90)] run0) with clk := { Clk.init with tick := 20 } }).setPsw
      9 { PswCh.init with wait := some 0 }, 9, 0, by decide +kernel⟩,
    ⟨run0, 9, Or.inl (by decide +kernel)⟩⟩

/-- States and operands that meet the hypotheses of SwitchFaults. -/
theorem witness_SwitchFaults :
    -- pswFaultPass
    (∃ (s : State) (n : Fin 32) (code : Nat), (windowAdd s (s.psw n).faults (s.get (fPSW_CH_CFG_KCNT n)) (s.get
        (fPSW_CH_CFG_W n))).2.2 = false) ∧
    -- pswFaultLast
    (∃ (s : State) (n : Fin 32) (code : Nat), (windowAdd s (s.psw n).faults (s.get (fPSW_CH_CFG_KCNT n)) (s.get
        (fPSW_CH_CFG_W n))).2.2 = true ∧ s.get fUPD_STATUS_STATE ≠ 5 ∧ Room s 1) ∧
    -- pswShort
    (∃ (s : State) (n : Fin 32) (i : F32), pswOn s n = true ∧ f32Above i (min (5 * iNom s n) (10 * absLimit n))
        10 = true ∧ Room s 1) ∧
    -- pswNoShort
    (∃ (s : State) (n : Fin 32) (i : F32), (pswOn s n = false ∨ f32Above i (min (5 * iNom s n) (10 * absLimit
        n)) 10 = false)) ∧
    -- pswOver
    (∃ (s : State) (n : Fin 32) (i : F32) (ovr : Nat) (again : Bool), s.get (fPSW_CH_STAT_STATE n) = 3 ∧
        f32Above i (125 * iNom s n) 1000 = true ∧ 4000000 ≤ (if again then ovr else (s.psw n).ovr + ovr) ∧ Room
        s 1) ∧
    -- pswOverInr
    (∃ (s : State) (n : Fin 32) (i : F32) (ovr : Nat) (again : Bool), s.get (fPSW_CH_STAT_STATE n) = 2 ∧
        f32Above i (25 * s.get (fPSW_CH_LIM_INR_MULT n) * iNom s n) 1000 = true ∧ 400000 ≤ (if again then ovr
        else (s.psw n).ovr + ovr) ∧ Room s 1) ∧
    -- pswNoOver
    (∃ (s : State) (n : Fin 32) (i : F32) (ovr : Nat) (again : Bool), (pswOn s n = false ∨ f32Above i (overCeil
        s n) 1000 = false ∨ (if again then ovr else (s.psw n).ovr + ovr) < (if s.get (fPSW_CH_STAT_STATE n) = 2
        then 400000 else 4000000))) ∧
    -- dtLim
    (∃ (s : State) (n : Fin 32) (c d : F32), pswOn s n = true ∧ f32Lt (f32OfNat (s.get (fPSW_CH_LIM_DT_LIM n)))
        d = true ∧ Room s 1) ∧
    -- dtNot
    (∃ (s : State) (n : Fin 32) (c d : F32), (pswOn s n = false ∨ f32Lt (f32OfNat (s.get (fPSW_CH_LIM_DT_LIM
        n))) d = false)) ∧
    -- junction
    (∃ (s : State) (n : Fin 32) (j : F32), pswOn s n = true ∧ f32Lt (f32OfNat 175) j = true ∧ Room s 1) ∧
    -- junctionNot
    (∃ (s : State) (n : Fin 32) (j : F32), (pswOn s n = false ∨ f32Lt (f32OfNat 175) j = false)) ∧
    -- pswOpen
    (∃ (s : State) (n : Fin 32) (o : Bool) (meas : F32), (if o then pswOn s n && highTime (s.psw n).act (pswPer
        s n) == 20000 * pswPer s n && decide (200 ≤ (s.psw n).lowTicks) else s.bit (fPSW_CH_CFG_OL_TEST n) &&
        pswState s n == 0 && f32Lt (f32OfNat 20) meas) = true ∧ Room s 1) ∧
    -- pswNotOpen
    (∃ (s : State) (n : Fin 32) (o : Bool) (meas : F32), (if o then pswOn s n && highTime (s.psw n).act (pswPer
        s n) == 20000 * pswPer s n && decide (200 ≤ (s.psw n).lowTicks) else s.bit (fPSW_CH_CFG_OL_TEST n) &&
        pswState s n == 0 && f32Lt (f32OfNat 20) meas) = false) ∧
    -- pinWave
    (∃ (s : State) (n : Fin 32), s.clk.cycle < 20000) ∧
    -- pinHighTime
    (∃ (s : State) (a : F32) (per : Nat), 1 ≤ per) ∧
    -- caseRise
    (∃ (s : State) (q : Fin 8) (a b : F32), Room s 1) ∧
    -- pswRetry
    (∃ (s : State) (n : Fin 32) (d j : F32), pswState s n = 4 ∧ (s.psw n).retryAt ≤ s.clk.tick ∧ periodStart s n
        = true ∧ f32IsZero (s.psw n).duty = false ∧ retryRelease s n d j = true) ∧
    -- pswNoRetry
    (∃ (s : State) (n : Fin 32) (d j : F32), (pswState s n ≠ 4 ∨ s.clk.tick < (s.psw n).retryAt ∨ periodStart s
        n = false ∨ f32IsZero (s.psw n).duty = true ∨ retryRelease s n d j = false)) ∧
    -- pswClr
    (∃ (s : State) (req : Req) (bits : Word), reqIsOem req = false) ∧
    -- pswClrOem
    (∃ (s : State) (req : Req) (bits : Word), reqIsOem req = true) :=
   ⟨⟨run0.put (fPSW_CH_CFG_KCNT 9) 3, 9, 0x5003, by decide +kernel⟩,
    ⟨putAll [(fPSW_CH_CFG_KCNT 9, 1), (fPSW_CH_CFG_W 9, 10)] run0, 9, 0x5003, by decide +kernel⟩,
    ⟨run0.put (fPSW_CH_STAT_STATE 9) 3, 9, 0x42A00000, by decide +kernel⟩,
    ⟨run0, 9, 0, by decide +kernel⟩,
    ⟨run0.put (fPSW_CH_STAT_STATE 9) 3, 9, 0x42A00000, 4000000, true, by decide +kernel⟩,
    ⟨run0.put (fPSW_CH_STAT_STATE 9) 2, 9, 0x42A00000, 400000, false, by decide +kernel⟩,
    ⟨run0, 9, 0, 0, false, by decide +kernel⟩,
    ⟨run0.put (fPSW_CH_STAT_STATE 9) 2, 9, 0x41A00000, 0x43A00000, by decide +kernel⟩,
    ⟨run0, 9, 0, 0, by decide +kernel⟩,
    ⟨run0.put (fPSW_CH_STAT_STATE 9) 2, 9, 0x43A00000, by decide +kernel⟩,
    ⟨run0, 9, 0, by decide +kernel⟩,
    ⟨run0.put (fPSW_CH_CFG_OL_TEST 9) 1, 9, false, 0x42A00000, by decide +kernel⟩,
    ⟨run0, 9, false, 0, by decide +kernel⟩,
    ⟨run0, 9, by decide +kernel⟩,
    ⟨run0, 0x3F000000, 20, by decide +kernel⟩,
    ⟨run0, 1, 0x41A00000, 0x42A00000, by decide +kernel⟩,
    ⟨(putAll [(fPSW_CH_STAT_STATE 9, 4), (fPSW_CH_CFG_PER 9, 1)] run0).setPsw 9 { PswCh.init with duty := 0x3F800000 },
      9, 0, 0, by decide +kernel⟩,
    ⟨run0, 9, 0, 0, by decide +kernel⟩,
    ⟨run0.put (bitFld fPSW_STATUS 9) 1, .core 0, 0x200, by decide +kernel⟩,
    ⟨run0, .oem 0, 0x200, by decide +kernel⟩⟩

/-- States and operands that meet the hypotheses of ClampAndSupplies. -/
theorem witness_ClampAndSupplies :
    -- clampSmall
    (∃ (s : State) (n : Fin 32) (e : Nat), e ≤ 1200 ∧ e + (((s.psw n).pulses.filter fun p => decide (s.clk.tick
        < p.1 + 200000)).map Prod.snd).sum < 6000) ∧
    -- clampBig
    (∃ (s : State) (n : Fin 32) (e : Nat), (1200 < e ∨ 6000 ≤ e + (((s.psw n).pulses.filter fun p => decide
        (s.clk.tick < p.1 + 200000)).map Prod.snd).sum) ∧ pswLocked s n = false ∧ Room s 2) ∧
    -- clampLocked
    (∃ (s : State) (n : Fin 32) (e : Nat), pswLocked s n = true ∧ Room s 1) ∧
    -- clampRelease
    (∃ (s : State) (n : Fin 32), pswLocked s n = true ∧ (s.psw n).lockAt + 200000 ≤ s.clk.tick ∧ f32IsZero
        (s.psw n).duty = true ∧ pswLasting s n = false ∧ Room s 1) ∧
    -- clampReleaseLasting
    (∃ (s : State) (n : Fin 32), pswLocked s n = true ∧ (s.psw n).lockAt + 200000 ≤ s.clk.tick ∧ f32IsZero
        (s.psw n).duty = true ∧ pswLasting s n = true ∧ Room s 1) ∧
    -- clampHeld
    (∃ (s : State) (n : Fin 32), (pswLocked s n = false ∨ s.clk.tick < (s.psw n).lockAt + 200000 ∨ f32IsZero
        (s.psw n).duty = false)) ∧
    -- supLow
    (∃ (s : State) (v : F32), Room s 1) ∧
    -- supHigh
    (∃ (s : State) (v : F32), Room s 1) ∧
    -- caseHot
    (∃ (s : State), Room s 1) ∧
    -- appCap
    (∃ (s : State), Room s 1) ∧
    -- appFree
    (∃ (s : State) (t0 : Nat), s.sup.coolAt = some t0 ∧ s.sup.cap = true ∧ t0 + 200000 ≤ s.clk.tick ∧ Room s 1) ∧
    -- appNotFree
    (∃ (s : State) (t0 : Nat), (s.sup.coolAt = none ∨ s.sup.cap = false ∨ (s.sup.coolAt = some t0 ∧ s.clk.tick <
        t0 + 200000))) ∧
    -- loadLoss
    (∃ (s : State), s.dies.loadOff = false) ∧
    -- loadReturn
    (∃ (s : State), s.dies.loadOff = true) ∧
    -- supLoss
    (∃ (s : State) (v : F32), s.sup.lost = false ∧ pwrState s < 2 ∧ Room s 2) ∧
    -- supLossFlushed
    (∃ (s : State) (v : F32), s.sup.lost = false ∧ pwrState s < 2 ∧ Room s 2) ∧
    -- supLossNot
    (∃ (s : State) (v : F32) (f : Bool), (s.sup.lost = true ∨ 2 ≤ pwrState s ∨ s.evrOn = false)) :=
   ⟨⟨run0, 9, 1200, by decide +kernel⟩,
    ⟨run0, 9, 1201, by decide +kernel⟩,
    ⟨run0.put (bitFld fPSW_LOCK 9) 1, 9, 1201, by decide +kernel⟩,
    ⟨{ (run0.put (bitFld fPSW_LOCK 9) 1) with clk := { Clk.init with tick := 200000 } }, 9, by decide +kernel⟩,
    ⟨{ (putAll [(bitFld fPSW_LOCK 9, 1), (bitFld fPSW_STATUS 9, 1)] run0) with clk := { Clk.init with tick := 200000 } },
      9, by decide +kernel⟩,
    ⟨run0, 9, by decide +kernel⟩,
    ⟨run0, 0x41000000, by decide +kernel⟩,
    ⟨run0, 0x42200000, by decide +kernel⟩,
    ⟨run0.putSig 0 161 ⟨0x42E00000, 0, true, false, false⟩, by decide +kernel⟩,
    ⟨run0.putSig 0 161 ⟨0x42E00000, 0, true, false, false⟩, by decide +kernel⟩,
    ⟨{ run0 with sup := { Sup.init with cap := true, coolAt := some 0 }, clk := { Clk.init with tick := 200000 } },
      0, by decide +kernel⟩,
    ⟨run0, 0, by decide +kernel⟩,
    ⟨run0.put (fVLV_CH_STAT_PHASE 5) 3, by decide +kernel⟩,
    ⟨{ run0 with dies := { Dies.init with loadOff := true } }, by decide +kernel⟩,
    ⟨run0, 0x40A00000, by decide +kernel⟩,
    ⟨run0, 0x40A00000, by decide +kernel⟩,
    ⟨State.reset, 0, true, by decide +kernel⟩⟩

/-- States and operands that meet the hypotheses of GnssAntennas. -/
theorem witness_GnssAntennas :
    -- antShort
    (∃ (s : State) (a : Fin 2) (i : Nat) (low : Bool), s.wide = true ∧ s.get (fGNS_ANT_STATE a) = 1 ∧ (120 < i ∨
        low = true) ∧ Room s 1) ∧
    -- antNotShort
    (∃ (s : State) (a : Fin 2) (i : Nat) (low : Bool), (s.get (fGNS_ANT_STATE a) ≠ 1 ∨ (i ≤ 120 ∧ low = false))) ∧
    -- antTrial
    (∃ (s : State) (a : Fin 2), s.wide = true ∧ s.get (fGNS_ANT_STATE a) = 3 ∧ tabGet (fun _ => 0) s.gns.shortAt
        a + 20000 ≤ s.clk.tick) ∧
    -- antNoTrial
    (∃ (s : State) (a : Fin 2), (s.get (fGNS_ANT_STATE a) ≠ 3 ∨ s.clk.tick < tabGet (fun _ => 0) s.gns.shortAt a
        + 20000)) ∧
    -- antOpen
    (∃ (s : State) (a : Fin 2) (i : Nat), s.wide = true ∧ s.get (fGNS_ANT_STATE a) = 1 ∧ i < 2 ∧ Room s 1) ∧
    -- antNotOpen
    (∃ (s : State) (a : Fin 2) (i : Nat), (s.get (fGNS_ANT_STATE a) ≠ 1 ∨ 2 ≤ i)) ∧
    -- antOk
    (∃ (s : State) (a : Fin 2) (i : Nat), s.wide = true ∧ ((s.get (fGNS_ANT_STATE a) = 2 ∧ 2 ≤ i) ∨ (s.get
        (fGNS_ANT_STATE a) = 1 ∧ trialDone s a = true ∧ i ≤ 120)) ∧ Room s 1) ∧
    -- antNotOk
    (∃ (s : State) (a : Fin 2) (i : Nat), ((s.get (fGNS_ANT_STATE a) ≠ 2 ∨ i < 2) ∧ (s.get (fGNS_ANT_STATE a) ≠
        1 ∨ trialDone s a = false ∨ 120 < i))) ∧
    -- antRetry
    (∃ (s : State) (req : Req), reqIsOem req = false ∧ s.wide = true) ∧
    -- ant1
    (∃ (s : State), s.wide = true ∧ fiveSec s s.gns.subFrom = true ∧ s.bit fGNS_SOL_STAT_SUBST = false ∧ Room s
        1) ∧
    -- ant0
    (∃ (s : State), s.wide = true ∧ fiveSec s s.gns.backFrom = true ∧ s.bit fGNS_SOL_STAT_SUBST = true ∧ Room s
        1) ∧
    -- notchTune
    (∃ (s : State) (a : Fin 2) (b : Fin 3) (f : Int) (l : Nat) (k : Nat), s.wide = true ∧ s.get
        fGNS_CFG_NOTCH_THR < l ∧ notchOf s a b f = some k) ∧
    -- notchOn
    (∃ (s : State) (a : Fin 2) (b : Fin 3) (f : Int) (l : Nat) (k : Nat), s.wide = true ∧ s.get
        fGNS_CFG_NOTCH_THR < l ∧ notchOf s a b f = none ∧ (List.range 4).find? (fun k => !s.bit (fGNS_NOTCH_ON a
        b k)) = some k ∧ Room s 1) ∧
    -- notchFull
    (∃ (s : State) (a : Fin 2) (b : Fin 3) (f : Int) (l : Nat), s.wide = true ∧ s.get fGNS_CFG_NOTCH_THR < l ∧
        notchOf s a b f = none ∧ ((∀ k : Fin 4, s.bit (fGNS_NOTCH_ON a b k) = true))) ∧
    -- notchLow
    (∃ (s : State) (a : Fin 2) (b : Fin 3) (f : Int) (l : Nat), l ≤ s.get fGNS_CFG_NOTCH_THR) ∧
    -- epochChan
    (∃ (s : State) (meas : List EpochMeas), s.wide = true ∧ s.clk.tick % 1000 = 0) ∧
    -- epochBand
    (∃ (s : State) (m : BandMeas), s.wide = true ∧ s.clk.tick % 1000 = 0 ∧ s.bit fGNS_CORR_STAT_IN_USE = false ∧
        s.get fGNS_CFG_JAM_LIM < jamJ m (bitCount (s.get (fGNS_JAM_NOTCHES 0 0))) ∧ s.bitAt fGNS_STATUS_EXCL 0 =
        false ∧ Room s 1) ∧
    -- bandOne
    (∃ (s : State) (m : BandMeas) (i : Fin 6) (j : Nat), jamJ m (bitCount (s.get (fGNS_JAM_NOTCHES (i.val / 3)
        (i.val % 3)))) = j ∧ (j ≤ s.get fGNS_CFG_JAM_LIM ∨ s.bitAt fGNS_STATUS_EXCL i = true)) ∧
    -- bandBack
    (∃ (s : State) (a : Fin 2) (b : Fin 3), Room s 1) ∧
    -- gnssHeld
    (∃ (s : State) (a : Fin 2) (b : Fin 3) (k : Fin 4) (c : Fin 384) (req : Req) (n l : Nat) (f : Int) (low :
        Bool) (es : List EpochMeas) (bs : List BandMeas) (sol : Solution), s.wide = false) :=
   ⟨⟨run0.put (fGNS_ANT_STATE 1) 1, 1, 130, false, by decide +kernel⟩,
    ⟨run0, 1, 130, false, by decide +kernel⟩,
    ⟨{ (run0.put (fGNS_ANT_STATE 1) 3) with clk := { Clk.init with tick := 20000 } }, 1, by decide +kernel⟩,
    ⟨run0, 1, by decide +kernel⟩,
    ⟨run0.put (fGNS_ANT_STATE 1) 1, 1, 1, by decide +kernel⟩,
    ⟨run0, 1, 1, by decide +kernel⟩,
    ⟨run0.put (fGNS_ANT_STATE 1) 2, 1, 120, by decide +kernel⟩,
    ⟨run0, 1, 120, by decide +kernel⟩,
    ⟨run0.put (fGNS_ANT_STATE 1) 3, .core 0, by decide +kernel⟩,
    ⟨{ run0 with gns := { Gns.init with subFrom := some 0 }, clk := { Clk.init with tick := 100000 } },
      by decide +kernel⟩,
    ⟨{ (run0.put fGNS_SOL_STAT_SUBST 1) with gns := { Gns.init with backFrom := some 0 }, clk := { Clk.init with tick := 100000 } },
      by decide +kernel⟩,
    ⟨run0.put (fGNS_NOTCH_ON 1 2 1) 1, 1, 2, -5, 100, 1, by decide +kernel⟩,
    ⟨run0, 1, 2, -5, 100, 0, by decide +kernel⟩,
    ⟨putAll [(fGNS_NOTCH_ON 1 2 0, 1), (fGNS_NOTCH_ON 1 2 1, 1), (fGNS_NOTCH_ON 1 2 2, 1), (fGNS_NOTCH_ON 1 2 3,
      1)] run0, 1, 2, -500000, 100, by decide +kernel⟩,
    ⟨run0.put fGNS_CFG_NOTCH_THR 10, 1, 2, -5, 10, by decide +kernel⟩,
    ⟨run0, [⟨1, 2, 3, 4⟩], by decide +kernel⟩,
    ⟨run0, ⟨0x42C80000, 0x40000000, true⟩, by decide +kernel⟩,
    ⟨run0.put fGNS_CFG_JAM_LIM 100, ⟨0x40000000, 0x40000000, false⟩, 4, 0, by decide +kernel⟩,
    ⟨{ (run0.put (bitFld fGNS_STATUS_EXCL 5) 1) with gns := { Gns.init with good := [(5, 20)] } }, 1, 2,
      by decide +kernel⟩,
    ⟨{ run0 with straps := { run0.straps with manager := false } }, 0, 0, 0, 0, .core 0, 0, 0, 0, false, [], [],
      ⟨[], [], 0, [], false, false, [], [], 0, 0, 0, 0, 0, 0, 0, [], none⟩, by decide +kernel⟩⟩

/-- States and operands that meet the hypotheses of GnssTracking. -/
theorem witness_GnssTracking :
    -- cold
    (∃ (s : State) (req : Req), reqIsOem req = false ∧ s.wide = true ∧ Room s 1) ∧
    -- bankFits
    (∃ (s : State) (tick : Nat) (qs : List Search) (run : List (Search × Nat)), (run.map fun r => bankBlocks
        r.1).sum ≤ 32) ∧
    -- searchWeak
    (∃ (s : State) (sg sv : Nat) (a : Fin 2) (pw : Nat) (ca co : Word) (r : Search × Nat), s.wide = true ∧
        s.gns.running.find? (fun r => r.1.sig == sg && r.1.sv == sv && r.1.ant == a.val && decide (r.2 ≤
        s.clk.tick)) = some r ∧ (pw ≤ (if r.1.kind = .cold then 150 else 120) ∨ freeTrk s r.1.ant = none)) ∧
    -- searchFound
    (∃ (s : State) (sg sv : Nat) (a : Fin 2) (pw : Nat) (ca co : Word) (r : Search × Nat) (c : Nat), s.wide =
        true ∧ s.gns.running.find? (fun r => r.1.sig == sg && r.1.sv == sv && r.1.ant == a.val && decide (r.2 ≤
        s.clk.tick)) = some r ∧ (if r.1.kind = .cold then 150 else 120) < pw ∧ freeTrk s r.1.ant = some c) ∧
    -- searchNone
    (∃ (s : State) (sg sv : Nat) (a : Fin 2) (pw : Nat) (ca co : Word), (s.wide = false ∨ s.gns.running.find?
        (fun r => r.1.sig == sg && r.1.sv == sv && r.1.ant == a.val && decide (r.2 ≤ s.clk.tick)) = none)) ∧
    -- navSave
    (∃ (s : State) (f : Bool) (t0 : Nat), s.wide = true ∧ s.gns.chgAt = some t0 ∧ s.clk.tick ≤ t0 + 1200000 ∧
        Room s 1) ∧
    -- navNoSave
    (∃ (s : State) (f : Bool), (s.gns.chgAt = none ∨ (∃ t0, s.gns.chgAt = some t0 ∧ t0 + 1200000 < s.clk.tick))) ∧
    -- dump
    (∃ (s : State) (c : Fin 384) (sums : List (Int × Int)), s.wide = true ∧ s.bit (fGNS_TRK_CFG_EN c) = true ∧
        s.bit (fGNS_TRK_DUMP_DUMP_RDY c) = false) ∧
    -- dumpOver
    (∃ (s : State) (c : Fin 384) (sums : List (Int × Int)), s.wide = true ∧ s.bit (fGNS_TRK_CFG_EN c) = true ∧
        s.bit (fGNS_TRK_DUMP_DUMP_RDY c) = true ∧
        (match (s.trk c).overAt with | some t0 => decide (t0 + 20000 ≤ s.clk.tick) | none => true) = true ∧ Room
        s 1) ∧
    -- dumpOverAgain
    (∃ (s : State) (c : Fin 384) (sums : List (Int × Int)) (t0 : Nat), s.wide = true ∧ s.bit (fGNS_TRK_CFG_EN c)
        = true ∧ s.bit (fGNS_TRK_DUMP_DUMP_RDY c) = true ∧ (s.trk c).overAt = some t0 ∧ s.clk.tick < t0 + 20000) ∧
    -- dumpOff
    (∃ (s : State) (c : Fin 384) (sums : List (Int × Int)), (s.wide = false ∨ s.bit (fGNS_TRK_CFG_EN c) =
        false)) ∧
    -- nco
    (∃ (s : State) (req : Req) (c : Fin 384) (code : Bool) (v : Word), s.wide = true ∧ trkOwner req c = true) ∧
    -- ncoOther
    (∃ (s : State) (req : Req) (c : Fin 384) (code : Bool) (v : Word), (trkOwner req c = false ∨ s.wide =
        false)) ∧
    -- trackLoop
    (∃ (s : State) (u : TrackUpd), s.wide = true ∧ s.clk.tick % 20 = 0 ∧ s.bit (fGNS_TRK_CFG_EN u.ch) = true ∧
        gnRuns s (u.ch.val / 192) = true ∧ (s.trk u.ch).newCarr = false ∧ (s.trk u.ch).newCode = false ∧ u.lock
        = true ∧ 80 ≤ u.cn0) ∧
    -- trackLow
    (∃ (s : State) (u : TrackUpd), s.wide = true ∧ s.clk.tick % 20 = 0 ∧ s.bit (fGNS_TRK_CFG_EN u.ch) = true ∧
        gnRuns s (u.ch.val / 192) = true ∧ s.bit (fGNS_TRK_LOCK_COAST u.ch) = true ∧ (u.lock = false ∨ u.cn0 <
        80)) ∧
    -- trackMore
    (∃ (s : State) (u : TrackUpd) (us : List TrackUpd), s.wide = true ∧ s.clk.tick % 20 = 0) ∧
    -- trackPlan
    (∃ (s : State) (sg sv : Nat) (a : Fin 2) (q : Search), gnRuns s 1 = true ∧ s.clk.tick % 20 = 0 ∧ s.get
        fGNS_STATUS_START ≠ 0 ∧ searchFor .aided s sg sv a = some q) ∧
    -- trackNot
    (∃ (s : State) (us : List TrackUpd) (pl : List (Nat × Nat × Fin 2)), (s.wide = false ∨ s.clk.tick % 20 ≠ 0)) ∧
    -- lockLoss
    (∃ (s : State) (c : Fin 384) (t0 : Nat), s.wide = true ∧ s.bit (fGNS_TRK_CFG_EN c) = true ∧ (s.trk c).lowAt
        = some t0 ∧ t0 + 2000 ≤ s.clk.tick ∧ s.bit (fGNS_TRK_LOCK_COAST c) = false) ∧
    -- lockHeld
    (∃ (s : State) (c : Fin 384), (s.bit (fGNS_TRK_CFG_EN c) = false ∨ (s.trk c).lowAt = none ∨ (∃ t0, (s.trk
        c).lowAt = some t0 ∧ s.clk.tick < t0 + 2000) ∨ s.bit (fGNS_TRK_LOCK_COAST c) = true)) ∧
    -- coastEnd
    (∃ (s : State) (c : Fin 384), s.wide = true ∧ s.bit (fGNS_TRK_LOCK_COAST c) = true ∧ (s.trk c).coastAt +
        40000 ≤ s.clk.tick) ∧
    -- coastGoes
    (∃ (s : State) (c : Fin 384), (s.bit (fGNS_TRK_LOCK_COAST c) = false ∨ s.clk.tick < (s.trk c).coastAt +
        40000)) :=
   ⟨⟨run0.put (fGNS_TRK_CFG_EN 3) 1, .core 0, by decide +kernel⟩,
    ⟨run0, 0, [⟨0, 1, 0, .cold⟩], [], by decide +kernel⟩,
    ⟨{ run0 with gns := { Gns.init with running := [(⟨0, 2, 0, .aided⟩, 0)] } }, 0, 2, 0, 120, 5, 6, (⟨0, 2, 0,
      .aided⟩, 0), by decide +kernel⟩,
    ⟨{ run0 with gns := { Gns.init with running := [(⟨0, 2, 0, .cold⟩, 0)] } }, 0, 2, 0, 151, 5, 6, (⟨0, 2, 0,
      .cold⟩, 0), 0, by decide +kernel⟩,
    ⟨run0, 0, 2, 0, 151, 5, 6, by decide +kernel⟩,
    ⟨{ run0 with gns := { Gns.init with chgAt := some 0 } }, false, 0, by decide +kernel⟩,
    ⟨run0, false, Or.inl rfl⟩,
    ⟨run0.put (fGNS_TRK_CFG_EN 3) 1, 3, [(1, -2), (3, 4)], by decide +kernel⟩,
    ⟨putAll [(fGNS_TRK_CFG_EN 3, 1), (fGNS_TRK_DUMP_DUMP_RDY 3, 1)] run0, 3, [(1, -2), (3, 4)],
      by decide +kernel⟩,
    ⟨(putAll [(fGNS_TRK_CFG_EN 3, 1), (fGNS_TRK_DUMP_DUMP_RDY 3, 1)] run0).setTrk 3 { Trk.init with overAt := some 0 },
      3, [(1, -2), (3, 4)], 0, by decide +kernel⟩,
    ⟨run0, 3, [], by decide +kernel⟩,
    ⟨run0, .core 8, 3, true, 77, by decide +kernel⟩,
    ⟨run0, .core 9, 3, true, 77, by decide +kernel⟩,
    ⟨run0.put (fGNS_TRK_CFG_EN 3) 1, ⟨3, 1, 2, 80, true⟩, by decide +kernel⟩,
    ⟨putAll [(fGNS_TRK_CFG_EN 3, 1), (fGNS_TRK_LOCK_COAST 3, 1)] run0, ⟨3, 1, 2, 40, true⟩, by decide +kernel⟩,
    ⟨run0, ⟨3, 1, 2, 40, true⟩, [], by decide +kernel⟩,
    ⟨putAll [(fGNS_STATUS_START, 3), (fGNS_CFG_SYS, 1)] run0, 0, 5, 1, ⟨0, 5, 1, .aided⟩, by decide +kernel⟩,
    ⟨{ run0 with clk := { Clk.init with tick := 1 } }, [], [], by decide +kernel⟩,
    ⟨{ ((run0.put (fGNS_TRK_CFG_EN 3) 1).setTrk 3 { Trk.init with lowAt := some 0 }) with clk := { Clk.init with tick := 2000 } },
      3, 0, by decide +kernel⟩,
    ⟨run0, 3, Or.inl (by decide +kernel)⟩,
    ⟨{ (run0.put (fGNS_TRK_LOCK_COAST 3) 1) with clk := { Clk.init with tick := 40000 } }, 3, by decide +kernel⟩,
    ⟨run0, 3, by decide +kernel⟩⟩

/-- States and operands that meet the hypotheses of GnssSolutions. -/
theorem witness_GnssSolutions :
    -- solNone
    (∃ (s : State) (sol : Solution) (e : Nat), gnRuns s 0 = true ∧ s.gns.epoch = some e ∧ s.clk.tick ≤ e + 300 ∧
        s.bit fGNS_SOL_STAT_SUBST = false ∧ (usedSats s sol.sats 0).length < 4 ∧ s.get fGNS_HEAD_CFG_BASE = 0 ∧
        s.get fGNS_SOL_STAT_FIX = 0 ∧ sol.leap = none) ∧
    -- solTime
    (∃ (s : State) (sol : Solution) (e : Nat) (err : Int), gnRuns s 0 = true ∧ s.gns.epoch = some e ∧ s.clk.tick
        ≤ e + 300 ∧ s.bit fGNS_SOL_STAT_SUBST = false ∧ residTest 2 (usedSats s sol.sats 0) [] sol.tests =
        ⟨true, usedSats s sol.sats 0, []⟩ ∧ 4 ≤ (usedSats s sol.sats 0).length ∧ sol.leap = none ∧ steerErr sol
        (usedSats s sol.sats 0) = some err ∧ bandsClear s (usedSats s sol.sats 0) 0 = true ∧ err.natAbs ≤
        1000000 ∧ timeStat s ≠ 3) ∧
    -- solExcluded
    (∃ (s : State) (sol : Solution) (e : Nat) (x : Nat × F32), gnRuns s 0 = true ∧ s.gns.epoch = some e ∧
        s.clk.tick ≤ e + 300 ∧ s.bit fGNS_SOL_STAT_SUBST = false ∧ x ∈ (residTest 2 (usedSats s sol.sats 0) []
        sol.tests).out ∧ Room s 8) ∧
    -- solNot
    (∃ (s : State) (sol : Solution), (s.gns.epoch = none ∨ gnRuns s 0 = false ∨ (∃ e, s.gns.epoch = some e ∧ e +
        300 < s.clk.tick))) ∧
    -- solUsed
    (∃ (s : State) (x : SatIn), satOk s x = true) ∧
    -- solRead
    (∃ (s : State) (req : Req), s.wide = true) ∧
    -- solReadOff
    (∃ (s : State) (req : Req), s.wide = false) ∧
    -- rtcmBad
    (∃ (s : State) (f : List Byte), gnRuns s 0 = true ∧ s.get fPWR_STATUS_STATE ≠ 1 ∧ s.get fETH_STATUS_NTRIP =
        2 ∧ rtcmPass f = false) ∧
    -- rtcmType
    (∃ (s : State) (f : List Byte), gnRuns s 0 = true ∧ s.get fPWR_STATUS_STATE ≠ 1 ∧ s.get fETH_STATUS_NTRIP =
        2 ∧ rtcmPass f = true ∧ rtcmUsed (payBits (f.drop 3) 0 12) = false ∧ s.gns.refusedAt = [] ∧ Room s 1) ∧
    -- rtcmObs
    (∃ (s : State) (f : List Byte), gnRuns s 0 = true ∧ s.get fPWR_STATUS_STATE ≠ 1 ∧ s.get fETH_STATUS_NTRIP =
        2 ∧ rtcmPass f = true ∧ rtcmObs (payBits (f.drop 3) 0 12) = true ∧ s.gns.source = some 0 ∧ s.gns.station
        = none) ∧
    -- rtcmOff
    (∃ (s : State) (f : List Byte), (s.wide = false ∨ s.get fPWR_STATUS_STATE = 1 ∨ s.get fETH_STATUS_NTRIP ≠
        2)) ∧
    -- rtcmNext
    (∃ (s : State) (f : List Byte) (rest : List (List Byte)), gnRuns s 0 = true ∧ s.gns.frames = f :: rest) ∧
    -- rtcmNoNext
    (∃ (s : State), (s.gns.frames = [] ∨ gnRuns s 0 = false)) ∧
    -- rtcmCan
    (∃ (s : State) (port : Fin 6) (ext : Bool) (id : Nat) (data : List Byte), s.wide = true ∧ s.get
        fGNS_CORR_CFG_PORT = port ∧ s.bit fGNS_CORR_CFG_EXT = ext ∧ s.get fGNS_CORR_ID_CAN_ID = id ∧ data.length
        = 64) ∧
    -- rtcmOther
    (∃ (s : State) (port : Fin 6) (ext : Bool) (id : Nat) (data : List Byte), (s.wide = false ∨ s.get
        fGNS_CORR_CFG_PORT ≠ port ∨ s.bit fGNS_CORR_CFG_EXT ≠ ext ∨ s.get fGNS_CORR_ID_CAN_ID ≠ id ∨ data.length
        ≠ 64)) ∧
    -- corrSwitch
    (∃ (s : State), s.wide = true ∧ delivering s (s.get fGNS_CORR_CFG_PREF) = false ∧ delivering s (1 - s.get
        fGNS_CORR_CFG_PREF) = true ∧ s.gns.source ≠ some (1 - s.get fGNS_CORR_CFG_PREF) ∧ Room s 1) ∧
    -- corrStays
    (∃ (s : State), (delivering s (s.get fGNS_CORR_CFG_PREF) = true ∨ delivering s (1 - s.get
        fGNS_CORR_CFG_PREF) = false)) ∧
    -- corrOld
    (∃ (s : State) (src t0 : Nat), s.wide = true ∧ s.bit fGNS_CORR_STAT_IN_USE = true ∧ s.gns.source = some src
        ∧ obsTick s src = some t0 ∧ 20000 * s.get fGNS_CORR_CFG_CORR_AGE_MAX < s.clk.tick - t0 ∧ Room s 1) ∧
    -- corrYoung
    (∃ (s : State) (src t0 : Nat), (s.bit fGNS_CORR_STAT_IN_USE = false ∨ (s.gns.source = some src ∧ obsTick s
        src = some t0 ∧ s.clk.tick - t0 ≤ 20000 * s.get fGNS_CORR_CFG_CORR_AGE_MAX))) ∧
    -- tp0
    (∃ (s : State) (cyc : Fin 20000), tpDue s cyc = true ∧ tpClear s cyc = true) ∧
    -- tp0Later
    (∃ (s : State) (cyc : Fin 20000), tpDue s cyc = true ∧ tpClear s cyc = false) ∧
    -- tp0Not
    (∃ (s : State) (cyc : Fin 20000), tpDue s cyc = false) ∧
    -- tp0Pin
    (∃ (s : State) (tick cyc t0 c0 : Nat), s.gns.tpAt = some (t0, c0)) :=
   ⟨⟨{ run0 with gns := { Gns.init with epoch := some 0 } }, ⟨[], [], 0, [], false, false, [], [], 0, 0, 0, 0,
      0, 0, 0, [], none⟩, 0, by decide +kernel⟩,
    ⟨wSats 4, ⟨[⟨0, true, 9000, false⟩, ⟨1, true, 9000, false⟩, ⟨2, true, 9000, false⟩, ⟨3, true, 9000, false⟩],
      [], 0, [-5], false, false, [], [], 0, 0, 0, 0, 0, 0, 0, [], none⟩, 40000, -5, by decide +kernel⟩,
    ⟨wSats 5, ⟨[⟨0, true, 9000, false⟩, ⟨1, true, 9000, false⟩, ⟨2, true, 9000, false⟩, ⟨3, true, 9000, false⟩,
      ⟨4, true, 9000, false⟩], [⟨false, [0, 0, 0x3F800000, 0, 0]⟩], 0, [-5], false, false, [], [], 0, 0, 0, 0,
      0, 0, 0, [], none⟩, 40000, (0, 0x3F800000), by decide +kernel⟩,
    ⟨run0, ⟨[], [], 0, [], false, false, [], [], 0, 0, 0, 0, 0, 0, 0, [], none⟩, Or.inl rfl⟩,
    ⟨wSats 1, ⟨0, true, 9000, false⟩, by decide +kernel⟩,
    ⟨run0, .core 3, by decide +kernel⟩,
    ⟨{ run0 with straps := { run0.straps with manager := false } }, .core 3, by decide +kernel⟩,
    ⟨run0.put fETH_STATUS_NTRIP 2, [1, 2, 3], by decide +kernel⟩,
    ⟨run0.put fETH_STATUS_NTRIP 2, [0xD3, 0, 3, 0x43, 0x30, 5, 0x3A, 0x31, 0x37], by decide +kernel⟩,
    ⟨{ (run0.put fETH_STATUS_NTRIP 2) with gns := { Gns.init with source := some 0 } }, [0xD3, 0, 3, 0x43, 0x50,
      5, 0x98, 0xEE, 0xA4], by decide +kernel⟩,
    ⟨run0, [], by decide +kernel⟩,
    ⟨{ run0 with gns := { Gns.init with frames := [[1, 2]] } }, [1, 2], [], by decide +kernel⟩,
    ⟨run0, by decide +kernel⟩,
    ⟨{ (putAll [(fGNS_CORR_CFG_PORT, 2), (fGNS_CORR_CFG_EXT, 1), (fGNS_CORR_ID_CAN_ID, 99)] run0) with gns := { Gns.init with seq := some 4 } },
      2, true, 99, List.replicate 64 5#8, by decide +kernel⟩,
    ⟨run0, 2, true, 99, [], by decide +kernel⟩,
    ⟨{ (putAll [(fGNS_CORR_CFG_PREF, 0), (fGNS_CORR_STAT_SRC, 0)] run0) with gns := { Gns.init with obsAt := [(1, 0)] } },
      by decide +kernel⟩,
    ⟨run0, by decide +kernel⟩,
    ⟨{ (putAll [(fGNS_CORR_STAT_IN_USE, 1), (fGNS_CORR_CFG_CORR_AGE_MAX, 1)] run0) with gns := { Gns.init with obsAt := [(0, 0)], source := some 0 }, clk := { Clk.init with tick := 20001 } },
      0, 0, by decide +kernel⟩,
    ⟨run0, 0, 0, by decide +kernel⟩,
    ⟨run0.put fGNS_TP0_CFG_RATE 1, 0, by decide +kernel⟩,
    ⟨{ (run0.put fGNS_TP0_CFG_RATE 1) with gns := { Gns.init with tpAt := some (0, 0) } }, 0, by decide +kernel⟩,
    ⟨run0, 0, by decide +kernel⟩,
    ⟨{ run0 with gns := { Gns.init with tpAt := some (0, 0) } }, 0, 0, 0, 0, by decide +kernel⟩⟩

/-- States and operands that meet the hypotheses of CameraPipelines. -/
theorem witness_CameraPipelines :
    -- strmOk
    (∃ (s : State) (n : Fin 6) (i : StreamIn), pipeOn s n = true ∧ streamFault s n i = 0 ∧ frameLate s i.frame =
        false ∧ s.get (fISP_STATUS_PORT n) = 2 ∧ ((∀ f ∈ (s.pipe n).frames, f.arrived = true ∨ i.frame ≤
        f.frame)) ∧ Room s 2) ∧
    -- strmPresent
    (∃ (s : State) (n : Fin 6) (i : StreamIn), pipeOn s n = true ∧ streamFault s n i = 0 ∧ frameLate s i.frame =
        false) ∧
    -- strmDrop
    (∃ (s : State) (n : Fin 6) (i : StreamIn), pipeOn s n = true ∧ streamFault s n i ≠ 0 ∧
        (match (s.pipe n).drop with | some t0 => decide (t0 + 20000 ≤ s.clk.tick) | none => true) = true ∧ Room
        s 1) ∧
    -- strmDropAgain
    (∃ (s : State) (n : Fin 6) (i : StreamIn) (t0 : Nat), pipeOn s n = true ∧ streamFault s n i ≠ 0 ∧ (s.pipe
        n).drop = some t0 ∧ s.clk.tick < t0 + 20000) ∧
    -- frameLate
    (∃ (s : State) (n : Fin 6) (f : Nat), pipeOn s n = true ∧ 400 * f + 400 < s.clk.tick ∧ Room s 1) ∧
    -- streamLate
    (∃ (s : State) (n : Fin 6) (i : StreamIn), pipeOn s n = true ∧ streamFault s n i = 0 ∧ frameLate s i.frame =
        true) ∧
    -- portAbsent
    (∃ (s : State) (n : Fin 6), pipeOn s n = true ∧ s.get (fISP_STATUS_PORT n) ≠ 1 ∧ 3 ≤ missedFrames s n ∧ Room
        s 1) ∧
    -- portNotAbsent
    (∃ (s : State) (n : Fin 6), (s.get (fISP_STATUS_PORT n) = 1 ∨ missedFrames s n < 3)) ∧
    -- linkDown
    (∃ (s : State) (n : Fin 6), Room s 1) ∧
    -- expStart
    (∃ (s : State) (n : Fin 6) (w : Word), ispOn s = true ∧ (s.pipe n).cmd = some (s.clk.tick / 400, w) ∧
        s.clk.tick % 400 = 0) ∧
    -- shadowWr
    (∃ (s : State) (req : Req) (n : Fin 6) (r : Fin 11) (v : Word), reqIsOem req = false ∧ s.wide = true) ∧
    -- shadowRefused
    (∃ (s : State) (req : Req) (n : Fin 6) (r : Fin 11) (v : Word), (reqIsOem req = true ∨ s.wide = false)) ∧
    -- shadowCopy
    (∃ (s : State) (n : Fin 6) (k : Fin 11), ispOn s = true) ∧
    -- stageDefect
    (∃ (s : State) (q : IspPar) (i : Plane) (y x : Nat) (l : List Nat), (q.word 5).toNat % 2 = 1 ∧ y < i.length
        ∧ x < (i.getD y []).length ∧ sameColour i y x = some l) ∧
    -- statsW
    (∃ (s : State) (n : Fin 6) (f : Nat) (x : CamFrame), pipeOn s n = true ∧ (s.pipe n).frames.find? (fun f' =>
        f'.frame == f && f'.arrived) = some x ∧ isCleanGrain s n = false) ∧
    -- statsGrain
    (∃ (s : State) (n : Fin 6) (f : Nat) (x : CamFrame), pipeOn s n = true ∧ (s.pipe n).frames.find? (fun f' =>
        f'.frame == f && f'.arrived) = some x ∧ isCleanGrain s n = true) ∧
    -- statsNone
    (∃ (s : State) (n : Fin 6) (f : Nat), (s.pipe n).frames.find? (fun f' => f'.frame == f && f'.arrived) =
        none) ∧
    -- pipeOff
    (∃ (s : State) (n : Fin 6) (i : StreamIn) (f : Nat), pipeOn s n = false) ∧
    -- frameNotLate
    (∃ (s : State) (n : Fin 6) (f : Nat), s.clk.tick ≤ 400 * f + 400) :=
   ⟨⟨({ (putAll [(fISP_PORT_CFG_EN 1, 1), (fISP_STATUS_PORT 1, 2), (fISP_PORT_CFG_WIDTH 1, 2), (fISP_PORT_CFG_HEIGHT 1, 2)] run0) with isp := { Isp.init with on := true }, clk := { Clk.init with tick := 2900 } }).setPipe
      1 { Pipe.init with frames := [{ newFrame 1 7 run0 with gen := 3 }] }, 1, ⟨true, 0, true, 32, 32, true, 7,
      [none], 0, 0⟩, by decide +kernel⟩,
    ⟨({ (putAll [(fISP_PORT_CFG_EN 1, 1), (fISP_STATUS_PORT 1, 1), (fISP_PORT_CFG_WIDTH 1, 2), (fISP_PORT_CFG_HEIGHT 1, 2)] run0) with isp := { Isp.init with on := true }, clk := { Clk.init with tick := 2900 } }).setPipe
      1 { Pipe.init with frames := [newFrame 1 6 run0] }, 1, ⟨true, 0, true, 32, 32, true, 7, [none], 0, 0⟩,
      by decide +kernel⟩,
    ⟨{ (putAll [(fISP_PORT_CFG_EN 1, 1)] run0) with isp := { Isp.init with on := true } }, 1, ⟨false, 0, true,
      32, 32, true, 7, [], 0, 0⟩, by decide +kernel⟩,
    ⟨({ (putAll [(fISP_PORT_CFG_EN 1, 1)] run0) with isp := { Isp.init with on := true } }).setPipe 1 { Pipe.init with drop := some 0 },
      1, ⟨false, 0, true, 32, 32, true, 7, [], 0, 0⟩, 0, by decide +kernel⟩,
    ⟨({ (putAll [(fISP_PORT_CFG_EN 1, 1)] run0) with isp := { Isp.init with on := true }, clk := { Clk.init with tick := 500 } }).setPipe
      1 { Pipe.init with frames := [newFrame 1 0 run0] }, 1, 0, by decide +kernel⟩,
    ⟨{ (putAll [(fISP_PORT_CFG_EN 1, 1), (fISP_PORT_CFG_WIDTH 1, 2), (fISP_PORT_CFG_HEIGHT 1, 2)] run0) with isp := { Isp.init with on := true }, clk := { Clk.init with tick := 500 } },
      1, ⟨true, 0, true, 32, 32, true, 0, [], 0, 0⟩, by decide +kernel⟩,
    ⟨({ (putAll [(fISP_PORT_CFG_EN 1, 1), (fISP_STATUS_PORT 1, 2)] run0) with isp := { Isp.init with on := true }, clk := { Clk.init with tick := 2400 } }).setPipe
      1 { Pipe.init with frames := [newFrame 1 0 run0, newFrame 1 1 run0, newFrame 1 2 run0] }, 1,
      by decide +kernel⟩,
    ⟨run0, 1, by decide +kernel⟩,
    ⟨{ (putAll [(fISP_STATUS_PORT 1, 2)] run0) with isp := { Isp.init with on := true } }, 1, by decide +kernel⟩,
    ⟨({ run0 with isp := { Isp.init with on := true } }).setPipe 1 { Pipe.init with cmd := some (0, 5) }, 1, 5,
      by decide +kernel⟩,
    ⟨run0.setPipe 1 { Pipe.init with written := [0] }, .core 0, 1, 0, 0x100064, by decide +kernel⟩,
    ⟨run0, .oem 0, 1, 0, 0x100064, by decide +kernel⟩,
    ⟨{ run0 with isp := { Isp.init with on := true } }, 1, 2, by decide +kernel⟩,
    ⟨run0, ⟨[0, 0, 0, 0, 0, 1], [], [], ⟨[], [], [], []⟩⟩, List.replicate 5 [1, 2, 3, 4, 5], 2, 2, [3, 3, 1, 5],
      by decide +kernel⟩,
    ⟨({ (putAll [(fISP_PORT_CFG_EN 1, 1), (fISP_STATUS_PORT 1, 2)] run0) with isp := { Isp.init with on := true } }).setPipe
      1 { Pipe.init with frames := [{ newFrame 1 7 run0 with arrived := true, skew := true }] }, 1, 7, { newFrame 1 7 run0 with arrived := true, skew := true },
      by decide +kernel⟩,
    ⟨({ (putAll [(fISP_PORT_CFG_EN 1, 1), (fISP_PORT_CFG_ROLE 1, 4)] run0) with isp := { Isp.init with on := true } }).setPipe
      1 { Pipe.init with frames := [{ newFrame 1 7 run0 with arrived := true }] }, 1, 7, { newFrame 1 7 run0 with arrived := true },
      by decide +kernel⟩,
    ⟨run0, 1, 7, by decide +kernel⟩,
    ⟨run0, 1, ⟨true, 0, true, 32, 32, true, 0, [], 0, 0⟩, 0, by decide +kernel⟩,
    ⟨run0, 1, 0, by decide +kernel⟩⟩

/-- States and operands that meet the hypotheses of FusionResults. -/
theorem witness_FusionResults :
    -- sweepOk
    (∃ (s : State) (u : Fin 2) (d : Int), s.wide = true ∧ s.get (fFUS_SRC_STATE (6 + u.val)) = 2 ∧ d.natAbs ≤
        100000 ∧ Room s 1) ∧
    -- sweepOff
    (∃ (s : State) (u : Fin 2) (d : Int), s.wide = true ∧ s.get (fFUS_SRC_STATE (6 + u.val)) = 1 ∧ 100000 <
        d.natAbs ∧ Room s 1) ∧
    -- sweepNone
    (∃ (s : State) (u : Fin 2) (d : Int), (s.wide = false ∨ s.get (fFUS_SRC_STATE (6 + u.val)) = 0 ∨ s.get
        (fFUS_SRC_STATE (6 + u.val)) = (if d.natAbs ≤ 100000 then 1 else 2))) ∧
    -- issued
    (∃ (s : State) (i : ResultIn), s.wide = true ∧ s.bit fFUS_STATUS_RUN = true ∧ 400 * i.frame ≤ s.clk.tick ∧
        (missingOf s i = [] ∨ 400 * i.frame + 800 ≤ s.clk.tick) ∧ (∀ n, s.fus.last = some n → i.frame = n + 1)) ∧
    -- issuedMissing
    (∃ (s : State) (i : ResultIn) (k : Fin 11), Room s (11 + (missingOf s i).length) ∧ k ∈ missingOf s i) ∧
    -- stereoPair
    (∃ (s : State) (n : Nat) (e : EgoIn), stereoOk s n = false) ∧
    -- stereoBad
    (∃ (s : State) (role n : Nat), ((∀ p : Fin 6, s.get (fISP_PORT_CFG_ROLE p) = role → (s.rd32 (statsAddr p n +
        0x1C)).toNat % 8 ≠ 1))) ∧
    -- notDue
    (∃ (s : State) (i : ResultIn), (s.wide = false ∨ s.clk.tick < 400 * i.frame ∨ s.bit fFUS_STATUS_RUN = false
        ∨ (∃ n, s.fus.last = some n ∧ i.frame ≠ n + 1) ∨ (missingOf s i ≠ [] ∧ s.clk.tick < 400 * i.frame +
        800))) ∧
    -- newTrackIs
    (∃ (s : State) (v : F32) (i : ResultIn) (c : NewTrack) (r : Nat), (List.range 256).find? (fun t => (s.ftrack
        t).isNone) = some r) ∧
    -- late
    (∃ (s : State) (r : Nat) (obs : List TrackObs) (n : Nat), s.wide = true ∧ s.bit fFUS_STATUS_RUN = true ∧
        s.fus.last = some n ∧ r ≤ 400 * n ∧ r ≤ s.clk.tick ∧ s.clk.tick ≤ r + 1200 ∧ ((∀ o ∈ obs, (s.ftrack
        o.t).isNone = true)) ∧ Room s 1) ∧
    -- lateOne
    (∃ (s : State) (r : Nat) (o : TrackObs) (n : Nat) (x : Track), s.wide = true ∧ s.bit fFUS_STATUS_RUN = true
        ∧ s.fus.last = some n ∧ r ≤ 400 * n ∧ r ≤ s.clk.tick ∧ s.clk.tick ≤ r + 1200 ∧ s.ftrack o.t = some x) ∧
    -- lateDropped
    (∃ (s : State) (r : Nat) (obs : List TrackObs) (n : Nat), s.wide = true ∧ s.bit fFUS_STATUS_RUN = true ∧
        s.fus.last = some n ∧ r ≤ 400 * n ∧ r + 1200 < s.clk.tick ∧ Room s 1) ∧
    -- notLate
    (∃ (s : State) (r : Nat) (obs : List TrackObs), (s.wide = false ∨ s.bit fFUS_STATUS_RUN = false ∨ s.fus.last
        = none ∨ (∃ n, s.fus.last = some n ∧ 400 * n < r) ∨ s.clk.tick < r)) ∧
    -- resRead
    (∃ (s : State) (q : Req), s.wide = true) ∧
    -- resReadOff
    (∃ (s : State) (q : Req), s.wide = false) :=
   ⟨⟨run0.put (fFUS_SRC_STATE 7) 2, 1, -100000, by decide +kernel⟩,
    ⟨run0.put (fFUS_SRC_STATE 7) 1, 1, -100001, by decide +kernel⟩,
    ⟨run0.put (fFUS_SRC_STATE 7) 0, 1, 5, by decide +kernel⟩,
    ⟨{ (run0.put fFUS_STATUS_RUN 1) with clk := { Clk.init with tick := 1200 }, fus := { Fus.init with last := some 2, tracks := [(5, track0)] } },
      ⟨3, [], [], [], [⟨5, 0, [], [], 0, [0, 1], [], 0, 0⟩], [⟨2, [], none, 0, [3], 0, 0⟩], ⟨[], [], 0, 7,
      none⟩, ⟨0, none, 0, 0, 0, 0, 0, 0⟩, ⟨none, none, false, false, 0, 0, 0, false⟩⟩, by decide +kernel⟩,
    ⟨(putAll [(fFUS_SRC_STATE 6, 1), (fFUS_CFG_LIDAR_DIV, 1)] run0), ⟨3, [6], [], [], [], [], ⟨[], [], 0, 0,
      none⟩, ⟨0, none, 0, 0, 0, 0, 0, 0⟩, ⟨none, none, false, false, 0, 0, 0, false⟩⟩, 6, by decide +kernel⟩,
    ⟨run0, 3, ⟨[], [], 0, 31, none⟩, by decide +kernel⟩,
    ⟨run0, 0, 3, by decide +kernel⟩,
    ⟨run0, ⟨3, [], [], [], [], [], ⟨[], [], 0, 0, none⟩, ⟨0, none, 0, 0, 0, 0, 0, 0⟩, ⟨none, none, false, false,
      0, 0, 0, false⟩⟩, Or.inr (Or.inl (by decide +kernel))⟩,
    ⟨run0, 0, ⟨3, [], [], [], [], [], ⟨[], [], 0, 0, none⟩, ⟨0, none, 0, 0, 0, 0, 0, 0⟩, ⟨none, none, false,
      false, 0, 0, 0, false⟩⟩, ⟨2, [], none, 0, [3], 0, 0⟩, 0, by decide +kernel⟩,
    ⟨{ (run0.put fFUS_STATUS_RUN 1) with clk := { Clk.init with tick := 1600 }, fus := { Fus.init with last := some 2, tracks := [(5, track0)] } },
      400, [⟨6, 0, [], [], 0, [0, 1], [], 0, 0⟩], 2, by decide +kernel⟩,
    ⟨{ (run0.put fFUS_STATUS_RUN 1) with clk := { Clk.init with tick := 1600 }, fus := { Fus.init with last := some 2, tracks := [(5, track0)] } },
      400, ⟨5, 0, [], [], 0, [0, 1], [], 0, 0⟩, 2, track0, by decide +kernel⟩,
    ⟨{ (run0.put fFUS_STATUS_RUN 1) with clk := { Clk.init with tick := 1601 }, fus := { Fus.init with last := some 2 } },
      400, [], 2, by decide +kernel⟩,
    ⟨run0, 400, [], Or.inr (Or.inl (by decide +kernel))⟩,
    ⟨run0.put fFUS_RES_STAT_NTRK 3, .core 2, by decide +kernel⟩,
    ⟨{ run0 with straps := { run0.straps with orderB := true } }, .core 2, by decide +kernel⟩⟩

/-- States and operands that meet the hypotheses of GuidanceAndUnloading. -/
theorem witness_GuidanceAndUnloading :
    -- engaged
    (∃ (s : State) (q : Req) (r : Nat), reqIsOem q = false ∧ s.wide = true ∧ appOn s = true ∧ guidState s = 0 ∧
        s.bit (fFUN_REC_CTL_EN 26) = true ∧ fnLocked s 26 = false ∧ s.get (fFUN_REC_CTL_STATE 26) = 1 ∧
        reference s = r ∧ 0 < r ∧ s.bit fFUS_RES_STAT_EGO_VALID = true ∧ Room s 1) ∧
    -- engageRefused
    (∃ (s : State) (q : Req), reqIsOem q = false ∧ s.wide = true ∧ appOn s = true ∧ guidState s = 0 ∧ (s.bit
        (fFUN_REC_CTL_EN 26) = false ∨ fnLocked s 26 = true ∨ s.get (fFUN_REC_CTL_STATE 26) ≠ 1 ∨ reference s =
        0 ∨ s.bit fFUS_RES_STAT_EGO_VALID = false)) ∧
    -- disengaged
    (∃ (s : State) (q : Req), reqIsOem q = false ∧ s.wide = true ∧ guidState s ≠ 0 ∧ Room s 7) ∧
    -- engageNot
    (∃ (s : State) (q : Req), (reqIsOem q = true ∨ s.wide = false ∨ appOn s = false ∨ guidState s ≠ 0)) ∧
    -- disengageNot
    (∃ (s : State) (q : Req), (reqIsOem q = true ∨ s.wide = false ∨ guidState s = 0)) ∧
    -- lockedOut
    (∃ (s : State), s.wide = true ∧ s.fus.fell = false ∧ guidState s ≠ 0 ∧ fnLocked s 26 = true ∧ Room s 7) ∧
    -- resumeNot
    (∃ (s : State) (q : Req), (reqIsOem q = true ∨ s.wide = false ∨ appOn s = false ∨ guidState s ≠ 2)) ∧
    -- resumed
    (∃ (s : State) (q : Req), reqIsOem q = false ∧ s.wide = true ∧ appOn s = true ∧ guidState s = 2 ∧ 50 ≤
        s.fus.clear) ∧
    -- resumeRefused
    (∃ (s : State) (q : Req), reqIsOem q = false ∧ s.wide = true ∧ appOn s = true ∧ guidState s = 2 ∧
        s.fus.clear < 50) ∧
    -- fellBack
    (∃ (s : State) (f : Fin 30), s.get (fFUN_REC_CTL_SP_SRC f) = 3 ∧ fnHome s f = true ∧ (∀ x, s.fn.guid.find?
        (fun x => x.1 == f.val) = some x → sigUsable (s.sig (topLane s) x.2) (s.get fFUS_CFG_GUID_AGE_MAX) =
        false) ∧ s.fus.fell = false ∧ (s.wide = false ∨ guidState s = 0)) ∧
    -- fellIdle
    (∃ (s : State) (f : Fin 30), s.get (fFUN_REC_CTL_SP_SRC f) = 3 ∧ fnHome s f = true ∧ (∀ x, s.fn.guid.find?
        (fun x => x.1 == f.val) = some x → sigUsable (s.sig (topLane s) x.2) (s.get fFUS_CFG_GUID_AGE_MAX) =
        false) ∧ s.wide = true ∧ guidState s ≠ 0 ∧ Room s 2) ∧
    -- fellShown
    (∃ (s : State), s.fus.fell = true ∧ appOn s = true ∧ guidState s ≠ 0 ∧ Room s 1) ∧
    -- notFell
    (∃ (s : State) (f : Fin 30), (s.get (fFUN_REC_CTL_SP_SRC f) ≠ 3 ∨ fnHome s f = false ∨ (∃ e,
        (s.fn.guid.find? fun x => x.1 == f.val) = some (f.val, e) ∧ sigUsable (s.sig (topLane s) e) (s.get
        fFUS_CFG_GUID_AGE_MAX) = true))) ∧
    -- unlNotOver
    (∃ (s : State), (s.wide = false ∨ unlState s ≠ 4 ∨ s.fus.zeroAt = none ∨ (∃ z, s.fus.zeroAt = some z ∧
        s.clk.tick < z + 40000))) ∧
    -- unlAsked
    (∃ (s : State) (q : Req), reqIsOem q = false ∧ s.wide = true ∧ appOn s = true ∧ unlState s = 0 ∧ unlReady s
        = false) ∧
    -- unlBegun
    (∃ (s : State) (q : Req), reqIsOem q = false ∧ s.wide = true ∧ appOn s = true ∧ unlState s = 0 ∧ unlReady s
        = true ∧ Room s 2) ∧
    -- unlStarted
    (∃ (s : State) (q : Req), reqIsOem q = false ∧ s.wide = true ∧ appOn s = true ∧ unlState s = 2 ∧ Room s 1) ∧
    -- unlStopped
    (∃ (s : State) (q : Req), reqIsOem q = false ∧ s.wide = true ∧ unlState s = 3 ∧ Room s 3) ∧
    -- unlAborted
    (∃ (s : State) (q : Req), reqIsOem q = false ∧ s.wide = true ∧ (unlState s = 1 ∨ unlState s = 2) ∧ Room s 6) ∧
    -- unlOver
    (∃ (s : State) (z : Nat), s.wide = true ∧ unlState s = 4 ∧ s.fus.zeroAt = some z ∧ z + 40000 ≤ s.clk.tick ∧
        Room s 3) :=
   ⟨⟨{ (((runA.put (fFUN_REC_CTL_EN 26) 1).put (fFUN_REC_CTL_STATE 26) 1).put fFUS_RES_STAT_EGO_VALID 1) with fus := { Fus.init with mapOk := true } },
      .core 0, 1, by decide +kernel⟩,
    ⟨runA, .core 0, by decide +kernel⟩,
    ⟨(run0.put fFUS_GUID_STAT_STATE 1).put (fFUN_REC_CTL_SP_SRC 26) 3, .core 0, by decide +kernel⟩,
    ⟨run0, .oem 0, by decide +kernel⟩,
    ⟨run0, .core 0, by decide +kernel⟩,
    ⟨putAll [(fFUS_GUID_STAT_STATE, 1), (bitFld fFUN_LOCK 26, 1)] run0, by decide +kernel⟩,
    ⟨run0, .core 0, by decide +kernel⟩,
    ⟨{ (runA.put fFUS_GUID_STAT_STATE 2) with fus := { Fus.init with clear := 50 } }, .core 0,
      by decide +kernel⟩,
    ⟨{ (runA.put fFUS_GUID_STAT_STATE 2) with fus := { Fus.init with clear := 49 } }, .core 0,
      by decide +kernel⟩,
    ⟨(run0.put (fFUN_REC_CTL_SP_SRC 26) 3).put (fFUN_REC_CTL_EN 26) 1, 26, by decide +kernel⟩,
    ⟨((run0.put (fFUN_REC_CTL_SP_SRC 26) 3).put (fFUN_REC_CTL_EN 26) 1).put fFUS_GUID_STAT_STATE 1, 26,
      by decide +kernel⟩,
    ⟨{ (runA.put fFUS_GUID_STAT_STATE 1) with fus := { Fus.init with fell := true } }, by decide +kernel⟩,
    ⟨run0, 26, Or.inl (by decide +kernel)⟩,
    ⟨run0, Or.inr (Or.inl (by decide +kernel))⟩,
    ⟨runA.put fETH_STATUS_FLEET 2, .core 0, by decide +kernel⟩,
    ⟨((((runA.wr fFUS_UNL_CART.addr 7).put (fFUN_REC_CTL_EN 17) 1).put (fFUN_REC_CTL_EN 18) 1).put
      (fFUN_REC_CTL_EN 19) 1).put (fFUN_REC_CTL_EN 20) 1, .core 0, by decide +kernel⟩,
    ⟨runA.put fFUS_UNL_STAT_STATE 2, .core 0, by decide +kernel⟩,
    ⟨run0.put fFUS_UNL_STAT_STATE 3, .core 0, by decide +kernel⟩,
    ⟨run0.put fFUS_UNL_STAT_STATE 2, .core 0, by decide +kernel⟩,
    ⟨{ (run0.put fFUS_UNL_STAT_STATE 4) with clk := { Clk.init with tick := 40000 }, fus := { Fus.init with zeroAt := some 0 } },
      0, by decide +kernel⟩⟩

/-- States and operands that meet the hypotheses of YieldMapUpdates. -/
theorem witness_YieldMapUpdates :
    -- mapPost
    (∃ (s : State) (d : Nat), s.wide = true ∧ s.clk.tick % 2000 = 0 ∧ s.bit fMAP_STATUS_RUN = true ∧
        s.map.queue.length < 8) ∧
    -- mapRefused
    (∃ (s : State) (d : Nat), s.wide = true ∧ s.clk.tick % 2000 = 0 ∧ s.bit fMAP_STATUS_RUN = true ∧ 8 ≤
        s.map.queue.length ∧ Room s 1) ∧
    -- mapNoBoundary
    (∃ (s : State) (d : Nat), s.clk.tick % 2000 ≠ 0) ∧
    -- mapIdle
    (∃ (s : State) (d : Nat), s.clk.tick % 2000 = 0 ∧ (s.wide = false ∨ s.bit fMAP_STATUS_RUN = false)) ∧
    -- lifeHours
    (∃ (s : State) (d : Nat) (p : Fin 4), s.clk.tick % 2000 = 0 ∧ attState s p = 2 ∧ (s.attPort p).acc.length =
        4) ∧
    -- mapUpdated
    (∃ (s : State) (d : Nat) (m : MapSample) (rest : List MapSample), s.wide = true ∧ s.bit fMAP_STATUS_RUN =
        true ∧ s.map.queue = m :: rest ∧ (2000 * m.u + 800 ≤ s.clk.tick ∨ ∃ n, s.fus.last = some n ∧ 5 * m.u ≤
        n)) ∧
    -- fieldOpened
    (∃ (s : State) (d : Nat) (m : MapSample) (rest : List MapSample) (f t0 : Nat), s.wide = true ∧ s.bit
        fMAP_STATUS_RUN = true ∧ s.map.queue = m :: rest ∧ (2000 * m.u + 800 ≤ s.clk.tick ∨ ∃ n, s.fus.last =
        some n ∧ 5 * m.u ≤ n) ∧ s.map.newField = some (f, t0) ∧ t0 < 2000 * m.u ∧ Room s 2) ∧
    -- fieldClosed
    (∃ (s : State) (d : Nat) (m : MapSample) (rest : List MapSample), s.wide = true ∧ s.bit fMAP_STATUS_RUN =
        true ∧ s.map.queue = m :: rest ∧ (2000 * m.u + 800 ≤ s.clk.tick ∨ ∃ n, s.fus.last = some n ∧ 5 * m.u ≤
        n) ∧ dueBy m.u s.map.close = true ∧ s.map.newField = none ∧ s.bit fMAP_STATUS_FIELD_OK = true ∧ Room s
        1) ∧
    -- fieldKept
    (∃ (s : State) (d : Nat) (m : MapSample) (rest : List MapSample), s.wide = true ∧ s.bit fMAP_STATUS_RUN =
        true ∧ s.map.queue = m :: rest ∧ (2000 * m.u + 800 ≤ s.clk.tick ∨ ∃ n, s.fus.last = some n ∧ 5 * m.u ≤
        n) ∧ dueBy m.u s.map.close = false ∧ (∀ f t0, s.map.newField = some (f, t0) → 2000 * m.u ≤ t0)) ∧
    -- kernelRejected
    (∃ (s : State) (u w : Nat), isStep s ((u : Int) - 160) = true ∧
        (match eventKernel s ((u : Int) - 160) with | .error v => v == w | .ok _ => false) = true) ∧
    -- kernelAdopted
    (∃ (s : State) (u : Nat) (he : List F32), isStep s ((u : Int) - 160) = true ∧ (eventKernel s ((u : Int) -
        160)).toOption = some he) ∧
    -- kernelAlone
    (∃ (s : State) (u : Nat), isStep s ((u : Int) - 160) = false) ∧
    -- cutOnce
    (∃ (s : State) (x : MapInc) (c : Cell), x.area ≠ 0) ∧
    -- journalDue
    (∃ (s : State) (u : Nat) (k : MapKey) (v : List Byte), (u % 20 = 0 ∨ dueBy u s.map.journalNow = true) ∧
        s.map.fresh ≠ [] ∧ s.map.writing = none ∧ s.bit fSEC_STATUS_MAPKEY = true) ∧
    -- journalNotDue
    (∃ (s : State) (u : Nat), u % 20 ≠ 0 ∧ dueBy u s.map.journalNow = false) ∧
    -- journalNoKey
    (∃ (s : State) (u : Nat), (s.bit fSEC_STATUS_MAPKEY = false ∨ s.map.fresh = [])) ∧
    -- mapWaits
    (∃ (s : State) (d : Nat), (s.map.queue = [] ∨ s.bit fMAP_STATUS_RUN = false ∨ s.wide = false ∨ (∃ m rest,
        s.map.queue = m :: rest ∧ s.clk.tick < 2000 * m.u + 800 ∧ ∀ n, s.fus.last = some n → n < 5 * m.u))) ∧
    -- journaled
    (∃ (s : State) (full : Bool) (l : List (MapKey × List Byte)), s.map.writing = some l ∧ Room s 1) ∧
    -- journaledCell
    (∃ (s : State) (full : Bool) (k : MapKey) (v : List Byte), s.map.writing = some [(k, v)]) ∧
    -- journalFailed
    (∃ (s : State) (l : List (MapKey × List Byte)), s.map.writing = some l ∧ Room s 1) ∧
    -- journalNone
    (∃ (s : State) (failed full : Bool), s.map.writing = none) ∧
    -- tileIn
    (∃ (s : State) (n : Fin 512) (bad : List (Fin 256)), s.wide = true ∧ s.bit (fMAP_DIR_STAT_VALID n) = true ∧
        s.bit (fMAP_DIR_STAT_LOADING n) = true) ∧
    -- tileNotLoading
    (∃ (s : State) (n : Fin 512) (bad : List (Fin 256)), (s.bit (fMAP_DIR_STAT_LOADING n) = false ∨ s.bit
        (fMAP_DIR_STAT_VALID n) = false ∨ s.wide = false)) ∧
    -- journalAsked
    (∃ (s : State) (q : Req), reqIsOem q = false ∧ s.wide = true) ∧
    -- kernelAsked
    (∃ (s : State) (q : Req), reqIsOem q = false ∧ s.wide = true) ∧
    -- closeAsked
    (∃ (s : State) (q : Req), reqIsOem q = false ∧ s.wide = true) ∧
    -- mapCtlOem
    (∃ (s : State) (q : Req), (reqIsOem q = true ∨ s.wide = false)) ∧
    -- exported
    (∃ (s : State) (f : Nat) (x y : Int), s.wide = true) ∧
    -- deleted
    (∃ (s : State) (f : Nat), s.wide = true) ∧
    -- mapNarrow
    (∃ (s : State) (f : Nat) (x y : Int), s.wide = false) :=
   ⟨⟨{ (run0.put fMAP_STATUS_RUN 1) with clk := { Clk.init with tick := 4000 } }, 0, by decide +kernel⟩,
    ⟨{ (run0.put fMAP_STATUS_RUN 1) with map := { MapEng.init with queue := List.replicate 8 ⟨0, [], 0, 0, false, 0⟩ } },
      0, by decide +kernel⟩,
    ⟨{ run0 with clk := { Clk.init with tick := 1999 } }, 0, by decide +kernel⟩,
    ⟨run0, 0, by decide +kernel⟩,
    ⟨({ run0 with att := { Att.init with ports := [(2, { AttPort.init with acc := [0, 0, 0, 0], imps := 2 })] } }.put
      (fATT_PORT_STAT_STATE 2) 2).putSig 0 148 ⟨0x40000000, 0, true, false, false⟩, 0, 2, by decide +kernel⟩,
    ⟨{ (run0.put fMAP_STATUS_RUN 1) with clk := { Clk.init with tick := 4800 }, map := { MapEng.init with queue := [⟨2, [], 0, 0, false, 0⟩], close := some 3999, kerReset := some 4000 } },
      3, ⟨2, [], 0, 0, false, 0⟩, [], by decide +kernel⟩,
    ⟨{ ((run0.put fMAP_STATUS_RUN 1).put fMAP_STATUS_FIELD_OK 1).put fMAP_FIELD_ID 5 with clk := { Clk.init with tick := 4800 }, map := { MapEng.init with queue := [⟨2, [], 0, 0, false, 0⟩], newField := some (7, 3999) } },
      0, ⟨2, [], 0, 0, false, 0⟩, [], 7, 3999, by decide +kernel⟩,
    ⟨{ ((run0.put fMAP_STATUS_RUN 1).put fMAP_STATUS_FIELD_OK 1).put fMAP_FIELD_ID 5 with clk := { Clk.init with tick := 4800 }, map := { MapEng.init with queue := [⟨2, [], 0, 0, false, 0⟩], close := some 3999 } },
      0, ⟨2, [], 0, 0, false, 0⟩, [], by decide +kernel⟩,
    ⟨{ ((run0.put fMAP_STATUS_RUN 1).put fMAP_STATUS_FIELD_OK 1).put fMAP_FIELD_ID 5 with clk := { Clk.init with tick := 4800 }, map := { MapEng.init with queue := [⟨2, [], 0, 0, false, 0⟩] } },
      0, ⟨2, [], 0, 0, false, 0⟩, [], by refine ⟨by decide +kernel, by decide +kernel, by decide +kernel,
      by decide +kernel, by decide +kernel, fun f t0 h => ?_⟩; cases h⟩,
    ⟨{ run0 with map := { MapEng.init with flows := (List.range 161).map (fun k => (160 + (160 - k), some 0#32, some 0#32)) ++ (List.range 100).map (fun k => (159 - k, some 0x40000000#32, some 0#32)) } },
      320, 1, by decide +kernel⟩,
    ⟨{ run0.put fMAP_CFG_BETA 4 with map := { MapEng.init with ker := List.replicate 160 0x3BCCCCCD#32, nom := [], flows := (List.range 161).map (fun k => (160 + (160 - k), some 0#32, some (if k ≤ 80 then 0#32 else 0x41200000#32))) ++ (List.range 100).map (fun k => (159 - k, some 0x40000000#32, some 0x41200000#32)) } },
      320, (List.range 160).map (fun k => if k = 79 then f32One else 0#32), by decide +kernel⟩,
    ⟨run0, 320, by decide +kernel⟩,
    ⟨run0, ⟨⟨1, 2, 3⟩, 0, 100, 7, false, ⟨0, [], 0, 0, false, 0⟩, none⟩, ⟨1, 2, 3, 3, 3, 4, 4, 0, [0, 0, 0, 0,
      0, 0, 0, 0], 0, 1, 2⟩, by decide +kernel⟩,
    ⟨{ run0.put fSEC_STATUS_MAPKEY 1 with map := { MapEng.init with fresh := [⟨1, 2, 3⟩], store := [(⟨1, 2, 3⟩, List.replicate 31 0#8 ++ [2#8])] } },
      40, ⟨1, 2, 3⟩, [], by decide +kernel⟩,
    ⟨run0, 41, by decide +kernel⟩,
    ⟨run0, 40, by decide +kernel⟩,
    ⟨run0, 0, Or.inl (by decide +kernel)⟩,
    ⟨{ run0 with map := { MapEng.init with writing := some [] } }, true, [], by decide +kernel⟩,
    ⟨{ run0 with map := { MapEng.init with writing := some [(⟨1, 2, 3⟩, [1, 2])] } }, true, ⟨1, 2, 3⟩, [1, 2],
      by decide +kernel⟩,
    ⟨{ run0 with map := { MapEng.init with writing := some [(⟨1, 2, 3⟩, [1, 2])] } }, [(⟨1, 2, 3⟩, [1, 2])],
      by decide +kernel⟩,
    ⟨run0, true, true, by decide +kernel⟩,
    ⟨(run0.put (fMAP_DIR_STAT_VALID 3) 1).put (fMAP_DIR_STAT_LOADING 3) 1, 3, [7], by decide +kernel⟩,
    ⟨run0, 3, [], by decide +kernel⟩,
    ⟨run0, .core 0, by decide +kernel⟩,
    ⟨run0, .core 0, by decide +kernel⟩,
    ⟨run0, .core 0, by decide +kernel⟩,
    ⟨run0, .oem 2, by decide +kernel⟩,
    ⟨run0, 1, 2, 3, by decide +kernel⟩,
    ⟨{ run0 with map := { MapEng.init with store := [(⟨1, 2, 3⟩, [1, 2])] } }, 1, by decide +kernel⟩,
    ⟨{ run0 with straps := { run0.straps with orderB := true } }, 1, 2, 3, by decide +kernel⟩⟩

/-- States and operands that meet the hypotheses of AttachmentsAndLife. -/
theorem witness_AttachmentsAndLife :
    -- polled
    (∃ (s : State) (l : List (Fin 4)), (∀ t0, s.att.polledAt = some t0 → t0 + 2000 ≤ s.clk.tick)) ∧
    -- polledEvents
    (∃ (s : State) (l : List (Fin 4)) (p : Fin 4), (∀ t0, s.att.polledAt = some t0 → t0 + 2000 ≤ s.clk.tick) ∧
        s.bit (fATT_PORT_CFG_EN p) = true ∧ Room s 12) ∧
    -- polledEarly
    (∃ (s : State) (l : List (Fin 4)) (t0 : Nat), s.att.polledAt = some t0 ∧ s.clk.tick < t0 + 2000) ∧
    -- inhibitLock
    (∃ (s : State) (p : Fin 4), inhibits s p = true ∧ s.bit (fATT_PORT_STAT_LOCKED p) = false ∧ Room s 1) ∧
    -- inhibitUnlock
    (∃ (s : State) (p : Fin 4), s.bit (fATT_PORT_STAT_LOCKED p) = true ∧ attState s p = 2 ∧ Room s 1) ∧
    -- pendingNoLock
    (∃ (s : State) (p : Fin 4), (attState s p = 1 ∨ (attState s p = 2 ∧ s.bit (fATT_PORT_STAT_LOCKED p) = false)
        ∨ (s.bit (fATT_PORT_CFG_POLICY p) = false ∧ attState s p ≠ 2))) ∧
    -- authPassed
    (∃ (s : State) (p : Fin 4) (e : ElementIn), (s.attPort p).pendAt ≠ 0 ∧ attState s p ≠ 0 ∧ authFault s p e =
        none ∧ e.serial < 2 ^ 64 ∧ e.kind < 2 ^ fldWidth (fATT_PORT_STAT_ELEM_KIND p)) ∧
    -- authFailed
    (∃ (s : State) (p : Fin 4) (e : ElementIn) (why : Nat), (s.attPort p).pendAt ≠ 0 ∧ (attState s p = 1 ∨
        attState s p = 2) ∧ (e.answers = true ∨ (s.attPort p).pendAt + 2999 ≤ s.clk.tick) ∧ authFault s p e =
        some (3, why) ∧ Room s 2) ∧
    -- authWrongKind
    (∃ (s : State) (p : Fin 4) (e : ElementIn) (why : Nat), (s.attPort p).pendAt ≠ 0 ∧ (attState s p = 1 ∨
        attState s p = 2) ∧ e.answers = true ∧ authFault s p e = some (4, why) ∧ Room s 2) ∧
    -- authFailsAgain
    (∃ (s : State) (p : Fin 4) (e : ElementIn) (st why : Nat), (s.attPort p).pendAt ≠ 0 ∧ (attState s p = 3 ∨
        attState s p = 4) ∧ (e.answers = true ∨ (s.attPort p).pendAt + 2999 ≤ s.clk.tick) ∧ authFault s p e =
        some (st, why)) ∧
    -- authNone
    (∃ (s : State) (p : Fin 4) (e : ElementIn), ((s.attPort p).pendAt = 0 ∨ attState s p = 0 ∨ (e.answers =
        false ∧ s.clk.tick < (s.attPort p).pendAt + 2999))) ∧
    -- reauthDue
    (∃ (s : State) (p : Fin 4), attState s p ≠ 0 ∧ (s.attPort p).authAt + 12000000 ≤ s.clk.tick) ∧
    -- reauthEarly
    (∃ (s : State) (p : Fin 4), (attState s p = 0 ∨ s.clk.tick < (s.attPort p).authAt + 12000000)) ∧
    -- reauthAsked
    (∃ (s : State) (q : Req) (m : Fin 16), reqIsOem q = false) ∧
    -- reauthOem
    (∃ (s : State) (q : Req) (m : Fin 16), reqIsOem q = true) ∧
    -- countersWritten
    (∃ (s : State) (l : List (Fin 4)), s.att.wroteAt + 1200000 ≤ s.clk.tick) ∧
    -- countersRemainder
    (∃ (s : State) (l : List (Fin 4)) (p i : Fin 4), s.att.wroteAt + 1200000 ≤ s.clk.tick ∧ attState s p = 2 ∧ p
        ∈ l ∧ (∃ k : Fin 4, (f32Floor (f32Div ((s.attPort p).acc.getD k 0#32) (lifeUnit k))).toNat ≠ 0)) ∧
    -- countersEarly
    (∃ (s : State) (l : List (Fin 4)), s.clk.tick < s.att.wroteAt + 1200000) ∧
    -- countersRetried
    (∃ (s : State) (l : List (Fin 4)) (p : Fin 4), s.att.wroteAt + 1200000 ≤ s.clk.tick ∧ attState s p = 2 ∧ p ∉
        l ∧ (∃ k : Fin 4, (f32Floor (f32Div ((s.attPort p).acc.getD k 0#32) (lifeUnit k))).toNat ≠ 0) ∧ Room s
        36) ∧
    -- lifeLimit
    (∃ (s : State) (p i : Fin 4), s.get (fATT_LIM p i) ≠ 0 ∧ s.get (fATT_LIM p i) ≤ s.get (fATT_LIFE p i) ∧
        (s.attPort p).near.contains i.val = false ∧ s.bitAt (fATT_PORT_STAT_EOL p) i = false ∧ Room s 2) ∧
    -- lifeNear
    (∃ (s : State) (p i : Fin 4), s.get (fATT_LIFE p i) < s.get (fATT_LIM p i) ∧ 9 * s.get (fATT_LIM p i) ≤ 10 *
        s.get (fATT_LIFE p i) ∧ (s.attPort p).near.contains i.val = false ∧ Room s 1) ∧
    -- lifeFar
    (∃ (s : State) (p i : Fin 4), (s.get (fATT_LIM p i) = 0 ∨ 10 * s.get (fATT_LIFE p i) < 9 * s.get (fATT_LIM p
        i) ∨ ((s.attPort p).near.contains i.val = true ∧ (s.get (fATT_LIFE p i) < s.get (fATT_LIM p i) ∨ s.bitAt
        (fATT_PORT_STAT_EOL p) i = true)))) :=
   ⟨⟨{ ((((run0.put (fATT_PORT_CFG_EN 0) 1).put (fATT_PORT_CFG_EN 1) 1).put (fATT_PORT_STAT_STATE 1) 2).put (fATT_PORT_CFG_EN 2) 1).put (fATT_PORT_STAT_STATE 2) 3 with att := { Att.init with ports := [(2, { AttPort.init with missed := 2 })] } },
      [0], fun t0 h => by cases h⟩,
    ⟨run0.put (fATT_PORT_CFG_EN 1) 1, [1], 1, fun t0 h => (by cases h), by decide +kernel, by decide +kernel⟩,
    ⟨{ run0 with att := { Att.init with polledAt := some 10 }, clk := { Clk.init with tick := 2009 } }, [0], 10,
      by decide +kernel⟩,
    ⟨putAll [(fATT_PORT_CFG_EN 1, 1), (fATT_PORT_CFG_POLICY 1, 1), (fATT_PORT_STAT_STATE 1, 3),
      (fATT_PORT_FMASK_FMASK 1, 6)] run0, 1, by decide +kernel⟩,
    ⟨putAll [(fATT_PORT_CFG_EN 1, 1), (fATT_PORT_CFG_POLICY 1, 1), (fATT_PORT_STAT_STATE 1, 2),
      (fATT_PORT_STAT_LOCKED 1, 1), (fATT_PORT_FMASK_FMASK 1, 6)] run0, 1, by decide +kernel⟩,
    ⟨putAll [(fATT_PORT_STAT_STATE 1, 1), (fATT_PORT_STAT_LOCKED 1, 1)] run0, 1, by decide +kernel⟩,
    ⟨{ (run0.put (fATT_PORT_STAT_STATE 2) 1).put (fATT_PORT_CFG_KIND 2) 5 with att := { Att.init with ports := [(2, { AttPort.init with pendAt := 3, acc := [f32One, 0, 0, 0], serial := 9 })] } },
      2, ⟨true, true, true, 0x123456789A, 5, [1, 2, 3, 4], [(3, 0)]⟩, by decide +kernel⟩,
    ⟨{ run0.put (fATT_PORT_STAT_STATE 2) 1 with att := { Att.init with ports := [(2, { AttPort.init with pendAt := 3 })] }, clk := { Clk.init with tick := 3002 } },
      2, ⟨false, true, true, 5, 5, [], []⟩, 5, by decide +kernel⟩,
    ⟨{ run0.put (fATT_PORT_STAT_STATE 2) 1 with att := { Att.init with ports := [(2, { AttPort.init with pendAt := 3 })] } },
      2, ⟨true, true, true, 5, 5, [], []⟩, 0, by decide +kernel⟩,
    ⟨{ run0.put (fATT_PORT_STAT_STATE 2) 3 with att := { Att.init with ports := [(2, { AttPort.init with pendAt := 3 })] } },
      2, ⟨true, false, true, 5, 5, [], []⟩, 3, 1, by decide +kernel⟩,
    ⟨run0, 2, ⟨true, true, true, 5, 5, [], []⟩, by decide +kernel⟩,
    ⟨{ run0.put (fATT_PORT_STAT_STATE 2) 2 with clk := { Clk.init with tick := 12000000 } }, 2,
      by decide +kernel⟩,
    ⟨run0, 2, by decide +kernel⟩,
    ⟨(run0.put (fATT_PORT_STAT_STATE 2) 2).put (fATT_PORT_STAT_STATE 1) 3, .core 0, 12, by decide +kernel⟩,
    ⟨run0, .oem 0, 12, by decide +kernel⟩,
    ⟨{ run0.put (fATT_PORT_STAT_STATE 2) 2 with att := { Att.init with ports := [(2, { AttPort.init with acc := [0x42200000, 0, 0, 0] })] }, clk := { Clk.init with tick := 1200000 } },
      [2], by decide +kernel⟩,
    ⟨{ run0.put (fATT_PORT_STAT_STATE 2) 2 with att := { Att.init with ports := [(2, { AttPort.init with acc := [0x42200000, 0, 0, 0] })] }, clk := { Clk.init with tick := 1200000 } },
      [2], 2, 0, by decide +kernel⟩,
    ⟨run0, [2], by decide +kernel⟩,
    ⟨{ run0.put (fATT_PORT_STAT_STATE 2) 2 with att := { Att.init with ports := [(2, { AttPort.init with acc := [0, 0x41A00000, 0, 0] })] }, clk := { Clk.init with tick := 1200000 } },
      [], 2, by decide +kernel⟩,
    ⟨putAll [(fATT_LIM 1 2, 100), (fATT_LIFE 1 2, 100)] run0, 1, 2, by decide +kernel⟩,
    ⟨putAll [(fATT_LIM 1 2, 100), (fATT_LIFE 1 2, 90)] run0, 1, 2, by decide +kernel⟩,
    ⟨run0, 1, 2, by decide +kernel⟩⟩

/-- States and operands that meet the hypotheses of SwingSearch. -/
theorem witness_SwingSearch :
    -- swgOn
    (∃ (s : State) (q : Req), reqIsOem q = false ∧ appOn s = true ∧ swgState s = 0 ∧ swgActive s ≠ [] ∧ Room s
        9) ∧
    -- swgOnNone
    (∃ (s : State) (q : Req), reqIsOem q = false ∧ appOn s = true ∧ swgState s = 0 ∧ swgActive s = []) ∧
    -- swgOnAgain
    (∃ (s : State) (q : Req), reqIsOem q = false ∧ appOn s = true ∧ (swgState s = 1 ∨ swgState s = 4)) ∧
    -- swgNo
    (∃ (s : State) (q : Req) (d : Bool), (reqIsOem q = true ∨ appOn s = false)) ∧
    -- swgOffOff
    (∃ (s : State) (q : Req), swgState s = 0) ∧
    -- swgOff
    (∃ (s : State) (q : Req), reqIsOem q = false ∧ appOn s = true ∧ swgState s ≠ 0 ∧ Room s 1) ∧
    -- swgAgain
    (∃ (s : State) (q : Req), reqIsOem q = false ∧ appOn s = true ∧ swgState s ≠ 0) ∧
    -- frameCost
    (∃ (s : State) (n : Nat) (m : SwgSample) (v : F32), appOn s = true ∧ s.swg.samples.find? (fun x => x.frame
        == n) = some m ∧ Sys2Proof.Machine.frameCost s m (frameStat s (s.swg.sigs.getD 0 1023) n) (frameStat s
        (s.swg.sigs.getD 1 1023) n) = some v) ∧
    -- frameNoCost
    (∃ (s : State) (n : Nat) (m : SwgSample), appOn s = true ∧ s.swg.samples.find? (fun x => x.frame == n) =
        some m ∧ Sys2Proof.Machine.frameCost s m (frameStat s (s.swg.sigs.getD 0 1023) n) (frameStat s
        (s.swg.sigs.getD 1 1023) n) = none) ∧
    -- frameUnknown
    (∃ (s : State) (n : Nat), (s.swg.samples.find? (fun x => x.frame == n) = none ∨ appOn s = false)) ∧
    -- steady
    (∃ (s : State), appOn s = true ∧ s.bit fSWG_STATUS_STEADY = true ∧ (swgState s = 1 ∨ (swgState s = 4 ∧
        swgActive s ≠ [])) ∧ Room s 1) ∧
    -- notSteady
    (∃ (s : State), (s.bit fSWG_STATUS_STEADY = false ∨ appOn s = false ∨ swgState s = 0 ∨ swgState s = 2 ∨
        swgState s = 3 ∨ (swgState s = 4 ∧ swgActive s = []))) ∧
    -- updateFew
    (∃ (s : State) (u : Nat) (js : List F32), appOn s = true ∧ s.swg.upd = some u ∧ s.clk.tick = u + 400 ∧
        swgState s = 3 ∧ (winFrames s u).filterMap SwgFrame.cost = js ∧ js.length < 2400 ∧ Room s 1) ∧
    -- updateMoves
    (∃ (s : State) (u : Nat) (g q r lag : F32) (j : Fin 8), appOn s = true ∧ s.swg.upd = some u ∧ s.clk.tick = u
        + 400 ∧ swgState s = 3 ∧ 2400 ≤ ((winFrames s u).filterMap SwgFrame.cost).length ∧ swgCond s j = 0 ∧
        fitFn s (swgFit s u) j = (g, q, r, lag)) ∧
    -- updateNot
    (∃ (s : State), (∀ u, s.swg.upd = some u → s.clk.tick ≠ u + 400 ∨ swgState s ≠ 3 ∨ appOn s = false)) ∧
    -- posted
    (∃ (s : State) (m : SwgSet), appOn s = true ∧ s.swg.set = some m ∧ m.posted = false ∧ s.clk.tick + 11 ≤
        m.apply ∧ ringWorkers s = []) ∧
    -- postedRing
    (∃ (s : State) (m : SwgSet), appOn s = true ∧ s.swg.set = some m ∧ m.posted = false ∧ s.clk.tick + 11 ≤
        m.apply ∧ ringWorkers s ≠ []) ∧
    -- postedNot
    (∃ (s : State), (s.swg.set = none ∨ appOn s = false ∨ (∃ m, s.swg.set = some m ∧ (m.posted = true ∨ m.apply
        < s.clk.tick + 11)))) ∧
    -- missed
    (∃ (s : State) (m : SwgSet), s.swg.set = some m ∧ m.posted = false ∧ m.apply ≤ s.clk.tick + 10 ∧ Room s 1) ∧
    -- missedNot
    (∃ (s : State), (∀ m, s.swg.set = some m → m.posted = true ∨ s.clk.tick + 10 < m.apply)) ∧
    -- leaseGone
    (∃ (s : State), sigUsable (leaseSig s) 800 = false ∧ (swgState s = 2 ∨ swgState s = 3) ∧ Room s 1) ∧
    -- leaseHeld
    (∃ (s : State), sigUsable (leaseSig s) 800 = true) ∧
    -- leaseGoneIdle
    (∃ (s : State), sigUsable (leaseSig s) 800 = false ∧ swgState s ≠ 2 ∧ swgState s ≠ 3) ∧
    -- ditherOver
    (∃ (s : State) (j : Fin 8) (m : SwgItem), dithDue s j = true ∧ s.swg.dith.find? (fun d => d.1 == j.val) =
        some (j.val, m) ∧ fnHome s (swgFn j) = true) ∧
    -- ditherRuns
    (∃ (s : State) (j : Fin 8), dithDue s j = false) ∧
    -- ditherAway
    (∃ (s : State) (j : Fin 8) (m : SwgItem), dithDue s j = true ∧ fnHome s (swgFn j) = false) ∧
    -- ditherTarget
    (∃ (s : State) (j : Fin 8) (m : SwgItem), s.swg.dith = [(j.val, m)] ∧ s.bitAt fFUN_LOCK_LOCK (swgFn j) =
        false ∧ dithDue s j = false ∧ m.t0 ≤ s.clk.tick ∧ fnHome s (swgFn j) = true ∧ s.get (fFUN_REC_CTL_SP_SRC
        (swgFn j)) ≠ 3) ∧
    -- ditherLocked
    (∃ (s : State) (j : Fin 8) (m : SwgItem), s.swg.dith = [(j.val, m)] ∧ s.bitAt fFUN_LOCK_LOCK (swgFn j) =
        true) ∧
    -- setApplied
    (∃ (s : State) (m : SwgSet) (j : Fin 8), s.swg.set = some m ∧ m.posted = true ∧ m.apply = s.clk.tick) ∧
    -- setStays
    (∃ (s : State), (∀ m, s.swg.set = some m → m.posted = false ∨ m.apply ≠ s.clk.tick)) ∧
    -- opTarget
    (∃ (s : State) (f : Fin 30) (v : F32), (s.bitAt fFUN_LOCK_LOCK f = true ∨ ((∀ j : Fin 8, swgFn j = f.val →
        j.val ∉ s.swg.used) ∧ s.get (fFUN_REC_CTL_SP_SRC f) ≠ 3) ∨ (∃ j : Fin 8, swgFn j = f.val ∧ j.val ∈
        s.swg.used ∧ (swgState s = 0 ∨ appOn s = false)))) ∧
    -- opGuided
    (∃ (s : State) (f : Fin 30) (v : F32), s.bitAt fFUN_LOCK_LOCK f = false ∧ (∀ j : Fin 8, swgFn j = f.val →
        j.val ∉ s.swg.used) ∧ s.get (fFUN_REC_CTL_SP_SRC f) = 3) ∧
    -- opBase
    (∃ (s : State) (j : Fin 8) (f : Fin 30) (v : F32), appOn s = true ∧ s.bitAt fFUN_LOCK_LOCK f = false ∧ f.val
        = swgFn j ∧ j.val ∈ s.swg.used ∧ swgState s ≠ 0 ∧ Room s 3) :=
   ⟨⟨(((runA.put (fFUN_REC_CTL_SWG 11) 1).put (fSWG_FN_CFG_EN 2) 1).put (fFUN_REC_CTL_EN 11) 1).put
      (fFUN_REC_CTL_STATE 11) 1 |>.put (fFUN_REC_PRESET 11) 0x40000000, .core 0, by decide +kernel⟩,
    ⟨runA, .core 0, by decide +kernel⟩,
    ⟨runA.put fSWG_STATUS_STATE 4, .core 0, by decide +kernel⟩,
    ⟨run0, .core 0, true, by decide +kernel⟩,
    ⟨runA, .core 0, by decide +kernel⟩,
    ⟨runA.put fSWG_STATUS_STATE 3, .core 0, by decide +kernel⟩,
    ⟨{ (runA.put fSWG_STATUS_STATE 3).put (fSWG_FN_STAT_TRACK_FAILS 4) 3 with swg := { Swg.init with window := [⟨1, none, []⟩] } },
      .core 0, by decide +kernel⟩,
    ⟨{ runA.put fSWG_STATUS_STATE 2 with swg := { Swg.init with samples := [⟨3, (0x41000000, true), (0x40000000, true), [], []⟩] } },
      3, ⟨3, (0x41000000, true), (0x40000000, true), [], []⟩, 0, by decide +kernel⟩,
    ⟨{ runA.put (fSWG_W 4) 0x3F800000 with swg := { Swg.init with samples := [⟨3, (0x41000000, true), (0x40000000, true), [], []⟩] } },
      3, ⟨3, (0x41000000, true), (0x40000000, true), [], []⟩, by decide +kernel⟩,
    ⟨run0, 3, by decide +kernel⟩,
    ⟨(runA.put fSWG_STATUS_STEADY 1).put fSWG_STATUS_STATE 1, by decide +kernel⟩,
    ⟨run0, by decide +kernel⟩,
    ⟨{ runA.put fSWG_STATUS_STATE 3 with clk := { Clk.init with tick := 600400 }, swg := { Swg.init with upd := some 600000, window := [⟨1499, some 0x40000000, []⟩] } },
      600000, [0x40000000], by decide +kernel⟩,
    ⟨wSeek, 1200000, (fitFn wSeek (swgFit wSeek 1200000) (2 : Fin 8)).1, (fitFn wSeek (swgFit wSeek 1200000) (2
      : Fin 8)).2.1, (fitFn wSeek (swgFit wSeek 1200000) (2 : Fin 8)).2.2.1, (fitFn wSeek (swgFit wSeek 1200000)
      (2 : Fin 8)).2.2.2, 2, by decide +kernel, by decide +kernel, by decide +kernel, by decide +kernel,
      by decide +kernel, by decide +kernel,
      by generalize fitFn wSeek (swgFit wSeek 1200000) (2 : Fin 8) = z; rfl⟩,
    ⟨run0, fun u h => (by cases h)⟩,
    ⟨{ runA with swg := { Swg.init with set := some ⟨800, [], false⟩ } }, ⟨800, [], false⟩, by decide +kernel⟩,
    ⟨{ putAll [(bitFld fECN_MEMBERS_JOINED 1, 1), (bitFld fECN_MEMBERS_ALIGNED 1, 1)] runA with swg := { Swg.init with set := some ⟨800, [some ⟨f32One, 0, 3, 800⟩], false⟩ } },
      ⟨800, [some ⟨f32One, 0, 3, 800⟩], false⟩, by decide +kernel⟩,
    ⟨run0, Or.inl (by decide +kernel)⟩,
    ⟨{ run0 with swg := { Swg.init with set := some ⟨800, [], false⟩ }, clk := { Clk.init with tick := 790 } },
      ⟨800, [], false⟩, by decide +kernel⟩,
    ⟨run0, by decide +kernel⟩,
    ⟨run0.put fSWG_STATUS_STATE 2, by decide +kernel⟩,
    ⟨{ run0 with swg := { Swg.init with sigs := [0, 0, 0, 5] } }.putSig 0 5 ⟨0x40000000, 0, true, false, false⟩,
      by decide +kernel⟩,
    ⟨run0, by decide +kernel⟩,
    ⟨{ (run0.put (fFUN_REC_CTL_EN 11) 1) with swg := { Swg.init with dith := [(2, ⟨0x3F000000, 0x3F800000, 1, 0⟩)], ending := [2] } },
      2, ⟨0x3F000000, 0x3F800000, 1, 0⟩, by decide +kernel⟩,
    ⟨run0, 2, by decide +kernel⟩,
    ⟨{ run0 with swg := { Swg.init with dith := [(2, ⟨0x3F000000, 0x3F800000, 1, 0⟩)], ending := [2] } }, 2,
      ⟨0x3F000000, 0x3F800000, 1, 0⟩, by decide +kernel⟩,
    ⟨{ (run0.put (fFUN_REC_CTL_EN 11) 1) with swg := { Swg.init with dith := [(2, ⟨0x3F000000, 0x3F800000, 1, 0⟩)] }, clk := { Clk.init with tick := 300000 } },
      2, ⟨0x3F000000, 0x3F800000, 1, 0⟩, by decide +kernel⟩,
    ⟨{ (run0.put (bitFld fFUN_LOCK_LOCK 11) 1) with swg := { Swg.init with dith := [(2, ⟨0x3F000000, 0x3F800000, 1, 0⟩)] } },
      2, ⟨0x3F000000, 0x3F800000, 1, 0⟩, by decide +kernel⟩,
    ⟨{ (run0.put (fFUN_REC_CTL_EN 11) 1).put (fFUN_REC_CTL_SWG 11) 1 |>.put (fSWG_FN_CFG_EN 2) 1 with clk := { Clk.init with tick := 800 }, swg := { Swg.init with set := some ⟨800, [none, none, some ⟨f32One, 0, 3, 800⟩], true⟩ } },
      ⟨800, [none, none, some ⟨f32One, 0, 3, 800⟩], true⟩, 2, by decide +kernel⟩,
    ⟨run0, fun u h => (by cases h)⟩,
    ⟨run0, 3, 0x3F000000, by decide +kernel⟩,
    ⟨run0.put (fFUN_REC_CTL_SP_SRC 26) 3, 26, 0x3F000000, by decide +kernel⟩,
    ⟨{ (runA.put fSWG_STATUS_STATE 3).put (fFUN_REC_CTL_SWG 11) 1 |>.put (fSWG_FN_CFG_EN 2) 1 with swg := { Swg.init with used := [2] } },
      2, 11, 0x3F000000, by decide +kernel⟩⟩

/-- States and operands that meet the hypotheses of CanFrames. -/
theorem witness_CanFrames :
    -- rxOff
    (∃ (s : State) (p : Fin 6) (f : CanFrame), (s.bit (fCAN_PORT_CFG_EN p) = false ∨ canState s p = 2 ∨ canState
        s p = 3)) ∧
    -- rxProto
    (∃ (s : State) (p : Fin 6) (f : CanFrame), s.bit (fCAN_PORT_CFG_EN p) = true ∧ canState s p < 2 ∧ s.get
        (fCAN_PORT_CFG_DRATE p) = 0 ∧ f.fdf = true ∧
        (match (s.canPort p).protoAt with | some z => decide (z + 20000 ≤ s.clk.tick) | none => true) = true ∧
        Room s 1) ∧
    -- rxProtoSoon
    (∃ (s : State) (p : Fin 6) (f : CanFrame) (z : Nat), s.bit (fCAN_PORT_CFG_EN p) = true ∧ canState s p < 2 ∧
        s.get (fCAN_PORT_CFG_DRATE p) = 0 ∧ f.fdf = true ∧ (s.canPort p).protoAt = some z ∧ s.clk.tick < z +
        20000) ∧
    -- rxSignal
    (∃ (s : State) (p : Fin 6) (f : CanFrame) (i raw : Nat) (m : SigMap), s.bit (fCAN_PORT_CFG_EN p) = true ∧
        canState s p < 2 ∧ (f.fdf = false ∨ s.get (fCAN_PORT_CFG_DRATE p) ≠ 0) ∧ (canJ1939 s p = false ∨ f.ide =
        false ∨ f.id / 65536 % 256 ≠ 0xEA) ∧ (s.wide = false ∨ s.get fGNS_CORR_CFG_PORT ≠ p.val ∨ s.bit
        fGNS_CORR_CFG_EXT ≠ f.ide ∨ s.get fGNS_CORR_ID_CAN_ID ≠ f.id) ∧ ((s.can.maps.filter (fun x => mapMatches
        x.2 p f)).map Prod.fst).Nodup ∧ (i, m) ∈ s.can.maps ∧ mapMatches m p f = true ∧ rawField m.big m.start
        m.len f.data = some raw ∧ (m.na = false ∨ raw + 2 < 2 ^ m.len)) ∧
    -- rxNotAvailable
    (∃ (s : State) (p : Fin 6) (f : CanFrame) (i raw : Nat) (m : SigMap), s.bit (fCAN_PORT_CFG_EN p) = true ∧
        canState s p < 2 ∧ (f.fdf = false ∨ s.get (fCAN_PORT_CFG_DRATE p) ≠ 0) ∧ (canJ1939 s p = false ∨ f.ide =
        false ∨ f.id / 65536 % 256 ≠ 0xEA) ∧ (s.wide = false ∨ s.get fGNS_CORR_CFG_PORT ≠ p.val ∨ s.bit
        fGNS_CORR_CFG_EXT ≠ f.ide ∨ s.get fGNS_CORR_ID_CAN_ID ≠ f.id) ∧ s.can.maps.filter (fun x => mapMatches
        x.2 p f) = [(i, m)] ∧ rawField m.big m.start m.len f.data = some raw ∧ m.na = true ∧ 2 ^ m.len ≤ raw +
        2) ∧
    -- rxShort
    (∃ (s : State) (p : Fin 6) (f : CanFrame) (i : Nat) (m : SigMap), s.bit (fCAN_PORT_CFG_EN p) = true ∧
        canState s p < 2 ∧ (f.fdf = false ∨ s.get (fCAN_PORT_CFG_DRATE p) ≠ 0) ∧ (canJ1939 s p = false ∨ f.ide =
        false ∨ f.id / 65536 % 256 ≠ 0xEA) ∧ (s.wide = false ∨ s.get fGNS_CORR_CFG_PORT ≠ p.val ∨ s.bit
        fGNS_CORR_CFG_EXT ≠ f.ide ∨ s.get fGNS_CORR_ID_CAN_ID ≠ f.id) ∧ s.can.maps.filter (fun x => mapMatches
        x.2 p f) = [(i, m)] ∧ f.data.length * 8 < m.start + m.len) ∧
    -- rxRaw
    (∃ (s : State) (p : Fin 6) (f : CanFrame), s.bit (fCAN_PORT_CFG_EN p) = true ∧ canState s p < 2 ∧ (f.fdf =
        false ∨ s.get (fCAN_PORT_CFG_DRATE p) ≠ 0) ∧ (canJ1939 s p = false ∨ f.ide = false ∨ f.id / 65536 % 256
        ≠ 0xEA) ∧ (s.wide = false ∨ s.get fGNS_CORR_CFG_PORT ≠ p.val ∨ s.bit fGNS_CORR_CFG_EXT ≠ f.ide ∨ s.get
        fGNS_CORR_ID_CAN_ID ≠ f.id) ∧ s.can.maps.filter (fun x => mapMatches x.2 p f) = [] ∧ ((s.canPort
        p).rawSel = true ∨ diagFrame s p f = true) ∧ appRuns s = true) ∧
    -- rxDropped
    (∃ (s : State) (p : Fin 6) (f : CanFrame), s.bit (fCAN_PORT_CFG_EN p) = true ∧ canState s p < 2 ∧ (f.fdf =
        false ∨ s.get (fCAN_PORT_CFG_DRATE p) ≠ 0) ∧ (canJ1939 s p = false ∨ f.ide = false ∨ f.id / 65536 % 256
        ≠ 0xEA) ∧ (s.wide = false ∨ s.get fGNS_CORR_CFG_PORT ≠ p.val ∨ s.bit fGNS_CORR_CFG_EXT ≠ f.ide ∨ s.get
        fGNS_CORR_ID_CAN_ID ≠ f.id) ∧ s.can.maps.filter (fun x => mapMatches x.2 p f) = [] ∧ (((s.canPort
        p).rawSel = false ∧ diagFrame s p f = false) ∨ appRuns s = false)) ∧
    -- rxRequest
    (∃ (s : State) (p : Fin 6) (f : CanFrame) (b0 b1 b2 : Byte), canJ1939 s p = true ∧ f.ide = true ∧ f.id /
        65536 % 256 = 0xEA ∧ (f.id / 256 % 256 = 255 ∨ f.id / 256 % 256 = canAddr s p) ∧ f.data.take 3 = [b0,
        b1, b2]) ∧
    -- timedOut
    (∃ (s : State) (i : Fin 256) (n : Nat) (m : SigMap), s.can.maps.find? (fun x => x.1 == 192 + i.val) = some
        (n, m) ∧ (canVal s n).out = false ∧ (canVal s n).tick + 20 * m.timeout ≤ s.clk.tick ∧ Room s 1) ∧
    -- timedOutNot
    (∃ (s : State) (i : Fin 256), (∀ x ∈ s.can.maps, x.1 = 192 + i.val → (canVal s x.1).out = true ∨ s.clk.tick
        < (canVal s x.1).tick + 20 * x.2.timeout)) ∧
    -- queued
    (∃ (s : State) (m : Fin 32) (k : Nat) (d : TxMsg), s.can.msgs.find? (fun x => x.1 == m.val) = some (k, d) ∧
        d.period ≠ 0 ∧ s.clk.tick % d.period = d.phase ∧ s.bit (fCAN_PORT_CFG_EN d.port) = true ∧ canState s
        d.port ≠ 3 ∧ d.port < 6 ∧ (d.express = false ∨ canJ1939 s d.port = true) ∧ (d.places = [] ∨ ∃ x ∈
        d.places, txsOff s x.sig = false) ∧ (∀ x ∈ (s.canPort d.port).fifo, x.msg = some m.val → x.tries ≠ 0) ∧
        (s.canPort d.port).fifo.length < 32) ∧
    -- queuedExpress
    (∃ (s : State) (m : Fin 32) (k : Nat) (d : TxMsg), s.can.msgs.find? (fun x => x.1 == m.val) = some (k, d) ∧
        d.period ≠ 0 ∧ s.clk.tick % d.period = d.phase ∧ s.bit (fCAN_PORT_CFG_EN d.port) = true ∧ canState s
        d.port ≠ 3 ∧ d.port < 6 ∧ d.express = true ∧ canJ1939 s d.port = false ∧ (d.places = [] ∨ ∃ x ∈
        d.places, txsOff s x.sig = false)) ∧
    -- queueFull
    (∃ (s : State) (m : Fin 32) (k : Nat) (d : TxMsg), s.can.msgs.find? (fun x => x.1 == m.val) = some (k, d) ∧
        d.period ≠ 0 ∧ s.clk.tick % d.period = d.phase ∧ s.bit (fCAN_PORT_CFG_EN d.port) = true ∧ canState s
        d.port ≠ 3 ∧ (d.express = false ∨ canJ1939 s d.port = true) ∧ (d.places = [] ∨ ∃ x ∈ d.places, txsOff s
        x.sig = false) ∧ (∀ x ∈ (s.canPort d.port).fifo, x.msg = some m.val → x.tries ≠ 0) ∧ 32 ≤ (s.canPort
        d.port).fifo.length ∧ Room s 1) ∧
    -- queueReplaced
    (∃ (s : State) (m : Fin 32) (k : Nat) (d : TxMsg), s.can.msgs.find? (fun x => x.1 == m.val) = some (k, d) ∧
        d.period ≠ 0 ∧ s.clk.tick % d.period = d.phase ∧ s.bit (fCAN_PORT_CFG_EN d.port) = true ∧ canState s
        d.port ≠ 3 ∧ d.port < 6 ∧ (d.express = false ∨ canJ1939 s d.port = true) ∧ (d.places = [] ∨ ∃ x ∈
        d.places, txsOff s x.sig = false) ∧ (∃ x ∈ (s.canPort d.port).fifo, x.msg = some m.val ∧ x.tries = 0)) ∧
    -- notDueNow
    (∃ (s : State) (m : Fin 32), (∀ k d, s.can.msgs.find? (fun x => x.1 == m.val) = some (k, d) → d.period = 0 ∨
        s.clk.tick % d.period ≠ d.phase ∨ s.bit (fCAN_PORT_CFG_EN d.port) = false ∨ canState s d.port = 3)) ∧
    -- notSent
    (∃ (s : State) (m : Fin 32) (k : Nat) (d : TxMsg), s.can.msgs.find? (fun x => x.1 == m.val) = some (k, d) ∧
        d.places ≠ [] ∧ (∀ x ∈ d.places, txsOff s x.sig = true)) ∧
    -- txDone
    (∃ (s : State) (p : Fin 6) (tec : Fin 256) (f : TxFrame) (rest : List TxFrame), (s.canPort p).fifo = f ::
        rest ∧ rest.length < 32 ∧ fifoMay s p = true ∧ ((s.canPort p).express = none ∨ (s.canPort p).flight =
        true)) ∧
    -- txDoneExpress
    (∃ (s : State) (p : Fin 6) (tec : Fin 256) (f : TxFrame), (s.canPort p).express = some f ∧ (s.canPort
        p).fifo.length ≤ 32 ∧ canMay s p = true) ∧
    -- txLast
    (∃ (s : State) (p : Fin 6) (e : Bool) (tec : Fin 256) (f : TxFrame) (rest : List TxFrame), (s.canPort
        p).fifo = f :: rest ∧ fifoMay s p = true ∧ ((s.canPort p).express = none ∨ (s.canPort p).flight = true)
        ∧ s.get (fCAN_PORT_CFG_RETRY p) < 16 ∧ s.get (fCAN_PORT_CFG_RETRY p) ≤ f.tries ∧ Room s 1) ∧
    -- txLastExpress
    (∃ (s : State) (p : Fin 6) (e : Bool) (tec : Fin 256) (f : TxFrame), (s.canPort p).express = some f ∧ canMay
        s p = true ∧ s.get (fCAN_PORT_CFG_RETRY p) < 16 ∧ s.get (fCAN_PORT_CFG_RETRY p) ≤ f.tries ∧ Room s 1) ∧
    -- txAgain
    (∃ (s : State) (p : Fin 6) (e : Bool) (tec : Fin 256) (f : TxFrame) (rest : List TxFrame), (s.canPort
        p).fifo = f :: rest ∧ fifoMay s p = true ∧ ((s.canPort p).express = none ∨ (s.canPort p).flight = true)
        ∧ (16 ≤ s.get (fCAN_PORT_CFG_RETRY p) ∨ f.tries < s.get (fCAN_PORT_CFG_RETRY p))) ∧
    -- txAgainExpress
    (∃ (s : State) (p : Fin 6) (e : Bool) (tec : Fin 256) (f : TxFrame), (s.canPort p).express = some f ∧ canMay
        s p = true ∧ (16 ≤ s.get (fCAN_PORT_CFG_RETRY p) ∨ f.tries < s.get (fCAN_PORT_CFG_RETRY p))) ∧
    -- headOld
    (∃ (s : State) (p : Fin 6), s.get (fCAN_PORT_LIM_HOQ_LIM p) ≠ 0 ∧ (s.canPort p).fifo ≠ [] ∧ (s.canPort
        p).hoqDone = false ∧ (s.canPort p).headAt + 20 * s.get (fCAN_PORT_LIM_HOQ_LIM p) ≤ s.clk.tick ∧ Room s
        1) ∧
    -- headYoung
    (∃ (s : State) (p : Fin 6), (s.get (fCAN_PORT_LIM_HOQ_LIM p) = 0 ∨ (s.canPort p).fifo = [] ∨ (s.canPort
        p).hoqDone = true ∨ s.clk.tick < (s.canPort p).headAt + 20 * s.get (fCAN_PORT_LIM_HOQ_LIM p))) ∧
    -- flushed
    (∃ (s : State) (q : Req) (m : Fin 64), reqIsOem q = false) ∧
    -- flushOem
    (∃ (s : State) (q : Req) (m : Fin 64), reqIsOem q = true) ∧
    -- slept
    (∃ (s : State) (p : Fin 6) (z : Nat), s.pwr.parkAt = some z ∧ z ≤ s.clk.tick ∧ canState s p ≠ 3 ∧
        (((s.canPort p).fifo = [] ∧ (s.canPort p).express = none) ∨ z + 1000 ≤ s.clk.tick) ∧ Room s 1) ∧
    -- sleptNot
    (∃ (s : State) (p : Fin 6), (s.pwr.parkAt = none ∨ canState s p = 3 ∨ (∃ z, s.pwr.parkAt = some z ∧
        (s.clk.tick < z ∨ ((s.canPort p).fifo ≠ [] ∨ (s.canPort p).express ≠ none) ∧ s.clk.tick < z + 1000)))) ∧
    -- txsPolicy
    (∃ (s : State) (c : Fin 16) (z : Nat), (s.jamb (48 + c)).timer = some z ∧ z + 2 ≤ s.clk.tick ∧ Room s 1) ∧
    -- txsPolicyNot
    (∃ (s : State) (c : Fin 16), (∀ z, (s.jamb (48 + c)).timer = some z → s.clk.tick < z + 2)) :=
   ⟨⟨run0, 1, ⟨false, false, 5, [], 0⟩, by decide +kernel⟩,
    ⟨run0.put (fCAN_PORT_CFG_EN 1) 1, 1, ⟨false, true, 5, [], 0⟩, by decide +kernel⟩,
    ⟨(run0.put (fCAN_PORT_CFG_EN 1) 1).setCanPort 1 { CanPort.init with protoAt := some 0 }, 1, ⟨false, true, 5,
      [], 0⟩, 0, by decide +kernel⟩,
    ⟨{ run0.put (fCAN_PORT_CFG_EN 1) 1 with can := { Can.init with maps := [(200, ⟨1, 5, 0x7FF, false, 8, 8, false, true, 0x3F000000, 0, false, 10⟩)], vals := [(200, { CanVal.init with out := true })] } },
      1, ⟨false, false, 5, [1, 0xFE], 0⟩, 200, 0xFE, ⟨1, 5, 0x7FF, false, 8, 8, false, true, 0x3F000000, 0,
      false, 10⟩, by decide +kernel⟩,
    ⟨{ run0.put (fCAN_PORT_CFG_EN 1) 1 with can := { Can.init with maps := [(200, ⟨1, 5, 0x7FF, false, 8, 8, false, false, 0x3F000000, 0, true, 10⟩)] } },
      1, ⟨false, false, 5, [1, 0xFF], 0⟩, 200, 0xFF, ⟨1, 5, 0x7FF, false, 8, 8, false, false, 0x3F000000, 0,
      true, 10⟩, by decide +kernel⟩,
    ⟨{ run0.put (fCAN_PORT_CFG_EN 1) 1 with can := { Can.init with maps := [(200, ⟨1, 5, 0x7FF, false, 8, 8, false, false, 0x3F000000, 0, true, 10⟩)] } },
      1, ⟨false, false, 5, [1], 0⟩, 200, ⟨1, 5, 0x7FF, false, 8, 8, false, false, 0x3F000000, 0, true, 10⟩,
      by decide +kernel⟩,
    ⟨{ (run0.put (fCAN_PORT_CFG_EN 1) 1).setCanPort 1 { CanPort.init with rawSel := true } with rst := { Rst.init with next := 10, appUp := true } },
      1, ⟨false, false, 5, [], 0⟩, by decide +kernel⟩,
    ⟨run0.put (fCAN_PORT_CFG_EN 1) 1, 1, ⟨false, false, 5, [], 0⟩, by decide +kernel⟩,
    ⟨(run0.put (fCAN_PORT_CFG_PROTO 1) 1).put (fCAN_PORT_STAT_ADDR 1) 130, 1, ⟨true, false, 0x18EA8205, [0,
      0xEE, 0], 0⟩, 0, 0xEE, 0, by decide +kernel⟩,
    ⟨{ run0 with can := { Can.init with maps := [(200, ⟨1, 5, 0x7FF, false, 8, 8, false, true, 0x3F000000, 0, false, 0⟩)] } },
      8, 200, ⟨1, 5, 0x7FF, false, 8, 8, false, true, 0x3F000000, 0, false, 0⟩, by decide +kernel⟩,
    ⟨run0, 8, by decide +kernel⟩,
    ⟨{ (run0.put (fCAN_PORT_CFG_EN 1) 1).setJamb 51 { Jamb.init with ever := true, val := 0x40A00000 } with can := { Can.init with msgs := [(4, ⟨1, 0x123, false, false, 20, 0, [0xFF, 0xFF], [⟨3, 0, 8, false, false, 0x3F800000, 0⟩], false⟩)] } },
      4, 4, ⟨1, 0x123, false, false, 20, 0, [0xFF, 0xFF], [⟨3, 0, 8, false, false, 0x3F800000, 0⟩], false⟩,
      by decide +kernel, by decide +kernel, by decide +kernel, by decide +kernel, by decide +kernel,
      by decide +kernel, by decide +kernel, Or.inr (by decide +kernel), by decide +kernel, by decide +kernel⟩,
    ⟨{ (run0.put (fCAN_PORT_CFG_EN 1) 1) with can := { Can.init with msgs := [(4, ⟨1, 0x123, false, true, 20, 0, [0xFF, 0xFF], [], true⟩)] } },
      4, 4, ⟨1, 0x123, false, true, 20, 0, [0xFF, 0xFF], [], true⟩, by decide +kernel, by decide +kernel,
      by decide +kernel, by decide +kernel, by decide +kernel, by decide +kernel, by decide +kernel,
      by decide +kernel, Or.inl rfl⟩,
    ⟨{ (run0.put (fCAN_PORT_CFG_EN 1) 1) with can := { Can.init with ports := [(1, { CanPort.init with fifo := List.replicate 32 ⟨1, false, [], none, false, 0, false⟩ })], msgs := [(4, ⟨1, 0x123, false, false, 20, 0, [0xFF, 0xFF], [], false⟩)] } },
      4, 4, ⟨1, 0x123, false, false, 20, 0, [0xFF, 0xFF], [], false⟩, by decide +kernel, by decide +kernel,
      by decide +kernel, by decide +kernel, by decide +kernel, by decide +kernel, Or.inl rfl, by decide +kernel,
      by decide +kernel, by decide +kernel⟩,
    ⟨{ (run0.put (fCAN_PORT_CFG_EN 1) 1) with can := { Can.init with ports := [(1, { CanPort.init with fifo := [⟨0x123, false, [1], some 4, false, 0, false⟩] })], msgs := [(4, ⟨1, 0x123, false, false, 20, 0, [0xFF, 0xFF], [], false⟩)] } },
      4, 4, ⟨1, 0x123, false, false, 20, 0, [0xFF, 0xFF], [], false⟩, by decide +kernel, by decide +kernel,
      by decide +kernel, by decide +kernel, by decide +kernel, by decide +kernel, by decide +kernel, Or.inl rfl,
      by decide +kernel⟩,
    ⟨run0, 4, fun k d h => (by cases h)⟩,
    ⟨{ run0 with can := { Can.init with msgs := [(4, ⟨1, 0x123, false, false, 20, 0, [0xFF, 0xFF], [⟨3, 0, 8, false, false, 0x3F800000, 0⟩], false⟩)] } },
      4, 4, ⟨1, 0x123, false, false, 20, 0, [0xFF, 0xFF], [⟨3, 0, 8, false, false, 0x3F800000, 0⟩], false⟩,
      by decide +kernel⟩,
    ⟨(run0.put (fCAN_PORT_CFG_EN 1) 1).setCanPort 1 { CanPort.init with fifo := [⟨0x123, false, [1], some 4, true, 0, true⟩] },
      1, 3, ⟨0x123, false, [1], some 4, true, 0, true⟩, [], by decide +kernel⟩,
    ⟨(run0.put (fCAN_PORT_CFG_EN 1) 1).setCanPort 1 { CanPort.init with express := some ⟨0x123, false, [1], some 4, true, 0, true⟩ },
      1, 3, ⟨0x123, false, [1], some 4, true, 0, true⟩, by decide +kernel⟩,
    ⟨(run0.put (fCAN_PORT_CFG_EN 1) 1).setCanPort 1 { CanPort.init with fifo := [⟨0x123, false, [1], some 4, true, 0, true⟩] },
      1, true, 3, ⟨0x123, false, [1], some 4, true, 0, true⟩, [], by decide +kernel⟩,
    ⟨(run0.put (fCAN_PORT_CFG_EN 1) 1).setCanPort 1 { CanPort.init with express := some ⟨0x123, false, [1], some 4, true, 0, true⟩ },
      1, true, 3, ⟨0x123, false, [1], some 4, true, 0, true⟩, by decide +kernel⟩,
    ⟨((run0.put (fCAN_PORT_CFG_EN 1) 1).put (fCAN_PORT_CFG_RETRY 1) 16).setCanPort 1 { CanPort.init with fifo := [⟨0x123, false, [1], some 4, true, 0, true⟩] },
      1, true, 3, ⟨0x123, false, [1], some 4, true, 0, true⟩, [], by decide +kernel⟩,
    ⟨((run0.put (fCAN_PORT_CFG_EN 1) 1).put (fCAN_PORT_CFG_RETRY 1) 16).setCanPort 1 { CanPort.init with express := some ⟨0x123, false, [1], some 4, true, 0, true⟩ },
      1, true, 3, ⟨0x123, false, [1], some 4, true, 0, true⟩, by decide +kernel⟩,
    ⟨{ (run0.put (fCAN_PORT_LIM_HOQ_LIM 1) 1).setCanPort 1 { CanPort.init with fifo := [⟨0x123, false, [1], some 4, true, 0, true⟩] } with clk := { Clk.init with tick := 20 } },
      1, by decide +kernel⟩,
    ⟨run0, 1, by decide +kernel⟩,
    ⟨run0.setCanPort 1 { CanPort.init with fifo := [⟨0x123, false, [1], some 4, true, 0, true⟩] }, .core 0, 3,
      by decide +kernel⟩,
    ⟨run0, .oem 0, 3, by decide +kernel⟩,
    ⟨{ run0.setCanPort 1 { CanPort.init with fifo := [⟨0x123, false, [1], some 4, true, 0, true⟩] } with pwr := { Pwr.init with parkAt := some 0 }, clk := { Clk.init with tick := 1000 } },
      1, 0, by decide +kernel⟩,
    ⟨run0, 1, Or.inl (by decide +kernel)⟩,
    ⟨{ (run0.put (fCAN_TXS_CFG_POLICY 3) 2).setJamb 51 { Jamb.init with timer := some 0 } with clk := { Clk.init with tick := 2 } },
      3, 0, by decide +kernel⟩,
    ⟨run0, 3, fun z h =>
      (by rw [show (run0.jamb (48 + ((3 : Fin 16) : Nat))).timer = none by decide +kernel] at h; cases h)⟩⟩

/-- States and operands that meet the hypotheses of CanBusStates. -/
theorem witness_CanBusStates :
    -- busOff
    (∃ (s : State) (p : Fin 6) (tec : Fin 256), s.bit (fCAN_PORT_CFG_EN p) = true ∧ canState s p < 2 ∧ Room s 1) ∧
    -- busOffNot
    (∃ (s : State) (p : Fin 6) (tec : Fin 256), (s.bit (fCAN_PORT_CFG_EN p) = false ∨ 2 ≤ canState s p)) ∧
    -- holdEnd2
    (∃ (s : State) (p : Fin 6), canState s p = 2 ∧ (s.canPort p).boffAt + 200 * s.get (fCAN_PORT_LIM_BOFF_HOLD
        p) ≤ s.clk.tick) ∧
    -- holdNot
    (∃ (s : State) (p : Fin 6), (canState s p ≠ 2 ∨ s.clk.tick < (s.canPort p).boffAt + 200 * s.get
        (fCAN_PORT_LIM_BOFF_HOLD p))) ∧
    -- recover
    (∃ (s : State) (q : Req) (m : Fin 64), reqIsOem q = false) ∧
    -- recoverOem
    (∃ (s : State) (q : Req) (m : Fin 64), reqIsOem q = true) ∧
    -- recovered
    (∃ (s : State) (p : Fin 6), canState s p = 2 ∧ (s.canPort p).recovering = true ∧ Room s 1) ∧
    -- recoveredNot
    (∃ (s : State) (p : Fin 6), (canState s p ≠ 2 ∨ (s.canPort p).recovering = false)) ∧
    -- passive
    (∃ (s : State) (p : Fin 6) (a b : Fin 256), s.bit (fCAN_PORT_CFG_EN p) = true ∧ canState s p = 0 ∧ Room s 1) ∧
    -- active
    (∃ (s : State) (p : Fin 6) (a b : Fin 256), s.bit (fCAN_PORT_CFG_EN p) = true ∧ canState s p = 1) ∧
    -- passiveNot
    (∃ (s : State) (p : Fin 6) (e : Bool) (a b : Fin 256), (s.bit (fCAN_PORT_CFG_EN p) = false ∨ 2 ≤ canState s
        p ∨ (canState s p = 1 ∧ e = true) ∨ (canState s p = 0 ∧ e = false))) ∧
    -- claimed
    (∃ (s : State) (p : Fin 6), canAcl s p = 1 ∧ (s.canPort p).claimAt + 5000 ≤ s.clk.tick ∧ Room s 1) ∧
    -- claimedNot
    (∃ (s : State) (p : Fin 6), (canAcl s p ≠ 1 ∨ s.clk.tick < (s.canPort p).claimAt + 5000)) ∧
    -- otherAddr
    (∃ (s : State) (p : Fin 6) (a : Fin 254) (n : Nat), canJ1939 s p = true ∧ (a.val ≠ canAddr s p ∨ canAcl s p
        = 0 ∨ canAcl s p = 3)) ∧
    -- claimRaw
    (∃ (s : State) (p : Fin 6) (a : Fin 254) (n : Nat), canJ1939 s p = false) ∧
    -- answered
    (∃ (s : State) (p : Fin 6) (a : Fin 254) (n : Nat), canJ1939 s p = true ∧ a.val = canAddr s p ∧ (canAcl s p
        = 1 ∨ canAcl s p = 2) ∧ (s.canPort p).name < n) ∧
    -- moved
    (∃ (s : State) (p : Fin 6) (a : Fin 254) (n k : Nat), canJ1939 s p = true ∧ a.val = canAddr s p ∧ (canAcl s
        p = 1 ∨ canAcl s p = 2) ∧ n ≤ (s.canPort p).name ∧ s.bit (fCAN_PORT_LIM_SELF_CFG p) = true ∧ nextFree
        (a.val :: (s.canPort p).used) a = some k ∧ Room s 1) ∧
    -- noAddr
    (∃ (s : State) (p : Fin 6) (a : Fin 254) (n : Nat), canJ1939 s p = true ∧ a.val = canAddr s p ∧ (canAcl s p
        = 1 ∨ canAcl s p = 2) ∧ n ≤ (s.canPort p).name ∧ (s.bit (fCAN_PORT_LIM_SELF_CFG p) = false ∨ nextFree
        (a.val :: (s.canPort p).used) a = none) ∧ Room s 1) ∧
    -- cannotSent
    (∃ (s : State) (p : Fin 6), canAcl s p = 3 ∧ (s.canPort p).cannotSent = false ∧ s.clk.tick ≤ (s.canPort
        p).cannotAt + 3060) ∧
    -- cannotNot
    (∃ (s : State) (p : Fin 6), (canAcl s p ≠ 3 ∨ (s.canPort p).cannotSent = true ∨ (s.canPort p).cannotAt +
        3060 < s.clk.tick)) ∧
    -- commanded
    (∃ (s : State) (p : Fin 6) (n : Nat) (a : Fin 254), canAcl s p = 2 ∧ n = (s.canPort p).name ∧ s.bit
        (fCAN_PORT_LIM_SELF_CFG p) = true) ∧
    -- commandedNot
    (∃ (s : State) (p : Fin 6) (n : Nat) (a : Fin 254), (canAcl s p ≠ 2 ∨ n ≠ (s.canPort p).name ∨ s.bit
        (fCAN_PORT_LIM_SELF_CFG p) = false)) ∧
    -- addrTimeout
    (∃ (s : State) (p : Fin 6), canAcl s p = 3 ∧ (s.canPort p).cannotAt + 5000 ≤ s.clk.tick) ∧
    -- addrTimeoutNot
    (∃ (s : State) (p : Fin 6), (canAcl s p ≠ 3 ∨ s.clk.tick < (s.canPort p).cannotAt + 5000)) ∧
    -- bamOpens
    (∃ (s : State) (p : Fin 6) (src size pgn : Nat), canJ1939 s p = true ∧ appRuns s = true ∧ size ≤ 1785 ∧
        ((s.canPort p).sessions.filter (fun x => x.src != src)).length < 4) ∧
    -- bamRefused
    (∃ (s : State) (p : Fin 6) (src size pgn : Nat), canJ1939 s p = true ∧ (appRuns s = false ∨ 1785 < size ∨ 4
        ≤ ((s.canPort p).sessions.filter (fun x => x.src != src)).length)) ∧
    -- rtsOpens
    (∃ (s : State) (p : Fin 6) (src size pgn : Nat), canJ1939 s p = true ∧ appRuns s = true ∧ size ≤ 1785 ∧
        ((s.canPort p).sessions.filter (fun x => x.src != src)).length < 4 ∧ (s.canPort p).fifo.length < 32) ∧
    -- rtsFull
    (∃ (s : State) (p : Fin 6) (src size pgn : Nat), canJ1939 s p = true ∧ (4 ≤ ((s.canPort p).sessions.filter
        (fun x => x.src != src)).length ∨ 1785 < size ∨ appRuns s = false) ∧ (s.canPort p).fifo.length < 32) ∧
    -- tpDone
    (∃ (s : State) (p : Fin 6) (src : Nat) (bytes : List Byte) (m : TpSession), canJ1939 s p = true ∧ (s.canPort
        p).sessions.find? (fun x => x.src == src) = some m ∧ m.bam = true) ∧
    -- tpDoneRts
    (∃ (s : State) (p : Fin 6) (src : Nat) (bytes : List Byte) (m : TpSession), canJ1939 s p = true ∧ (s.canPort
        p).sessions.find? (fun x => x.src == src) = some m ∧ m.bam = false ∧ (s.canPort p).fifo.length < 32) ∧
    -- tpDoneNone
    (∃ (s : State) (p : Fin 6) (src : Nat) (bytes : List Byte), (∀ x ∈ (s.canPort p).sessions, x.src ≠ src)) ∧
    -- tpStop
    (∃ (s : State) (p : Fin 6) (src : Nat), canJ1939 s p = true) ∧
    -- tpRaw
    (∃ (s : State) (p : Fin 6) (e : TpEvent), canJ1939 s p = false) ∧
    -- dm1
    (∃ (s : State) (p : Fin 6) (m : List Byte), canJ1939 s p = true ∧ appRuns s = true ∧ (s.canPort p).dm1At +
        (if m = (s.canPort p).dm1 then 20000 else 2000) ≤ s.clk.tick ∧ (s.canPort p).fifo.length < 32) ∧
    -- dm1Louvred
    (∃ (s : State) (p : Fin 6) (m : List Byte), canJ1939 s p = true ∧ appRuns s = false ∧ (s.canPort p).dm1At +
        20000 ≤ s.clk.tick ∧ (s.canPort p).fifo.length < 32) ∧
    -- dm1Early
    (∃ (s : State) (p : Fin 6) (m : List Byte), (canJ1939 s p = false ∨ s.clk.tick < (s.canPort p).dm1At + 2000
        ∨ ((m = (s.canPort p).dm1 ∨ appRuns s = false) ∧ s.clk.tick < (s.canPort p).dm1At + 20000))) :=
   ⟨⟨run0.put (fCAN_PORT_CFG_EN 1) 1, 1, 255, by decide +kernel⟩,
    ⟨run0, 1, 255, by decide +kernel⟩,
    ⟨run0.put (fCAN_PORT_STAT_STATE 1) 2, 1, by decide +kernel⟩,
    ⟨run0, 1, by decide +kernel⟩,
    ⟨run0.put (fCAN_PORT_STAT_STATE 1) 2, .core 0, 3, by decide +kernel⟩,
    ⟨run0, .oem 0, 3, by decide +kernel⟩,
    ⟨(run0.put (fCAN_PORT_STAT_STATE 1) 2).setCanPort 1 { CanPort.init with recovering := true }, 1,
      by decide +kernel⟩,
    ⟨run0, 1, by decide +kernel⟩,
    ⟨run0.put (fCAN_PORT_CFG_EN 1) 1, 1, 128, 3, by decide +kernel⟩,
    ⟨(run0.put (fCAN_PORT_CFG_EN 1) 1).put (fCAN_PORT_STAT_STATE 1) 1, 1, 120, 3, by decide +kernel⟩,
    ⟨run0, 1, true, 128, 3, by decide +kernel⟩,
    ⟨{ run0.put (fCAN_PORT_STAT_ACL 1) 1 with clk := { Clk.init with tick := 5000 } }, 1, by decide +kernel⟩,
    ⟨run0, 1, by decide +kernel⟩,
    ⟨run0.put (fCAN_PORT_CFG_PROTO 1) 1, 1, 130, 5, by decide +kernel⟩,
    ⟨run0, 1, 130, 5, by decide +kernel⟩,
    ⟨((run0.put (fCAN_PORT_CFG_PROTO 1) 1).put (fCAN_PORT_STAT_ACL 1) 2).put (fCAN_PORT_STAT_ADDR 1) 130, 1,
      130, 5, by decide +kernel⟩,
    ⟨(((run0.put (fCAN_PORT_CFG_PROTO 1) 1).put (fCAN_PORT_STAT_ACL 1) 2).put (fCAN_PORT_STAT_ADDR 1) 130).put
      (fCAN_PORT_LIM_SELF_CFG 1) 1, 1, 130, 0, 131, by decide +kernel⟩,
    ⟨((run0.put (fCAN_PORT_CFG_PROTO 1) 1).put (fCAN_PORT_STAT_ACL 1) 2).put (fCAN_PORT_STAT_ADDR 1) 130, 1,
      130, 0, by decide +kernel⟩,
    ⟨run0.put (fCAN_PORT_STAT_ACL 1) 3, 1, by decide +kernel⟩,
    ⟨run0, 1, by decide +kernel⟩,
    ⟨(run0.put (fCAN_PORT_STAT_ACL 1) 2).put (fCAN_PORT_LIM_SELF_CFG 1) 1, 1, 0, 130, by decide +kernel⟩,
    ⟨run0, 1, 0, 130, by decide +kernel⟩,
    ⟨{ (run0.put (fCAN_PORT_STAT_ACL 1) 3).setCanPort 1 { CanPort.init with fifo := [⟨0x123, false, [1], some 4, true, 0, true⟩] } with clk := { Clk.init with tick := 5000 } },
      1, by decide +kernel⟩,
    ⟨run0, 1, by decide +kernel⟩,
    ⟨{ run0.put (fCAN_PORT_CFG_PROTO 1) 1 with rst := { Rst.init with next := 10, appUp := true } }, 1, 7, 100,
      0xFECA, by decide +kernel⟩,
    ⟨run0.put (fCAN_PORT_CFG_PROTO 1) 1, 1, 7, 1786, 0xFECA, by decide +kernel⟩,
    ⟨{ run0.put (fCAN_PORT_CFG_PROTO 1) 1 with rst := { Rst.init with next := 10, appUp := true } }, 1, 7, 100,
      0xFECA, by decide +kernel⟩,
    ⟨{ (run0.put (fCAN_PORT_CFG_PROTO 1) 1).setCanPort 1 { CanPort.init with sessions := [⟨1, 9, 9, true⟩, ⟨2, 9, 9, true⟩, ⟨3, 9, 9, true⟩, ⟨4, 9, 9, true⟩] } with rst := { Rst.init with next := 10, appUp := true } },
      1, 7, 100, 0xFECA, by decide +kernel⟩,
    ⟨(run0.put (fCAN_PORT_CFG_PROTO 1) 1).setCanPort 1 { CanPort.init with sessions := [⟨1, 9, 9, true⟩] }, 1,
      1, [1, 2], ⟨1, 9, 9, true⟩, by decide +kernel⟩,
    ⟨(run0.put (fCAN_PORT_CFG_PROTO 1) 1).setCanPort 1 { CanPort.init with sessions := [⟨1, 9, 9, false⟩] }, 1,
      1, [1, 2], ⟨1, 9, 9, false⟩, by decide +kernel⟩,
    ⟨run0.put (fCAN_PORT_CFG_PROTO 1) 1, 1, 1, [1, 2], by decide +kernel⟩,
    ⟨run0.put (fCAN_PORT_CFG_PROTO 1) 1, 1, 1, by decide +kernel⟩,
    ⟨run0, 1, .stop 3, by decide +kernel⟩,
    ⟨{ run0.put (fCAN_PORT_CFG_PROTO 1) 1 with rst := { Rst.init with next := 10, appUp := true }, clk := { Clk.init with tick := 2000 } },
      1, [1, 2], by decide +kernel⟩,
    ⟨{ run0.put (fCAN_PORT_CFG_PROTO 1) 1 with clk := { Clk.init with tick := 20000 } }, 1, [1, 2],
      by decide +kernel⟩,
    ⟨run0, 1, [1, 2], by decide +kernel⟩⟩

/-- States and operands that meet the hypotheses of EthernetAndConnections. -/
theorem witness_EthernetAndConnections :
    -- linkUp
    (∃ (s : State) (p : Fin 10) (q : Fin 8), ethPort s p = true ∧ s.get (fETH_PORT_STAT_LINK p) ≠ 2 ∧ Room s 1) ∧
    -- linkDown2
    (∃ (s : State) (p : Fin 10) (q : Fin 8), ethPort s p = true ∧ s.get (fETH_PORT_STAT_LINK p) = 2 ∧ Room s 1) ∧
    -- linkSame
    (∃ (s : State) (p : Fin 10) (up : Bool) (q : Fin 8), (ethPort s p = false ∨ (s.get (fETH_PORT_STAT_LINK p) =
        2 ↔ up = true))) ∧
    -- foreignFirst
    (∃ (s : State) (p : Fin 10), ptpPort s p = true ∧ (∀ x ∈ s.eth.ptpAt, x.1 = p.val → x.2 + 72000000 ≤
        s.clk.tick) ∧ Room s 1) ∧
    -- foreignQuiet
    (∃ (s : State) (p : Fin 10) (z : Nat), ptpPort s p = true ∧ (p.val, z) ∈ s.eth.ptpAt ∧ s.clk.tick < z +
        72000000) ∧
    -- ptpNone
    (∃ (s : State) (p : Fin 10) (d : Nat), ptpPort s p = false) ∧
    -- syncSent
    (∃ (s : State) (p : Fin 10), ptpPort s p = true ∧ s.bit (fETH_PORT_STAT_AS_CAPABLE p) = true ∧ s.clk.tick %
        2500 = 0) ∧
    -- syncNot
    (∃ (s : State) (p : Fin 10), (ptpPort s p = false ∨ s.bit (fETH_PORT_STAT_AS_CAPABLE p) = false ∨ s.clk.tick
        % 2500 ≠ 0)) ∧
    -- delayOk
    (∃ (s : State) (p : Fin 10) (d : Nat), ptpPort s p = true ∧ d ≤ 16000) ∧
    -- delayLong
    (∃ (s : State) (p : Fin 10) (d : Nat), ptpPort s p = true ∧ 16000 < d ∧ Room s 1) ∧
    -- tlsFleet
    (∃ (s : State) (al : Nat), netRuns s = true ∧ s.wide = true ∧ fleetState s = 1) ∧
    -- tlsFleetFails
    (∃ (s : State) (al : Nat), netRuns s = true ∧ s.wide = true ∧ fleetState s = 1 ∧ Room s 1) ∧
    -- tlsNtripFails
    (∃ (s : State) (al : Nat), netRuns s = true ∧ s.wide = true ∧ ntripState s = 1 ∧ Room s 1) ∧
    -- tlsNtrip
    (∃ (s : State) (al : Nat), netRuns s = true ∧ s.wide = true ∧ ntripState s = 1) ∧
    -- tlsService
    (∃ (s : State) (al : Nat), netRuns s = true) ∧
    -- tlsServiceFails
    (∃ (s : State) (al : Nat), netRuns s = true ∧ Room s 1) ∧
    -- tlsNone
    (∃ (s : State) (c : Fin 3) (ok : Bool) (al : Nat), (netRuns s = false ∨ (c = 0 ∧ (s.wide = false ∨
        fleetState s ≠ 1)) ∨ (c = 1 ∧ (s.wide = false ∨ ntripState s ≠ 1)))) ∧
    -- connected
    (∃ (s : State), s.wide = true ∧ netRuns s = true ∧ fleetState s = 1 ∧ s.eth.fleetTls = true ∧ Room s 1) ∧
    -- connectedNot
    (∃ (s : State), (fleetState s ≠ 1 ∨ s.eth.fleetTls = false ∨ s.wide = false ∨ netRuns s = false)) ∧
    -- lost
    (∃ (s : State) (why : Fin 3), fleetState s = 2 ∧ Room s 1) ∧
    -- attemptFails
    (∃ (s : State) (why : Fin 3), fleetState s = 1) ∧
    -- lostNot
    (∃ (s : State) (why : Fin 3), (fleetState s = 0 ∨ fleetState s = 3)) ∧
    -- fleetAgain
    (∃ (s : State), s.wide = true ∧ netRuns s = true ∧ fleetState s = 3 ∧ s.eth.fleetAt + 16000 *
        s.eth.fleetWait ≤ s.clk.tick) ∧
    -- ntripAgain
    (∃ (s : State), s.wide = true ∧ netRuns s = true ∧ ntripState s = 3 ∧ s.eth.ntripAt + 16000 *
        s.eth.ntripWait ≤ s.clk.tick) ∧
    -- againEarly
    (∃ (s : State) (n : Bool), (s.wide = false ∨ netRuns s = false ∨ (n = false ∧ (fleetState s ≠ 3 ∨ s.clk.tick
        < s.eth.fleetAt + 16000 * s.eth.fleetWait)) ∨ (n = true ∧ (ntripState s ≠ 3 ∨ s.clk.tick < s.eth.ntripAt
        + 16000 * s.eth.ntripWait)))) ∧
    -- fleetNow
    (∃ (s : State) (q : Req), reqIsOem q = false ∧ mayConnect s = true ∧ fleetState s ≠ 2) ∧
    -- ntripNow
    (∃ (s : State) (q : Req), reqIsOem q = false ∧ mayConnect s = true ∧ (ntripState s = 0 ∨ ntripState s = 3)) ∧
    -- casterOk
    (∃ (s : State) (st : Nat), s.wide = true ∧ netRuns s = true ∧ ntripState s = 1 ∧ (s.eth.tls = false ∨
        s.eth.ntripTls = true) ∧ Room s 1) ∧
    -- casterWaits
    (∃ (s : State) (ok : Bool) (st : Nat), (s.wide = false ∨ netRuns s = false ∨ ntripState s ≠ 1 ∨ (s.eth.tls =
        true ∧ s.eth.ntripTls = false))) ∧
    -- casterNo
    (∃ (s : State) (st : Nat), s.wide = true ∧ netRuns s = true ∧ ntripState s = 1 ∧ (s.eth.tls = false ∨
        s.eth.ntripTls = true) ∧ Room s 1) ∧
    -- silent
    (∃ (s : State) (z : Nat), ntripState s = 2 ∧ s.eth.byteAt = some z ∧ z + 100000 ≤ s.clk.tick ∧ Room s 1) ∧
    -- silentNot
    (∃ (s : State), (ntripState s ≠ 2 ∨ ∀ z, s.eth.byteAt = some z → s.clk.tick < z + 100000)) ∧
    -- casterGone
    (∃ (s : State) (link : Bool), ntripState s = 2 ∧ Room s 1) ∧
    -- casterGoneNot
    (∃ (s : State) (link : Bool), ntripState s ≠ 2) ∧
    -- gga
    (∃ (s : State), ntripState s = 2 ∧ s.eth.gga = true ∧ s.eth.ggaAt + 200000 ≤ s.clk.tick) ∧
    -- ggaNot
    (∃ (s : State), (ntripState s ≠ 2 ∨ s.eth.gga = false ∨ s.clk.tick < s.eth.ggaAt + 200000)) :=
   ⟨⟨run0.put (fETH_PORT_CFG_EN 3) 1, 3, 5, by decide +kernel⟩,
    ⟨(run0.put (fETH_PORT_CFG_EN 3) 1).put (fETH_PORT_STAT_LINK 3) 2, 3, 5, by decide +kernel⟩,
    ⟨run0, 3, true, 5, by decide +kernel⟩,
    ⟨(run0.put (fETH_PORT_CFG_EN 4) 1).put (fETH_PORT_STAT_LINK 4) 2, 4, by decide +kernel⟩,
    ⟨{ (run0.put (fETH_PORT_CFG_EN 4) 1).put (fETH_PORT_STAT_LINK 4) 2 with eth := { Eth.init with ptpAt := [(4, 0)] } },
      4, 0, by decide +kernel⟩,
    ⟨run0, 3, 5, by decide +kernel⟩,
    ⟨((run0.put (fETH_PORT_CFG_EN 4) 1).put (fETH_PORT_STAT_LINK 4) 2).put (fETH_PORT_STAT_AS_CAPABLE 4) 1, 4,
      by decide +kernel⟩,
    ⟨run0, 3, by decide +kernel⟩,
    ⟨(run0.put (fETH_PORT_CFG_EN 4) 1).put (fETH_PORT_STAT_LINK 4) 2, 4, 16000, by decide +kernel⟩,
    ⟨(run0.put (fETH_PORT_CFG_EN 4) 1).put (fETH_PORT_STAT_LINK 4) 2, 4, 16001, by decide +kernel⟩,
    ⟨run0.put fETH_STATUS_FLEET 1, 0, by decide +kernel⟩,
    ⟨run0.put fETH_STATUS_FLEET 1, 40, by decide +kernel⟩,
    ⟨run0.put fETH_STATUS_NTRIP 1, 40, by decide +kernel⟩,
    ⟨run0.put fETH_STATUS_NTRIP 1, 40, by decide +kernel⟩,
    ⟨run0, 0, by decide +kernel⟩,
    ⟨run0, 40, by decide +kernel⟩,
    ⟨run0, 0, true, 0, by decide +kernel⟩,
    ⟨{ run0.put fETH_STATUS_FLEET 1 with eth := { Eth.init with fleetTls := true } }, by decide +kernel⟩,
    ⟨run0, by decide +kernel⟩,
    ⟨run0.put fETH_STATUS_FLEET 2, 1, by decide +kernel⟩,
    ⟨run0.put fETH_STATUS_FLEET 1, 1, by decide +kernel⟩,
    ⟨run0, 1, by decide +kernel⟩,
    ⟨{ run0.put fETH_STATUS_FLEET 3 with clk := { Clk.init with tick := 1000000 } }, by decide +kernel⟩,
    ⟨{ run0.put fETH_STATUS_NTRIP 3 with clk := { Clk.init with tick := 1000000 } }, by decide +kernel⟩,
    ⟨run0, true, by decide +kernel⟩,
    ⟨{ run0 with rst := { Rst.init with next := 10, appUp := true } }, .core 0, by decide +kernel⟩,
    ⟨{ run0 with rst := { Rst.init with next := 10, appUp := true } }, .core 0, by decide +kernel⟩,
    ⟨run0.put fETH_STATUS_NTRIP 1, 200, by decide +kernel⟩,
    ⟨run0, true, 200, by decide +kernel⟩,
    ⟨run0.put fETH_STATUS_NTRIP 1, 401, by decide +kernel⟩,
    ⟨{ run0.put fETH_STATUS_NTRIP 2 with eth := { Eth.init with byteAt := some 0 }, clk := { Clk.init with tick := 100000 } },
      0, by decide +kernel⟩,
    ⟨run0, Or.inl (by decide +kernel)⟩,
    ⟨run0.put fETH_STATUS_NTRIP 2, true, by decide +kernel⟩,
    ⟨run0, true, by decide +kernel⟩,
    ⟨{ run0.put fETH_STATUS_NTRIP 2 with eth := { Eth.init with gga := true }, clk := { Clk.init with tick := 200000 } },
      by decide +kernel⟩,
    ⟨run0, by decide +kernel⟩⟩

/-- States and operands that meet the hypotheses of FleetMessages. -/
theorem witness_FleetMessages :
    -- discardQuiet
    (∃ (s : State) (ty z : Nat), s.eth.inAt = some z ∧ s.clk.tick < z + 1200000) ∧
    -- discarded
    (∃ (s : State) (h : FleetHdr) (a r : Nat), s.wide = true ∧ fleetState s = 2 ∧ (h.type ≠ 4 ∨ h.version ≠ 1 ∨
        h.lenOk = false ∨ s.now + 100000000 < h.time ∨ h.time < s.now - 2000000000) ∧ (∀ z, s.eth.inAt = some z
        → z + 1200000 ≤ s.clk.tick) ∧ Room s 1) ∧
    -- offered
    (∃ (s : State) (h : FleetHdr) (a r z : Nat), s.wide = true ∧ fleetState s = 2 ∧ h.type = 4 ∧ inboundOk h s =
        true ∧ s.eth.reqAt = some z ∧ s.clk.tick < z + 1200000 ∧ h.sender ∈ s.eth.roster ∧ unlState s ≠ 0) ∧
    -- offerBegins
    (∃ (s : State) (h : FleetHdr) (a r z : Nat), s.wide = true ∧ fleetState s = 2 ∧ h.type = 4 ∧ inboundOk h s =
        true ∧ s.eth.reqAt = some z ∧ s.clk.tick < z + 1200000 ∧ h.sender ∈ s.eth.roster ∧ unlState s = 0 ∧
        unlReady { (publish 5 (leByteList 4 h.sender) s).wr fFUS_UNL_CART.addr (BitVec.ofNat 32 h.sender) with eth := { (publish 5 (leByteList 4 h.sender) s).eth with cart := some h.sender, reqAt := none } }
        = true) ∧
    -- offerIgnored
    (∃ (s : State) (h : FleetHdr) (a r : Nat), s.wide = true ∧ fleetState s = 2 ∧ h.type = 4 ∧ inboundOk h s =
        true ∧ (h.sender ∉ s.eth.roster ∨ ∀ z, s.eth.reqAt = some z → z + 1200000 ≤ s.clk.tick)) ∧
    -- ended
    (∃ (s : State) (h : FleetHdr) (x : Fin 256), s.wide = true ∧ fleetState s = 2 ∧ h.type = 6 ∧ inboundOk h s =
        true ∧ s.eth.cart = some h.sender ∧ unlState s = 3 ∧ Room s 3) ∧
    -- endStops
    (∃ (s : State) (h : FleetHdr) (x : Fin 256), s.wide = true ∧ fleetState s = 2 ∧ h.type = 6 ∧ inboundOk h s =
        true ∧ s.eth.cart = some h.sender) ∧
    -- endIgnored
    (∃ (s : State) (h : FleetHdr) (x : Fin 256), s.wide = true ∧ fleetState s = 2 ∧ h.type = 6 ∧ inboundOk h s =
        true ∧ s.eth.cart ≠ some h.sender) ∧
    -- tileAsked
    (∃ (s : State) (h : FleetHdr) (n : Nat) (i j : Int), s.wide = true ∧ fleetState s = 2 ∧ h.type = 8 ∧
        inboundOk h s = true) ∧
    -- cartAt
    (∃ (s : State) (h : FleetHdr) (lat lon hgt : Int) (hd sp fx st : Nat), s.wide = true ∧ fleetState s = 2 ∧
        h.type = 1 ∧ inboundOk h s = true ∧ s.eth.cart = some h.sender ∧ s.get (fFUS_SRC_STATE 10) ≠ 1 ∧ Room s
        1) ∧
    -- cartOther
    (∃ (s : State) (h : FleetHdr) (lat lon hgt : Int) (hd sp fx st : Nat), s.wide = true ∧ fleetState s = 2 ∧
        h.type = 1 ∧ inboundOk h s = true ∧ s.eth.cart ≠ some h.sender) ∧
    -- cartAgain
    (∃ (s : State) (h : FleetHdr) (lat lon hgt : Int) (hd sp fx st : Nat), s.wide = true ∧ fleetState s = 2 ∧
        h.type = 1 ∧ inboundOk h s = true ∧ s.eth.cart = some h.sender ∧ s.get (fFUS_SRC_STATE 10) = 1) ∧
    -- rawCfg
    (∃ (s : State) (b : List Byte), s.wide = true ∧ fleetState s = 2 ∧ b.getD 0 0#8 = 1#8 ∧ b.getD 1 0#8 = 0xA#8
        ∧ 80 < b.length ∧ payInt b 8 8 ≤ s.now + 100000000 ∧ s.now - 2000000000 ≤ payInt b 8 8) ∧
    -- rawKinds
    (∃ (s : State) (b : List Byte), s.wide = true ∧ fleetState s = 2 ∧ b.getD 0 0#8 = 1#8 ∧ payInt b 8 8 ≤ s.now
        + 100000000 ∧ s.now - 2000000000 ≤ payInt b 8 8) ∧
    -- rawBad
    (∃ (s : State) (b : List Byte), s.wide = true ∧ fleetState s = 2 ∧ (b.getD 0 0#8 ≠ 1#8 ∨ payLenOk (b.getD 1
        0#8).toNat b.length = false ∨ s.now + 100000000 < payInt b 8 8 ∨ payInt b 8 8 < s.now - 2000000000) ∧ (∀
        z, s.eth.inAt = some z → z + 1200000 ≤ s.clk.tick) ∧ Room s 1) ∧
    -- synced
    (∃ (s : State) (q : Option Req), ((∃ a, q = some a ∧ reqIsOem a = false) ∨ (q = none ∧ (s.eth.syncAt + 20000
        * s.get fETH_SVC_PORT_TILE_INT ≤ s.clk.tick ∨ s.bit fMAP_STATUS_FIELD_OK = false))) ∧ s.wide = true ∧
        fleetState s = 2 ∧ s.eth.deltas = []) ∧
    -- syncedAgain
    (∃ (s : State) (q : Option Req) (d : TileDelta), ((∃ a, q = some a ∧ reqIsOem a = false) ∨ (q = none ∧
        (s.eth.syncAt + 20000 * s.get fETH_SVC_PORT_TILE_INT ≤ s.clk.tick ∨ s.bit fMAP_STATUS_FIELD_OK =
        false))) ∧ s.wide = true ∧ fleetState s = 2 ∧ s.eth.deltas = [d] ∧ (∀ k ∈ s.map.unsent, MapTile.of k =
        d.tile)) ∧
    -- syncedNone
    (∃ (s : State) (q : Option Req), (fleetState s ≠ 2 ∨ s.wide = false ∨ (∃ a, q = some a ∧ reqIsOem a = true)
        ∨ (q = none ∧ s.clk.tick < s.eth.syncAt + 20000 * s.get fETH_SVC_PORT_TILE_INT ∧ s.bit
        fMAP_STATUS_FIELD_OK = true))) ∧
    -- acked
    (∃ (s : State) (n k : Nat) (d : TileDelta), s.eth.deltas.find? (fun x => x.seq == n) = some d ∧ (∀ i <
        d.chunks, i = k ∨ i ∈ d.acked)) ∧
    -- ackedPart
    (∃ (s : State) (n k : Nat) (d : TileDelta), s.eth.deltas.find? (fun x => x.seq == n) = some d ∧ (∃ i <
        d.chunks, i ≠ k ∧ i ∉ d.acked)) ∧
    -- ackedNone
    (∃ (s : State) (n k : Nat), (∀ x ∈ s.eth.deltas, x.seq ≠ n)) ∧
    -- posSent
    (∃ (s : State) (f m : Nat), s.wide = true ∧ fleetState s = 2 ∧ s.eth.posAt + (if unlState s = 0 then 20000
        else 4000) ≤ s.clk.tick) ∧
    -- tankSent
    (∃ (s : State) (f m : Nat), s.wide = true ∧ fleetState s = 2 ∧ (s.eth.tankAt + 200000 ≤ s.clk.tick ∨
        s.eth.fill + 20 ≤ f ∨ f + 20 ≤ s.eth.fill)) ∧
    -- posWaits
    (∃ (s : State) (f m : Nat), s.wide = true ∧ (fleetState s = 1 ∨ fleetState s = 3) ∧ s.eth.posAt + (if
        unlState s = 0 then 20000 else 4000) ≤ s.clk.tick) ∧
    -- publishNot
    (∃ (s : State) (k : Bool) (f m : Nat), (s.wide = false ∨ fleetState s = 0 ∨ (k = false ∧ s.clk.tick <
        s.eth.posAt + (if unlState s = 0 then 20000 else 4000)) ∨ (k = true ∧ s.clk.tick < s.eth.tankAt + 200000
        ∧ f < s.eth.fill + 20 ∧ s.eth.fill < f + 20))) ∧
    -- reqOver
    (∃ (s : State) (z : Nat), s.eth.reqAt = some z ∧ z + 1200000 ≤ s.clk.tick ∧ Room s 1) ∧
    -- reqOpen
    (∃ (s : State), (∀ z, s.eth.reqAt = some z → s.clk.tick < z + 1200000)) :=
   ⟨⟨{ run0 with eth := { Eth.init with inAt := some 0 } }, 4, 0, by decide +kernel⟩,
    ⟨run0.put fETH_STATUS_FLEET 2, ⟨2, 4, 7, 0, true⟩, 0, 0, by decide +kernel, by decide +kernel,
      by decide +kernel, fun z h => (by cases h), by decide +kernel⟩,
    ⟨{ (run0.put fETH_STATUS_FLEET 2).put fFUS_UNL_STAT_STATE 1 with eth := { Eth.init with reqAt := some 0, roster := [7] } },
      ⟨1, 4, 7, 0, true⟩, 0, 0, 0, by decide +kernel⟩,
    ⟨{ putAll [(fETH_STATUS_FLEET, 2), (fFUN_REC_CTL_EN 17, 1), (fFUN_REC_CTL_EN 18, 1), (fFUN_REC_CTL_EN 19, 1), (fFUN_REC_CTL_EN 20, 1)] runA with eth := { Eth.init with reqAt := some 0, roster := [7] } },
      ⟨1, 4, 7, 0, true⟩, 0, 0, 0, by decide +kernel⟩,
    ⟨run0.put fETH_STATUS_FLEET 2, ⟨1, 4, 7, 0, true⟩, 0, 0, by decide +kernel, by decide +kernel,
      by decide +kernel, by decide +kernel, Or.inl (by decide +kernel)⟩,
    ⟨{ (run0.put fETH_STATUS_FLEET 2).put fFUS_UNL_STAT_STATE 3 with eth := { Eth.init with cart := some 7 } },
      ⟨1, 6, 7, 0, true⟩, 0, by decide +kernel⟩,
    ⟨{ (run0.put fETH_STATUS_FLEET 2).put fFUS_UNL_STAT_STATE 2 with eth := { Eth.init with cart := some 7 } },
      ⟨1, 6, 7, 0, true⟩, 0, by decide +kernel⟩,
    ⟨run0.put fETH_STATUS_FLEET 2, ⟨1, 6, 7, 0, true⟩, 0, by decide +kernel⟩,
    ⟨run0.put fETH_STATUS_FLEET 2, ⟨1, 8, 7, 0, true⟩, 1, 0, 0, by decide +kernel⟩,
    ⟨{ run0.put fETH_STATUS_FLEET 2 with eth := { Eth.init with cart := some 7 } }, ⟨1, 1, 7, 0, true⟩, 1, 2, 3,
      4, 5, 6, 7, by decide +kernel⟩,
    ⟨run0.put fETH_STATUS_FLEET 2, ⟨1, 1, 7, 0, true⟩, 1, 2, 3, 4, 5, 6, 7, by decide +kernel⟩,
    ⟨{ (run0.put fETH_STATUS_FLEET 2).put (fFUS_SRC_STATE 10) 1 with eth := { Eth.init with cart := some 7 } },
      ⟨1, 1, 7, 0, true⟩, 1, 2, 3, 4, 5, 6, 7, by decide +kernel⟩,
    ⟨run0.put fETH_STATUS_FLEET 2, [1, 0xA] ++ List.replicate 79 0, by decide +kernel⟩,
    ⟨run0.put fETH_STATUS_FLEET 2, [1, 6] ++ List.replicate 15 0, by decide +kernel⟩,
    ⟨run0.put fETH_STATUS_FLEET 2, [2, 0xA], by decide +kernel, by decide +kernel, by decide +kernel, fun z h =>
      (by cases h), by decide +kernel⟩,
    ⟨{ run0.put fETH_STATUS_FLEET 2 with map := { MapEng.init with unsent := [⟨1, 2, 3⟩] } }, none, Or.inr
      (by decide +kernel), by decide +kernel, by decide +kernel, by decide +kernel⟩,
    ⟨{ run0.put fETH_STATUS_FLEET 2 with eth := { Eth.init with deltas := [⟨⟨1, 0, 0⟩, [⟨1, 2, 3⟩], 5, 1, []⟩] } },
      none, ⟨⟨1, 0, 0⟩, [⟨1, 2, 3⟩], 5, 1, []⟩, Or.inr (by decide +kernel), by decide +kernel,
      by decide +kernel, by decide +kernel, by decide +kernel⟩,
    ⟨run0, none, Or.inl (by decide +kernel)⟩,
    ⟨{ run0 with eth := { Eth.init with deltas := [⟨⟨1, 0, 0⟩, [], 5, 2, [0]⟩] } }, 5, 1, ⟨⟨1, 0, 0⟩, [], 5, 2,
      [0]⟩, by decide +kernel⟩,
    ⟨{ run0 with eth := { Eth.init with deltas := [⟨⟨1, 0, 0⟩, [], 5, 2, []⟩] } }, 5, 1, ⟨⟨1, 0, 0⟩, [], 5, 2,
      []⟩, by decide +kernel⟩,
    ⟨run0, 5, 1, by decide +kernel⟩,
    ⟨{ run0.put fETH_STATUS_FLEET 2 with clk := { Clk.init with tick := 20000 } }, 0, 0, by decide +kernel⟩,
    ⟨run0.put fETH_STATUS_FLEET 2, 20, 5, by decide +kernel⟩,
    ⟨{ run0.put fETH_STATUS_FLEET 3 with clk := { Clk.init with tick := 20000 }, eth := { Eth.init with queue := [⟨1, [], 0⟩] } },
      0, 0, by decide +kernel⟩,
    ⟨run0, true, 20, 5, by decide +kernel⟩,
    ⟨{ run0 with eth := { Eth.init with reqAt := some 0 }, clk := { Clk.init with tick := 1200000 } }, 0,
      by decide +kernel⟩,
    ⟨run0, by decide +kernel⟩⟩

/-- States and operands that meet the hypotheses of RingManager. -/
theorem witness_RingManager :
    -- firstFrame
    (∃ (s : State), s.straps.manager = true ∧ 7 ≤ s.get fRST_STATUS_STEP ∧ s.ecn.firstAt = none ∧ s.bit
        fECN_STATUS_FOREIGN = false ∧ s.ecn.listenAt + 40 ≤ s.clk.tick) ∧
    -- firstFrameNot
    (∃ (s : State), (s.straps.manager = false ∨ s.get fRST_STATUS_STEP < 7 ∨ s.ecn.firstAt ≠ none ∨ s.bit
        fECN_STATUS_FOREIGN = true ∨ s.clk.tick < s.ecn.listenAt + 40)) ∧
    -- admitted
    (∃ (s : State) (p : Fin 8) (ser fw sid pg : Nat) (ob : Bool), s.straps.manager = true ∧ s.ecn.firstAt ≠ none
        ∧ p.val ≠ 0 ∧ joinReason s p ser fw sid pg = 0 ∧ (∀ x ∈ s.cfg.others, x.pos ≠ p.val)) ∧
    -- admittedReplay
    (∃ (s : State) (p : Fin 8) (ser fw sid pg : Nat) (ob : Bool), s.straps.manager = true ∧ s.ecn.firstAt ≠ none
        ∧ p.val ≠ 0 ∧ joinReason s p ser fw sid pg = 0 ∧ (∃ x ∈ s.cfg.others, x.pos = p.val)) ∧
    -- refusedJoin
    (∃ (s : State) (p : Fin 8) (ser fw sid pg : Nat) (ob : Bool), s.straps.manager = true ∧ s.ecn.firstAt ≠ none
        ∧ p.val ≠ 0 ∧ joinReason s p ser fw sid pg ≠ 0) ∧
    -- joinUnheard
    (∃ (s : State) (p : Fin 8) (ser fw sid pg : Nat) (ob : Bool), (s.straps.manager = false ∨ s.ecn.firstAt =
        none ∨ p.val = 0)) ∧
    -- acked2
    (∃ (s : State) (p : Fin 8) (g : Nat), s.straps.manager = true ∧ (∀ w ∈ s.ecn.waits, w.gen = g → w.type ≠
        0x0B)) ∧
    -- ackedGo
    (∃ (s : State) (p : Fin 8) (g : Nat), s.straps.manager = true ∧ (∃ w ∈ s.ecn.waits, w.gen = g ∧ w.type =
        0x0B)) ∧
    -- halted
    (∃ (s : State), s.straps.manager = true ∧ Room s s.ecn.waits.length) ∧
    -- haltedNot
    (∃ (s : State), (s.straps.manager = false ∨ ∀ w ∈ s.ecn.waits, w.apply ≠ s.clk.tick + 3 ∨ w.halt = true ∨ ∀
        p ∈ w.need, p ∈ w.acked)) ∧
    -- ackedNot
    (∃ (s : State) (p : Fin 8) (g : Nat), s.straps.manager = false) ∧
    -- genDiffers
    (∃ (s : State) (p : Fin 8) (a : Nat), s.straps.manager = true ∧ s.ecn.genAt = some a ∧ a + 1 = s.clk.tick ∧
        p.val ≠ 0 ∧ isJoined s p = true ∧ (tabGet (fun _ => 0#32) s.ecn.slots p).toNat / 256 % 256 ≠ s.ecn.gen %
        256 ∧ Room s 8) ∧
    -- genSame
    (∃ (s : State) (a : Nat), s.straps.manager = true ∧ s.ecn.genAt = some a ∧ a + 1 = s.clk.tick ∧ (∀ q : Fin
        8, q.val ≠ 0 → isJoined s q = true → (tabGet (fun _ => 0#32) s.ecn.slots q).toNat / 256 % 256 =
        s.ecn.gen % 256)) ∧
    -- genNot
    (∃ (s : State), (s.straps.manager = false ∨ ∀ a, s.ecn.genAt = some a → a + 1 ≠ s.clk.tick)) ∧
    -- down
    (∃ (s : State) (p : Fin 2) (d : Fin 9), s.straps.manager = true ∧ s.bit (fPortUp p) = true ∧ (∀ z,
        (s.ecnPort p).last = some z → z + 4 ≤ s.clk.tick) ∧ s.get fECN_STATUS_MODE ≠ min d.val 2 ∧ Room s 2) ∧
    -- downQuiet
    (∃ (s : State) (p : Fin 2) (d : Fin 9), (s.straps.manager = false ∨ s.get fECN_STATUS_MODE = min d.val 2) ∧
        s.bit (fPortUp p) = true ∧ (∀ z, (s.ecnPort p).last = some z → z + 4 ≤ s.clk.tick) ∧ Room s 1) ∧
    -- downNot
    (∃ (s : State) (p : Fin 2) (d : Fin 9) (z : Nat), (s.bit (fPortUp p) = false ∨ ((s.ecnPort p).last = some z
        ∧ s.clk.tick < z + 4))) ∧
    -- up
    (∃ (s : State) (p : Fin 2) (d : Fin 9), (s.straps.manager = false ∨ (d.val = 0 ∧ s.get fECN_STATUS_MODE = 0)
        ∨ (d.val ≠ 0 ∧ s.get fECN_STATUS_MODE = min d.val 2)) ∧ s.bit (fPortUp p) = false ∧ 400 ≤ (s.ecnPort
        p).run ∧ Room s 1) ∧
    -- upPart
    (∃ (s : State) (p : Fin 2) (d : Fin 9), s.straps.manager = true ∧ d.val ≠ 0 ∧ s.get fECN_STATUS_MODE ≠ min
        d.val 2 ∧ s.bit (fPortUp p) = false ∧ 400 ≤ (s.ecnPort p).run ∧ Room s 2) ∧
    -- upRing
    (∃ (s : State) (p : Fin 2), s.straps.manager = true ∧ s.get fECN_STATUS_MODE ≠ 0 ∧ s.bit (fPortUp p) = false
        ∧ 400 ≤ (s.ecnPort p).run ∧ Room s 1) ∧
    -- upNot
    (∃ (s : State) (p : Fin 2) (d : Fin 9), (s.bit (fPortUp p) = true ∨ (s.ecnPort p).run < 400)) ∧
    -- foreignBefore
    (∃ (s : State) (p : Fin 2) (ser : Nat), s.straps.manager = true ∧ ser ≠ s.get64 fSEC_SERIAL_LO.addr ∧ s.bit
        fRST_STATUS_CLAIMS = false ∧ Room s 1) ∧
    -- foreignAfter
    (∃ (s : State) (p : Fin 2) (ser : Nat), s.straps.manager = true ∧ ser ≠ s.get64 fSEC_SERIAL_LO.addr ∧ s.bit
        fRST_STATUS_CLAIMS = true ∧ s.bit (fPortUp p) = true ∧ s.get fECN_STATUS_MODE < 2 ∧ Room s 3) ∧
    -- foreignAfterSplit
    (∃ (s : State) (p : Fin 2) (ser : Nat), s.straps.manager = true ∧ ser ≠ s.get64 fSEC_SERIAL_LO.addr ∧ s.bit
        fRST_STATUS_CLAIMS = true ∧ s.bit (fPortUp p) = true ∧ s.get fECN_STATUS_MODE = 2 ∧ Room s 2) ∧
    -- foreignAfterDown
    (∃ (s : State) (p : Fin 2) (ser : Nat), s.straps.manager = true ∧ ser ≠ s.get64 fSEC_SERIAL_LO.addr ∧ s.bit
        fRST_STATUS_CLAIMS = true ∧ s.bit (fPortUp p) = false ∧ Room s 1) ∧
    -- ownAnnounce
    (∃ (s : State) (p : Fin 2) (ser : Nat), (s.straps.manager = false ∨ ser = s.get64 fSEC_SERIAL_LO.addr)) ∧
    -- badHeader
    (∃ (s : State) (p : Fin 2) (f : EcnFrame), f.hdrOk = false ∧ f.probe = none ∧ f.slots = [] ∧ f.wins = []) ∧
    -- goodFrame
    (∃ (s : State) (p : Fin 2) (f : EcnFrame), s.straps.manager = true ∧ f.hdrOk = true ∧ f.slots = [] ∧ f.wins
        = []) ∧
    -- workerFrame
    (∃ (s : State) (p : Fin 2) (f : EcnFrame), s.straps.manager = false ∧ f.hdrOk = true ∧ f.probe = none ∧
        f.slots = [] ∧ f.wins = [] ∧ (s.ecn.best.1 ≠ s.clk.tick ∨ f.hops < s.ecn.best.2)) ∧
    -- windowUsed
    (∃ (s : State) (p : Fin 2) (f : EcnFrame) (n : Nat) (w : Word) (r : List (Word × Word)), s.straps.manager =
        true ∧ f.hdrOk = true ∧ f.probe = none ∧ f.slots = [(n, w)] ∧ f.wins = [(n, true, r)] ∧ n < 8 ∧ w.toNat
        % 2 = 1 ∧ w.toNat / 2 % 4 = 1 ∧ (∀ g ∈ s.ecn.got, g.1 ≠ n)) ∧
    -- windowUnused
    (∃ (s : State) (p : Fin 2) (f : EcnFrame) (n : Nat) (r : List (Word × Word)), s.straps.manager = true ∧
        f.hdrOk = true ∧ f.probe = none ∧ f.wins = [(n, true, r)] ∧ ((∃ g ∈ s.ecn.got, g.1 = n) ∨ ∀ q ∈ f.slots,
        q.1 = n → q.2.toNat % 2 = 0 ∨ q.2.toNat / 2 % 4 ≠ 1)) ∧
    -- windowBad
    (∃ (s : State) (p : Fin 2) (f : EcnFrame) (n : Nat) (r : List (Word × Word)), s.straps.manager = true ∧
        f.hdrOk = true ∧ f.probe = none ∧ f.slots = [] ∧ f.wins = [(n, false, r)]) ∧
    -- resetSent
    (∃ (s : State) (q : Req) (p : Fin 8), reqIsOem q = false ∧ s.straps.manager = true ∧ p.val ≠ 0 ∧ isJoined s
        p = true) ∧
    -- resetRefused
    (∃ (s : State) (q : Req) (p : Fin 8), reqIsOem q = false ∧ s.straps.manager = true ∧ (p.val = 0 ∨ isJoined s
        p = false) ∧ Room s 1) ∧
    -- resetIgnored
    (∃ (s : State) (q : Req) (p : Fin 8), (reqIsOem q = true ∨ s.straps.manager = false)) :=
   ⟨⟨{ run0.put fRST_STATUS_STEP 7 with clk := { Clk.init with tick := 40 } }, by decide +kernel⟩,
    ⟨run0, by decide +kernel⟩,
    ⟨{ run0.put fECN_CFG_EXPECT 255 with ecn := { Ecn.init with firstAt := some 0 } }, 3, 9, 0, 0, 0, true,
      by decide +kernel⟩,
    ⟨{ run0.put fECN_CFG_EXPECT 255 with ecn := { Ecn.init with firstAt := some 0 }, cfg := { Cfg.init with others := [⟨3, 0, 0, 0, 0, 4, .bytes []⟩] } },
      3, 9, 0, 0, 0, true, by decide +kernel⟩,
    ⟨{ run0 with ecn := { Ecn.init with firstAt := some 0 } }, 3, 9, 0, 0, 0, true, by decide +kernel⟩,
    ⟨run0, 3, 9, 0, 0, 0, true, by decide +kernel⟩,
    ⟨{ run0 with ecn := { Ecn.init with waits := [⟨5, 7, 800, [3], [], false⟩] } }, 3, 7, by decide +kernel⟩,
    ⟨{ run0 with ecn := { Ecn.init with waits := [⟨0x0B, 7, 800, [3], [], false⟩] } }, 3, 7, by decide +kernel⟩,
    ⟨{ run0 with ecn := { Ecn.init with waits := [⟨5, 7, 3, [3], [], false⟩, ⟨6, 8, 3, [3], [3], false⟩] } },
      by decide +kernel⟩,
    ⟨run0, by decide +kernel⟩,
    ⟨{ run0 with straps := ⟨false, false, 3⟩ }, 3, 7, by decide +kernel⟩,
    ⟨{ run0.put fECN_MEMBERS_JOINED 8 with ecn := { Ecn.init with gen := 4, genAt := some 0 }, clk := { Clk.init with tick := 1 } },
      3, 0, by decide +kernel⟩,
    ⟨{ run0 with ecn := { Ecn.init with genAt := some 0 }, clk := { Clk.init with tick := 1 } }, 0,
      by decide +kernel⟩,
    ⟨run0, Or.inr (fun a h => (by cases h))⟩,
    ⟨run0.put fECN_STATUS_OUT_UP 1, 1, 1, by decide +kernel, by decide +kernel, fun z h => absurd h
      (by rw [show (((run0.put fECN_STATUS_OUT_UP 1).ecnPort ((1 : Fin 2) : Nat)).last) = none by decide +kernel]; exact fun h => by cases h),
      by decide +kernel, by decide +kernel⟩,
    ⟨run0.put fECN_STATUS_OUT_UP 1, 1, 0, by decide +kernel, by decide +kernel, fun z h => absurd h
      (by rw [show (((run0.put fECN_STATUS_OUT_UP 1).ecnPort ((1 : Fin 2) : Nat)).last) = none by decide +kernel]; exact fun h => by cases h),
      by decide +kernel⟩,
    ⟨run0, 1, 1, 0, by decide +kernel⟩,
    ⟨run0.setEcnPort 1 { EcnPort.init with run := 400 }, 1, 0, by decide +kernel⟩,
    ⟨(run0.setEcnPort 1 { EcnPort.init with run := 400 }).put fECN_STATUS_MODE 2, 1, 1, by decide +kernel⟩,
    ⟨(run0.setEcnPort 1 { EcnPort.init with run := 400 }).put fECN_STATUS_MODE 1, 1, by decide +kernel⟩,
    ⟨run0, 1, 0, by decide +kernel⟩,
    ⟨run0, 1, 5, by decide +kernel⟩,
    ⟨(run0.put fRST_STATUS_CLAIMS 1).put fECN_STATUS_OUT_UP 1, 1, 5, by decide +kernel⟩,
    ⟨putAll [(fRST_STATUS_CLAIMS, 1), (fECN_STATUS_OUT_UP, 1), (fECN_STATUS_MODE, 2)] run0, 1, 5,
      by decide +kernel⟩,
    ⟨run0.put fRST_STATUS_CLAIMS 1, 1, 5, by decide +kernel⟩,
    ⟨run0, 1, 0, by decide +kernel⟩,
    ⟨run0, 1, ⟨false, 0, 0, 0, 0, 0, false, [], [], none, 0⟩, by decide +kernel⟩,
    ⟨run0.put fECN_STATUS_OUT_UP 1, 1, ⟨true, 0, 0, 0, 0, 0, false, [], [], some (0, 100, 50, 200), 0⟩,
      by decide +kernel⟩,
    ⟨{ run0 with straps := ⟨false, false, 3⟩, clk := { Clk.init with tick := 7 } }, 1, ⟨true, 9, 5, 2, 0, 0,
      false, [], [], none, 0⟩, by decide +kernel⟩,
    ⟨run0, 1, ⟨true, 0, 0, 0, 0, 0, false, [(3, 3#32)], [(3, true, [])], none, 0⟩, 3, 3#32, [],
      by decide +kernel⟩,
    ⟨run0, 1, ⟨true, 0, 0, 0, 0, 0, false, [(3, 5#32)], [(3, true, [])], none, 0⟩, 3, [], by decide +kernel⟩,
    ⟨run0, 1, ⟨true, 0, 0, 0, 0, 0, false, [], [(3, false, [])], none, 0⟩, 3, [], by decide +kernel⟩,
    ⟨run0.put fECN_MEMBERS_JOINED 8, .core 0, 3, by decide +kernel⟩,
    ⟨run0, .core 0, 3, by decide +kernel⟩,
    ⟨run0, .oem 0, 3, by decide +kernel⟩⟩

/-- States and operands that meet the hypotheses of RingWorker. -/
theorem witness_RingWorker :
    -- joinSent
    (∃ (s : State) (p : Fin 2), s.straps.manager = false ∧ 7 ≤ s.get fRST_STATUS_STEP ∧ ecnJoin s = 0 ∧ 16 ≤
        (s.ecnPort p).run ∧ 16 ≤ (s.ecnPort p).probes) ∧
    -- joinSentNot
    (∃ (s : State) (p : Fin 2), (s.straps.manager = true ∨ s.get fRST_STATUS_STEP < 7 ∨ ecnJoin s ≠ 0 ∨
        (s.ecnPort p).run < 16 ∨ (s.ecnPort p).probes < 16)) ∧
    -- joinAgain
    (∃ (s : State), s.straps.manager = false ∧ ecnJoin s = 1 ∧ s.ecn.joinFor = none ∧ s.ecn.since + 400 ≤
        s.clk.tick) ∧
    -- joinAgainNot
    (∃ (s : State), (s.straps.manager = true ∨ ecnJoin s ≠ 1 ∨ s.ecn.joinFor ≠ none ∨ s.clk.tick < s.ecn.since +
        400)) ∧
    -- refusedOver
    (∃ (s : State), ecnJoin s = 3 ∧ s.ecn.since + 20000 ≤ s.clk.tick) ∧
    -- refusedOverNot
    (∃ (s : State), (ecnJoin s ≠ 3 ∨ s.clk.tick < s.ecn.since + 20000)) ∧
    -- admit
    (∃ (s : State) (p : Fin 8) (j : Nat) (tb : Int) (r : Bool), s.straps.manager = false ∧ p.val = s.straps.pos
        ∧ ecnJoin s = 1 ∧ (s.ecn.wasJoined = false ∨ s.ecn.diff = 0)) ∧
    -- admitIsolated
    (∃ (s : State) (p : Fin 8) (j : Nat) (tb : Int) (r : Bool), s.straps.manager = false ∧ p.val = s.straps.pos
        ∧ ecnJoin s = 1 ∧ s.ecn.wasJoined = true ∧ s.ecn.diff ≠ 0 ∧ Room s 1) ∧
    -- refuse
    (∃ (s : State) (p : Fin 8) (r : Fin 5), s.straps.manager = false ∧ p.val = s.straps.pos ∧ ecnJoin s = 1 ∧
        r.val ≠ 0 ∧ Room s 1) ∧
    -- joined
    (∃ (s : State) (j : Nat) (tb : Int), s.straps.manager = false ∧ ecnJoin s = 1 ∧ s.ecn.joinFor = some (j, tb)
        ∧ s.ecn.wasJoined = false ∧ (j : Int) ≤ s.clk.tick + s.ecn.diff + 1) ∧
    -- joinedAgain
    (∃ (s : State) (j : Nat) (tb : Int), s.straps.manager = false ∧ ecnJoin s = 1 ∧ s.ecn.joinFor = some (j, tb)
        ∧ s.ecn.wasJoined = true ∧ tb + ((s.clk.steps.filter (fun x => decide (x.2 ≤ j))).map Prod.fst).sum =
        s.clk.tbase ∧ (j : Int) ≤ s.clk.tick + s.ecn.diff + 1 ∧ Room s 1) ∧
    -- joinedStep
    (∃ (s : State) (j : Nat) (tb : Int), s.straps.manager = false ∧ ecnJoin s = 1 ∧ s.ecn.joinFor = some (j, tb)
        ∧ s.ecn.wasJoined = true ∧ tb + ((s.clk.steps.filter (fun x => decide (x.2 ≤ j))).map Prod.fst).sum ≠
        s.clk.tbase ∧ (j : Int) ≤ s.clk.tick + s.ecn.diff + 1 ∧ Room s 2) ∧
    -- joinedNot
    (∃ (s : State), (s.straps.manager = true ∨ ecnJoin s ≠ 1 ∨ ∀ j tb, s.ecn.joinFor = some (j, tb) → s.clk.tick
        + s.ecn.diff + 1 < (j : Int))) ∧
    -- rejoined
    (∃ (s : State), s.straps.manager = false ∧ ecnJoin s = 2 ∧ s.get fCLK_STATUS_ALIGN = 2 ∧ s.clk.tick ≤
        s.clk.edgeAt + 1 ∧ s.ecn.diff = 0 ∧ Room s 1) ∧
    -- rejoinIsolated
    (∃ (s : State), s.straps.manager = false ∧ ecnJoin s = 2 ∧ s.get fCLK_STATUS_ALIGN = 2 ∧ s.clk.tick ≤
        s.clk.edgeAt + 1 ∧ s.ecn.diff ≠ 0 ∧ Room s 1) ∧
    -- rejoinNot
    (∃ (s : State), (s.straps.manager = true ∨ ecnJoin s ≠ 2 ∨ s.get fCLK_STATUS_ALIGN ≠ 2 ∨ s.clk.edgeAt + 1 <
        s.clk.tick)) ∧
    -- late2
    (∃ (s : State) (z : Nat), s.straps.manager = false ∧ s.ecn.firstHdr = some z ∧ ecnJoin s ≠ 2 ∧ s.ecn.late =
        false ∧ z + 20000 ≤ s.clk.tick ∧ Room s 1) ∧
    -- lateNot
    (∃ (s : State), (s.straps.manager = true ∨ ecnJoin s = 2 ∨ s.ecn.late = true ∨ ∀ z, s.ecn.firstHdr = some z
        → s.clk.tick < z + 20000)) ∧
    -- setHeld
    (∃ (s : State) (g a : Nat) (l : List (Option SwgItem)), s.straps.manager = false ∧ s.clk.tick < a) ∧
    -- modeHeld
    (∃ (s : State) (g a : Nat), s.straps.manager = false ∧ s.clk.tick < a) ∧
    -- stepHeld
    (∃ (s : State) (d : Int) (bnd : Nat), s.straps.manager = false ∧ ecnJoin s ≠ 4 ∧ sysTick s < (bnd : Int)) ∧
    -- leapSet
    (∃ (s : State) (g : Nat), s.straps.manager = false) ∧
    -- leapPend
    (∃ (s : State) (g at0 : Nat) (neg : Bool), s.straps.manager = false ∧ s.now < (at0 : Int) ∧ at0 <
        18446744073709551616) ∧
    -- leapPast
    (∃ (s : State) (g at0 : Nat) (neg : Bool), s.straps.manager = false ∧ (at0 : Int) ≤ s.now) ∧
    -- resetDue
    (∃ (s : State) (p : Fin 8), s.straps.manager = false ∧ p.val = s.straps.pos) ∧
    -- commitPart
    (∃ (s : State) (m : CommitPart) (ps : List CommitPart), s.straps.manager = false ∧ m.pos = s.straps.pos ∧
        m.crcOk = true ∧ s.clk.tick < m.apply ∧ (s.cfg.parts.filter (fun p => p.gen == m.gen && p.index !=
        m.index)) ++ [m] = ps ∧ (∃ i < m.count, ∀ p ∈ ps, p.index ≠ i)) ∧
    -- commitWhole
    (∃ (s : State) (m : CommitPart) (ps : List CommitPart) (its : List CfgItem), s.straps.manager = false ∧
        m.pos = s.straps.pos ∧ m.crcOk = true ∧ s.clk.tick < m.apply ∧ (s.cfg.parts.filter (fun p => p.gen ==
        m.gen && p.index != m.index)) ++ [m] = ps ∧ (∀ i < m.count, ∃ p ∈ ps, p.index = i) ∧ (List.range
        m.count).flatMap (fun i => (ps.find? fun p => p.index == i).elim [] fun p => p.items) = its ∧ (its = []
        ∨ firstBad its { s with cfg := { s.cfg with parts := [] } } = none)) ∧
    -- commitBad
    (∃ (s : State) (m : CommitPart) (ps : List CommitPart) (its : List CfgItem) (k : Nat), s.straps.manager =
        false ∧ m.pos = s.straps.pos ∧ m.crcOk = true ∧ s.clk.tick < m.apply ∧ (s.cfg.parts.filter (fun p =>
        p.gen == m.gen && p.index != m.index)) ++ [m] = ps ∧ (∀ i < m.count, ∃ p ∈ ps, p.index = i) ∧
        (List.range m.count).flatMap (fun i => (ps.find? fun p => p.index == i).elim [] fun p => p.items) = its
        ∧ its ≠ [] ∧ firstBad its { s with cfg := { s.cfg with parts := [] } } = some k) :=
   ⟨⟨{ (run0.put fRST_STATUS_STEP 7).setEcnPort 1 { EcnPort.init with run := 16, probes := 16 } with straps := ⟨false, false, 3⟩ },
      1, by decide +kernel⟩,
    ⟨run0, 1, by decide +kernel⟩,
    ⟨{ run0.put fECN_STATUS_JOIN 1 with straps := ⟨false, false, 3⟩, clk := { Clk.init with tick := 400 } },
      by decide +kernel⟩,
    ⟨run0, by decide +kernel⟩,
    ⟨{ run0.put fECN_STATUS_JOIN 3 with clk := { Clk.init with tick := 20000 } }, by decide +kernel⟩,
    ⟨run0, by decide +kernel⟩,
    ⟨{ run0.put fECN_STATUS_JOIN 1 with straps := ⟨false, false, 3⟩ }, 3, 400, 9, true, by decide +kernel⟩,
    ⟨{ run0.put fECN_STATUS_JOIN 1 with straps := ⟨false, false, 3⟩, ecn := { Ecn.init with wasJoined := true, diff := -4 } },
      3, 400, 9, true, by decide +kernel⟩,
    ⟨{ run0.put fECN_STATUS_JOIN 1 with straps := ⟨false, false, 3⟩ }, 3, 4, by decide +kernel⟩,
    ⟨{ run0.put fECN_STATUS_JOIN 1 with straps := ⟨false, false, 3⟩, ecn := { Ecn.init with joinFor := some (400, 77), diff := 399 }, clk := { Clk.init with steps := [(5, 400), (7, 800)] } },
      400, 77, by decide +kernel⟩,
    ⟨{ run0.put fECN_STATUS_JOIN 1 with straps := ⟨false, false, 3⟩, ecn := { Ecn.init with joinFor := some (1, 0), wasJoined := true } },
      1, 0, by decide +kernel⟩,
    ⟨{ run0.put fECN_STATUS_JOIN 1 with straps := ⟨false, false, 3⟩, ecn := { Ecn.init with joinFor := some (1, 9), wasJoined := true } },
      1, 9, by decide +kernel⟩,
    ⟨run0, Or.inl (by decide +kernel)⟩,
    ⟨{ (run0.put fECN_STATUS_JOIN 2).put fCLK_STATUS_ALIGN 2 with straps := ⟨false, false, 3⟩ },
      by decide +kernel⟩,
    ⟨{ (run0.put fECN_STATUS_JOIN 2).put fCLK_STATUS_ALIGN 2 with straps := ⟨false, false, 3⟩, ecn := { Ecn.init with diff := 2 } },
      by decide +kernel⟩,
    ⟨run0, by decide +kernel⟩,
    ⟨{ run0 with straps := ⟨false, false, 3⟩, ecn := { Ecn.init with firstHdr := some 0 }, clk := { Clk.init with tick := 20000 } },
      0, by decide +kernel⟩,
    ⟨run0, Or.inl (by decide +kernel)⟩,
    ⟨{ run0 with straps := ⟨false, false, 3⟩ }, 7, 800, [], by decide +kernel⟩,
    ⟨{ (run0.put fECN_STATUS_JOIN 2).put fCLK_STATUS_ALIGN 1 with straps := ⟨false, false, 3⟩ }, 7, 800,
      by decide +kernel⟩,
    ⟨{ run0 with straps := ⟨false, false, 3⟩ }, -5, 400, by decide +kernel⟩,
    ⟨{ run0 with straps := ⟨false, false, 3⟩ }, 18, by decide +kernel⟩,
    ⟨{ run0 with straps := ⟨false, false, 3⟩ }, 18, 5000000000, true, by decide +kernel⟩,
    ⟨{ run0 with straps := ⟨false, false, 3⟩ }, 18, 0, true, by decide +kernel⟩,
    ⟨{ run0 with straps := ⟨false, false, 3⟩ }, 3, by decide +kernel⟩,
    ⟨{ run0 with straps := ⟨false, false, 3⟩ }, ⟨7, 800, 3, 0, 2, false, [], true, false⟩, [⟨7, 800, 3, 0, 2,
      false, [], true, false⟩], by decide +kernel⟩,
    ⟨{ run0 with straps := ⟨false, false, 3⟩, cfg := { Cfg.init with parts := [⟨7, 800, 3, 1, 2, false, [], true, false⟩] } },
      ⟨7, 800, 3, 0, 2, false, [], true, false⟩, [⟨7, 800, 3, 1, 2, false, [], true, false⟩, ⟨7, 800, 3, 0, 2,
      false, [], true, false⟩], [], by decide +kernel⟩,
    ⟨{ run0 with straps := ⟨false, false, 3⟩ }, ⟨7, 800, 3, 0, 1, false, [⟨3, 9, 0x7777, 0, 0, 4, .bytes []⟩],
      true, false⟩, [⟨7, 800, 3, 0, 1, false, [⟨3, 9, 0x7777, 0, 0, 4, .bytes []⟩], true, false⟩], [⟨3, 9,
      0x7777, 0, 0, 4, .bytes []⟩], 0, by decide +kernel⟩⟩

/-- States and operands that meet the hypotheses of ConfigTransactions. -/
theorem witness_ConfigTransactions :
    -- begun
    (∃ (s : State) (o : Fin 3) (m : Nat), s.straps.manager = true ∧ cfgServed s = true ∧ s.cfg.tx = none ∧ 0 < m
        ∧ m < 512 ∧ (∀ r : Fin 9, m.testBit r = true → s.get (fRegion r) ≠ 2) ∧ (o.val < 2 ∨ s.wide = false ∨
        fleetState s ≠ 1) ∧ Room s 1 ∧ s.cfg.nextHandle < 65536) ∧
    -- beginBusy
    (∃ (s : State) (o : Fin 3) (m : Nat) (r : Fin 9), s.straps.manager = true ∧ cfgServed s = true ∧ m.testBit r
        = true ∧ s.get (fRegion r) = 2 ∧ (o.val < 2 ∨ s.wide = false ∨ fleetState s ≠ 1)) ∧
    -- beginOpen
    (∃ (s : State) (o : Fin 3) (m : Nat), s.straps.manager = true ∧ cfgServed s = true ∧ (s.cfg.tx ≠ none ∨ m =
        0 ∨ 512 ≤ m) ∧ (∀ r : Fin 9, m.testBit r = true → s.get (fRegion r) ≠ 2) ∧ (o.val < 2 ∨ s.wide = false ∨
        fleetState s ≠ 1)) ∧
    -- fleetQueued
    (∃ (s : State) (m : Nat), s.straps.manager = true ∧ cfgServed s = true ∧ s.cfg.tx ≠ none ∧ (∀ r : Fin 9,
        m.testBit r = true → s.get (fRegion r) ≠ 2) ∧ s.wide = true ∧ fleetState s = 1 ∧ (s.eth.queue.filter fun
        x => isUrgent x.type).length < 16) ∧
    -- staged
    (∃ (s : State) (o : Fin 3) (hd : Nat) (it : CfgItem) (x : CfgTx), s.straps.manager = true ∧ cfgServed s =
        true ∧ s.cfg.tx = some x ∧ x.owner = o.val + 1 ∧ x.handle = hd ∧ stageReason s { x with reqAt := s.clk.tick }
        it = 0 ∧ (o.val < 2 ∨ s.wide = false ∨ fleetState s ≠ 1)) ∧
    -- stageRefused
    (∃ (s : State) (o : Fin 3) (hd : Nat) (it : CfgItem) (x : CfgTx), s.straps.manager = true ∧ cfgServed s =
        true ∧ s.cfg.tx = some x ∧ x.owner = o.val + 1 ∧ x.handle = hd ∧ stageReason s { x with reqAt := s.clk.tick }
        it ≠ 0 ∧ (o.val < 2 ∨ s.wide = false ∨ fleetState s ≠ 1)) ∧
    -- notOwner
    (∃ (s : State) (o : Fin 3) (hd : Nat) (it : CfgItem), s.straps.manager = true ∧ cfgServed s = true ∧ (∀ x,
        s.cfg.tx = some x → x.owner ≠ o.val + 1 ∨ x.handle ≠ hd) ∧ (o.val < 2 ∨ s.wide = false ∨ fleetState s ≠
        1)) ∧
    -- commitNotOwner
    (∃ (s : State) (o : Fin 3) (hd : Nat) (pb : Bool), s.straps.manager = true ∧ cfgServed s = true ∧ (∀ x,
        s.cfg.tx = some x → x.owner ≠ o.val + 1 ∨ x.handle ≠ hd) ∧ (o.val < 2 ∨ s.wide = false ∨ fleetState s ≠
        1) ∧ Room s 1) ∧
    -- committed
    (∃ (s : State) (o : Fin 3) (hd : Nat) (pb : Bool) (x : CfgTx), s.straps.manager = true ∧ cfgServed s = true
        ∧ s.cfg.tx = some x ∧ x.owner = o.val + 1 ∧ x.handle = hd ∧ commitReason s { x with reqAt := s.clk.tick }
        pb = 0) ∧
    -- commitRefused
    (∃ (s : State) (o : Fin 3) (hd : Nat) (pb : Bool) (x : CfgTx), s.straps.manager = true ∧ cfgServed s = true
        ∧ s.cfg.tx = some x ∧ x.owner = o.val + 1 ∧ x.handle = hd ∧ commitReason s { x with reqAt := s.clk.tick }
        pb ≠ 0 ∧ (o.val < 2 ∨ s.wide = false ∨ fleetState s ≠ 1) ∧ Room s 1) ∧
    -- validated
    (∃ (s : State) (x : CfgTx) (pb : Bool), s.cfg.tx = some x ∧ x.validating = some pb ∧ otherPos s x.items = []
        ∧ (∀ it ∈ x.items, it.pos = s.straps.pos) ∧ (x.items = [] ∨ firstBad x.items s = none) ∧ (pb = true →
        expected s = []) ∧ x.owner ≠ 3 ∧ x.mask < 512) ∧
    -- validatedRing
    (∃ (s : State) (x : CfgTx) (pb : Bool) (ws : List Nat), s.cfg.tx = some x ∧ x.validating = some pb ∧ (∀ it ∈
        x.items, it.pos ≠ s.straps.pos) ∧ ws = (if pb then expected s else otherPos s x.items) ∧ ws ≠ [] ∧
        x.owner ≠ 3 ∧ x.mask < 512) ∧
    -- validatedBad
    (∃ (s : State) (x : CfgTx) (pb : Bool) (rem : Option (Fin 1024)) (its : List CfgItem) (idx : List Nat) (own
        : Option Nat) (k : Nat), s.cfg.tx = some x ∧ x.validating = some pb ∧ its = x.items.filter (fun it =>
        it.pos == s.straps.pos) ∧ idx = (x.items.zipIdx.filter fun q => q.1.pos == s.straps.pos).map Prod.snd ∧
        own = (if its = [] then none else (firstBad its s).map fun j => idx.getD j 0) ∧ (own = some k ∨ rem.map
        Fin.val = some k) ∧ (∀ j, own = some j ∨ rem.map Fin.val = some j → k ≤ j) ∧ ((∀ it ∈ its, it.region ≠
        1) ∨ proofOk (applyItems its s) = true) ∧ x.owner ≠ 3 ∧ Room s 1) ∧
    -- scheduleBad
    (∃ (s : State) (x : CfgTx) (pb : Bool) (k : Nat), s.cfg.tx = some x ∧ x.validating = some pb ∧ (∀ it ∈
        x.items, it.pos = s.straps.pos) ∧ firstBad x.items s = some k ∧ (∃ it ∈ x.items, it.region = 1) ∧
        proofOk (applyItems x.items s) = false ∧ x.owner ≠ 3 ∧ Room s 2) ∧
    -- notValidating
    (∃ (s : State) (r : Option (Fin 1024)), (∀ x, s.cfg.tx = some x → x.validating = none)) ∧
    -- rolledBack
    (∃ (s : State) (o : Fin 3) (hd : Nat) (x : CfgTx), s.straps.manager = true ∧ cfgServed s = true ∧ s.cfg.tx =
        some x ∧ x.owner = o.val + 1 ∧ x.handle = hd ∧ (o.val < 2 ∨ s.wide = false ∨ fleetState s ≠ 1) ∧ Room s
        1) ∧
    -- timedOutTx
    (∃ (s : State) (x : CfgTx), s.cfg.tx = some x ∧ x.reqAt + 2400000 ≤ s.clk.tick ∧ Room s 1) ∧
    -- disconnectedTx
    (∃ (s : State) (o : Fin 3) (x : CfgTx), s.cfg.tx = some x ∧ x.owner = o.val + 1 ∧ Room s 1) ∧
    -- persisted
    (∃ (s : State) (g : Nat) (i : ImageIn), s.cfg.writing = some g ∧ s.cfg.image = some i ∧ Room s 1) ∧
    -- persistFails
    (∃ (s : State) (g : Nat) (i : ImageIn), s.cfg.writing = some g ∧ s.cfg.image = some i ∧ Room s 1) ∧
    -- persistNone
    (∃ (s : State) (f : Bool), (s.cfg.writing = none ∨ s.cfg.image = none)) ∧
    -- imageWritten
    (∃ (s : State) (i : ImageIn), s.bit fCFG_STATUS_PERSIST_BUSY = false) ∧
    -- imageRefused
    (∃ (s : State) (i : ImageIn), s.bit fCFG_STATUS_PERSIST_BUSY = true) ∧
    -- fleetBegin
    (∃ (s : State) (l : List Byte) (m : Nat), s.eth.cfgIn = some l ∧ s.straps.manager = true ∧ cfgServed s =
        true ∧ s.cfg.tx = none ∧ 0 < m ∧ m < 512 ∧ (∀ r : Fin 9, m.testBit r = true → s.get (fRegion r) ≠ 2)) ∧
    -- fleetUnsigned
    (∃ (s : State) (l : List Byte) (op : CfgOp), s.eth.cfgIn = some l ∧ s.wide = true ∧ fleetState s = 2) ∧
    -- fleetAway
    (∃ (s : State) (l : List Byte) (op : CfgOp), s.eth.cfgIn = some l ∧ (s.wide = false ∨ fleetState s = 0)) ∧
    -- fleetSame
    (∃ (s : State) (l : List Byte) (m hd : Nat) (it : CfgItem) (pb : Bool) (u : State), s.eth.cfgIn = some l ∧ u
        = { s with eth := { s.eth with cfgIn := none } }) ∧
    -- fleetNone
    (∃ (s : State) (k : Bool) (op : CfgOp), s.eth.cfgIn = none) :=
   ⟨⟨{ run0 with rst := { Rst.init with next := 10, appUp := true } }, 0, 5, by decide +kernel⟩,
    ⟨{ runA.put (fRegion 2) 2 with straps := ⟨true, false, 0⟩ }, 0, 5, 2, by decide +kernel⟩,
    ⟨runA, 0, 0, by decide +kernel⟩,
    ⟨{ runA.put fETH_STATUS_FLEET 1 with cfg := { Cfg.init with tx := some ⟨7, 1, 1, [], 0, none⟩ } }, 5,
      by decide +kernel⟩,
    ⟨{ runA with cfg := { Cfg.init with tx := some ⟨7, 1, 1, [], 0, none⟩ } }, 0, 7, ⟨0, 0, 0x0101, 0, 0, 4,
      .bytes [1, 0, 0, 0]⟩, ⟨7, 1, 1, [], 0, none⟩, by decide +kernel⟩,
    ⟨{ runA with cfg := { Cfg.init with tx := some ⟨7, 1, 1, [], 0, none⟩ } }, 0, 7, ⟨0, 9, 0, 0, 0, 4, .bytes
      []⟩, ⟨7, 1, 1, [], 0, none⟩, by decide +kernel⟩,
    ⟨runA, 0, 7, ⟨0, 9, 0, 0, 0, 4, .bytes []⟩, by decide +kernel⟩,
    ⟨runA, 0, 7, true, by decide +kernel⟩,
    ⟨{ run0 with rst := { Rst.init with next := 10, appUp := true }, cfg := { Cfg.init with tx := some ⟨7, 1, 1, [], 0, none⟩ } },
      0, 7, false, ⟨7, 1, 1, [], 0, none⟩, by decide +kernel⟩,
    ⟨{ run0.put fCFG_STATUS_PERSIST_BUSY 1 with rst := { Rst.init with next := 10, appUp := true }, cfg := { Cfg.init with tx := some ⟨7, 1, 1, [], 0, none⟩ } },
      0, 7, true, ⟨7, 1, 1, [], 0, none⟩, by decide +kernel⟩,
    ⟨{ run0 with cfg := { Cfg.init with tx := some ⟨7, 1, 1, [], 0, some false⟩ } }, ⟨7, 1, 1, [], 0, some
      false⟩, false, by decide +kernel⟩,
    ⟨{ run0 with cfg := { Cfg.init with tx := some ⟨7, 1, 1, [⟨3, 0, 0x0101, 0, 0, 4, .bytes [1, 0, 0, 0]⟩], 0, some false⟩ } },
      ⟨7, 1, 1, [⟨3, 0, 0x0101, 0, 0, 4, .bytes [1, 0, 0, 0]⟩], 0, some false⟩, false, [3], by decide +kernel⟩,
    ⟨{ run0 with cfg := { Cfg.init with tx := some ⟨7, 1, 1, [], 0, some false⟩ } }, ⟨7, 1, 1, [], 0, some
      false⟩, false, some 2, [], [], none, 2, rfl, rfl, rfl, rfl, rfl, Or.inr rfl, (fun j h => by rcases h with
      h | h <;> simp_all), (Or.inl (by intro it h; cases h)), (by decide), (by decide)⟩,
    ⟨{ run0.put (fLE_SCHED_PROVED 0) 5 with cfg := { Cfg.init with tx := some ⟨7, 1, 2, [⟨0, 1, 0x0200, 5, 0x10, 4, .bytes [1, 2, 3, 4]⟩], 0, some false⟩ } },
      ⟨7, 1, 2, [⟨0, 1, 0x0200, 5, 0x10, 4, .bytes [1, 2, 3, 4]⟩], 0, some false⟩, false, 0, rfl, rfl,
      (by decide), (by decide +kernel), (by decide), (by decide +kernel), (by decide), (by decide)⟩,
    ⟨run0, none, by decide +kernel⟩,
    ⟨{ runA.put (fRegion 0) 1 with cfg := { Cfg.init with tx := some ⟨7, 1, 1, [], 0, none⟩ } }, 0, 7, ⟨7, 1, 1,
      [], 0, none⟩, by decide +kernel⟩,
    ⟨{ run0.put (fRegion 0) 1 with clk := { Clk.init with tick := 2400000 }, cfg := { Cfg.init with tx := some ⟨7, 1, 1, [], 0, none⟩ } },
      ⟨7, 1, 1, [], 0, none⟩, by decide +kernel⟩,
    ⟨{ run0.put (fRegion 0) 1 with cfg := { Cfg.init with tx := some ⟨7, 1, 1, [], 0, none⟩ } }, 0, ⟨7, 1, 1,
      [], 0, none⟩, by decide +kernel⟩,
    ⟨{ run0.put fCFG_STATUS_PERSIST_BUSY 1 with cfg := { Cfg.init with writing := some 4, image := some img0 } },
      4, img0, by decide +kernel⟩,
    ⟨{ run0.put fCFG_STATUS_PERSIST_BUSY 1 with cfg := { Cfg.init with writing := some 4, image := some img0 } },
      4, img0, by decide +kernel⟩,
    ⟨run0, true, by decide +kernel⟩,
    ⟨run0, img0, by decide +kernel⟩,
    ⟨run0.put fCFG_STATUS_PERSIST_BUSY 1, img0, by decide +kernel⟩,
    ⟨{ run0.put fETH_STATUS_FLEET 2 with rst := { Rst.init with next := 10, appUp := true }, eth := { Eth.init with cfgIn := some [] } },
      [], 5, by decide +kernel⟩,
    ⟨{ run0.put fETH_STATUS_FLEET 2 with eth := { Eth.init with cfgIn := some [] } }, [], .rollback 3,
      by decide +kernel⟩,
    ⟨{ run0 with eth := { Eth.init with cfgIn := some [] } }, [], .rollback 3, by decide +kernel⟩,
    ⟨{ run0 with eth := { Eth.init with cfgIn := some [] } }, [], 5, 3, ⟨0, 0, 0x0101, 0, 0, 4, .bytes [1, 0, 0,
      0]⟩, true, run0, (by decide), (by decide)⟩,
    ⟨run0, true, .rollback 3, by decide +kernel⟩⟩

/-- States and operands that meet the hypotheses of UpdateReception. -/
theorem witness_UpdateReception :
    -- manifestIn
    (∃ (s : State) (m : ManifestIn), updHears s = true ∧ s.straps.manager = true ∧ updState s = 0 ∧ manifestOk m
        s = true ∧ Room s 1) ∧
    -- manifestBad
    (∃ (s : State) (m : ManifestIn), updHears s = true ∧ (s.straps.manager = false ∨ updState s ≠ 0 ∨ manifestOk
        m s = false)) ∧
    -- partAccepted
    (∃ (s : State) (p : PartIn) (e : Nat), updHears s = true ∧ s.straps.manager = true ∧ updState s = 1 ∧
        partFault p s = (0, e)) ∧
    -- partRefused
    (∃ (s : State) (p : PartIn) (r e : Nat), updHears s = true ∧ s.straps.manager = true ∧ updState s = 1 ∧
        partFault p s = (r, e) ∧ r ≠ 0 ∧ Room s 1) ∧
    -- partNotNow
    (∃ (s : State) (p : PartIn), updHears s = true ∧ (s.straps.manager = false ∨ updState s ≠ 1)) ∧
    -- partChecks
    (∃ (s : State) (p : PartIn) (m : ManifestIn) (i : Nat) (e : ManEntry) (lc : Nat) (b : Bool), s.upd.man =
        some m ∧ m.entries.findIdx? (fun e => e.hash == p.hash) = some i ∧ m.entries[i]? = some e ∧ lc = (if
        p.pos = 0 then s.get fSEC_STATUS_LC else p.targetLc) ∧ b = (if p.pos = 0 then s.straps.orderB else
        (s.ecn.orders.find? fun o => o.1 == p.pos).elim false Prod.snd)) ∧
    -- partUnknown
    (∃ (s : State) (p : PartIn) (m : ManifestIn), s.upd.man = some m ∧ (∀ e ∈ m.entries, e.hash ≠ p.hash)) ∧
    -- payloadHeld
    (∃ (s : State) (hs e : Nat) (x : ManEntry), updHears s = true ∧ s.upd.part = some (e, hs) ∧ manEntry s e =
        some x ∧ x.pos ≠ 0) ∧
    -- payloadOwn
    (∃ (s : State) (hs e : Nat) (x : ManEntry), updHears s = true ∧ s.upd.part = some (e, hs) ∧ manEntry s e =
        some x ∧ x.pos = 0 ∧ (updState s ≠ 1 ∨ ∃ q ∈ updPositions s, ∃ i < 64, i ≠ e ∧ i ∉ s.upd.good ∧
        (manEntry s i).any (fun y => y.pos == q) = true)) ∧
    -- payloadWrong
    (∃ (s : State) (hs e g : Nat) (x : ManEntry), updHears s = true ∧ s.upd.part = some (e, g) ∧ manEntry s e =
        some x ∧ hs ≠ g ∧ Room s 1) ∧
    -- payloadLast
    (∃ (s : State) (hs e : Nat) (x : ManEntry) (m : ManifestIn), updHears s = true ∧ s.upd.part = some (e, hs) ∧
        s.upd.man = some m ∧ m.entries[e]? = some x ∧ x.pos = 0 ∧ updState s = 1 ∧ (∀ i < m.entries.length, i =
        e ∨ i ∈ s.upd.good) ∧ m.entries.length ≤ 64 ∧ Room s 1) ∧
    -- payloadUnasked
    (∃ (s : State) (hs : Nat), updHears s = true ∧ s.upd.part = none) ∧
    -- receptionOver
    (∃ (s : State), (updState s = 1 ∨ updState s = 2) ∧ s.upd.reqAt + 12000000 ≤ s.clk.tick ∧ Room s 1) ∧
    -- receptionOpen
    (∃ (s : State), ((updState s ≠ 1 ∧ updState s ≠ 2) ∨ s.clk.tick < s.upd.reqAt + 12000000)) ∧
    -- abandoned
    (∃ (s : State), updHears s = true ∧ s.straps.manager = true ∧ (updState s = 1 ∨ updState s = 2) ∧ Room s 1) ∧
    -- abandonRefused
    (∃ (s : State), updHears s = true ∧ (s.straps.manager = false ∨ (updState s ≠ 1 ∧ updState s ≠ 2))) ∧
    -- dataOut
    (∃ (s : State) (e : Fin 64) (off : Nat) (bs : List Byte) (k : Option (Bool × Nat)) (rest : List Nat),
        s.straps.manager = true ∧ updState s = 1 ∧ s.upd.held = e.val :: rest ∧ s.upd.sent.lookup e.val = some
        off ∧ bs.length ≤ 22 ∧ slotBusy s s.clk.tick = false) ∧
    -- dataOutNot
    (∃ (s : State) (e : Fin 64) (off : Nat) (bs : List Byte) (k : Option (Bool × Nat)), s.straps.manager = true
        ∧ (updState s ≠ 1 ∨ s.upd.held.head? ≠ some e.val ∨ s.upd.sent.lookup e.val ≠ some off ∨ 22 < bs.length
        ∨ slotBusy s s.clk.tick = true)) ∧
    -- dataUnjoined
    (∃ (s : State) (e : Fin 64) (off : Nat) (bs : List Byte) (k : Option (Bool × Nat)), s.straps.manager = false
        ∧ ecnJoin s ≠ 2) ∧
    -- dataIn
    (∃ (s : State) (e : Fin 64) (off : Nat) (bs : List Byte), s.straps.manager = false ∧ ecnJoin s = 2 ∧ (off =
        0 ∨ s.upd.rx.lookup e.val = some off)) ∧
    -- dataBad
    (∃ (s : State) (e : Fin 64) (off : Nat) (bs : List Byte) (v : Nat), s.straps.manager = false ∧ ecnJoin s = 2
        ∧ (off = 0 ∨ s.upd.rx.lookup e.val = some off)) ∧
    -- dataGood
    (∃ (s : State) (e : Fin 64) (bs : List Byte) (v n : Nat), s.straps.manager = false ∧ ecnJoin s = 2 ∧ (n = 0
        ∨ s.upd.rx.lookup e.val = some n)) ∧
    -- dataGap
    (∃ (s : State) (e : Fin 64) (bs : List Byte) (k : Option (Bool × Nat)) (n off : Nat), s.straps.manager =
        false ∧ ecnJoin s = 2 ∧ (s.upd.rx.lookup e.val).getD 0 = n ∧ off ≠ 0 ∧ off ≠ n) ∧
    -- stagedNot
    (∃ (s : State) (p : Fin 8) (e : Fin 64) (r : Fin 3) (off : Nat), (s.straps.manager = false ∨ updState s ≠ 1
        ∨ (manEntry s e).any (fun x => x.pos == p.val) = false)) ∧
    -- partFails
    (∃ (s : State) (p : Fin 8) (e : Fin 64) (r : Fin 3) (off : Nat) (x : ManEntry), s.straps.manager = true ∧
        updState s = 1 ∧ manEntry s e = some x ∧ x.pos = p.val ∧ r.val ≠ 0 ∧ 2 ≤ (s.upd.fails.lookup e.val).getD
        0) ∧
    -- partResent
    (∃ (s : State) (p : Fin 8) (e : Fin 64) (r : Fin 3) (off : Nat) (x : ManEntry), s.straps.manager = true ∧
        updState s = 1 ∧ manEntry s e = some x ∧ x.pos = p.val ∧ r.val ≠ 0 ∧ (s.upd.fails.lookup e.val).getD 0 <
        2) ∧
    -- partGood
    (∃ (s : State) (p : Fin 8) (e : Fin 64) (off : Nat) (x : ManEntry), s.straps.manager = true ∧ updState s = 1
        ∧ manEntry s e = some x ∧ x.pos = p.val) :=
   ⟨⟨{ run0 with rst := { Rst.init with next := 10, appUp := true } }, ⟨true, true, 5, 0, 0, 9, 0, [⟨1, 0, 3, 5,
      100, 1⟩, ⟨2, 0, 3, 5, 100, 2⟩, ⟨3, 0, 3, 5, 100, 3⟩, ⟨4, 0, 3, 5, 100, 4⟩, ⟨5, 0, 3, 5, 100, 5⟩]⟩,
      by decide +kernel⟩,
    ⟨{ run0 with rst := { Rst.init with next := 10, appUp := true } }, ⟨true, true, 5, 0, 0, 9, 0, []⟩,
      by decide +kernel⟩,
    ⟨{ run0.put fUPD_STATUS_STATE 1 with rst := { Rst.init with next := 10, appUp := true }, sec := { Sec.init with ids := [(0, 9)] }, upd := { Upd.init with man := some ⟨true, true, 5, 0, 0, 9, 0, [⟨1, 0, 3, 5, 100, 77⟩]⟩ } },
      ⟨true, 77, 1, 0, 3, 7, 5, 100, 9, 1, true, 0⟩, 0, by decide +kernel⟩,
    ⟨{ run0.put fUPD_STATUS_STATE 1 with rst := { Rst.init with next := 10, appUp := true } }, ⟨true, 77, 1, 0,
      3, 7, 5, 100, 9, 1, true, 0⟩, 2, 0, by decide +kernel⟩,
    ⟨runA, ⟨true, 77, 1, 0, 3, 7, 5, 100, 9, 1, true, 0⟩, by decide +kernel⟩,
    ⟨{ runA.put fUPD_STATUS_STATE 1 with sec := { Sec.init with ids := [(0, 9)] }, upd := { Upd.init with man := some ⟨true, true, 5, 0, 0, 9, 0, [⟨1, 0, 3, 5, 100, 77⟩]⟩ } },
      ⟨true, 77, 1, 0, 3, 7, 5, 100, 9, 1, true, 0⟩, ⟨true, true, 5, 0, 0, 9, 0, [⟨1, 0, 3, 5, 100, 77⟩]⟩, 0,
      ⟨1, 0, 3, 5, 100, 77⟩, 0, false, by decide +kernel⟩,
    ⟨{ runA with upd := { Upd.init with man := some ⟨true, true, 5, 0, 0, 9, 0, []⟩ } }, ⟨true, 77, 1, 0, 3, 7,
      5, 100, 9, 1, true, 0⟩, ⟨true, true, 5, 0, 0, 9, 0, []⟩, by decide +kernel⟩,
    ⟨{ run0 with rst := { Rst.init with next := 10, appUp := true }, upd := { Upd.init with part := some (0, 8), man := some ⟨true, true, 5, 0, 0, 9, 0, [⟨1, 3, 3, 5, 4096, 77⟩]⟩ } },
      8, 0, ⟨1, 3, 3, 5, 4096, 77⟩, by decide +kernel⟩,
    ⟨{ run0 with rst := { Rst.init with next := 10, appUp := true }, upd := { Upd.init with part := some (0, 8), man := some ⟨true, true, 5, 0, 0, 9, 0, [⟨1, 0, 3, 5, 4096, 77⟩]⟩ } },
      8, 0, ⟨1, 0, 3, 5, 4096, 77⟩, by decide +kernel⟩,
    ⟨{ run0 with rst := { Rst.init with next := 10, appUp := true }, upd := { Upd.init with part := some (0, 8), man := some ⟨true, true, 5, 0, 0, 9, 0, [⟨1, 3, 3, 5, 4096, 77⟩]⟩ } },
      9, 0, 8, ⟨1, 3, 3, 5, 4096, 77⟩, by decide +kernel⟩,
    ⟨{ runA.put fUPD_STATUS_STATE 1 with upd := { Upd.init with part := some (0, 8), man := some ⟨true, true, 5, 0, 0, 9, 0, [⟨1, 0, 3, 5, 4096, 77⟩]⟩ } },
      8, 0, ⟨1, 0, 3, 5, 4096, 77⟩, ⟨true, true, 5, 0, 0, 9, 0, [⟨1, 0, 3, 5, 4096, 77⟩]⟩, by decide +kernel⟩,
    ⟨runA, 8, by decide +kernel⟩,
    ⟨{ run0.put fUPD_STATUS_STATE 1 with clk := { Clk.init with tick := 12000000 } }, by decide +kernel⟩,
    ⟨run0, by decide +kernel⟩,
    ⟨{ run0.put fUPD_STATUS_STATE 2 with rst := { Rst.init with next := 10, appUp := true } },
      by decide +kernel⟩,
    ⟨{ run0 with rst := { Rst.init with next := 10, appUp := true } }, by decide +kernel⟩,
    ⟨{ run0.put fUPD_STATUS_STATE 1 with clk := { Clk.init with tick := 3 }, upd := { Upd.init with held := [5], sent := [(5, 0)] } },
      5, 0, [1, 2], none, [], by decide +kernel⟩,
    ⟨run0, 5, 0, [1, 2], none, by decide +kernel⟩,
    ⟨{ run0 with straps := ⟨false, false, 3⟩ }, 5, 0, [1, 2], none, by decide +kernel⟩,
    ⟨{ run0.put fECN_STATUS_JOIN 2 with straps := ⟨false, false, 3⟩, upd := { Upd.init with rx := [(5, 22)] } },
      5, 22, [1, 2], by decide +kernel⟩,
    ⟨{ run0.put fECN_STATUS_JOIN 2 with straps := ⟨false, false, 3⟩, upd := { Upd.init with rx := [(5, 22)] } },
      5, 22, [1, 2], 8, by decide +kernel⟩,
    ⟨{ run0.put fECN_STATUS_JOIN 2 with straps := ⟨false, false, 3⟩, upd := { Upd.init with rx := [(5, 22)] } },
      5, [1, 2], 8, 22, by decide +kernel⟩,
    ⟨{ run0.put fECN_STATUS_JOIN 2 with straps := ⟨false, false, 3⟩, upd := { Upd.init with rx := [(5, 22)] } },
      5, [1, 2], none, 22, 44, by decide +kernel⟩,
    ⟨run0, 3, 0, 1, 0, by decide +kernel⟩,
    ⟨{ run0.put fUPD_STATUS_STATE 1 with upd := { Upd.init with held := [0], fails := [(0, 2)], man := some ⟨true, true, 5, 0, 0, 9, 0, [⟨1, 3, 3, 5, 4096, 77⟩]⟩ } },
      3, 0, 1, 0, ⟨1, 3, 3, 5, 4096, 77⟩, by decide +kernel⟩,
    ⟨{ run0.put fUPD_STATUS_STATE 1 with upd := { Upd.init with held := [0], man := some ⟨true, true, 5, 0, 0, 9, 0, [⟨1, 3, 3, 5, 4096, 77⟩]⟩ } },
      3, 0, 2, 44, ⟨1, 3, 3, 5, 4096, 77⟩, by decide +kernel⟩,
    ⟨{ run0.put fUPD_STATUS_STATE 1 with upd := { Upd.init with held := [0], man := some ⟨true, true, 5, 0, 0, 9, 0, [⟨1, 3, 3, 5, 4096, 77⟩]⟩ } },
      3, 0, 44, ⟨1, 3, 3, 5, 4096, 77⟩, by decide +kernel⟩⟩

/-- States and operands that meet the hypotheses of UpdateActivation. -/
theorem witness_UpdateActivation :
    -- armed
    (∃ (s : State) (r : Fin 256), updHears s = true ∧ s.straps.manager = true ∧ updState s = 2 ∧ interlocks r s
        = 0) ∧
    -- armRefused
    (∃ (s : State) (r : Fin 256), updHears s = true ∧ s.straps.manager = true ∧ updState s = 2 ∧ interlocks r s
        ≠ 0 ∧ Room s 1) ∧
    -- armNotNow
    (∃ (s : State) (r : Fin 256), updHears s = true ∧ (s.straps.manager = false ∨ updState s ≠ 2)) ∧
    -- interlockBits
    (∃ (s : State) (r : Nat) (m : ManifestIn) (i : ImageIn), s.upd.man = some m ∧ s.cfg.image = some i ∧ r <
        256) ∧
    -- goKept
    (∃ (s : State) (g a : Nat) (sl : Fin 2), s.straps.manager = false ∧ s.clk.tick < a) ∧
    -- goStarts
    (∃ (s : State) (w : EcnWait), waitAt s 0x0B = some w ∧ ringOk s w = true ∧ s.upd.back = false) ∧
    -- goAborted
    (∃ (s : State) (w : EcnWait), waitAt s 0x0B = some w ∧ s.straps.manager = true ∧ w.halt = true ∧ s.upd.back
        = false ∧ updState s = 3 ∧ Room s 1) ∧
    -- goHandover
    (∃ (s : State) (w : EcnWait) (l : Fin 2), waitAt s 0x0B = some w ∧ ringOk s w = true ∧ s.upd.back = false ∧
        laneState s l = 1 ∧ (l = 0 ∨ laneState s 0 ≠ 1)) ∧
    -- goBack
    (∃ (s : State) (w : EcnWait), waitAt s 0x0B = some w ∧ ringOk s w = true ∧ s.upd.back = true ∧ inLimp s =
        false ∧ laneState s 0 ≠ 3 ∧ laneState s 1 ≠ 3) ∧
    -- goBackWarm
    (∃ (s : State) (w : EcnWait), waitAt s 0x0B = some w ∧ ringOk s w = true ∧ s.upd.back = true ∧ (inLimp s =
        true ∨ laneState s 0 = 3 ∨ laneState s 1 = 3) ∧ s.rst.busy < 1) ∧
    -- goAgain
    (∃ (s : State) (w : EcnWait), waitAt s 0x0B = some w ∧ s.straps.manager = true ∧ w.halt = true ∧ s.upd.back
        = true) ∧
    -- goWorkerAborted
    (∃ (s : State) (w : EcnWait), waitAt s 0x0B = some w ∧ s.straps.manager = false ∧ ringOk s w = false ∧ Room
        s 1) ∧
    -- goNone
    (∃ (s : State), waitAt s 0x0B = none) ∧
    -- doneLast
    (∃ (s : State) (p : Fin 8), s.straps.manager = true ∧ updState s = 4 ∧ s.get fUPD_POS_FAILED = 0 ∧ (∀ q ∈
        updPositions s, q = p.val ∨ s.bit (bitFld fUPD_POS_DONE q) = true) ∧ Room s 2) ∧
    -- doneWaits
    (∃ (s : State) (p q : Fin 8), s.straps.manager = true ∧ updState s = 4 ∧ s.get fUPD_POS_FAILED = 0 ∧ q.val ∈
        updPositions s ∧ q ≠ p ∧ s.bit (bitFld fUPD_POS_DONE q) = false ∧ Room s 1) ∧
    -- failedOne
    (∃ (s : State) (p : Fin 8), s.straps.manager = true ∧ updState s = 4 ∧ Room s 2) ∧
    -- doneNot
    (∃ (s : State) (p : Fin 8) (r : Fin 2), (s.straps.manager = false ∨ (updState s ≠ 4 ∧ updState s ≠ 6))) ∧
    -- doneBackLast
    (∃ (s : State) (p : Fin 8), s.straps.manager = true ∧ updState s = 6 ∧ (∀ q ∈ updPositions s, q = p.val ∨
        s.bit (bitFld fUPD_POS_DONE q) = true) ∧ Room s 2) ∧
    -- failedBack
    (∃ (s : State) (p q : Fin 8), s.straps.manager = true ∧ updState s = 6 ∧ q.val ∈ updPositions s ∧ s.bit
        (bitFld fUPD_POS_DONE q) = false ∧ Room s 1) ∧
    -- restartWorker
    (∃ (s : State) (a g : Bool), s.straps.manager = false ∧ s.upd.answered = false ∧ s.upd.phase = 4 ∧
        s.upd.fellBack = false ∧ updState s = 4 ∧ fleetState s ≠ 0 ∧ Room s 1) ∧
    -- restartManager
    (∃ (s : State) (a g : Bool), s.straps.manager = true ∧ s.upd.answered = false ∧ s.upd.phase = 4 ∧
        s.upd.fellBack = false ∧ updState s = 4 ∧ (laneUp s 0 && laneUp s 1 && a && g) = true ∧ s.get
        fUPD_POS_FAILED = 0 ∧ expected s = [] ∧ fleetState s ≠ 0) ∧
    -- restartFails
    (∃ (s : State) (a g : Bool), s.straps.manager = true ∧ s.upd.answered = false ∧ s.upd.phase ≠ 0 ∧
        s.upd.fellBack = false ∧ updState s = 4 ∧ ((s.upd.phase = 4 ∧ laneUp s 0 = true ∧ laneUp s 1 = true ∧ a
        = true ∧ g = true) = False) ∧ fleetState s ≠ 0) ∧
    -- restartNot
    (∃ (s : State) (a g : Bool), (s.upd.answered = true ∨ s.upd.phase = 0 ∨ (updState s ≠ 4 ∧ updState s ≠ 6))) ∧
    -- doneLate
    (∃ (s : State), s.straps.manager = true ∧ updState s = 4 ∧ (s.get fUPD_POS_FAILED ≠ 0 ∨ s.get64
        fUPD_GO_TICK_LO.addr + 200000 ≤ s.clk.tick) ∧ Room s 1) ∧
    -- doneInTime
    (∃ (s : State), (s.straps.manager = false ∨ updState s ≠ 4 ∨ (s.get fUPD_POS_FAILED = 0 ∧ s.clk.tick <
        s.get64 fUPD_GO_TICK_LO.addr + 200000))) ∧
    -- commitTaken
    (∃ (s : State) (d : Bool), s.straps.manager = false ∧ updState s = 4) ∧
    -- fallbackKept
    (∃ (s : State) (g a : Nat), s.straps.manager = false ∧ s.clk.tick < a) ∧
    -- fellBackByUser
    (∃ (s : State) (r : Fin 256), updHears s = true ∧ s.straps.manager = true ∧ updState s = 5 ∧ (interlocks r s
        = 0 ∨ interlocks r s = 8) ∧ Room s 1) ∧
    -- fallbackRefused
    (∃ (s : State) (r : Fin 256), updHears s = true ∧ s.straps.manager = true ∧ updState s = 5 ∧ interlocks r s
        ≠ 0 ∧ interlocks r s ≠ 8 ∧ Room s 1) ∧
    -- fallbackNotNow
    (∃ (s : State) (r : Fin 256), updHears s = true ∧ (s.straps.manager = false ∨ updState s ≠ 5)) ∧
    -- confirmedByUser
    (∃ (s : State), updHears s = true ∧ s.straps.manager = true ∧ updState s = 5 ∧ Room s 1) ∧
    -- confirmRefused
    (∃ (s : State), updHears s = true ∧ (s.straps.manager = false ∨ updState s ≠ 5)) ∧
    -- confirmedWorker
    (∃ (s : State) (f : Word), s.straps.manager = false ∧ updState s = 5) ∧
    -- harvested
    (∃ (s : State), s.straps.manager = true ∧ updState s = 5 ∧ 1800 ≤ s.get fUPD_CONFIRM_HARVEST_S ∧ Room s 1) ∧
    -- harvestedNot
    (∃ (s : State), (s.straps.manager = false ∨ updState s ≠ 5 ∨ s.get fUPD_CONFIRM_HARVEST_S < 1800)) ∧
    -- lastingTold
    (∃ (s : State) (p : Fin 8) (k : Word), s.straps.manager = true ∧ updState s = 5 ∧ Room s 1) ∧
    -- countSaved
    (∃ (s : State), updState s = 5 ∧ s.upd.savedAt + 1200000 ≤ s.clk.tick) ∧
    -- countNotSaved
    (∃ (s : State), (updState s ≠ 5 ∨ s.clk.tick < s.upd.savedAt + 1200000)) :=
   ⟨⟨{ ((run0.put fUPD_STATUS_STATE 2).put fCLM_STATUS_STATE_A 0).put fCLM_STATUS_STATE_B 1 with rst := { Rst.init with next := 10, appUp := true }, cfg := { Cfg.init with image := some img0 }, upd := { Upd.init with slow := 400, man := some ⟨true, true, 5, 0, 0, 9, 0, []⟩ } },
      0, by decide +kernel⟩,
    ⟨{ run0.put fUPD_STATUS_STATE 2 with rst := { Rst.init with next := 10, appUp := true } }, 0,
      by decide +kernel⟩,
    ⟨runA, 0, by decide +kernel⟩,
    ⟨{ run0 with cfg := { Cfg.init with image := some img0 }, upd := { Upd.init with man := some ⟨true, true, 5, 0, 0, 9, 0, []⟩ } },
      0, ⟨true, true, 5, 0, 0, 9, 0, []⟩, img0, by decide +kernel⟩,
    ⟨{ run0 with straps := ⟨false, false, 3⟩ }, 7, 2000, 1, by decide +kernel⟩,
    ⟨{ run0.put fUPD_STATUS_STATE 3 with clk := { Clk.init with tick := 2000 }, ecn := { Ecn.init with waits := [⟨0x0B, 7, 2000, [], [], false⟩] } },
      ⟨0x0B, 7, 2000, [], [], false⟩, by decide +kernel⟩,
    ⟨{ run0.put fUPD_STATUS_STATE 3 with clk := { Clk.init with tick := 2000 }, ecn := { Ecn.init with waits := [⟨0x0B, 7, 2000, [3], [], true⟩] } },
      ⟨0x0B, 7, 2000, [3], [], true⟩, by decide +kernel⟩,
    ⟨{ ((run0.put fUPD_STATUS_STATE 3).put fCLM_STATUS_STATE_A 1).put fCLM_STATUS_STATE_B 0 with clk := { Clk.init with tick := 2000 }, ecn := { Ecn.init with waits := [⟨0x0B, 7, 2000, [], [], false⟩] } },
      ⟨0x0B, 7, 2000, [], [], false⟩, 0, by decide +kernel⟩,
    ⟨{ run0.put fUPD_STATUS_STATE 6 with clk := { Clk.init with tick := 2000 }, upd := { Upd.init with back := true }, ecn := { Ecn.init with waits := [⟨0x0B, 7, 2000, [], [], false⟩] } },
      ⟨0x0B, 7, 2000, [], [], false⟩, by decide +kernel⟩,
    ⟨{ (run0.put fUPD_STATUS_STATE 6).put fCLM_STATUS_STATE_A 3 with rst := { Rst.init with next := 10, busy := 0 }, clk := { Clk.init with tick := 2000 }, upd := { Upd.init with back := true }, ecn := { Ecn.init with waits := [⟨0x0B, 7, 2000, [], [], false⟩] } },
      ⟨0x0B, 7, 2000, [], [], false⟩, by decide +kernel⟩,
    ⟨{ run0.put fUPD_STATUS_STATE 6 with clk := { Clk.init with tick := 2000 }, upd := { Upd.init with back := true }, ecn := { Ecn.init with waits := [⟨0x0B, 7, 2000, [3], [], true⟩] } },
      ⟨0x0B, 7, 2000, [3], [], true⟩, by decide +kernel⟩,
    ⟨{ run0.put fUPD_STATUS_STATE 3 with straps := ⟨false, false, 3⟩, clk := { Clk.init with tick := 2000 }, ecn := { Ecn.init with waits := [⟨0x0B, 7, 2000, [], [], false⟩] } },
      ⟨0x0B, 7, 2000, [], [], false⟩, by decide +kernel⟩,
    ⟨run0, by decide +kernel⟩,
    ⟨run0.put fUPD_STATUS_STATE 4, 0, by decide +kernel⟩,
    ⟨(run0.put fUPD_STATUS_STATE 4).put fECN_CFG_EXPECT 8, 0, 3, by decide +kernel⟩,
    ⟨run0.put fUPD_STATUS_STATE 4, 3, by decide +kernel⟩,
    ⟨run0, 3, 0, by decide +kernel⟩,
    ⟨run0.put fUPD_STATUS_STATE 6, 0, by decide +kernel⟩,
    ⟨run0.put fUPD_STATUS_STATE 6, 3, 0, by decide +kernel⟩,
    ⟨{ (((run0.put fUPD_STATUS_STATE 4).put fETH_STATUS_FLEET 3).put fCLM_STATUS_STATE_A 0).put fCLM_STATUS_STATE_B 1 with straps := ⟨false, false, 3⟩, upd := { Upd.init with phase := 4, slot := 1 } },
      true, true, by decide +kernel⟩,
    ⟨{ (((run0.put fUPD_STATUS_STATE 4).put fETH_STATUS_FLEET 3).put fCLM_STATUS_STATE_A 0).put fCLM_STATUS_STATE_B 1 with upd := { Upd.init with phase := 4, slot := 1 } },
      true, true, by decide +kernel⟩,
    ⟨{ run0.put fUPD_STATUS_STATE 4 |>.put fETH_STATUS_FLEET 3 with upd := { Upd.init with phase := 4, slot := 1 } },
      false, true, (by decide), (by decide), (by decide), (by decide), (by decide), (by simp), (by decide)⟩,
    ⟨run0, true, true, by decide +kernel⟩,
    ⟨{ run0.put fUPD_STATUS_STATE 4 with clk := { Clk.init with tick := 200000 } }, by decide +kernel⟩,
    ⟨run0, by decide +kernel⟩,
    ⟨{ run0.put fUPD_STATUS_STATE 4 with straps := ⟨false, false, 3⟩ }, true, by decide +kernel⟩,
    ⟨{ run0 with straps := ⟨false, false, 3⟩ }, 7, 2000, by decide +kernel⟩,
    ⟨{ ((run0.put fUPD_STATUS_STATE 5).put fCLM_STATUS_STATE_A 0).put fCLM_STATUS_STATE_B 1 with rst := { Rst.init with next := 10, appUp := true }, cfg := { Cfg.init with image := some img0 }, upd := { Upd.init with slow := 400, man := some ⟨true, true, 5, 0, 0, 9, 0, []⟩ } },
      0, by decide +kernel⟩,
    ⟨runA.put fUPD_STATUS_STATE 5, 0, by decide +kernel⟩,
    ⟨runA, 0, by decide +kernel⟩,
    ⟨{ run0.put fUPD_STATUS_STATE 5 with rst := { Rst.init with next := 10, appUp := true } },
      by decide +kernel⟩,
    ⟨{ run0 with rst := { Rst.init with next := 10, appUp := true } }, by decide +kernel⟩,
    ⟨{ run0.put fUPD_STATUS_STATE 5 with straps := ⟨false, false, 3⟩ }, 9, by decide +kernel⟩,
    ⟨(run0.put fUPD_STATUS_STATE 5).put fUPD_CONFIRM_HARVEST_S 1800, by decide +kernel⟩,
    ⟨run0, by decide +kernel⟩,
    ⟨run0.put fUPD_STATUS_STATE 5, 3, 0x4001, by decide +kernel⟩,
    ⟨{ run0.put fUPD_STATUS_STATE 5 with clk := { Clk.init with tick := 1200000 } }, by decide +kernel⟩,
    ⟨run0, by decide +kernel⟩⟩

/-- States and operands that meet the hypotheses of ResetSources. -/
theorem witness_ResetSources :
    -- powerOn
    (∃ (s : State) (a : Nat), s.rst.busy < 3 ∧ survives 3 a = false ∧ a ∉ [fPWR_STATUS.addr, fMAP_STATUS.addr,
        fCLK_DOM_LOCK.addr, fSYS_STATUS.addr, fECN_STATUS.addr, fCLK_STATUS.addr, fRST_CAUSE.addr]) ∧
    -- brownout
    (∃ (s : State) (a : Nat), s.rst.busy < 3 ∧ survives 3 a = false ∧ a ∉ [fPWR_STATUS.addr, fMAP_STATUS.addr,
        fCLK_DOM_LOCK.addr, fSYS_STATUS.addr, fECN_STATUS.addr, fCLK_STATUS.addr, fRST_CAUSE.addr]) ∧
    -- keysKept
    (∃ (s : State) (a : Nat), fSEC_KEYS.addr ≤ a ∧ a ≤ fSEC_SERIAL_HI.addr) ∧
    -- keysKeptB
    (∃ (s : State) (a : Nat), fSEC_KEYS.addr ≤ a ∧ a ≤ fSEC_SERIAL_HI.addr) ∧
    -- external
    (∃ (s : State) (a : Nat), s.rst.busy < 2 ∧ pwrState s < 2 ∧ (¬(s.rst.next = 3 ∧ s.rst.stuck = false)) ∧
        survives 2 a = false ∧ inPage 20 a = false ∧ a ∉ [fPWR_STATUS.addr, fMAP_STATUS.addr,
        fCLK_DOM_LOCK.addr, fSYS_STATUS.addr, fECN_STATUS.addr, fCLK_STATUS.addr, fRST_CAUSE.addr,
        fRST_CNT.addr, fSEC_EVT.addr]) ∧
    -- externalOptions
    (∃ (s : State), s.rst.busy < 2 ∧ pwrState s < 2 ∧ s.rst.next = 3 ∧ s.rst.stuck = false) ∧
    -- externalLow
    (∃ (s : State), 2 ≤ pwrState s) ∧
    -- warm
    (∃ (s : State) (req : Req) (a : Nat), reqIsOem req = false ∧ s.rst.busy = 0 ∧ pwrState s < 2) ∧
    -- warmIgnored
    (∃ (s : State) (req : Req), (reqIsOem req = true ∨ 2 ≤ pwrState s)) ∧
    -- fatal
    (∃ (s : State), 5 ≤ s.rst.next ∧ pwrState s < 2 ∧ s.rst.busy = 0) ∧
    -- fatalIdle
    (∃ (s : State), (s.rst.next < 5 ∨ 2 ≤ pwrState s)) ∧
    -- absorbedPower
    (∃ (s : State), 3 ≤ s.rst.busy) ∧
    -- absorbedBrown
    (∃ (s : State), 3 ≤ s.rst.busy) ∧
    -- absorbedExternal
    (∃ (s : State), 2 ≤ s.rst.busy ∧ pwrState s < 2) ∧
    -- absorbedWarm
    (∃ (s : State) (req : Req), 1 ≤ s.rst.busy ∧ pwrState s < 2 ∧ reqIsOem req = false) :=
   ⟨⟨{ (run0.wr32 0x1000 7#32) with rst := { Rst.init with next := 10, busy := 0 } }, 0x40010010,
      by decide +kernel⟩,
    ⟨{ (run0.wr32 0x1000 7#32) with rst := { Rst.init with next := 10, busy := 0 } }, 0x40010010,
      by decide +kernel⟩,
    ⟨run0, fSEC_KEYS.addr, by decide +kernel⟩,
    ⟨run0, fSEC_KEYS.addr, by decide +kernel⟩,
    ⟨{ (run0.wr32 0x1000 7#32) with rst := { Rst.init with next := 10, busy := 0 } }, 0x40010010,
      by decide +kernel⟩,
    ⟨{ run0 with rst := { Rst.init with next := 3, busy := 0 } }, by decide +kernel⟩,
    ⟨run0.put fPWR_STATUS_STATE 3, by decide +kernel⟩,
    ⟨{ ((run0.wr32 0x1000 7#32).wr32 0x100000010 9#32) with rst := { Rst.init with next := 10, busy := 0 } },
      .core 0, 0x100000010, by decide +kernel⟩,
    ⟨run0.put fPWR_STATUS_STATE 3, .core 0, by decide +kernel⟩,
    ⟨{ run0 with rst := { Rst.init with next := 10, busy := 0 } }, by decide +kernel⟩,
    ⟨{ run0 with rst := { Rst.init with next := 3 } }, by decide +kernel⟩,
    ⟨{ run0 with rst := { Rst.init with next := 1, busy := 3 } }, by decide +kernel⟩,
    ⟨{ run0 with rst := { Rst.init with next := 1, busy := 3 } }, by decide +kernel⟩,
    ⟨{ run0 with rst := { Rst.init with next := 2, busy := 2 } }, by decide +kernel⟩,
    ⟨{ run0 with rst := { Rst.init with next := 2, busy := 2 } }, .core 0, by decide +kernel⟩⟩

/-- States and operands that meet the hypotheses of BlockResets. -/
theorem witness_BlockResets :
    -- blockServed
    (∃ (s : State) (req : Req) (id : Fin 32) (a : Nat), reqIsOem req = false ∧ s.bit fRST_BLOCK_RES_BUSY = false
        ∧ pwrState s < 2 ∧ id.val < 17 ∧ s.rst.busy = 0 ∧ blockIdle s id = true ∧ Room s 1 ∧ inBlock id a =
        false ∧ a ∉ [fRST_BLOCK_RES.addr, fRST_CAUSE.addr]) ∧
    -- blockCleared
    (∃ (s : State) (req : Req) (id : Fin 32) (a : Nat), reqIsOem req = false ∧ s.bit fRST_BLOCK_RES_BUSY = false
        ∧ pwrState s < 2 ∧ id.val < 17 ∧ id.val ≠ 8 ∧ s.rst.busy = 0 ∧ blockIdle s id = true ∧ inBlock id a =
        true ∧ dieHeld a = false ∧ imgMask a = 0 ∧ a ≠ fCLM_STATUS.addr) ∧
    -- blockNotIdle
    (∃ (s : State) (req : Req) (id : Fin 32), reqIsOem req = false ∧ s.bit fRST_BLOCK_RES_BUSY = false ∧
        pwrState s < 2 ∧ (17 ≤ id.val ∨ s.rst.busy = 0 ∧ blockIdle s id = false) ∧ Room s 1) ∧
    -- blockIgnored
    (∃ (s : State) (req : Req) (id : Fin 32), (reqIsOem req = true ∨ s.bit fRST_BLOCK_RES_BUSY = true ∨ 2 ≤
        pwrState s)) ∧
    -- blockAbsorbed
    (∃ (s : State) (req : Req) (id : Fin 32), reqIsOem req = false ∧ s.bit fRST_BLOCK_RES_BUSY = false ∧
        pwrState s < 2 ∧ id.val < 17 ∧ s.rst.busy ≠ 0) ∧
    -- blockDone
    (∃ (s : State) (gns : GnssStart) (dies : List (Fin 12)) (id : Nat), s.rst.block = some id ∧ Room s 1) ∧
    -- blockNone
    (∃ (s : State) (gns : GnssStart) (dies : List (Fin 12)), s.rst.block = none) :=
   ⟨⟨{ run0 with rst := { Rst.init with next := 10, busy := 0 } }, .core 0, 16, 0x40070000, by decide +kernel⟩,
    ⟨{ run0.wr fATT_EVT.addr 1#32 with rst := { Rst.init with next := 10, busy := 0 } }, .core 0, 16,
      fATT_EVT.addr, by decide +kernel⟩,
    ⟨{ run0 with rst := { Rst.init with next := 10, busy := 0 } }, .core 0, 17, by decide +kernel⟩,
    ⟨run0.putBit fRST_BLOCK_RES_BUSY true, .core 0, 3, by decide +kernel⟩,
    ⟨{ run0 with rst := { Rst.init with next := 2, busy := 1 } }, .core 0, 3, by decide +kernel⟩,
    ⟨{ run0 with rst := { Rst.init with next := 10, block := some 16 } }, ⟨0, false, []⟩, [], 16,
      by decide +kernel⟩,
    ⟨run0, ⟨0, false, []⟩, [], by decide +kernel⟩⟩

/-- States and operands that meet the hypotheses of BringUpSequence. -/
theorem witness_BringUpSequence :
    -- stepKal
    (∃ (s : State) (us : Nat), s.rst.next = 1 ∧ s.rst.stuck = false ∧ pwrState s < 2) ∧
    -- stepRef
    (∃ (s : State) (us : Nat), s.rst.next = 2 ∧ s.rst.stuck = false ∧ pwrState s < 2 ∧ (s.rst.kept = true ∨
        s.get fRST_STATUS_OPT_RESTARTS < 15)) ∧
    -- stepOptions
    (∃ (s : State) (us : Nat) (manager : Bool) (pos : Fin 8), s.rst.next = 3 ∧ s.rst.stuck = false ∧ pwrState s
        < 2 ∧ (¬(manager = true ∧ s.straps.orderB = true)) ∧ (¬(manager = false ∧ pos = 0))) ∧
    -- stepOptionsStop
    (∃ (s : State) (us : Nat) (manager : Bool) (pos : Fin 8), s.rst.next = 3 ∧ s.rst.stuck = false ∧ pwrState s
        < 2 ∧ Room s 2 ∧ (manager = true ∧ s.straps.orderB = true ∨ manager = false ∧ pos = 0)) ∧
    -- stepOptionsAgain
    (∃ (s : State) (us : Nat) (manager : Bool) (pos : Fin 8), s.rst.next = 3 ∧ s.rst.stuck = false ∧ pwrState s
        < 2 ∧ s.get fRST_STATUS_OPT_RESTARTS < 14) ∧
    -- stepOptionsGiveUp
    (∃ (s : State) (us : Nat) (manager : Bool) (pos : Fin 8), s.rst.next = 3 ∧ s.rst.stuck = false ∧ pwrState s
        < 2 ∧ 14 ≤ s.get fRST_STATUS_OPT_RESTARTS) ∧
    -- stepBoot
    (∃ (s : State) (us : Nat) (fail : Fin 64) (vers : List Nat) (copyOk stagedOk : Bool), s.rst.next = 4 ∧
        s.rst.stuck = false ∧ pwrState s < 2 ∧ bootFails fail vers s = 0 ∧ (readConfig copyOk (showKeys { s with sec := { s.sec with bootFail := 0 } })).1
        = true) ∧
    -- stepBootPart
    (∃ (s : State) (us : Nat) (fail : Fin 64) (vers : List Nat) (copyOk stagedOk : Bool) (u : State), s.rst.next
        = 4 ∧ s.rst.stuck = false ∧ pwrState s < 2 ∧ (∀ k < 3, (bootFails fail vers s).testBit k = false) ∧ u =
        showKeys { forUp 6 (fun k t => if (bootFails fail vers s).testBit k then bootBad k t else t) s with sec := { s.sec with bootFail := bootFails fail vers s } }
        ∧ (readConfig copyOk u).1 = true) ∧
    -- stepBootBad
    (∃ (s : State) (us : Nat) (fail : Fin 64) (vers : List Nat) (copyOk stagedOk : Bool), s.rst.next = 4 ∧
        s.rst.stuck = false ∧ pwrState s < 2 ∧ (∃ k < 3, (bootFails fail vers s).testBit k = true)) ∧
    -- stepBootNoConfig
    (∃ (s : State) (us : Nat) (fail : Fin 64) (vers : List Nat) (copyOk stagedOk : Bool), s.rst.next = 4 ∧
        s.rst.stuck = false ∧ pwrState s < 2 ∧ bootFails fail vers s = 0 ∧ s.cfg.nor = [] ∧ s.rst.kept = false) ∧
    -- stepLanes
    (∃ (s : State) (us : Nat) (a b : Bool), s.rst.next = 5 ∧ s.rst.stuck = false ∧ pwrState s < 2) ∧
    -- stepStages
    (∃ (s : State) (us : Nat) (dies : List (Fin 12 × Bool)) (a : Nat), s.rst.next = 6 ∧ s.rst.stuck = false ∧
        pwrState s < 2 ∧ a ∉ [fRST_STATUS.addr, (fRST_T 5).addr, fRST_EVT.addr, fCLK_DOM_LOCK.addr]) ∧
    -- stepServices
    (∃ (s : State) (us : Nat) (gns : GnssStart) (a : Nat), s.rst.next = 7 ∧ s.rst.stuck = false ∧ pwrState s < 2
        ∧ a ∉ [fRST_STATUS.addr, (fRST_T 6).addr, fRST_EVT.addr, fCLK_DOM_LOCK.addr]) ∧
    -- stepRing
    (∃ (s : State) (us : Nat), s.rst.next = 8 ∧ s.rst.stuck = false ∧ pwrState s < 2 ∧ ((s.straps.manager = true
        ∧ s.ecn.firstAt.isSome = true) ∨ (s.straps.manager = false ∧ ecnJoin s = 2))) ∧
    -- stepRefStop
    (∃ (s : State) (us : Nat), s.rst.next = 2 ∧ s.rst.stuck = false ∧ pwrState s < 2 ∧ s.rst.kept = false ∧
        s.get fRST_STATUS_OPT_RESTARTS = 15) ∧
    -- stepOther
    (∃ (s : State) (inp : BringIn), (s.rst.stuck = true ∨ 2 ≤ pwrState s ∨ s.rst.next ≠
        (match inp with | .kal .. => 1 | .ref .. => 2 | .options .. => 3 | .boot .. => 4 | .lanes .. => 5 | .stages .. => 6 | .services .. => 7 | .ring .. => 8))) ∧
    -- stepRingNot
    (∃ (s : State) (us : Nat), ((s.straps.manager = true ∧ s.ecn.firstAt = none) ∨ (s.straps.manager = false ∧
        ecnJoin s ≠ 2))) ∧
    -- fullService
    (∃ (s : State) (app : Nat) (late : Bool), 8 ≤ s.rst.next ∧ s.rst.appUp = true ∧ pwrState s = 0 ∧ app ≤
        s.since9V ∧ (s.straps.manager = true → ∀ k ∈ [1, 2, 3, 4], ∃ x ∈ s.rst.ready, x.1 = k) ∧ s.bit
        fRST_STATUS_FULL = false ∧ (late = true ↔ 6000000 < app ∨ (s.straps.manager = true ∧ ∃ x ∈ s.rst.ready,
        svcLimit x.1 < x.2)) ∧ Room s 1) ∧
    -- fullNot
    (∃ (s : State) (app : Nat), (s.rst.next < 8 ∨ s.rst.appUp = false ∨ pwrState s ≠ 0 ∨ s.since9V < app ∨
        (s.straps.manager = true ∧ ∃ k ∈ [1, 2, 3, 4], ∀ x ∈ s.rst.ready, x.1 ≠ k) ∨ s.bit fRST_STATUS_FULL =
        true)) :=
   ⟨⟨{ run0 with rst := { Rst.init with next := 1, busy := 3 } }, 1500, by decide +kernel⟩,
    ⟨{ run0 with rst := { Rst.init with next := 2, busy := 1, kept := true } }, 3000, by decide +kernel⟩,
    ⟨{ run0 with rst := { Rst.init with next := 3 } }, 4000, false, 2, by decide +kernel⟩,
    ⟨{ run0 with rst := { Rst.init with next := 3 } }, 4000, false, 0, by decide +kernel⟩,
    ⟨{ run0 with rst := { Rst.init with next := 3 } }, 4000, false, 1, by decide +kernel⟩,
    ⟨{ run0.put fRST_STATUS_OPT_RESTARTS 14 with rst := { Rst.init with next := 3 } }, 4000, false, 1,
      by decide +kernel⟩,
    ⟨{ run0 with rst := { Rst.init with next := 4, kept := true }, cfg := { Cfg.init with image := some img0 } },
      49000, 0, [], true, true, by decide +kernel⟩,
    ⟨{ run0 with rst := { Rst.init with next := 4, kept := true }, cfg := { Cfg.init with image := some img0 } },
      49000, 8, [], true, true, showKeys { forUp 6 (fun k t => if (bootFails 8 [] run0).testBit k then bootBad k t else t) { run0 with rst := { Rst.init with next := 4, kept := true }, cfg := { Cfg.init with image := some img0 } } with sec := { run0.sec with bootFail := bootFails 8 [] run0 } },
      by decide +kernel⟩,
    ⟨{ run0.put fUPD_FLOOR 5 with rst := { Rst.init with next := 4 } }, 49000, 1, [5, 4, 5, 5, 5, 5], false,
      true, (by decide), (by decide), (by decide), (⟨0, by decide, by decide⟩)⟩,
    ⟨{ run0 with rst := { Rst.init with next := 4 } }, 49000, 0, [], false, true, by decide +kernel⟩,
    ⟨{ run0 with rst := { Rst.init with next := 5 } }, 90000, true, false, by decide +kernel⟩,
    ⟨{ run0 with rst := { Rst.init with next := 6 } }, 95000, [(0, true), (4, false)], 0x40070000,
      by decide +kernel⟩,
    ⟨{ run0 with rst := { Rst.init with next := 7 } }, 96000, ⟨0, false, []⟩, 0x40090000, by decide +kernel⟩,
    ⟨{ run0 with rst := { Rst.init with next := 8 }, ecn := { Ecn.init with firstAt := some 3 } }, 99000,
      by decide +kernel⟩,
    ⟨{ run0.put fRST_STATUS_OPT_RESTARTS 15 with rst := { Rst.init with next := 2, busy := 2 } }, 3000,
      by decide +kernel⟩,
    ⟨run0, .ref 5, by decide +kernel⟩,
    ⟨{ run0 with rst := { Rst.init with next := 8 } }, 99000, by decide +kernel⟩,
    ⟨{ run0 with rst := { Rst.init with next := 10, appUp := true, us0 := 9500000, ready := [(1, 1900000), (2, 6000000), (3, 7000000), (4, 9100000)] } },
      5000000, true, (by decide), (by decide), (by decide), (by decide), (by decide), (by decide), (by decide),
      (by decide)⟩,
    ⟨run0, 0, by decide +kernel⟩⟩

/-- States and operands that meet the hypotheses of PowerTransitions. -/
theorem witness_PowerTransitions :
    -- louvre
    (∃ (s : State) (req : Req) (a : Nat), reqIsOem req = false ∧ pwrState s = 0 ∧ (inPage 3 a || inPage 4 a ||
        inPage 5 a || inPage 6 a || inPage 7 a || inPage 8 a || inPage 24 a) = true) ∧
    -- louvreIgnored
    (∃ (s : State) (req : Req), (reqIsOem req = true ∨ pwrState s ≠ 0)) ∧
    -- pwrOpen
    (∃ (s : State) (req : Req) (a : Nat), reqIsOem req = false ∧ pwrState s = 1 ∧ s.pwr.parkAt = none ∧ inLimp s
        = false ∧ (inPage 3 a || inPage 4 a || inPage 5 a || inPage 6 a || inPage 7 a || inPage 8 a || inPage 24
        a) = true) ∧
    -- pwrOpenLimp
    (∃ (s : State) (req : Req), reqIsOem req = false ∧ pwrState s = 1 ∧ s.pwr.parkAt = none ∧ inLimp s = true) ∧
    -- pwrOpenIgnored
    (∃ (s : State) (req : Req), (reqIsOem req = true ∨ pwrState s ≠ 1 ∨ s.pwr.parkAt.isSome = true)) ∧
    -- descend
    (∃ (s : State) (req : Req), reqIsOem req = false ∧ pwrState s < 2 ∧ s.bit fPWR_STATUS_DESCENT = false) ∧
    -- descendIgnored
    (∃ (s : State) (req : Req), (reqIsOem req = true ∨ 2 ≤ pwrState s ∨ s.bit fPWR_STATUS_DESCENT = true)) ∧
    -- ignLow
    (∃ (s : State), s.bit fPWR_STATUS_IGN = false ∧ s.bit fSEC_STATUS_BOOT_OK = true ∧ s.pwr.ignAt + 2000 *
        s.get fPWR_CFG_IGN_DLY ≤ s.clk.tick ∧ pwrState s < 2 ∧ s.bit fPWR_STATUS_DESCENT = false) ∧
    -- ignHigh
    (∃ (s : State), (s.bit fPWR_STATUS_IGN = true ∨ s.bit fSEC_STATUS_BOOT_OK = false ∨ s.clk.tick < s.pwr.ignAt
        + 2000 * s.get fPWR_CFG_IGN_DLY ∨ 2 ≤ pwrState s ∨ s.bit fPWR_STATUS_DESCENT = true)) ∧
    -- descentStart
    (∃ (s : State), s.bit fPWR_STATUS_DESCENT = true ∧ s.pwr.journalAt = none ∧ descentWhy s = 0) ∧
    -- descentHeld
    (∃ (s : State), s.bit fPWR_STATUS_DESCENT = true ∧ s.pwr.journalAt = none ∧ descentWhy s ≠ 0 ∧ s.pwr.told =
        false ∧ Room s 1) ∧
    -- descentNot
    (∃ (s : State), (s.bit fPWR_STATUS_DESCENT = false ∨ s.pwr.journalAt.isSome = true ∨ descentWhy s ≠ 0 ∧
        s.pwr.told = true)) ∧
    -- wakeAborts
    (∃ (s : State) (src : Fin 5) (port : Fin 6) (inp : WakeIn), wakeOk src port inp s = true ∧ pwrState s < 2 ∧
        s.bit fPWR_STATUS_DESCENT = true ∧ s.pwr.parkAt = none ∧ Room s 2) ∧
    -- wakeHeld
    (∃ (s : State) (src : Fin 5) (port : Fin 6) (inp : WakeIn), wakeOk src port inp s = true ∧ pwrState s < 2 ∧
        s.bit fPWR_STATUS_DESCENT = true ∧ s.pwr.parkAt.isSome = true) ∧
    -- wakeNot
    (∃ (s : State) (src : Fin 5) (port : Fin 6) (inp : WakeIn), (wakeOk src port inp s = false ∨ pwrState s < 2
        ∧ s.bit fPWR_STATUS_DESCENT = false)) :=
   ⟨⟨run0, .core 0, 0x40060000, by decide +kernel⟩,
    ⟨run0, .oem 0, by decide +kernel⟩,
    ⟨run0.put fPWR_STATUS_STATE 1, .core 0, 0x40060000, by decide +kernel⟩,
    ⟨(run0.put fPWR_STATUS_STATE 1).putBit fCLM_STATUS_LIMP true, .core 0, by decide +kernel⟩,
    ⟨run0, .core 0, by decide +kernel⟩,
    ⟨run0, .core 0, by decide +kernel⟩,
    ⟨run0.putBit fPWR_STATUS_DESCENT true, .core 0, by decide +kernel⟩,
    ⟨(run0.putBit fSEC_STATUS_BOOT_OK true).putBit fPWR_STATUS_IGN false, by decide +kernel⟩,
    ⟨run0.putBit fPWR_STATUS_IGN true, by decide +kernel⟩,
    ⟨{ run0.putBit fPWR_STATUS_DESCENT true with upd := { Upd.init with slow := 500 } }, by decide +kernel⟩,
    ⟨run0.putBit fPWR_STATUS_DESCENT true, by decide +kernel⟩,
    ⟨run0, by decide +kernel⟩,
    ⟨run0.putBit fPWR_STATUS_DESCENT true, 0, 0, ⟨0, none, true, true, true, [], ⟨0, false, []⟩, 0⟩,
      by decide +kernel⟩,
    ⟨{ run0.putBit fPWR_STATUS_DESCENT true with pwr := { Pwr.init with parkAt := some 0 } }, 0, 0, ⟨0, none,
      true, true, true, [], ⟨0, false, []⟩, 0⟩, by decide +kernel⟩,
    ⟨run0, 0, 0, ⟨0, none, true, true, true, [], ⟨0, false, []⟩, 0⟩, by decide +kernel⟩⟩

/-- States and operands that meet the hypotheses of DescentAndWake. -/
theorem witness_DescentAndWake :
    -- park
    (∃ (s : State), s.pwr.parkAt = none ∧ s.clk.tick % 400 = 0 ∧ (∃ d, s.pwr.journalAt = some d ∧ d < s.clk.tick
        ∧ (((s.map.journalNow = none ∨ s.wide = false ∨ s.bit fMAP_STATUS_RUN = false) ∧ s.map.writing = none) ∨
        d + 100000 ≤ s.clk.tick)) ∧ pwrState s < 2) ∧
    -- parkWaits
    (∃ (s : State), (s.pwr.journalAt = none ∨ s.pwr.parkAt.isSome = true ∨ s.clk.tick % 400 ≠ 0 ∨ ∃ d,
        s.pwr.journalAt = some d ∧ (s.clk.tick ≤ d ∨ ((s.map.journalNow ≠ none ∧ s.wide = true ∧ s.bit
        fMAP_STATUS_RUN = true) ∨ s.map.writing.isSome = true) ∧ s.clk.tick < d + 100000))) ∧
    -- dieSupplyOff
    (∃ (s : State) (p d : Nat), s.pwr.parkAt = some p ∧ p + 400 ≤ s.clk.tick ∧ s.dies.dieOff = false ∧ d < 12) ∧
    -- dieSupplyOn
    (∃ (s : State), (s.pwr.parkAt = none ∨ (∃ p, s.pwr.parkAt = some p ∧ s.clk.tick < p + 400) ∨ s.dies.dieOff =
        true)) ∧
    -- descentComplete
    (∃ (s : State) (p : Nat), s.pwr.parkAt = some p ∧ p + 1000 ≤ s.clk.tick ∧ s.pwr.held = none ∧ pwrState s < 2
        ∧ 2 ≤ s.pwr.target ∧ s.pwr.target ≤ 4) ∧
    -- descentCompleteWake
    (∃ (s : State) (p : Nat) (src : Fin 5) (port : Fin 6) (inp : WakeIn), s.pwr.parkAt = some p ∧ p + 1000 ≤
        s.clk.tick ∧ s.pwr.held = some (src, port, inp)) ∧
    -- descentNotComplete
    (∃ (s : State), (s.pwr.parkAt = none ∨ ∃ p, s.pwr.parkAt = some p ∧ s.clk.tick < p + 1000)) ∧
    -- wakeStart
    (∃ (s : State) (src : Fin 5) (port : Fin 6) (inp : WakeIn), wakeOk src port inp s = true ∧ 3 ≤ pwrState s) ∧
    -- wakeResume
    (∃ (s : State) (src : Fin 5) (port : Fin 6) (inp : WakeIn) (i : ImageIn), wakeOk src port inp s = true ∧
        pwrState s = 2 ∧ src ≠ 4 ∧ inp.copyOk = true ∧ s.cfg.image = some i ∧ (inp.passA = true ∨ inp.passB =
        true)) ∧
    -- wakeResumeLanes
    (∃ (s : State) (src : Fin 5) (port : Fin 6) (inp : WakeIn) (i : ImageIn), wakeOk src port inp s = true ∧
        pwrState s = 2 ∧ src ≠ 4 ∧ inp.copyOk = true ∧ s.cfg.image = some i ∧ inp.passA = false ∧ inp.passB =
        false) ∧
    -- wakeResumeFails
    (∃ (s : State) (src : Fin 5) (port : Fin 6) (inp : WakeIn), wakeOk src port inp s = true ∧ pwrState s = 2 ∧
        src ≠ 4 ∧ (inp.copyOk = false ∨ s.cfg.image = none)) ∧
    -- wakeReset
    (∃ (s : State) (port : Fin 6) (inp : WakeIn), pwrState s = 2) ∧
    -- latchMax
    (∃ (s : State) (battery : Bool), pwrState s = 2 ∧ (if battery then s.get fPWR_CFG_BATT_LOW else s.get
        fPWR_CFG_LATCH_MAX) ≠ 0 ∧ (battery = true → s.get fPWR_KAL_MV10 < 50 * s.get fPWR_CFG_BATT_LOW) ∧ 2 ≤
        s.rst.next) ∧
    -- latchMaxNot
    (∃ (s : State) (battery : Bool), (pwrState s ≠ 2 ∨ (if battery then s.get fPWR_CFG_BATT_LOW else s.get
        fPWR_CFG_LATCH_MAX) = 0 ∨ (battery = true ∧ 50 * s.get fPWR_CFG_BATT_LOW ≤ s.get fPWR_KAL_MV10))) ∧
    -- shutMax
    (∃ (s : State) (battery : Bool), pwrState s = 3 ∧ (if battery then s.get fPWR_CFG_BATT_LOW else s.get
        fPWR_CFG_SHUT_MAX) ≠ 0 ∧ (battery = true → s.get fPWR_KAL_MV10 < 50 * s.get fPWR_CFG_BATT_LOW) ∧ 2 ≤
        s.rst.next) ∧
    -- shutMaxNot
    (∃ (s : State) (battery : Bool), (pwrState s ≠ 3 ∨ (if battery then s.get fPWR_CFG_BATT_LOW else s.get
        fPWR_CFG_SHUT_MAX) = 0 ∨ (battery = true ∧ 50 * s.get fPWR_CFG_BATT_LOW ≤ s.get fPWR_KAL_MV10))) ∧
    -- batteryLow
    (∃ (s : State) (kal : Fin 4096), s.get fPWR_CFG_BATT_LOW ≠ 0 ∧ kal.val < 50 * s.get fPWR_CFG_BATT_LOW ∧ Room
        s 1) ∧
    -- batteryOk
    (∃ (s : State) (kal : Fin 4096), (s.get fPWR_CFG_BATT_LOW = 0 ∨ 50 * s.get fPWR_CFG_BATT_LOW ≤ kal.val)) :=
   ⟨⟨{ run0.putBit fPWR_STATUS_DESCENT true with clk := { Clk.init with tick := 800 }, pwr := { Pwr.init with journalAt := some 500 } },
      by decide +kernel⟩,
    ⟨run0, by decide +kernel⟩,
    ⟨{ run0 with clk := { Clk.init with tick := 1200 }, pwr := { Pwr.init with journalAt := some 500, parkAt := some 800 } },
      800, 3, by decide +kernel⟩,
    ⟨run0, by decide +kernel⟩,
    ⟨{ run0.putBit fPWR_STATUS_DESCENT true with clk := { Clk.init with tick := 2000 }, pwr := { Pwr.init with journalAt := some 500, parkAt := some 800, target := 3 } },
      800, by decide +kernel⟩,
    ⟨{ run0.putBit fPWR_STATUS_DESCENT true with clk := { Clk.init with tick := 2000 }, pwr := { Pwr.init with journalAt := some 500, parkAt := some 800, target := 3, held := some (0, 0, ⟨0, none, true, true, true, [], ⟨0, false, []⟩, 0⟩) } },
      800, 0, 0, ⟨0, none, true, true, true, [], ⟨0, false, []⟩, 0⟩, by decide +kernel⟩,
    ⟨run0, by decide +kernel⟩,
    ⟨run0.put fPWR_STATUS_STATE 4, 0, 0, ⟨40000, none, true, true, true, [], ⟨0, false, []⟩, 0⟩,
      by decide +kernel⟩,
    ⟨{ run0.put fPWR_STATUS_STATE 2 with cfg := { Cfg.init with image := some img0 } }, 0, 0, ⟨40000, none,
      true, true, true, [], ⟨0, false, []⟩, 5⟩, img0, by decide +kernel⟩,
    ⟨{ run0.put fPWR_STATUS_STATE 2 with cfg := { Cfg.init with image := some img0 } }, 0, 0, ⟨40000, none,
      true, false, false, [], ⟨0, false, []⟩, 5⟩, img0, by decide +kernel⟩,
    ⟨run0.put fPWR_STATUS_STATE 2, 0, 0, ⟨40000, none, true, true, true, [], ⟨0, false, []⟩, 5⟩,
      by decide +kernel⟩,
    ⟨run0.put fPWR_STATUS_STATE 2, 0, ⟨40000, none, true, true, true, [], ⟨0, false, []⟩, 5⟩, by decide +kernel⟩,
    ⟨(run0.put fPWR_STATUS_STATE 2).put fPWR_CFG_LATCH_MAX 5, false, by decide +kernel⟩,
    ⟨run0, true, by decide +kernel⟩,
    ⟨(run0.put fPWR_STATUS_STATE 3).put fPWR_CFG_SHUT_MAX 5, false, by decide +kernel⟩,
    ⟨run0, true, by decide +kernel⟩,
    ⟨run0.put fPWR_CFG_BATT_LOW 22, 900, by decide +kernel⟩,
    ⟨run0.put fPWR_CFG_BATT_LOW 22, 1100, by decide +kernel⟩⟩

/-- States and operands that meet the hypotheses of LifeCycleAndTokens. -/
theorem witness_LifeCycleAndTokens :
    -- provision
    (∃ (s : State) (nonce : List Word) (ids : List (Fin 7 × Nat)), secRuns s = true ∧ nonceOk nonce s = true ∧
        (s.get fSEC_STATUS_LC = 0 ∨ s.get fSEC_STATUS_LC = 2 ∧ s.get fSEC_STATUS_RETURNS < 3) ∧ Room s 1) ∧
    -- provisionRefused
    (∃ (s : State) (sigOk : Bool) (nonce : List Word) (ids : List (Fin 7 × Nat)), secRuns s = true ∧ (sigOk =
        false ∨ nonceOk nonce s = false ∨ s.get fSEC_STATUS_LC = 1 ∨ s.get fSEC_STATUS_LC = 2 ∧ 3 ≤ s.get
        fSEC_STATUS_RETURNS) ∧ Room s 1) ∧
    -- secReturn
    (∃ (s : State) (nonce : List Word), secRuns s = true ∧ keyHeld s 3 = true ∧ nonceOk nonce s = true ∧ s.get
        fSEC_STATUS_LC = 1 ∧ speedOk s = true ∧ s.get fUPD_STATUS_STATE = 0 ∧ s.rst.busy = 0) ∧
    -- secReturnRefused
    (∃ (s : State) (sigOk : Bool) (nonce : List Word), secRuns s = true ∧ (sigOk = false ∨ keyHeld s 3 = false ∨
        nonceOk nonce s = false ∨ s.get fSEC_STATUS_LC ≠ 1 ∨ speedOk s = false ∨ s.get fUPD_STATUS_STATE ≠ 0) ∧
        Room s 1) ∧
    -- nonceFetch
    (∃ (s : State), secRuns s = true) ∧
    -- tokenOk
    (∃ (s : State) (tok : TokenIn), secRuns s = true ∧ tokenFault tok s = 0 ∧ Room s 1) ∧
    -- tokenRefused
    (∃ (s : State) (tok : TokenIn), secRuns s = true ∧ tokenFault tok s ≠ 0 ∧ Room s 1) ∧
    -- tokenExpire
    (∃ (s : State), s.get fSEC_STATUS_LEVEL = 1 ∧ s.sec.tokenEnd ≤ s.get fPWR_RTC ∧ Room s 1) ∧
    -- tokenNotExpired
    (∃ (s : State), (s.get fSEC_STATUS_LEVEL ≠ 1 ∨ s.get fPWR_RTC < s.sec.tokenEnd)) :=
   ⟨⟨{ run0 with sec := { Sec.init with nonce := List.replicate 8 5#32 } }, List.replicate 8 5#32, [(2, 77)],
      by decide +kernel⟩,
    ⟨run0, false, [], [], by decide +kernel⟩,
    ⟨{ (run0.put fSEC_STATUS_LC 1).put fSEC_KEYS_VALID 0x6D with sec := { Sec.init with nonce := List.replicate 8 5#32 }, upd := { Upd.init with slow := 500 }, rst := { Rst.init with next := 10, busy := 0 } },
      List.replicate 8 5#32, by decide +kernel⟩,
    ⟨run0, true, [], by decide +kernel⟩,
    ⟨run0, by decide +kernel⟩,
    ⟨{ run0.put fSEC_KEYS_VALID 0x33 with sec := { Sec.init with nonce := List.replicate 8 5#32 } }, ⟨true, 4,
      0, 0, List.replicate 8 5#32⟩, by decide +kernel⟩,
    ⟨run0, ⟨true, 4, 0, 0, []⟩, by decide +kernel⟩,
    ⟨run0.put fSEC_STATUS_LEVEL 1, by decide +kernel⟩,
    ⟨run0, by decide +kernel⟩⟩

/-- States and operands that meet the hypotheses of Halts. -/
theorem witness_Halts :
    -- haltServed
    (∃ (s : State) (core : Fin 10), pwrState s < 2 ∧ s.get fSEC_STATUS_LEVEL = 2 ∧ s.bitAt fSEC_HALT_CORES core
        = false ∧ coreLane core = none ∧ coreRuns s core = true ∧ Room s 1) ∧
    -- haltAgain
    (∃ (s : State) (core : Fin 10), pwrState s < 2 ∧ s.get fSEC_STATUS_LEVEL = 2 ∧ s.bitAt fSEC_HALT_CORES core
        = true) ∧
    -- haltRefused
    (∃ (s : State) (core : Fin 10) (why : Nat), pwrState s < 2 ∧ ((s.get fSEC_STATUS_LEVEL ≠ 2 ∧ why = 1) ∨
        (s.get fSEC_STATUS_LEVEL = 2 ∧ s.bitAt fSEC_HALT_CORES core = false ∧ ((coreLane core = none ∧ coreRuns
        s core = false ∧ why = 5) ∨ (∃ l, coreLane core = some l ∧ ((inLimp s = true ∧ why = 4) ∨ (inLimp s =
        false ∧ s.bit fCLM_STATUS_HINGE_RUN = true ∧ why = 3) ∨ (inLimp s = false ∧ s.bit fCLM_STATUS_HINGE_RUN
        = false ∧ laneState s (1 - l) ≠ 0 ∧ (laneState s l ≠ 0 ∨ laneState s (1 - l) ≠ 1 ∨ s.clk.tick < (s.lane
        (1 - l)).stateAt + 100000) ∧ why = 2)))))) ∧ Room s 1) ∧
    -- haltLane
    (∃ (s : State) (core : Fin 10) (l : Nat), pwrState s < 2 ∧ s.get fSEC_STATUS_LEVEL = 2 ∧ s.bitAt
        fSEC_HALT_CORES core = false ∧ coreLane core = some l ∧ inLimp s = false ∧ s.bit fCLM_STATUS_HINGE_RUN =
        false ∧ laneState s (1 - l) = 0 ∧ laneState s l ≠ 0) ∧
    -- haltDeferred
    (∃ (s : State) (core : Fin 10) (l : Nat), pwrState s < 2 ∧ s.get fSEC_STATUS_LEVEL = 2 ∧ s.bitAt
        fSEC_HALT_CORES core = false ∧ coreLane core = some l ∧ inLimp s = false ∧ s.bit fCLM_STATUS_HINGE_RUN =
        false ∧ laneState s l = 0 ∧ laneState s (1 - l) = 1 ∧ (s.lane (1 - l)).stateAt + 100000 ≤ s.clk.tick) ∧
    -- haltAsleep
    (∃ (s : State) (core : Fin 10), 2 ≤ pwrState s) ∧
    -- release
    (∃ (s : State) (core : Fin 10), s.get fSEC_STATUS_LEVEL = 2 ∧ s.bitAt fSEC_HALT_CORES core = true ∧ coreLane
        core = none ∧ Room s 1) ∧
    -- releaseLane
    (∃ (s : State) (core : Fin 10) (l : Nat), s.get fSEC_STATUS_LEVEL = 2 ∧ s.bitAt fSEC_HALT_CORES core = true
        ∧ coreLane core = some l ∧ Room s 1) ∧
    -- releaseNot
    (∃ (s : State) (core : Fin 10), (s.get fSEC_STATUS_LEVEL ≠ 2 ∨ s.bitAt fSEC_HALT_CORES core = false)) :=
   ⟨⟨run0.put fSEC_STATUS_LEVEL 2, 1, by decide +kernel⟩,
    ⟨(run0.put fSEC_STATUS_LEVEL 2).put fSEC_HALT_CORES 2, 1, by decide +kernel⟩,
    ⟨run0, 4, 1, by decide +kernel⟩,
    ⟨((run0.put fSEC_STATUS_LEVEL 2).put fCLM_STATUS_STATE_A 0).put fCLM_STATUS_STATE_B 1, 6, 1,
      by decide +kernel⟩,
    ⟨{ ((run0.put fSEC_STATUS_LEVEL 2).put fCLM_STATUS_STATE_A 0).put fCLM_STATUS_STATE_B 1 with clk := { Clk.init with tick := 200000 } },
      4, 0, by decide +kernel⟩,
    ⟨run0.put fPWR_STATUS_STATE 2, 4, by decide +kernel⟩,
    ⟨(run0.put fSEC_STATUS_LEVEL 2).put fSEC_HALT_CORES 2, 1, by decide +kernel⟩,
    ⟨(((run0.put fSEC_STATUS_LEVEL 2).put fSEC_HALT_CORES 0x30).put fCLM_STATUS_STATE_B 0).put
      fCLM_STATUS_STATE_A 2, 4, 0, by decide +kernel⟩,
    ⟨run0, 1, by decide +kernel⟩⟩

/-- States and operands that meet the hypotheses of LimpPanel. -/
theorem witness_LimpPanel :
    -- frameOk
    (∃ (s : State) (composing : Bool) (flips m : BitVec 192), driverOn s = true ∧ pwrState s < 2 ∧ (s.bit
        fPNL_STATUS_FAULT = false ∨ s.pnl.retry = true) ∧ s.pnl.rev = false ∧ (m = (if composing = true ∧
        s.pnl.bad = 0 then activeFrame s else s.pnl.shadow) ^^^ flips) ∧ frameMemCrc m = s.pnl.ref ∧ (worstSeg
        s).2 < s.get fPNL_CFG_DCB_LIM ∧ (worstSeg s).2 ≤ s.get fPNL_DCB_MAX) ∧
    -- frameFlips
    (∃ (s : State) (composing : Bool) (flips m : BitVec 192), driverOn s = true ∧ pwrState s < 2 ∧ s.bit
        fPNL_STATUS_FAULT = false ∧ (m = (if composing = true ∧ s.pnl.bad = 0 then activeFrame s else
        s.pnl.shadow) ^^^ flips) ∧ frameMemCrc m ≠ s.pnl.ref ∧ (worstSeg s).2 < s.get fPNL_CFG_DCB_LIM ∧ Room s
        2) ∧
    -- frameBlank
    (∃ (s : State) (composing : Bool) (flips m : BitVec 192), driverOn s = true ∧ pwrState s < 2 ∧ s.bit
        fPNL_STATUS_FAULT = true ∧ s.pnl.retry = false ∧ (m = (if composing = true ∧ s.pnl.bad = 0 then
        activeFrame s else s.pnl.shadow) ^^^ flips) ∧ (worstSeg s).2 < s.get fPNL_CFG_DCB_LIM) ∧
    -- frameStillBad
    (∃ (s : State) (composing : Bool) (flips m : BitVec 192), driverOn s = true ∧ pwrState s < 2 ∧ s.bit
        fPNL_STATUS_FAULT = true ∧ s.pnl.retry = true ∧ 3 ≤ s.pnl.bad ∧ (m = (if composing = true ∧ s.pnl.bad =
        0 then activeFrame s else s.pnl.shadow) ^^^ flips) ∧ frameMemCrc m ≠ s.pnl.ref ∧ (worstSeg s).2 < s.get
        fPNL_CFG_DCB_LIM ∧ Room s 1) ∧
    -- frameReversed
    (∃ (s : State) (composing : Bool) (flips m : BitVec 192), driverOn s = true ∧ pwrState s < 2 ∧ s.bit
        fPNL_STATUS_FAULT = false ∧ s.pnl.rev = true ∧ (m = (if composing = true ∧ s.pnl.bad = 0 then
        activeFrame s else s.pnl.shadow) ^^^ flips) ∧ frameMemCrc m = s.pnl.ref ∧ (worstSeg s).2 < 8 * s.get
        fPNL_CFG_DCB_LIM) ∧
    -- frameKeepAlive
    (∃ (s : State) (composing : Bool) (flips m : BitVec 192) (n : Fin 192), driverOn s = true ∧ pwrState s = 2 ∧
        s.bit fPNL_STATUS_FAULT = false ∧ (m = (if composing = true ∧ s.pnl.bad = 0 then activeFrame s else
        s.pnl.shadow) ^^^ flips) ∧ frameMemCrc m = s.pnl.ref ∧ s.pnl.acc = [] ∧ s.pnl.phase < 5 ∧ 1 ≤ s.get
        fPNL_CFG_DCB_LIM) ∧
    -- frameUnbalanced
    (∃ (s : State) (composing : Bool) (flips m : BitVec 192), driverOn s = true ∧ pwrState s < 2 ∧ s.bit
        fPNL_STATUS_FAULT = false ∧ (m = (if composing = true ∧ s.pnl.bad = 0 then activeFrame s else
        s.pnl.shadow) ^^^ flips) ∧ frameMemCrc m = s.pnl.ref ∧ 8 * s.get fPNL_CFG_DCB_LIM ≤ (worstSeg s).2 ∧
        Room s 1) ∧
    -- frameDark
    (∃ (s : State) (composing : Bool) (flips : BitVec 192), driverOn s = false) ∧
    -- holdEnd3
    (∃ (s : State) (k : Nat), s.pnl.holdAt = some k ∧ (k + 20000 ≤ s.clk.tick ∨ 2 ≤ pwrState s)) ∧
    -- holdGoesOn
    (∃ (s : State), (s.pnl.holdAt = none ∨ ∃ k, s.pnl.holdAt = some k ∧ pwrState s < 2 ∧ s.clk.tick < k +
        20000)) :=
   ⟨⟨{ run0.put fPNL_CFG_DCB_LIM 4 with pnl := { Pnl.init with ref := frameMemCrc 0#192 } }, false, 0#192,
      0#192, by decide +kernel⟩,
    ⟨{ run0.put fPNL_CFG_DCB_LIM 4 with pnl := { Pnl.init with ref := frameMemCrc 0#192, bad := 2 } }, true,
      8#192, 8#192, by decide +kernel⟩,
    ⟨{ (run0.put fPNL_CFG_DCB_LIM 4).putBit fPNL_STATUS_FAULT true with pnl := { Pnl.init with bad := 3 } },
      false, 8#192, 8#192, by decide +kernel⟩,
    ⟨{ (run0.put fPNL_CFG_DCB_LIM 4).putBit fPNL_STATUS_FAULT true with pnl := { Pnl.init with bad := 3, retry := true, ref := frameMemCrc 0#192 } },
      false, 8#192, 8#192, by decide +kernel⟩,
    ⟨{ run0.put fPNL_CFG_DCB_LIM 4 with pnl := { Pnl.init with ref := frameMemCrc 0#192, rev := true } }, false,
      0#192, 0#192, by decide +kernel⟩,
    ⟨{ (run0.put fPNL_CFG_DCB_LIM 4).put fPWR_STATUS_STATE 2 |>.putBit fPNL_CFG_LATCH_SHOW true with pnl := { Pnl.init with ref := frameMemCrc 1#192, shadow := 1#192 } },
      false, 0#192, 1#192, 0, by decide +kernel⟩,
    ⟨{ run0.put fPNL_CFG_DCB_LIM 1 with pnl := { Pnl.init with ref := frameMemCrc 0#192, acc := [(5, -9)] } },
      false, 0#192, 0#192, by decide +kernel⟩,
    ⟨run0.put fPWR_STATUS_STATE 3, false, 0, by decide +kernel⟩,
    ⟨{ run0 with clk := { Clk.init with tick := 20000 }, pnl := { Pnl.init with holdAt := some 0 } }, 0,
      by decide +kernel⟩,
    ⟨run0, by decide +kernel⟩⟩

/-- States and operands that meet the hypotheses of TickAndFrameBoundary. -/
theorem witness_TickAndFrameBoundary :
    -- tickEdge
    (∃ (s : State) (inp : TickIn), tickRuns s = true ∧ (s.ecn.resetAt = none ∨ ∃ k, s.ecn.resetAt = some k ∧
        s.clk.tick + 1 < k)) ∧
    -- tickStopped
    (∃ (s : State) (inp : TickIn), tickRuns s = false) ∧
    -- tickEcnilReset
    (∃ (s : State) (inp : TickIn) (k : Nat), tickRuns s = true ∧ s.ecn.resetAt = some k ∧ k ≤ s.clk.tick + 1 ∧
        s.rst.busy = 0) ∧
    -- frameBoundary
    (∃ (s : State), tickRuns s = true ∧ (s.clk.tick + 1) % 400 = 0) ∧
    -- notBoundary
    (∃ (s : State), (tickRuns s = false ∨ (s.clk.tick + 1) % 400 ≠ 0)) :=
   ⟨⟨run0, ⟨[], [], [], false, [], [], [], [], none, true, false⟩, by decide +kernel⟩,
    ⟨{ run0 with clk := { Clk.init with stopped := true } }, ⟨[], [], [], false, [], [], [], [], none, true,
      false⟩, by decide +kernel⟩,
    ⟨{ run0 with ecn := { Ecn.init with resetAt := some 1 }, rst := { Rst.init with next := 10, busy := 0 } },
      ⟨[], [], [], false, [], [], [], [], none, true, false⟩, 1, by decide +kernel⟩,
    ⟨{ run0 with clk := { Clk.init with tick := 399 } }, by decide +kernel⟩,
    ⟨run0, by decide +kernel⟩⟩

/-- States and operands that meet the hypotheses of LoopOutputs. -/
theorem witness_LoopOutputs :
    -- outLimits
    (∃ (s : State) (l : Fin 2) (n : Fin 96) (v : F32), f32Le (s.chF (chAddr l n) 0x30) (s.chF (chAddr l n) 0x34)
        = true ∧ f32IsNaN v = false ∧ f32Lt 0#32 (s.chF (chAddr l n) 0x4C) = false) ∧
    -- outRate
    (∃ (s : State) (l : Fin 2) (n : Fin 96) (v : F32), f32Le (s.chF (chAddr l n) 0x30) (s.chF (chAddr l n) 0x34)
        = true ∧ f32IsNaN v = false ∧ f32Lt 0#32 (s.chF (chAddr l n) 0x4C) = true ∧ f32Le (f32Sub (s.chF (chAddr
        l n) 0x5C) (s.chF (chAddr l n) 0x4C)) (f32Add (s.chF (chAddr l n) 0x5C) (s.chF (chAddr l n) 0x4C)) =
        true) ∧
    -- seedInside
    (∃ (s : State) (l : Fin 2) (n : Fin 96) (g : Gather) (uRep : F32) (bump : Bool), f32Le (s.chF (chAddr l n)
        0x30) (s.chF (chAddr l n) 0x34) = true ∧ (s.mbit (cINIT (chAddr l n)) = true ∨ f32IsNaN (f32Sub (f32Sub
        (s.chF (chAddr l n) 0x5C) (pidSum s (chAddr l n) g uRep (s.chF (chAddr l n) 0x50) (s.chF (chAddr l n)
        0x54) (s.chF (chAddr l n) 0x58)).p) (f32Add (f32Mul (s.chF (chAddr l n) 0x2C) g.ff) uRep)) = false)) ∧
    -- destSingle
    (∃ (s : State) (l : Fin 2) (n : Fin 96) (u : F32) (first : Bool) (c : Fin 64), s.mget (cDEST (chAddr l n)) =
        0 ∧ s.mget (cDESTA (chAddr l n)) = c) ∧
    -- destSplit
    (∃ (s : State) (l : Fin 2) (n : Fin 96) (u : F32) (first : Bool) (c d : Fin 64), s.mget (cDEST (chAddr l n))
        = 1 ∧ s.mget (cDESTA (chAddr l n)) = c ∧ s.mget (cDESTB (chAddr l n)) = d ∧ c ≠ d) :=
   ⟨⟨run0, 0, 3, 0x40000000, by decide +kernel⟩,
    ⟨run0.wr32 (chAddr 0 3 + 0x4C) 0x3F000000, 0, 3, 0x40000000, by decide +kernel⟩,
    ⟨run0.mput (cINIT (chAddr 0 3)) 1, 0, 3, ⟨0, 0, 0, false⟩, 0, false, by decide +kernel⟩,
    ⟨run0.mput (cDESTA (chAddr 0 3)) 5, 0, 3, 0x3F800000, false, 5, by decide +kernel⟩,
    ⟨(run0.mput (cDEST (chAddr 0 3)) 1).mput (cDESTB (chAddr 0 3)) 5, 0, 3, 0xBF800000, false, 0, 5,
      by decide +kernel⟩⟩

end Sys2Proof.Machine
end

section
/-!
The step relation: the command in front, the idle step, and the invariant along every step (O56, O59).
-/
open Sys2Proof
namespace Sys2Proof.Machine

/-- A command that answers a next state from a state that meets the invariant answers one that meets it. -/
theorem inv_exec {c : Instr} {s t : State} (h : Inv s) (ht : exec c s = .next t) : Inv t := by
  cases c with
  | registerWrite _ _ _ _ => exact inv_execRegisterWrite h t ht
  | busErrorAccess req _ write => exact inv_execBusErrorAccess (x0 := req) (x2 := write) h t ht
  | rcFieldRead _ _ _ => exact inv_execRcFieldRead h t ht
  | tickEdge _ => exact inv_execTickEdge h t ht
  | channelRecovered _ => exact inv_execChannelRecovered h t ht
  | warmupEnd _ => exact inv_execWarmupEnd h t ht
  | paneDeadline _ _ _ => exact inv_execPaneDeadline h t ht
  | commandFrame _ _ _ _ _ _ => exact inv_execCommandFrame h t ht
  | dropFrame _ _ => exact inv_execDropFrame h t ht
  | linkSilence _ _ => exact inv_execLinkSilence h t ht
  | jambSelect => exact inv_execJambSelect h t ht
  | mismatchGiveUp _ => exact inv_execMismatchGiveUp h t ht
  | laneFault _ _ => exact inv_execLaneFault h t ht
  | recoveryStepDone _ => exact inv_execRecoveryStepDone h t ht
  | recoveryStepFail _ => exact inv_execRecoveryStepFail h t ht
  | recoveryComplete _ => exact inv_execRecoveryComplete h t ht
  | takeBack => exact inv_execTakeBack h t ht
  | switchTick => exact inv_execSwitchTick h t ht
  | hingeSwapDue => exact inv_execHingeSwapDue h t ht
  | hingeSwapEnd => exact inv_execHingeSwapEnd h t ht
  | hingeNow _ => exact inv_execHingeNow h t ht
  | testGuA _ => exact inv_execTestGuA h t ht
  | testGuB _ => exact inv_execTestGuB h t ht
  | noclaimPolicy _ => exact inv_execNoclaimPolicy h t ht
  | holdWindowEnd _ => exact inv_execHoldWindowEnd h t ht
  | frameBoundary => exact inv_execFrameBoundary h t ht
  | mailboxPost _ => exact inv_execMailboxPost h t ht
  | sramAccessViolation _ _ _ => exact inv_execSramAccessViolation h t ht
  | eccError req _ _ => exact inv_execEccError (x0 := req) h t ht
  | scrubPass _ => exact inv_execScrubPass h t ht
  | clkTickRead _ _ => exact inv_execClkTickRead h t ht
  | holdoverEntry => exact inv_execHoldoverEntry h t ht
  | holdoverLimit => exact inv_execHoldoverLimit h t ht
  | stepSettle => exact inv_execStepSettle h t ht
  | leapSecond => exact inv_execLeapSecond h t ht
  | alignReached => exact inv_execAlignReached h t ht
  | alignLost => exact inv_execAlignLost h t ht
  | clockMonitorFault _ => exact inv_execClockMonitorFault h t ht
  | lockRequest _ _ => exact inv_execLockRequest h t ht
  | unlockRequest _ _ => exact inv_execUnlockRequest h t ht
  | quadIllegalTransition _ => exact inv_execQuadIllegalTransition h t ht
  | uinFault _ _ => exact inv_execUinFault h t ht
  | uinFaultCleared _ => exact inv_execUinFaultCleared h t ht
  | edgeTimeout _ => exact inv_execEdgeTimeout h t ht
  | indexMissing _ => exact inv_execIndexMissing h t ht
  | indexEdge _ _ => exact inv_execIndexEdge h t ht
  | lossImpact _ _ _ _ => exact inv_execLossImpact h t ht
  | lossSilent _ => exact inv_execLossSilent h t ht
  | flowZero _ => exact inv_execFlowZero h t ht
  | flowZeroDone => exact inv_execFlowZeroDone h t ht
  | loadClr _ _ => exact inv_execLoadClr h t ht
  | snapReq _ _ => exact inv_execSnapReq h t ht
  | snapDone _ => exact inv_execSnapDone h t ht
  | swgEnable _ _ => exact inv_execSwgEnable h t ht
  | swgDisable _ => exact inv_execSwgDisable h t ht
  | swgRestart _ => exact inv_execSwgRestart h t ht
  | costFrame _ => exact inv_execCostFrame h t ht
  | steadyReached => exact inv_execSteadyReached h t ht
  | swingUpdate => exact inv_execSwingUpdate h t ht
  | setPost => exact inv_execSetPost h t ht
  | setMissed => exact inv_execSetMissed h t ht
  | leaseLost => exact inv_execLeaseLost h t ht
  | ditherEnd _ => exact inv_execDitherEnd h t ht
  | operatorSetpoint _ _ => exact inv_execOperatorSetpoint h t ht
  | boostDecision _ _ _ _ => exact inv_execBoostDecision h t ht
  | boostRequestRefused _ _ _ _ => exact inv_execBoostRequestRefused h t ht
  | boostEnd _ _ _ _ => exact inv_execBoostEnd h t ht
  | peakEnd _ _ _ => exact inv_execPeakEnd h t ht
  | motionKink _ _ => exact inv_execMotionKink h t ht
  | motionTimeout _ _ => exact inv_execMotionTimeout h t ht
  | vlvOpenLoad _ _ _ => exact inv_execVlvOpenLoad h t ht
  | vlvOvercurrent _ _ => exact inv_execVlvOvercurrent h t ht
  | holdCurrentLow _ _ => exact inv_execHoldCurrentLow h t ht
  | boostConverterFailure _ => exact inv_execBoostConverterFailure h t ht
  | vlvDieOvertemp _ _ => exact inv_execVlvDieOvertemp h t ht
  | propCurrentFault _ => exact inv_execPropCurrentFault h t ht
  | vlvClr _ _ => exact inv_execVlvClr h t ht
  | budgetDecision => exact inv_execBudgetDecision h t ht
  | switchOnRefused _ => exact inv_execSwitchOnRefused h t ht
  | arbiterChange => exact inv_execArbiterChange h t ht
  | inrushEnd _ => exact inv_execInrushEnd h t ht
  | pswShort _ _ => exact inv_execPswShort h t ht
  | pswOverload _ _ _ _ => exact inv_execPswOverload h t ht
  | dtLimit _ _ _ => exact inv_execDtLimit h t ht
  | junctionOvertemp _ _ => exact inv_execJunctionOvertemp h t ht
  | pswOpenLoad _ _ _ => exact inv_execPswOpenLoad h t ht
  | caseRise _ _ _ => exact inv_execCaseRise h t ht
  | pswRetry _ _ _ => exact inv_execPswRetry h t ht
  | pswClr _ _ => exact inv_execPswClr h t ht
  | clampPulse _ _ => exact inv_execClampPulse h t ht
  | clampLockRelease _ => exact inv_execClampLockRelease h t ht
  | antennaShort _ _ _ => exact inv_execAntennaShort h t ht
  | antennaTrial _ => exact inv_execAntennaTrial h t ht
  | antennaOpen _ _ => exact inv_execAntennaOpen h t ht
  | antennaOk _ _ => exact inv_execAntennaOk h t ht
  | antRetry _ => exact inv_execAntRetry h t ht
  | coldStartRequest _ => exact inv_execColdStartRequest h t ht
  | ant1Substitute => exact inv_execAnt1Substitute h t ht
  | ant0Restore => exact inv_execAnt0Restore h t ht
  | notchEngage _ _ _ _ => exact inv_execNotchEngage h t ht
  | notchRelease _ _ _ _ => exact inv_execNotchRelease h t ht
  | gnssEpoch _ _ => exact inv_execGnssEpoch h t ht
  | bandReturn _ _ => exact inv_execBandReturn h t ht
  | searchComplete _ _ _ _ _ _ => exact inv_execSearchComplete h t ht
  | navDataSave _ => exact inv_execNavDataSave h t ht
  | dumpLatch _ _ => exact inv_execDumpLatch h t ht
  | trackingLoopPeriod _ _ => exact inv_execTrackingLoopPeriod h t ht
  | ncoWrite _ _ _ _ => exact inv_execNcoWrite h t ht
  | lockLoss _ => exact inv_execLockLoss h t ht
  | coastExpire _ => exact inv_execCoastExpire h t ht
  | solutionReady _ => exact inv_execSolutionReady h t ht
  | gnsSolRead _ => exact inv_execGnsSolRead h t ht
  | rtcmMessage _ => exact inv_execRtcmMessage h t ht
  | rtcmCanFrame _ _ _ _ => exact inv_execRtcmCanFrame h t ht
  | corrSourceSwitch => exact inv_execCorrSourceSwitch h t ht
  | corrAgeOut => exact inv_execCorrAgeOut h t ht
  | tp0Edge _ => exact inv_execTp0Edge h t ht
  | streamFrame _ _ => exact inv_execStreamFrame h t ht
  | frameLate _ _ => exact inv_execFrameLate h t ht
  | portAbsent _ => exact inv_execPortAbsent h t ht
  | camLinkDown _ => exact inv_execCamLinkDown h t ht
  | exposureCommand _ => exact inv_execExposureCommand h t ht
  | statsWritten _ _ => exact inv_execStatsWritten h t ht
  | ispShadowWrite _ _ _ _ => exact inv_execIspShadowWrite h t ht
  | lidarSweep _ _ => exact inv_execLidarSweep h t ht
  | resultIssue _ => exact inv_execResultIssue h t ht
  | lateSample _ _ => exact inv_execLateSample h t ht
  | fusResRead _ => exact inv_execFusResRead h t ht
  | engage _ _ => exact inv_execEngage h t ht
  | disengage _ => exact inv_execDisengage h t ht
  | resume _ => exact inv_execResume h t ht
  | guidanceFallback _ => exact inv_execGuidanceFallback h t ht
  | unlReq _ _ => exact inv_execUnlReq h t ht
  | unlConfirm _ _ => exact inv_execUnlConfirm h t ht
  | unlStop _ => exact inv_execUnlStop h t ht
  | unloadEndingDone => exact inv_execUnloadEndingDone h t ht
  | mapUpdateBoundary _ => exact inv_execMapUpdateBoundary h t ht
  | mapUpdateProcess _ => exact inv_execMapUpdateProcess h t ht
  | journalCommit _ _ => exact inv_execJournalCommit h t ht
  | tileLoaded _ _ => exact inv_execTileLoaded h t ht
  | journalNow _ => exact inv_execJournalNow h t ht
  | kerReset _ => exact inv_execKerReset h t ht
  | fieldClose _ => exact inv_execFieldClose h t ht
  | tileExport _ _ _ => exact inv_execTileExport h t ht
  | fieldDelete _ => exact inv_execFieldDelete h t ht
  | presencePoll _ => exact inv_execPresencePoll h t ht
  | authentication _ _ => exact inv_execAuthentication h t ht
  | periodicReauth _ => exact inv_execPeriodicReauth h t ht
  | reauth _ _ => exact inv_execReauth h t ht
  | counterWrite _ => exact inv_execCounterWrite h t ht
  | ecnilFrame _ _ => exact inv_execEcnilFrame h t ht
  | announce _ _ => exact inv_execAnnounce h t ht
  | join _ _ _ _ _ _ => exact inv_execJoin h t ht
  | ecnAdmit _ _ _ _ => exact inv_execEcnAdmit h t ht
  | ecnRefuse _ _ => exact inv_execEcnRefuse h t ht
  | ecnSet _ _ _ => exact inv_execEcnSet h t ht
  | commitMessage _ => exact inv_execCommitMessage h t ht
  | ecnAck _ _ => exact inv_execEcnAck h t ht
  | ecnStep _ _ => exact inv_execEcnStep h t ht
  | ecnLeap _ => exact inv_execEcnLeap h t ht
  | ecnReset _ => exact inv_execEcnReset h t ht
  | ecnMode _ _ => exact inv_execEcnMode h t ht
  | abortCheck => exact inv_execAbortCheck h t ht
  | genCheck => exact inv_execGenCheck h t ht
  | portDown _ _ => exact inv_execPortDown h t ht
  | portUp _ _ => exact inv_execPortUp h t ht
  | workerResetRequest _ _ => exact inv_execWorkerResetRequest h t ht
  | managerListenEnd => exact inv_execManagerListenEnd h t ht
  | joinSend _ => exact inv_execJoinSend h t ht
  | joinTimeout => exact inv_execJoinTimeout h t ht
  | refusedTimeout => exact inv_execRefusedTimeout h t ht
  | joinTick => exact inv_execJoinTick h t ht
  | rejoin => exact inv_execRejoin h t ht
  | claimsEnable => exact inv_execClaimsEnable h t ht
  | joinWaitExpire => exact inv_execJoinWaitExpire h t ht
  | joinLate => exact inv_execJoinLate h t ht
  | canFrameReceive _ _ => exact inv_execCanFrameReceive h t ht
  | signalTimeout _ => exact inv_execSignalTimeout h t ht
  | txMessageDue _ => exact inv_execTxMessageDue h t ht
  | canTxComplete _ _ _ => exact inv_execCanTxComplete h t ht
  | canTxRetry _ _ _ _ => exact inv_execCanTxRetry h t ht
  | hoqLimit _ => exact inv_execHoqLimit h t ht
  | busOff _ _ => exact inv_execBusOff h t ht
  | busOffHoldEnd _ => exact inv_execBusOffHoldEnd h t ht
  | busOffRecovered _ => exact inv_execBusOffRecovered h t ht
  | canRecover _ _ => exact inv_execCanRecover h t ht
  | canFlush _ _ => exact inv_execCanFlush h t ht
  | addressClaimed _ => exact inv_execAddressClaimed h t ht
  | contendingClaim _ _ _ => exact inv_execContendingClaim h t ht
  | cannotClaimSend _ => exact inv_execCannotClaimSend h t ht
  | commandedAddress _ _ _ => exact inv_execCommandedAddress h t ht
  | noAddressTimeout _ => exact inv_execNoAddressTimeout h t ht
  | j1939Transport _ _ => exact inv_execJ1939Transport h t ht
  | dm1Send _ _ => exact inv_execDm1Send h t ht
  | canSleep _ => exact inv_execCanSleep h t ht
  | txsNoclaimPolicy _ => exact inv_execTxsNoclaimPolicy h t ht
  | ethLinkChange _ _ _ => exact inv_execEthLinkChange h t ht
  | ptpForeign _ => exact inv_execPtpForeign h t ht
  | ptpSync _ => exact inv_execPtpSync h t ht
  | tlsHandshake _ _ _ => exact inv_execTlsHandshake h t ht
  | fleetConnect => exact inv_execFleetConnect h t ht
  | fleetDisconnect _ => exact inv_execFleetDisconnect h t ht
  | reconnectAttempt _ => exact inv_execReconnectAttempt h t ht
  | fleetReconnect _ => exact inv_execFleetReconnect h t ht
  | ntripReconnect _ => exact inv_execNtripReconnect h t ht
  | tileSync _ => exact inv_execTileSync h t ht
  | fleetInbound _ => exact inv_execFleetInbound h t ht
  | uoffer _ capacity arrival => exact inv_execUoffer (x1 := capacity) (x2 := arrival) h t ht
  | uend _ reason => exact inv_execUend (x1 := reason) h t ht
  | tget _ _ _ _ => exact inv_execTget h t ht
  | cfgRequest _ _ => exact inv_execCfgRequest h t ht
  | cartPos _ _ _ _ _ _ _ _ => exact inv_execCartPos h t ht
  | puback _ _ => exact inv_execPuback h t ht
  | periodicPublish _ _ _ => exact inv_execPeriodicPublish h t ht
  | ureqLapse => exact inv_execUreqLapse h t ht
  | publicationExpire => exact inv_execPublicationExpire h t ht
  | ntripReply _ _ => exact inv_execNtripReply h t ht
  | ntripSilence => exact inv_execNtripSilence h t ht
  | ggaSend => exact inv_execGgaSend h t ht
  | cfgBegin _ _ => exact inv_execCfgBegin h t ht
  | stage _ _ _ => exact inv_execStage h t ht
  | commit _ _ _ => exact inv_execCommit h t ht
  | validationDone _ => exact inv_execValidationDone h t ht
  | rollback _ _ => exact inv_execRollback h t ht
  | stagingTimeout => exact inv_execStagingTimeout h t ht
  | requesterDisconnect _ => exact inv_execRequesterDisconnect h t ht
  | persistDone _ => exact inv_execPersistDone h t ht
  | baseImageWrite _ => exact inv_execBaseImageWrite h t ht
  | manifest _ => exact inv_execManifest h t ht
  | partHeader _ => exact inv_execPartHeader h t ht
  | partPayload _ => exact inv_execPartPayload h t ht
  | receptionTimeout => exact inv_execReceptionTimeout h t ht
  | updAbandon => exact inv_execUpdAbandon h t ht
  | updateActivate _ => exact inv_execUpdateActivate h t ht
  | updateConfirm => exact inv_execUpdateConfirm h t ht
  | updateFallback _ => exact inv_execUpdateFallback h t ht
  | updData _ _ _ _ => exact inv_execUpdData h t ht
  | staged _ _ _ _ => exact inv_execStaged h t ht
  | updGo _ _ _ => exact inv_execUpdGo h t ht
  | updDone _ _ => exact inv_execUpdDone h t ht
  | updCommit _ => exact inv_execUpdCommit h t ht
  | updFallbackOp _ _ => exact inv_execUpdFallbackOp h t ht
  | updLasting _ _ => exact inv_execUpdLasting h t ht
  | updConfirmed _ => exact inv_execUpdConfirmed h t ht
  | activationGoTick => exact inv_execActivationGoTick h t ht
  | activationTimeout => exact inv_execActivationTimeout h t ht
  | harvestConfirm => exact inv_execHarvestConfirm h t ht
  | powerOn => exact inv_execPowerOn h t ht
  | brownout => exact inv_execBrownout h t ht
  | external => exact inv_execExternal h t ht
  | warm _ => exact inv_execWarm h t ht
  | rstBlock _ _ => exact inv_execRstBlock h t ht
  | blockResetDone _ _ => exact inv_execBlockResetDone h t ht
  | bringupStepComplete _ => exact inv_execBringupStepComplete h t ht
  | fullService _ => exact inv_execFullService h t ht
  | louvre _ => exact inv_execLouvre h t ht
  | pwrOpen _ => exact inv_execPwrOpen h t ht
  | descend _ => exact inv_execDescend h t ht
  | ignLowTimeout => exact inv_execIgnLowTimeout h t ht
  | descentStart => exact inv_execDescentStart h t ht
  | park => exact inv_execPark h t ht
  | dieSupplyOff => exact inv_execDieSupplyOff h t ht
  | descentComplete => exact inv_execDescentComplete h t ht
  | wake _ _ _ => exact inv_execWake h t ht
  | latchMaxExpire _ => exact inv_execLatchMaxExpire h t ht
  | shutMaxExpire _ => exact inv_execShutMaxExpire h t ht
  | provision _ _ _ => exact inv_execProvision h t ht
  | secReturn _ _ => exact inv_execSecReturn h t ht
  | nonceFetch => exact inv_execNonceFetch h t ht
  | tokenPresent _ => exact inv_execTokenPresent h t ht
  | tokenExpire => exact inv_execTokenExpire h t ht
  | secHalt _ => exact inv_execSecHalt h t ht
  | haltRelease _ => exact inv_execHaltRelease h t ht
  | debugAccess _ _ => exact inv_execDebugAccess h t ht
  | interruptRaise _ => exact inv_execInterruptRaise h t ht
  | picClaim _ _ _ => exact inv_execPicClaim h t ht
  | picComplete _ _ _ => exact inv_execPicComplete h t ht
  | pendSet _ _ _ => exact inv_execPendSet h t ht
  | pendClr _ _ _ _ => exact inv_execPendClr h t ht
  | enSet _ _ _ => exact inv_execEnSet h t ht
  | enClr _ _ _ _ => exact inv_execEnClr h t ht
  | picSrcWrite _ _ _ => exact inv_execPicSrcWrite h t ht
  | edgeLatch _ => exact inv_execEdgeLatch h t ht
  | eventIntake => exact inv_execEventIntake h t ht
  | sillClr _ => exact inv_execSillClr h t ht
  | evrRdSel _ _ => exact inv_execEvrRdSel h t ht
  | evrRdArea _ _ => exact inv_execEvrRdArea h t ht
  | eventFlashWrite _ => exact inv_execEventFlashWrite h t ht
  | driveFrame _ _ => exact inv_execDriveFrame h t ht
  | dcbHoldEnd => exact inv_execDcbHoldEnd h t ht
  | supplyLoss _ _ => exact inv_execSupplyLoss h t ht
  | supplyLow _ => exact inv_execSupplyLow h t ht
  | supplyHigh _ => exact inv_execSupplyHigh h t ht
  | loadSupplyLoss => exact inv_execLoadSupplyLoss h t ht
  | appClockCap => exact inv_execAppClockCap h t ht
  | appClockRestore => exact inv_execAppClockRestore h t ht
  | caseOvertemp => exact inv_execCaseOvertemp h t ht
  | loadSupplyReturn => exact inv_execLoadSupplyReturn h t ht
  | boostFailureCleared _ => exact inv_execBoostFailureCleared h t ht
  | vlvDieCooled _ _ => exact inv_execVlvDieCooled h t ht
  | peakReachedLate _ _ => exact inv_execPeakReachedLate h t ht
  | peakNotReached _ _ => exact inv_execPeakNotReached h t ht
  | errorPassive _ _ _ _ => exact inv_execErrorPassive h t ht
  | ntripDisconnect _ => exact inv_execNtripDisconnect h t ht
  | pdelayExchange _ _ => exact inv_execPdelayExchange h t ht
  | securityCoreFatalFault => exact inv_execSecurityCoreFatalFault h t ht
  | clockFaultRecovery => exact inv_execClockFaultRecovery h t ht
  | activationRestartEnd _ _ => exact inv_execActivationRestartEnd h t ht
  | confirmCountSave => exact inv_execConfirmCountSave h t ht
  | ma20ShuntReclose _ => exact inv_execMa20ShuntReclose h t ht
  | batteryLow _ => exact inv_execBatteryLow h t ht

/-- The queue is no part of the invariant. -/
theorem inv_pending {s : State} (q : List Instr) (h : Inv s) : Inv { s with pending := q } :=
  inv_same h rfl rfl rfl rfl rfl rfl

/-- Settles O56. -/
theorem stepRunsFrontCommand : Obligations.StepRunsFrontCommand := by
  refine ⟨fun c rest s h => ?_, fun s h => ?_⟩
  · unfold step; rw [h]
  · unfold step; rw [h]

/-- Settles O59: the front command keeps the invariant, and an idle step changes nothing. -/
theorem stepKeepsInvariant : Obligations.StepKeepsInvariant := by
  obtain ⟨hFront, hIdle⟩ := stepRunsFrontCommand
  intro s t h hstep
  cases hq : s.pending with
  | nil =>
    rw [hIdle s hq] at hstep
    cases hstep
    exact h
  | cons c rest =>
    rw [hFront c rest s hq] at hstep
    exact inv_exec (inv_pending rest h) hstep

end Sys2Proof.Machine
end

section
/-!
Every command completes (O58).
-/
open Sys2Proof
namespace Sys2Proof.Machine

theorem completes_next (t : State) : ∃ u, (.next t : Out) = .next u := ⟨t, rfl⟩

/-- A branch on a guard completes when both of its answers do. -/
theorem completes_ite {p : Prop} [Decidable p] {a b : Out} (ha : ∃ t, a = .next t) (hb : ∃ t, b = .next t) :
    ∃ t, (if p then a else b) = .next t := by
  split
  · exact ha
  · exact hb

/-- The cost of a frame is judged only where its sample waits. -/
theorem execCostFrame_completes (frame : Nat) (s : State) : ∃ t, execCostFrame frame s = .next t := by
  unfold execCostFrame
  cases s.swg.samples.find? fun x => x.frame == frame && appOn s with
  | none => exact completes_next s
  | some x => exact completes_ite (completes_next _) (completes_next _)

/-- Every command answers a next state: its meaning is a next state outright, or branches on one guard, on several, or
on what the state holds for it, and every branch ends in a next state. -/
theorem exec_completes (c : Instr) (s : State) : ∃ t, exec c s = .next t := by
  cases c with
  -- a next state outright
  | registerWrite | rcFieldRead | channelRecovered | warmupEnd | jambSelect | testGuA | testGuB | scrubPass |
    clkTickRead | budgetDecision | rtcmCanFrame | fleetInbound | uoffer | uend | tget | cartPos |
    publicationExpire | cfgBegin | stage | commit | rollback | powerOn | brownout | interruptRaise | pendSet |
    pendClr | enSet | enClr | ma20ShuntReclose =>
    exact completes_next _
  -- one guard
  | busErrorAccess | paneDeadline | dropFrame | linkSilence | mismatchGiveUp | laneFault | recoveryComplete |
    takeBack | hingeNow | holdWindowEnd | frameBoundary | mailboxPost | sramAccessViolation | eccError |
    holdoverEntry | holdoverLimit | stepSettle | leapSecond | alignReached | alignLost | lockRequest |
    unlockRequest | quadIllegalTransition | uinFault | uinFaultCleared | edgeTimeout | indexMissing |
    indexEdge | lossSilent | flowZero | loadClr | snapReq | swgDisable | swgRestart | ditherEnd |
    boostDecision | boostRequestRefused | boostEnd | peakEnd | motionKink | motionTimeout | vlvOpenLoad |
    vlvOvercurrent | holdCurrentLow | boostConverterFailure | vlvDieOvertemp | propCurrentFault | vlvClr |
    switchOnRefused | arbiterChange | pswShort | pswOverload | dtLimit | junctionOvertemp | pswOpenLoad |
    caseRise | pswRetry | pswClr | clampPulse | clampLockRelease | antennaShort | antennaTrial | antennaOpen |
    antennaOk | antRetry | coldStartRequest | ant1Substitute | ant0Restore | notchRelease | gnssEpoch |
    bandReturn | dumpLatch | ncoWrite | lockLoss | gnsSolRead | corrSourceSwitch | corrAgeOut | frameLate |
    portAbsent | camLinkDown | exposureCommand | ispShadowWrite | lidarSweep | resultIssue | fusResRead |
    disengage | guidanceFallback | unlStop | mapUpdateBoundary | tileLoaded | journalNow | kerReset |
    fieldClose | tileExport | fieldDelete | presencePoll | periodicReauth | reauth | counterWrite | ecnilFrame
    | ecnRefuse | ecnSet | ecnAck | ecnStep | ecnLeap | ecnReset | ecnMode | abortCheck | genCheck |
    managerListenEnd | joinSend | joinTimeout | refusedTimeout | hoqLimit | busOff | busOffHoldEnd |
    busOffRecovered | canRecover | canFlush | addressClaimed | cannotClaimSend | commandedAddress |
    noAddressTimeout | dm1Send | ptpSync | fleetConnect | fleetReconnect | ntripReconnect | tileSync |
    ntripSilence | ggaSend | baseImageWrite | receptionTimeout | updGo | updDone | updCommit | updFallbackOp |
    updLasting | updConfirmed | activationTimeout | harvestConfirm | external | warm | fullService | louvre |
    descend | ignLowTimeout | latchMaxExpire | shutMaxExpire | nonceFetch | tokenExpire | picSrcWrite |
    sillClr | evrRdArea | eventFlashWrite | driveFrame | supplyLoss | supplyLow | supplyHigh | loadSupplyLoss
    | appClockCap | caseOvertemp | loadSupplyReturn | boostFailureCleared | vlvDieCooled | peakReachedLate |
    peakNotReached | ntripDisconnect | securityCoreFatalFault | clockFaultRecovery | confirmCountSave |
    batteryLow =>
    exact completes_ite (completes_next _) (completes_next _)
  -- guards within guards
  | commandFrame | recoveryStepFail | switchTick | hingeSwapDue | hingeSwapEnd | clockMonitorFault |
    lossImpact | flowZeroDone | swgEnable | steadyReached | leaseLost | trackingLoopPeriod | tp0Edge |
    streamFrame | engage | resume | unlReq | unlConfirm | announce | join | ecnAdmit | commitMessage |
    portDown | portUp | workerResetRequest | rejoin | claimsEnable | canFrameReceive | ethLinkChange |
    ptpForeign | tlsHandshake | fleetDisconnect | reconnectAttempt | periodicPublish | ntripReply | manifest |
    partHeader | updAbandon | updateActivate | updateConfirm | updateFallback | staged | rstBlock | pwrOpen |
    descentStart | wake | provision | secReturn | tokenPresent | edgeLatch | errorPassive | pdelayExchange |
    activationRestartEnd =>
    repeat' apply completes_ite
    all_goals exact completes_next _
  | costFrame frame => exact execCostFrame_completes frame s
  -- a choice by what waits in the state, or by an operand, with guards within
  | tickEdge | recoveryStepDone | noclaimPolicy | snapDone | swingUpdate | setPost | setMissed |
    operatorSetpoint | inrushEnd | notchEngage | searchComplete | navDataSave | coastExpire | solutionReady |
    rtcmMessage | statsWritten | lateSample | unloadEndingDone | mapUpdateProcess | journalCommit |
    authentication | joinTick | joinWaitExpire | joinLate | signalTimeout | txMessageDue | canTxComplete |
    canTxRetry | contendingClaim | j1939Transport | canSleep | txsNoclaimPolicy | cfgRequest | puback |
    ureqLapse | validationDone | stagingTimeout | requesterDisconnect | persistDone | partPayload | updData |
    activationGoTick | blockResetDone | bringupStepComplete | park | dieSupplyOff | descentComplete | secHalt
    | haltRelease | debugAccess | picClaim | picComplete | eventIntake | evrRdSel | dcbHoldEnd |
    appClockRestore =>
    dsimp only [exec, execTickEdge, execRecoveryStepDone, execNoclaimPolicy, execSnapDone, execSwingUpdate,
      execSetPost, execSetMissed, execOperatorSetpoint, execInrushEnd, execNotchEngage, execSearchComplete,
      execNavDataSave, execCoastExpire, execSolutionReady, execRtcmMessage, execStatsWritten,
      execLateSample, execUnloadEndingDone, execMapUpdateProcess, execJournalCommit, execAuthentication,
      execJoinTick, execJoinWaitExpire, execJoinLate, execSignalTimeout, execTxMessageDue,
      execCanTxComplete, execCanTxRetry, execContendingClaim, execJ1939Transport, execCanSleep,
      execTxsNoclaimPolicy, execCfgRequest, execPuback, execUreqLapse, execValidationDone,
      execStagingTimeout, execRequesterDisconnect, execPersistDone, execPartPayload, execUpdData,
      execActivationGoTick, execBlockResetDone, execBringupStepComplete, execPark, execDieSupplyOff,
      execDescentComplete, execSecHalt, execHaltRelease, execDebugAccess, execPicClaim, execPicComplete,
      execEventIntake, execEvrRdSel, execDcbHoldEnd, execAppClockRestore]
    repeat' split
    all_goals exact completes_next _

/-- Settles O58. -/
theorem everyCommandCompletes : Obligations.EveryCommandCompletes := exec_completes

end Sys2Proof.Machine
end

section
/-!
The bring-up sequence (O49).
-/
open Sys2Proof
namespace Sys2Proof.Machine

/-- Step 1 of the bring-up, where it is under way: it ends, the recorder starts, and 0xC101 is recorded (R418). -/
theorem exec_bringup_kal {s : State} (us : Nat) (hnext : s.rst.next = 1) (hstuck : s.rst.stuck = false)
    (hpwr : pwrState s < 2) :
    exec (.bringupStepComplete (.kal us)) s
      = .next ((startRecorder (doneStep 1 us s)).ev 0xC101 0
        ((startRecorder (doneStep 1 us s)).get fRST_CAUSE_SRC)) := by
  have hrun : ¬ (s.rst.stuck || decide (2 ≤ pwrState s)) = true := by simp [hstuck]; omega
  exact (if_neg hrun).trans (if_neg (not_not_intro hnext))

/-- A start at the end of its step 1, with every one of the 256 entries of the intake queue taken. -/
def kalFullIntake : State :=
  { State.reset with
    evr := { Evr.init with intake := List.replicate 256 ⟨0x1052, 0, 0, f16NaN, f16NaN, 0, 0⟩ } }

/-- Refutes O49: its clause of step 1 keeps EVR_LOST without asking for room in the intake queue. The recorder accepts
events from the end of step 1 on (R461), and where its queue is full, the 0xC101 of that step is lost and
counted. -/
theorem not_bringUpSequence : ¬ Obligations.BringUpSequence := by
  rintro ⟨stepKal, -⟩
  have hnext : kalFullIntake.rst.next = 1 := rfl
  have hstuck : kalFullIntake.rst.stuck = false := rfl
  have hpwr : pwrState kalFullIntake < 2 := by decide
  obtain ⟨t, hexec, -, -, -, -, -, -, -, -, -, hkeep⟩ := stepKal kalFullIntake 0 hnext hstuck hpwr
  have hlost : t.rd fEVR_LOST.addr = kalFullIntake.rd fEVR_LOST.addr := hkeep.regs _ (by decide)
  rw [exec_bringup_kal 0 hnext hstuck hpwr] at hexec
  rw [← Host.Outcome.next.inj hexec] at hlost
  have hcounts : ((startRecorder (doneStep 1 0 kalFullIntake)).ev 0xC101 0
      ((startRecorder (doneStep 1 0 kalFullIntake)).get fRST_CAUSE_SRC)).rd fEVR_LOST.addr = 1#32 := by decide +kernel
  have hzero : kalFullIntake.rd fEVR_LOST.addr = 0#32 := by decide +kernel
  rw [hcounts, hzero] at hlost
  exact absurd hlost (by decide)

end Sys2Proof.Machine
end

section
/-!
What a command changes, built up one operation at a time: the parts of the state that stay, and the fields and events
that a run of writes and records leaves behind.
-/
open Sys2Proof
namespace Sys2Proof.Machine

variable {s t u : State} {ps qs : List Part}

/-! ## Parts -/

theorem PartsBut.trans (h : PartsBut s t ps) (h' : PartsBut t u ps) : PartsBut s u ps := by
  intro p hp
  have hst := h p hp
  have htu := h' p hp
  cases p <;> exact Eq.trans htu hst

theorem PartsBut.mono (h : PartsBut s t ps) (hsub : ps ⊆ qs) : PartsBut s t qs :=
  fun p hp => h p fun hin => hp (hsub hin)

theorem partsBut_refl (s : State) : PartsBut s s ps := fun p _ => by cases p <;> rfl

theorem partsBut_wr (s : State) (a : Nat) (w : Word) : PartsBut s (s.wr a w) ps := fun p _ => by cases p <;> rfl

theorem partsBut_evr (s : State) (v : Evr) : PartsBut s { s with evr := v } ps := fun p _ => by cases p <;> rfl

theorem partsBut_bus (s : State) (b : BusAnswer) : PartsBut s { s with bus := b } [.bus] := by
  intro p hp
  cases p
  case bus => exact absurd (List.mem_singleton_self _) hp
  all_goals rfl

/-- An event changes the recorder, and where its queue is full the recorder's registers, and no other part (R461). -/
theorem partsBut_push (s : State) (e : Ev) : PartsBut s (s.push e) ps := by
  unfold State.push
  split
  · exact partsBut_refl s
  · split
    · exact partsBut_evr s _
    · exact (partsBut_evr s _).trans ((partsBut_wr _ _ _).trans (partsBut_wr _ _ _))

theorem records_nil (h : t.evr = s.evr) : Records s t [] := by
  unfold Records
  rw [h, List.append_nil]

/-! ## Fields and events -/

/-- The event that a state stamps follows its clock alone. -/
theorem evOf_congr (h : t.clk = s.clk) (code src flags : Nat) (mn mx : F16) :
    t.evOf code src flags mn mx = s.evOf code src flags mn mx := by
  unfold State.evOf State.now
  rw [h]

theorem wordAfter_concat (s : State) (ws : List (Fld × Nat)) (f : Fld) (v a : Nat) :
    wordAfter s (ws ++ [(f, v)]) a = if f.addr = a then fldPut f (wordAfter s ws a) v else wordAfter s ws a :=
  List.foldl_append

variable {ws : List (Fld × Nat)} {es : List Ev}

theorem does_refl (s : State) : Does s s [] [] ps where
  regs := fun _ => rfl
  mem := fun _ => rfl
  evs := records_nil rfl
  parts := partsBut_refl s

theorem Does.mono (h : Does s t ws es ps) (hsub : ps ⊆ qs) : Does s t ws es qs := { h with parts := h.parts.mono hsub }

/-- A field written after an effect joins its list of fields. -/
theorem Does.put (h : Does s t ws es ps) (f : Fld) (v : Nat) : Does s (t.put f v) (ws ++ [(f, v)]) es ps where
  regs := fun a => by rw [rd_put, wordAfter_concat, h.regs a]
  mem := h.mem
  evs := h.evs
  parts := h.parts.trans (partsBut_wr t _ _)

/-- An event recorded after an effect, with room for it, joins its list of events, stamped with the time of the state
before, where the effect leaves clock and bring-up alone. -/
theorem Does.ev (h : Does s t ws es ps) (hclk : Part.clk ∉ ps) (hrst : Part.rst ∉ ps) (hroom : Room s (es.length + 1))
    (code : Nat) (src flags : Nat := 0) :
    Does s (t.ev code src flags) ws (es ++ [s.evOf code src flags]) ps := by
  have hroomt : Room t 1 := by
    refine ⟨(congrArg Rst.next (h.parts .rst hrst)).symm ▸ hroom.1, ?_⟩
    rw [h.evs, List.length_append]
    have := hroom.2
    omega
  have hev : t.ev code src flags
      = { t with evr := { t.evr with intake := t.evr.intake ++ [s.evOf code src flags] } } := by
    rw [← evOf_congr (h.parts .clk hclk)]
    exact push_room hroomt _
  rw [hev]
  exact {
    regs := h.regs
    mem := h.mem
    evs := by unfold Records; rw [h.evs, List.append_assoc]
    parts := h.parts.trans (partsBut_evr t _) }

/-- An access has its answer on the bus beside its effect. -/
theorem Does.bus (h : Does s t ws es ps) (hbus : Part.bus ∈ ps) (b : BusAnswer) :
    Does s { t with bus := b } ws es ps where
  regs := h.regs
  mem := h.mem
  evs := h.evs
  parts := h.parts.trans ((partsBut_bus t b).mono (List.cons_subset.mpr ⟨hbus, List.nil_subset _⟩))

end Sys2Proof.Machine
end

section
/-!
Accesses that end in errors (O2).
-/
open Sys2Proof
namespace Sys2Proof.Machine

variable {s : State}

/-- The fields that an ECC error changes: the count one up, and its event bit (R32). -/
def eccFields (s : State) (double : Bool) : List (Fld × Nat) :=
  if double then [(fSYS_ECC_DB, s.up fSYS_ECC_DB), (fSYS_EVT_ECC_DB, 1)]
  else [(fSYS_ECC_SB, s.up fSYS_ECC_SB), (fSYS_EVT_ECC_SB, 1)]

/-- The record of an ECC error: its source is the holder in SRAM, the range in DRAM (R31, R32). -/
def eccRecord (s : State) (a : Nat) (double : Bool) (scrub : Nat) : Ev :=
  if inSram a = true then s.evOf (0x1020 + (if double then 1 else 0)) (sramHolder a) scrub
  else s.evOf (0x1022 + (if double then 1 else 0)) (dramRange a) scrub

theorem noteEcc_does (a : Nat) (double : Bool) (scrub : Nat) (hroom : Room s 1) :
    Does s (noteEcc a double scrub s) (eccFields s double) [eccRecord s a double scrub] [] := by
  have hcount : Does s (if double then (s.inc fSYS_ECC_DB).putBit fSYS_EVT_ECC_DB true
      else (s.inc fSYS_ECC_SB).putBit fSYS_EVT_ECC_SB true) (eccFields s double) [] [] := by
    cases double
    · exact ((does_refl s).put fSYS_ECC_SB (s.up fSYS_ECC_SB)).put fSYS_EVT_ECC_SB 1
    · exact ((does_refl s).put fSYS_ECC_DB (s.up fSYS_ECC_DB)).put fSYS_EVT_ECC_DB 1
  unfold noteEcc eccRecord
  dsimp only
  by_cases hin : inSram a = true
  · rw [if_pos hin, if_pos hin]
    exact hcount.ev List.not_mem_nil List.not_mem_nil hroom _ _ _
  · rw [if_neg hin, if_neg hin]
    exact hcount.ev List.not_mem_nil List.not_mem_nil hroom _ _ _

/-- Outside lane SRAM an ECC error is no fault of a lane. -/
theorem eccLane_of_shared {a : Nat} (h : 0x200000 ≤ a) (double : Bool) (s : State) : eccLane a double s = s := by
  have : ¬ a < 0x200000 := by omega
  simp [eccLane, this]

/-- A double-bit error in lane SRAM is a fault of that lane, with reason 4 (R30). -/
theorem eccLane_of_lane {a : Nat} (h : a < 0x200000) (s : State) : eccLane a true s = laneFault (a / 0x100000) 4 s := by
  simp [eccLane, h]

theorem not_outside_memory {a : Nat} (h : inSram a = true ∨ inDram a = true) : ¬ (!inSram a && !inDram a) = true := by
  rcases h with h | h <;> simp [h]

theorem inSram_of_lane {a : Nat} (h : a < 0x200000) : inSram a = true := by
  simp [inSram]
  omega

/-- A read that finds an error where there is memory. -/
theorem exec_eccError (req : Req) {a : Nat} (double : Bool) (h : inSram a = true ∨ inDram a = true) :
    exec (.eccError req a double) s = .next
      (if double && !decide (a < 0x200000) then (eccLane a double (noteEcc a double 0 s)).busError
       else eccLane a double (noteEcc a double 0 s)) := if_neg (not_outside_memory h)

/-- One finding of the scrubber, where there is memory. -/
theorem exec_scrubPass_one {a : Nat} (double : Bool) (h : inSram a = true ∨ inDram a = true) :
    exec (.scrubPass [(a, double)]) s = .next (eccLane a double (noteEcc a double 1 s)) := by
  have hin : (inSram a || inDram a) = true := by simpa using h
  exact congrArg Host.Outcome.next (if_pos hin)

/-- An SRAM access outside the rights of a requester with a code. -/
theorem exec_sramAccessViolation {req : Req} {a : Nat} {w : Bool} (hin : inSram a = true)
    (hmay : sramMay req (sramHolder a) w = false) (hreq : req ≠ .keyhole) :
    exec (.sramAccessViolation req a w) s
      = .next ((s.busError.putBit fSYS_EVT_BUS_ERR true).ev 0x1030 (reqBank req) (sramHolder a)) := by
  have hkey : (req == Req.keyhole) = false := by simpa using hreq
  exact if_neg (by simp [hin, hmay, hkey])

/-- Settles O2: every clause is the command's answer, with its effect built up from the writes and the record. -/
theorem accessErrors : Obligations.AccessErrors := by
  refine ⟨?busErr, ?sramViol, ?sramOk, ?eccSingle, ?eccDouble, ?eccLaneSram, ?scrubOne, ?scrubMore⟩
  case busErr =>
    intro s req a w hspace hreg
    exact ⟨s.busError, if_pos (by simp [hspace, hreg]), rfl⟩
  case sramViol =>
    intro s req a w hin hmay hreq hroom
    refine ⟨_, exec_sramAccessViolation hin hmay hreq, ?_, ?_⟩
    · exact partsBut_push (ps := []) _ _ .bus List.not_mem_nil
    · exact (((does_refl s).bus (by decide) _).put fSYS_EVT_BUS_ERR 1).ev (by decide) (by decide) hroom _ _ _
  case sramOk =>
    intro s req a w hmay
    exact ⟨s, if_pos (by simp [hmay]), rfl⟩
  case eccSingle =>
    intro s req a hmem hroom
    exact ⟨_, exec_eccError req false hmem, noteEcc_does a false 0 hroom⟩
  case eccDouble =>
    intro s req a hmem hshared hroom
    have hne : (true && !decide (a < 0x200000)) = true := by simpa using hshared
    refine ⟨_, exec_eccError req true hmem, ?_⟩
    rw [if_pos hne, eccLane_of_shared hshared]
    exact ⟨rfl, ((noteEcc_does a true 0 hroom).mono (List.nil_subset _)).bus (by decide) _⟩
  case eccLaneSram =>
    intro s req a hlane hroom
    have hin := inSram_of_lane hlane
    have hdoes := noteEcc_does a true 0 hroom
    rw [eccRecord, if_pos hin] at hdoes
    refine ⟨_, exec_eccError req true (.inl hin), noteEcc a true 0 s, ?_, hdoes⟩
    rw [if_neg (by simp [hlane]), eccLane_of_lane hlane]
  case scrubOne =>
    intro s a d hmem hshared hroom
    refine ⟨_, exec_scrubPass_one d hmem, ?_⟩
    rw [eccLane_of_shared hshared]
    exact noteEcc_does a d 1 hroom
  case scrubMore =>
    intro s f fs
    exact ⟨_, rfl, _, rfl, rfl⟩

end Sys2Proof.Machine
end

section
/-!
Register writes and reads (O1).
-/
open Sys2Proof
namespace Sys2Proof.Machine

variable {s t u : State}

/-! ## Commands that change registers alone -/

/-- `t` is `s` but for the registers of `as`: no other register, byte of memory, event or other part differs. -/
structure OnlyRegs (s t : State) (as : List Nat) : Prop where
  regs : ∀ b, b ∉ as → t.rd b = s.rd b
  mem : SameMem s t
  evs : Records s t []
  parts : PartsBut s t []

theorem onlyRegs_wr (s : State) (a : Nat) (w : Word) : OnlyRegs s (s.wr a w) [a] where
  regs := fun _ hb => rd_wr_other s w (List.ne_of_not_mem_cons hb)
  mem := fun _ => rfl
  evs := records_nil rfl
  parts := partsBut_wr s a w

/-- After a write of one register, a write of another adds that one to what differs. -/
theorem onlyRegs_wr_wr (s : State) (a a' : Nat) (w w' : Word) : OnlyRegs s ((s.wr a w).wr a' w') [a, a'] where
  regs := fun b hb => by
    rw [List.mem_cons, List.mem_singleton, not_or] at hb
    rw [rd_wr_other _ w' hb.2, rd_wr_other s w hb.1]
  mem := fun _ => rfl
  evs := records_nil rfl
  parts := (partsBut_wr s a w).trans (partsBut_wr _ a' w')

/-! ## Words under their access codes -/

/-- The bits of a word written under its access codes (R8, R9). -/
theorem mergeWord_getLsbD (d : RegDesc) (old v hw : Word) (i : Nat) :
    (mergeWord d old v hw).getLsbD i
      = (((if (BitVec.ofNat 32 d.rw).getLsbD i then v.getLsbD i else old.getLsbD i)
        && !(v.getLsbD i && (BitVec.ofNat 32 d.w1c).getLsbD i))
        || (hw.getLsbD i && (BitVec.ofNat 32 d.w1c).getLsbD i)) := by
  by_cases hi : i < 32
  · unfold mergeWord
    simp only [BitVec.getLsbD_or, BitVec.getLsbD_and, BitVec.getLsbD_not, hi, decide_true, Bool.true_and]
    cases (BitVec.ofNat 32 d.rw).getLsbD i <;> simp
  · have hge : 32 ≤ i := Nat.le_of_not_lt hi
    simp [BitVec.getLsbD_of_ge _ _ hge]

/-- Where the low bits of a word are RW, a field within them takes the value written. -/
theorem fldOf_mergeWord_low {d : RegDesc} {k : Nat} (hk : k ≤ 32) (hrw : d.rw = 2 ^ k - 1) (hw1c : d.w1c = 0) (f : Fld)
    (hf : f.lo + fldWidth f ≤ k) (old v hw : Word) : fldOf f (mergeWord d old v hw) = fldOf f v := by
  apply Nat.eq_of_testBit_eq
  intro i
  rw [fldOf_testBit, fldOf_testBit]
  by_cases hi : i < fldWidth f
  · have hbit : (BitVec.ofNat 32 d.rw).getLsbD (f.lo + i) = true := by
      rw [hrw, BitVec.getLsbD_ofNat, Nat.testBit_two_pow_sub_one]
      simp
      omega
    simp [mergeWord_getLsbD, hbit, hw1c]
  · simp [hi]

theorem fldOf_lt (f : Fld) (w : Word) : fldOf f w < 2 ^ fldWidth f := Nat.mod_lt _ (Nat.two_pow_pos _)

/-- A field put into a word as it stood in another reads so there. -/
theorem fldOf_put_fldOf (f : Fld) (w old : Word) (h : f.lo + fldWidth f ≤ 32) :
    fldOf f (fldPut f w (fldOf f old)) = fldOf f old := by
  rw [fldOf_put_same f w _ h, Nat.mod_eq_of_lt (fldOf_lt f old)]

theorem fldOf_keepField_same (f : Fld) (ok : Nat → Bool) (old w : Word) (h : f.lo + fldWidth f ≤ 32) :
    fldOf f (keepField f ok old w) = if ok (fldOf f w) then fldOf f w else fldOf f old := by
  unfold keepField
  split
  · rfl
  · exact fldOf_put_fldOf f w old h

/-- Two fields have no common bit. -/
abbrev Fld.Apart (f g : Fld) : Prop := f.lo + fldWidth f ≤ g.lo ∨ g.lo + fldWidth g ≤ f.lo

theorem fldOf_keepField_disjoint (f g : Fld) (ok : Nat → Bool) (old w : Word) (h : f.Apart g) :
    fldOf g (keepField f ok old w) = fldOf g w := by
  unfold keepField
  split
  · rfl
  · exact fldOf_put_disjoint f g w _ h

/-! ## The register write -/

/-- The word that a register holds after a write to it. -/
def wordWritten (req : Req) (a : Nat) (v hw : Word) (s : State) : Word :=
  if mayWrite req a && !ownRow a then legalWord a (s.rd a) (mergeWord (descOf a) (s.rd a) v hw)
  else s.rd a ||| (hw &&& BitVec.ofNat 32 (descOf a).w1c)

section
variable {req : Req} {a : Nat} {v hw : Word}

theorem writeReg_of_none (h : regAddrOk a = false) : writeReg req a v hw s = s.busError := if_pos (by simp [h])

theorem writeReg_of_held (hok : regAddrOk a = true) (hheld : heldZero s a = true) : writeReg req a v hw s = s := by
  unfold writeReg
  rw [if_neg (by simp [hok]), if_pos hheld]

/-- A write that reaches its register: the count of tracking channels follows a write to one of them (R234). -/
theorem writeReg_of_live (hok : regAddrOk a = true) (hheld : heldZero s a = false) :
    writeReg req a v hw s = if inDims 0x40091000 [(0x40, 384)] a then showNtrk (s.wr a (wordWritten req a v hw s))
      else s.wr a (wordWritten req a v hw s) := by
  unfold writeReg
  rw [if_neg (by simp [hok]), if_neg (by simp [hheld])]
  rfl

theorem wordWritten_of_right (hmay : mayWrite req a = true) (hown : ownRow a = false) :
    wordWritten req a v hw s = legalWord a (s.rd a) (mergeWord (descOf a) (s.rd a) v hw) :=
  if_pos (by simp [hmay, hown])

theorem wordWritten_of_noRight (h : mayWrite req a = false ∨ ownRow a = true) :
    wordWritten req a v hw s = s.rd a ||| (hw &&& BitVec.ofNat 32 (descOf a).w1c) :=
  if_neg (by rcases h with h | h <;> simp [h])

/-- A write changes its own register and the count of tracking channels, and no other. -/
theorem writeReg_onlyRegs (hok : regAddrOk a = true) (hheld : heldZero s a = false) :
    OnlyRegs s (writeReg req a v hw s) [a, fGNS_STATUS_NTRK.addr] := by
  rw [writeReg_of_live hok hheld]
  split
  · exact onlyRegs_wr_wr s a _ _ _
  · exact { onlyRegs_wr s a _ with
      regs := fun b hb => rd_wr_other s _ (List.ne_of_not_mem_cons hb) }

theorem ne_ntrk_of_trk (h : inDims 0x40091000 [(0x40, 384)] a = true) : a ≠ fGNS_STATUS_NTRK.addr := by
  rintro rfl
  exact absurd h (by decide)

theorem rd_writeReg (hok : regAddrOk a = true) (hheld : heldZero s a = false) :
    (writeReg req a v hw s).rd a = wordWritten req a v hw s := by
  rw [writeReg_of_live hok hheld]
  split
  · next htrk =>
    unfold showNtrk State.put
    rw [rd_wr_other _ _ (ne_ntrk_of_trk htrk), rd_wr_same]
  · exact rd_wr_same s a _

theorem get_writeReg (hok : regAddrOk a = true) (hheld : heldZero s a = false) (f : Fld) (hf : f.addr = a) :
    (writeReg req a v hw s).get f = fldOf f (wordWritten req a v hw s) := by
  unfold State.get
  rw [hf, rd_writeReg hok hheld]

/-- On the wide module no register is held in reset (R3, R14). -/
theorem heldZero_of_wide (hwide : s.wide = true) (a : Nat) : heldZero s a = false := by simp [heldZero, hwide]

/-- Where the register is no tracking channel's, a write changes it alone. -/
theorem writeReg_onlyRegs_plain (hok : regAddrOk a = true) (hheld : heldZero s a = false)
    (htrk : inDims 0x40091000 [(0x40, 384)] a = false) : OnlyRegs s (writeReg req a v hw s) [a] := by
  rw [writeReg_of_live hok hheld, if_neg (by simp [htrk])]
  exact onlyRegs_wr s a _

end

theorem legalWord_of_plain {a : Nat} (hpnl : a ≠ fPNL_CFG.addr) (htrk : inDims 0x40091000 [(0x40, 384)] a = false)
    (old w : Word) : legalWord a old w = w := by
  unfold legalWord
  rw [if_neg hpnl, if_neg (by simp [htrk])]

/-! ## PNL_CFG (R480) -/

theorem descOf_pnlCfg : descOf fPNL_CFG.addr = ⟨fPNL_CFG.addr, [], 0xFFF, 0, 0, 0⟩ := by decide

theorem mayWrite_pnlCfg {req : Req} (h : reqIsOem req = false) : mayWrite req fPNL_CFG.addr = true := by
  unfold mayWrite
  rw [if_neg (by decide), if_neg (by simp [h]), if_neg (by simp [inPage]), if_neg (by decide)]

theorem heldZero_pnlCfg (s : State) : heldZero s fPNL_CFG.addr = false := by
  simp [heldZero, inPage]

/-- The two limited fields of PNL_CFG take a legal value and refuse any other. -/
theorem legalWord_pnlCfg (old w : Word) :
    fldOf fPNL_CFG_VLCD (legalWord fPNL_CFG.addr old w)
        = (if 27 ≤ fldOf fPNL_CFG_VLCD w ∧ fldOf fPNL_CFG_VLCD w ≤ 50 then fldOf fPNL_CFG_VLCD w
          else fldOf fPNL_CFG_VLCD old)
      ∧ fldOf fPNL_CFG_DCB_LIM (legalWord fPNL_CFG.addr old w)
        = (if 1 ≤ fldOf fPNL_CFG_DCB_LIM w then fldOf fPNL_CFG_DCB_LIM w else fldOf fPNL_CFG_DCB_LIM old) := by
  unfold legalWord
  rw [if_pos rfl]
  constructor
  · rw [fldOf_keepField_disjoint _ _ _ _ _ (by decide), fldOf_keepField_same _ _ _ _ (by decide)]
    simp only [Bool.and_eq_true, decide_eq_true_eq]
  · rw [fldOf_keepField_same _ _ _ _ (by decide), fldOf_keepField_disjoint _ _ _ _ _ (by decide)]
    simp only [decide_eq_true_eq]

/-- What a write leaves in the two limited fields of PNL_CFG. -/
theorem wordWritten_pnlCfg {req : Req} {v hw : Word} (hoem : reqIsOem req = false) :
    fldOf fPNL_CFG_VLCD (wordWritten req fPNL_CFG.addr v hw s)
        = (if 27 ≤ v.toNat % 64 ∧ v.toNat % 64 ≤ 50 then v.toNat % 64 else s.get fPNL_CFG_VLCD)
      ∧ fldOf fPNL_CFG_DCB_LIM (wordWritten req fPNL_CFG.addr v hw s)
        = (if fldOf fPNL_CFG_DCB_LIM v = 0 then s.get fPNL_CFG_DCB_LIM else fldOf fPNL_CFG_DCB_LIM v) := by
  have hv : fldOf fPNL_CFG_VLCD v = v.toNat % 64 := by simp [fldOf, fldWidth]
  obtain ⟨hvlcd, hlim⟩ := legalWord_pnlCfg (s.rd fPNL_CFG.addr)
    (mergeWord (descOf fPNL_CFG.addr) (s.rd fPNL_CFG.addr) v hw)
  rw [descOf_pnlCfg, fldOf_mergeWord_low (k := 12) (by decide) rfl rfl _ (by decide)] at hvlcd hlim
  rw [wordWritten_of_right (mayWrite_pnlCfg hoem) (by decide), descOf_pnlCfg]
  refine ⟨?_, ?_⟩
  · rw [hvlcd, hv]
    rfl
  · rw [hlim]
    by_cases hz : fldOf fPNL_CFG_DCB_LIM v = 0
    · rw [if_pos hz, if_neg (by omega)]
      rfl
    · rw [if_neg hz, if_pos (by omega)]

/-! ## The configuration word of a tracking channel (R218, R234, R235) -/

section
variable (c : Fin 384)

theorem inDims_trkCfg : inDims 0x40091000 [(0x40, 384)] (fGNS_TRK_CFG_EN c).addr = true := by
  have := c.isLt
  simp [inDims]

theorem regAddrOk_trkCfg : regAddrOk (fGNS_TRK_CFG_EN c).addr = true := by
  have := c.isLt
  simp only [regAddrOk, blockCount, Bool.and_eq_true, beq_iff_eq]
  exact ⟨⟨decide_eq_true (by omega), decide_eq_true (by omega)⟩, by omega⟩

theorem trkCfg_index : ((fGNS_TRK_CFG_EN c).addr - 0x40091000) / 64 = c := by
  have := c.isLt
  simp 

theorem ownRow_trkCfg : ownRow (fGNS_TRK_CFG_EN c).addr = false := by
  have := c.isLt
  simp [ownRow, inDims]
  omega

/-- The row of the map for the configuration words of the tracking channels. -/
def trkCfgDesc : RegDesc := ⟨0x40091000, [(0x40, 384)], 0xFFFFFF, 0, 0, 0⟩

theorem descOf_trkCfg : descOf (fGNS_TRK_CFG_EN c).addr = trkCfgDesc := by
  have := c.isLt
  have hbefore : ∀ r ∈ writableBits0.take 15, inDims r.base r.dims (fGNS_TRK_CFG_EN c).addr = false := by
    simp [writableBits0, inDims]
    omega
  have hnone : (writableBits0.take 15).find? (fun r => inDims r.base r.dims (fGNS_TRK_CFG_EN c).addr) = none :=
    List.find?_eq_none.mpr fun r hr => by simp [hbefore r hr]
  have hhit : ∀ l : List RegDesc,
      (trkCfgDesc :: l).find? (fun r => inDims r.base r.dims (fGNS_TRK_CFG_EN c).addr) = some trkCfgDesc :=
    fun _ => List.find?_cons_of_pos (inDims_trkCfg c)
  have hsplit : writableBits0 ++ writableBits1
      = writableBits0.take 15 ++ trkCfgDesc :: (writableBits0.drop 16 ++ writableBits1) := rfl
  unfold descOf
  rw [hsplit, List.find?_append, hnone, Option.none_or, hhit]

theorem mayWrite_trkCfg {req : Req} (hoem : reqIsOem req = false) (howner : trkOwner req c = true) :
    mayWrite req (fGNS_TRK_CFG_EN c).addr = true := by
  have := c.isLt
  unfold mayWrite
  rw [if_neg (by simp [inDims]; omega), if_neg (by simp [hoem]), if_neg (by simp [inPage]; omega),
    if_pos (inDims_trkCfg c), trkCfg_index]
  exact howner

/-- The channel's word with a legal spacing and signal, each of them kept otherwise. -/
def trkKept (old w : Word) : Word :=
  keepField (fGNS_TRK_CFG_SIG c) (fun v => decide (v ≤ 11)) old
    (keepField (fGNS_TRK_CFG_SP c) (fun v => decide (1 ≤ v) && decide (v ≤ 20)) old w)

variable (old w : Word)

theorem trkKept_sig : fldOf (fGNS_TRK_CFG_SIG c) (trkKept c old w)
    = if fldOf (fGNS_TRK_CFG_SIG c) w ≤ 11 then fldOf (fGNS_TRK_CFG_SIG c) w else fldOf (fGNS_TRK_CFG_SIG c) old := by
  unfold trkKept
  rw [fldOf_keepField_same _ _ _ _ (by simp [fldWidth]),
    fldOf_keepField_disjoint _ _ _ _ _ (by simp [Fld.Apart, fldWidth])]
  simp only [decide_eq_true_eq]

theorem trkKept_sp : fldOf (fGNS_TRK_CFG_SP c) (trkKept c old w)
    = if 1 ≤ fldOf (fGNS_TRK_CFG_SP c) w ∧ fldOf (fGNS_TRK_CFG_SP c) w ≤ 20 then fldOf (fGNS_TRK_CFG_SP c) w
      else fldOf (fGNS_TRK_CFG_SP c) old := by
  unfold trkKept
  rw [fldOf_keepField_disjoint _ _ _ _ _ (by simp [Fld.Apart, fldWidth]),
    fldOf_keepField_same _ _ _ _ (by simp [fldWidth])]
  simp only [Bool.and_eq_true, decide_eq_true_eq]

/-- A field that is neither the spacing nor the signal stands as written. -/
theorem trkKept_other (f : Fld) (hsig : (fGNS_TRK_CFG_SIG c).Apart f) (hsp : (fGNS_TRK_CFG_SP c).Apart f) :
    fldOf f (trkKept c old w) = fldOf f w := by
  unfold trkKept
  rw [fldOf_keepField_disjoint _ _ _ _ _ hsig, fldOf_keepField_disjoint _ _ _ _ _ hsp]

/-- The integration time is legal for the signal that the channel takes. -/
abbrev trkTimeOk : Prop :=
  1 ≤ fldOf (fGNS_TRK_CFG_INT c) w
    ∧ fldOf (fGNS_TRK_CFG_INT c) w ≤ intMax (fldOf (fGNS_TRK_CFG_SIG c) (trkKept c old w))

/-- An interval too long for the signal keeps both fields as they were. -/
theorem legalWord_trkCfg : legalWord (fGNS_TRK_CFG_EN c).addr old w =
    if trkTimeOk c old w then trkKept c old w
    else fldPut (fGNS_TRK_CFG_INT c) (fldPut (fGNS_TRK_CFG_SIG c) (trkKept c old w) (fldOf (fGNS_TRK_CFG_SIG c) old))
      (fldOf (fGNS_TRK_CFG_INT c) old) := by
  have hpnl : (fGNS_TRK_CFG_EN c).addr ≠ fPNL_CFG.addr := by have := c.isLt; simp; omega
  have hint : fldOf (fGNS_TRK_CFG_INT c) (trkKept c old w) = fldOf (fGNS_TRK_CFG_INT c) w :=
    trkKept_other c old w _ (by simp [Fld.Apart, fldWidth]) (by simp [Fld.Apart, fldWidth])
  unfold legalWord
  rw [if_neg hpnl, if_pos (inDims_trkCfg c), trkCfg_index]
  simp only [Bool.and_eq_true, decide_eq_true_eq]
  refine ite_congr (propext ?_) (fun _ => rfl) fun _ => rfl
  show 1 ≤ fldOf (fGNS_TRK_CFG_INT c) (trkKept c old w) ∧ fldOf (fGNS_TRK_CFG_INT c) (trkKept c old w) ≤ _ ↔ _
  rw [hint]
  exact Iff.rfl

theorem legalWord_trkCfg_sig : fldOf (fGNS_TRK_CFG_SIG c) (legalWord (fGNS_TRK_CFG_EN c).addr old w)
    = if trkTimeOk c old w then fldOf (fGNS_TRK_CFG_SIG c) (trkKept c old w) else fldOf (fGNS_TRK_CFG_SIG c) old := by
  rw [legalWord_trkCfg]
  split
  · rfl
  · rw [fldOf_put_disjoint _ _ _ _ (by simp [fldWidth]), fldOf_put_fldOf _ _ _ (by simp [fldWidth])]

theorem legalWord_trkCfg_int : fldOf (fGNS_TRK_CFG_INT c) (legalWord (fGNS_TRK_CFG_EN c).addr old w)
    = if trkTimeOk c old w then fldOf (fGNS_TRK_CFG_INT c) w else fldOf (fGNS_TRK_CFG_INT c) old := by
  rw [legalWord_trkCfg]
  split
  · exact trkKept_other c old w _ (by simp [Fld.Apart, fldWidth]) (by simp [Fld.Apart, fldWidth])
  · exact fldOf_put_fldOf _ _ _ (by simp [fldWidth])

/-- A field that is neither the signal nor the integration time stands as with the legal spacing and signal. -/
theorem legalWord_trkCfg_other (f : Fld) (hsig : (fGNS_TRK_CFG_SIG c).Apart f)
    (hint : (fGNS_TRK_CFG_INT c).Apart f) :
    fldOf f (legalWord (fGNS_TRK_CFG_EN c).addr old w) = fldOf f (trkKept c old w) := by
  rw [legalWord_trkCfg]
  split
  · rfl
  · rw [fldOf_put_disjoint _ _ _ _ hint, fldOf_put_disjoint _ _ _ _ hsig]

/-- What a write by its GNSS core leaves in a channel's configuration word, field by field. -/
theorem wordWritten_trkCfg {req : Req} {v hw : Word} (hoem : reqIsOem req = false) (howner : trkOwner req c = true) :
    let word := wordWritten req (fGNS_TRK_CFG_EN c).addr v hw s
    let sig := if fldOf (fGNS_TRK_CFG_SIG c) v ≤ 11 then fldOf (fGNS_TRK_CFG_SIG c) v else s.get (fGNS_TRK_CFG_SIG c)
    let ok := 1 ≤ fldOf (fGNS_TRK_CFG_INT c) v ∧ fldOf (fGNS_TRK_CFG_INT c) v ≤ intMax sig
    let sp := fldOf (fGNS_TRK_CFG_SP c) v
    fldOf (fGNS_TRK_CFG_SIG c) word = (if ok then sig else s.get (fGNS_TRK_CFG_SIG c))
      ∧ fldOf (fGNS_TRK_CFG_INT c) word = (if ok then fldOf (fGNS_TRK_CFG_INT c) v else s.get (fGNS_TRK_CFG_INT c))
      ∧ fldOf (fGNS_TRK_CFG_SP c) word = (if 1 ≤ sp ∧ sp ≤ 20 then sp else s.get (fGNS_TRK_CFG_SP c))
      ∧ fldOf (fGNS_TRK_CFG_EN c) word = fldOf (fGNS_TRK_CFG_EN c) v
      ∧ fldOf (fGNS_TRK_CFG_SV c) word = fldOf (fGNS_TRK_CFG_SV c) v := by
  have hmerge : ∀ f : Fld, f.lo + fldWidth f ≤ 24 → fldOf f (mergeWord (descOf (fGNS_TRK_CFG_EN c).addr)
      (s.rd (fGNS_TRK_CFG_EN c).addr) v hw) = fldOf f v := by
    rw [descOf_trkCfg]
    exact fun f hf => fldOf_mergeWord_low (by decide) rfl rfl f hf _ v hw
  rw [wordWritten_of_right (mayWrite_trkCfg c hoem howner) (ownRow_trkCfg c)]
  generalize mergeWord (descOf (fGNS_TRK_CFG_EN c).addr) (s.rd (fGNS_TRK_CFG_EN c).addr) v hw = w at hmerge ⊢
  intro word sig ok sp
  have hkept : fldOf (fGNS_TRK_CFG_SIG c) (trkKept c (s.rd (fGNS_TRK_CFG_EN c).addr) w) = sig := by
    rw [trkKept_sig, hmerge _ (by simp [fldWidth])]
    rfl
  have hok : trkTimeOk c (s.rd (fGNS_TRK_CFG_EN c).addr) w ↔ ok := by
    unfold trkTimeOk
    rw [hkept, hmerge _ (by simp [fldWidth])]
  refine ⟨?_, ?_, ?_, ?_, ?_⟩
  · exact (legalWord_trkCfg_sig c _ w).trans (ite_congr (propext hok) (fun _ => hkept) fun _ => rfl)
  · exact (legalWord_trkCfg_int c _ w).trans
      (ite_congr (propext hok) (fun _ => hmerge _ (by simp [fldWidth])) fun _ => rfl)
  · rw [legalWord_trkCfg_other _ _ _ _ (by simp [Fld.Apart, fldWidth]) (by simp [Fld.Apart, fldWidth]), trkKept_sp,
      hmerge _ (by simp [fldWidth])]
    rfl
  · rw [legalWord_trkCfg_other _ _ _ _ (by simp [Fld.Apart, fldWidth]) (by simp [Fld.Apart, fldWidth]),
      trkKept_other _ _ _ _ (by simp [Fld.Apart, fldWidth]) (by simp [Fld.Apart, fldWidth]),
      hmerge _ (by simp [fldWidth])]
  · rw [legalWord_trkCfg_other _ _ _ _ (by simp [Fld.Apart, fldWidth]) (by simp [Fld.Apart, fldWidth]),
      trkKept_other _ _ _ _ (by simp [Fld.Apart, fldWidth]) (by simp [Fld.Apart, fldWidth]),
      hmerge _ (by simp [fldWidth])]

end

/-! ## Reads (R8, R9, R47) -/

section
variable {b a : Nat} {hw : Word}

theorem readReg_of_none (h : regAddrOk a = false) : readReg b a hw s = s.busError := if_pos (by simp [h])

theorem readReg_of_some (h : regAddrOk a = true) : readReg b a hw s = (readEffect b a hw s).answer (viewReg s b a) :=
  if_neg (by simp [h])

/-- What a read leaves of a word: its RC bits are cleared, but those that an event sets (R8, R9). -/
def wordKept (a : Nat) (w hw : Word) : Word :=
  (w &&& ~~~(BitVec.ofNat 32 (descOf a).rc)) ||| (hw &&& BitVec.ofNat 32 (descOf a).rc)

theorem wordKept_getLsbD (a : Nat) (w hw : Word) (i : Nat) :
    (wordKept a w hw).getLsbD i = ((w.getLsbD i && !(BitVec.ofNat 32 (descOf a).rc).getLsbD i)
      || (hw.getLsbD i && (BitVec.ofNat 32 (descOf a).rc).getLsbD i)) := by
  unfold wordKept
  by_cases hi : i < 32
  · simp [hi]
  · simp [BitVec.getLsbD_of_ge _ _ (Nat.le_of_not_lt hi)]

/-- A read of a register without a latch clears the RC bits it returns, but those that an event sets (R8, R9). -/
theorem readEffect_of_plain (hheld : heldZero s a = false) (hclk : a ≠ fCLK_TICK_LO.addr)
    (hgns : a ≠ fGNS_SOL_TICK_LO.addr) (hfus : a ≠ fFUS_RES_FRAME_LO.addr) :
    readEffect b a hw s = s.wr a (wordKept a (s.rd a) hw) := by
  unfold readEffect
  rw [if_neg (by simp [hheld]), if_neg hclk, if_neg hgns, if_neg hfus]
  rfl

theorem readEffect_of_held (hheld : heldZero s a = true) : readEffect b a hw s = s := if_pos hheld

theorem viewReg_of_held (hheld : heldZero s a = true) : viewReg s b a = 0#32 := if_pos hheld

/-- A latch of the clock is a change of that part alone. -/
theorem latchClk_does (b : Nat) (s : State) : Does s (latchClk b s) [] [] [.clk] where
  regs := fun _ => rfl
  mem := fun _ => rfl
  evs := records_nil rfl
  parts := fun p hp => by
    cases p
    case clk => exact absurd (List.mem_singleton_self _) hp
    all_goals rfl

theorem latchSol_does (b : Nat) (s : State) : Does s (latchSol b s) [] [] [.gns] where
  regs := fun _ => rfl
  mem := fun _ => rfl
  evs := records_nil rfl
  parts := fun p hp => by
    cases p
    case gns => exact absurd (List.mem_singleton_self _) hp
    all_goals rfl

theorem latchRes_does (b : Nat) (s : State) : Does s (latchRes b s) [] [] [.fus] where
  regs := fun _ => rfl
  mem := fun _ => rfl
  evs := records_nil rfl
  parts := fun p hp => by
    cases p
    case fus => exact absurd (List.mem_singleton_self _) hp
    all_goals rfl

/-- A read of a LO register latches its set, and no register changes (R47). -/
theorem readEffect_latch_does (hheld : heldZero s a = false)
    (ha : a = fCLK_TICK_LO.addr ∨ a = fGNS_SOL_TICK_LO.addr ∨ a = fFUS_RES_FRAME_LO.addr) :
    Does s (readEffect b a hw s) [] [] [.bus, .clk, .gns, .fus] := by
  unfold readEffect
  rw [if_neg (by simp [hheld])]
  rcases ha with rfl | rfl | rfl
  · exact (latchClk_does b s).mono (by decide)
  · exact (latchSol_does b s).mono (by decide)
  · exact (latchRes_does b s).mono (by decide)

end

/-- Settles O1: a write leaves the word that its access codes and rights give, field by field where the register limits
its fields, and a read clears its RC bits or latches its set; nothing else changes. -/
theorem accessRegisterWrite : Obligations.AccessRegisterWrite := by
  refine ⟨?regwr, ?regwrNoRight, ?regwrPanel, ?regwrHeld, ?regwrChannel, ?regwrNone, ?rcreadLatch, ?rcreadNone, ?rcread,
    ?rcreadHeld⟩
  case regwr =>
    intro s req a v hw hok hheld hmay hown hpnl htrk
    have hframe := writeReg_onlyRegs_plain (req := req) (v := v) (hw := hw) hok hheld htrk
    refine ⟨_, rfl, fun i => ?_, fun b hb => hframe.regs b (by simpa using hb), hframe.mem, hframe.evs, hframe.parts⟩
    rw [rd_writeReg hok hheld, wordWritten_of_right hmay hown, legalWord_of_plain hpnl htrk, mergeWord_getLsbD]
  case regwrNoRight =>
    intro s req a v hw hok hheld hright _
    have hframe := writeReg_onlyRegs (req := req) (v := v) (hw := hw) hok hheld
    refine ⟨_, rfl, ?_, fun b hb hn => hframe.regs b (by simp [hb, hn]), hframe.mem, hframe.evs, hframe.parts⟩
    rw [rd_writeReg hok hheld, wordWritten_of_noRight hright]
  case regwrPanel =>
    intro s req v hw hoem
    have hok : regAddrOk fPNL_CFG.addr = true := by decide
    have hheld := heldZero_pnlCfg s
    have hframe := writeReg_onlyRegs_plain (req := req) (v := v) (hw := hw) hok hheld (by decide)
    obtain ⟨hvlcd, hlim⟩ := wordWritten_pnlCfg (s := s) (v := v) (hw := hw) hoem
    refine ⟨_, rfl, fun hbad => ?_, fun hgood => ?_, (get_writeReg hok hheld fPNL_CFG_DCB_LIM rfl).trans hlim,
      fun b hb => hframe.regs b (by simpa using hb), hframe.mem, hframe.evs, hframe.parts⟩
    · exact (get_writeReg hok hheld fPNL_CFG_VLCD rfl).trans (hvlcd.trans (if_neg (by omega)))
    · exact (get_writeReg hok hheld fPNL_CFG_VLCD rfl).trans (hvlcd.trans (if_pos hgood))
  case regwrHeld =>
    intro s req a v hw hok hheld
    exact ⟨_, rfl, writeReg_of_held hok hheld⟩
  case regwrChannel =>
    intro s req c v hw hwide howner hoem
    have hok := regAddrOk_trkCfg c
    have hheld := heldZero_of_wide hwide (fGNS_TRK_CFG_EN c).addr
    have hframe := writeReg_onlyRegs (req := req) (v := v) (hw := hw) hok hheld
    have hget := get_writeReg (req := req) (v := v) (hw := hw) hok hheld
    obtain ⟨hsig, hint, hsp, hen, hsv⟩ := wordWritten_trkCfg (s := s) (v := v) (hw := hw) c hoem howner
    refine ⟨_, rfl, ⟨?_, ?_, ?_⟩, ?_, ?_, fun b hb hn => hframe.regs b (by simp [hb, hn]), hframe.mem, hframe.evs,
      hframe.parts⟩
    · exact (hget (fGNS_TRK_CFG_SIG c) rfl).trans hsig
    · exact (hget (fGNS_TRK_CFG_INT c) rfl).trans hint
    · exact (hget (fGNS_TRK_CFG_SP c) rfl).trans hsp
    · exact (hget (fGNS_TRK_CFG_EN c) rfl).trans hen
    · exact (hget (fGNS_TRK_CFG_SV c) rfl).trans hsv
  case regwrNone =>
    intro s req a v hw hnone
    exact ⟨_, rfl, writeReg_of_none hnone⟩
  case rcreadLatch =>
    intro s req a hw hheld ha
    have hok : regAddrOk a = true := by rcases ha with rfl | rfl | rfl <;> decide
    refine ⟨_, rfl, ?_⟩
    rw [readReg_of_some hok]
    have hdoes := (readEffect_latch_does (b := reqBank req) (hw := hw) hheld ha).bus (by decide)
      ⟨viewReg s (reqBank req) a, false⟩
    exact ⟨rfl, hdoes.regs, hdoes.mem, hdoes.evs, hdoes.parts⟩
  case rcreadNone =>
    intro s req a hw hnone
    exact ⟨_, rfl, readReg_of_none hnone⟩
  case rcread =>
    intro s req a hw hok hheld hclk hgns hfus
    have hframe := onlyRegs_wr s a (wordKept a (s.rd a) hw)
    refine ⟨_, rfl, ?_⟩
    rw [readReg_of_some hok, readEffect_of_plain hheld hclk hgns hfus]
    refine ⟨rfl, fun i => ?_, fun b hb => hframe.regs b (by simpa using hb), hframe.mem, hframe.evs,
      (hframe.parts.mono (List.nil_subset _)).trans (partsBut_bus _ _)⟩
    exact (congrArg (BitVec.getLsbD · i) (rd_wr_same s a _)).trans (wordKept_getLsbD a _ hw i)
  case rcreadHeld =>
    intro s req a hw hok hheld
    refine ⟨_, rfl, ?_⟩
    rw [readReg_of_some hok, readEffect_of_held hheld, viewReg_of_held hheld]
    rfl

end Sys2Proof.Machine
end

section
/-!
Records with values, and changes of the function block, beside a run of writes.
-/
open Sys2Proof
namespace Sys2Proof.Machine

variable {s t : State} {ps : List Part} {ws : List (Fld × Nat)} {es : List Ev}

/-! ## The function block -/

theorem partsBut_fn (s : State) (x : Fun) : PartsBut s { s with fn := x } [.fn] := by
  intro p hp
  cases p
  case fn => exact absurd (List.mem_singleton_self _) hp
  all_goals rfl

/-- A change of the function block beside an effect that may change it. -/
theorem Does.fn (h : Does s t ws es ps) (hfn : Part.fn ∈ ps) (x : Fun) : Does s { t with fn := x } ws es ps where
  regs := h.regs
  mem := h.mem
  evs := h.evs
  parts := h.parts.trans ((partsBut_fn t x).mono (List.cons_subset.mpr ⟨hfn, List.nil_subset _⟩))

theorem does_fn (s : State) (x : Fun) : Does s { s with fn := x } [] [] [.fn] := (does_refl s).fn (by decide) x

@[simp] theorem fn_evx (s : State) (code src flags : Nat) (mn mx : F16) : (s.evx code src flags mn mx).fn = s.fn :=
  partsBut_push (ps := []) s _ .fn List.not_mem_nil

/-- An event passed to the recorder after an effect, with room for it, joins the effect's list of events (R461). -/
theorem Does.push (h : Does s t ws es ps) (hrst : Part.rst ∉ ps) (hroom : Room s (es.length + 1)) (e : Ev) :
    Does s (t.push e) ws (es ++ [e]) ps := by
  obtain ⟨hnext, hlen⟩ := hroom
  have hroomt : Room t 1 := by
    refine ⟨(congrArg Rst.next (h.parts .rst hrst)).symm ▸ hnext, ?_⟩
    rw [h.evs, List.length_append]
    omega
  rw [push_room hroomt e]
  exact {
    regs := h.regs
    mem := h.mem
    evs := by unfold Records; rw [h.evs, List.append_assoc]
    parts := h.parts.trans (partsBut_evr t _) }

/-- An event with its values, stamped with the time of the state before. -/
theorem Does.evx (h : Does s t ws es ps) (hclk : Part.clk ∉ ps) (hrst : Part.rst ∉ ps) (hroom : Room s (es.length + 1))
    (code src flags : Nat) (mn mx : F16) :
    Does s (t.evx code src flags mn mx) ws (es ++ [s.evOf code src flags mn mx]) ps := by
  rw [← evOf_congr (h.parts .clk hclk)]
  exact h.push hrst hroom _

/-! ## Inputs, pairs and loss inputs -/

theorem uin_congr (h : t.fn = s.fn) (n : Nat) : t.uin n = s.uin n := by unfold State.uin; rw [h]

@[simp] theorem uin_setUin_same (s : State) (n : Nat) (u : Uin) : (s.setUin n u).uin n = u := tabGet_set_same _ _ n u

theorem uin_setUin_other (s : State) {n m : Nat} (u : Uin) (h : m ≠ n) : (s.setUin n u).uin m = s.uin m :=
  tabGet_set_other _ _ u h

theorem lossIn_congr (h : t.fn = s.fn) (n : Nat) : t.lossIn n = s.lossIn n := by unfold State.lossIn; rw [h]

@[simp] theorem lossIn_setLossIn_same (s : State) (n : Nat) (x : LossIn) : (s.setLossIn n x).lossIn n = x :=
  tabGet_set_same _ _ n x

end Sys2Proof.Machine
end

section
/-!
Faults of the universal inputs (O15).
-/
open Sys2Proof
namespace Sys2Proof.Machine

variable {s t : State} {ps : List Part} {ws : List (Fld × Nat)} {es : List Ev}

/-! ## An input that fails (R72, R499) -/

/-- An input that becomes faulty after an effect: its latched bit and the event bit, and the record (R72). -/
theorem Does.uinFail (h : Does s t ws es ps) (hfn : Part.fn ∈ ps) (hclk : Part.clk ∉ ps) (hrst : Part.rst ∉ ps)
    (hroom : Room s (es.length + 1)) (n : Nat) (mn mx : F16) :
    Does s (uinFail n mn mx t) (ws ++ [(fUinFlt n, 1)] ++ [(fFUN_EVT_UIN_FLT, 1)])
      (es ++ [s.evOf 0x3800 n 0 mn mx]) ps :=
  (((h.fn hfn _).put (fUinFlt n) 1).put fFUN_EVT_UIN_FLT 1).evx hclk hrst hroom 0x3800 n 0 mn mx

theorem fn_uinFail (n : Nat) (mn mx : F16) (s : State) :
    (uinFail n mn mx s).fn = (s.setUin n { s.uin n with fault := true, good := 0 }).fn := fn_evx _ _ _ _ _ _

theorem uin_uinFail_same (n : Nat) (mn mx : F16) (s : State) :
    (uinFail n mn mx s).uin n = { s.uin n with fault := true, good := 0 } :=
  (uin_congr (fn_uinFail n mn mx s) n).trans (uin_setUin_same s n _)

theorem uin_uinFail_other {n m : Nat} (mn mx : F16) (s : State) (h : m ≠ n) : (uinFail n mn mx s).uin m = s.uin m :=
  (uin_congr (fn_uinFail n mn mx s) m).trans (uin_setUin_other s _ h)

/-- The list of open shunts after a value on an input (R499). -/
theorem openShunt_eq (n : Nat) (x : F32) (s : State) :
    openShunt n x s = { s with fn := { s.fn with
      shuntOpen := if uinMode s n = 3 ∧ f32Lt 0x41C80000#32 x = true ∧ isShuntOpen s n = false
        then (n, s.clk.tick) :: s.fn.shuntOpen else s.fn.shuntOpen } } := by
  unfold openShunt
  split <;> rfl

theorem exec_uinFault {n : Fin 48} {x : F32} (hout : uinOut (uinMode s n) x = true) (hok : (s.uin n).fault = false) :
    exec (.uinFault n x) s = .next (uinRange n x s) :=
  if_neg (by simp [hout, hok])

theorem exec_uinFaultCleared {n : Fin 48} (hfault : (s.uin n).fault = true) (hgood : 400 ≤ (s.uin n).good) :
    exec (.uinFaultCleared n) s
      = .next ((s.setUin n { s.uin n with fault := false, good := 0 }).ev 0x3801 n) :=
  if_pos (by simp [hfault, hgood])

/-! ## Edges (R69–R71) -/

theorem isPulse_iff (m n : Nat) : isPulse m n = true ↔ m = 5 ∨ (m = 7 ∧ n % 2 = 0) := by simp [isPulse]

theorem exec_edgeTimeout_due {n : Fin 48} (hmode : uinMode s n = 5 ∨ (uinMode s n = 7 ∧ n.val % 2 = 0))
    (hquiet : 40000000 * s.get (fFUN_UIN_CFG_TOUT n) ≤ s.clk.tick * 20000 - ((s.uin n).edge.getD 0)) :
    exec (.edgeTimeout n) s = .next (s.setUin n { s.uin n with noEdge := true }) :=
  if_pos (by rw [(isPulse_iff _ _).mpr hmode, Bool.true_and]; exact decide_eq_true hquiet)

theorem exec_edgeTimeout_early {n : Fin 48} (h : ¬ (uinMode s n = 5 ∨ (uinMode s n = 7 ∧ n.val % 2 = 0))
      ∨ s.clk.tick * 20000 - ((s.uin n).edge.getD 0) < 40000000 * s.get (fFUN_UIN_CFG_TOUT n)) :
    exec (.edgeTimeout n) s = .next s := by
  refine if_neg fun hdue => ?_
  rw [Bool.and_eq_true, isPulse_iff, decide_eq_true_eq] at hdue
  obtain ⟨hmode, hquiet⟩ := hdue
  rcases h with h | h
  · exact h hmode
  · omega

/-- While no edge arrives and none has come in the tick, the frequency is 0 Hz (R69). -/
theorem edgeFreq_of_noEdge {u : Uin} (h : u.noEdge = true) (v : Uin) (tick : Nat) : edgeFreq u v [] tick = 0#32 := by
  simp [edgeFreq, h]

theorem exec_indexEdge {p : Fin 24} (k : Nat) (hmode : uinMode s (2 * p.val) = 7) :
    exec (.indexEdge p k) s = .next (s.setPair p { s.pair p with
      idx := (s.pair p).idx + 1, between := (s.pair p).pulses + (k - (s.pair p).pre), pulses := 0, pre := k
      first := true }) :=
  if_neg (not_not_intro hmode)

/-- 2 N pulses have come without an index edge, on a pair of which an input is not faulty yet (R70). -/
theorem exec_indexMissing {p : Fin 24} (hmode : uinMode s (2 * p.val) = 7)
    (hpulses : 2 * indexN s p ≤ (s.pair p).pulses)
    (hok : (s.uin (2 * p.val)).fault = false ∨ (s.uin (2 * p.val + 1)).fault = false) :
    exec (.indexMissing p) s
      = .next (uinFail (2 * p.val + 1) f16NaN f16NaN (uinFail (2 * p.val) f16NaN f16NaN s)) := by
  have hno : noIndex s p = true := decide_eq_true hpulses
  refine if_neg ?_
  rintro (h | h | ⟨h, h'⟩)
  · exact h hmode
  · rw [hno] at h; cases h
  · rcases hok with hok | hok
    · rw [hok] at h; cases h
    · rw [hok] at h'; cases h'

/-! ## Both lines of a pair at once (R70) -/

/-- Both inputs of a pair are blind for the tick. -/
def blindPair (a : Nat) (s : State) : State :=
  (s.setUin a { s.uin a with blind := true }).setUin (a + 1) { s.uin (a + 1) with blind := true }

theorem exec_quadIllegalTransition {p : Fin 24} (hmode : uinMode s (2 * p.val) = 6) :
    exec (.quadIllegalTransition p) s
      = .next (((((blindPair (2 * p.val) s).putBit (fUinFlt (2 * p.val)) true).putBit (fUinFlt (2 * p.val + 1))
          true).putBit fFUN_EVT_UIN_FLT true).ev 0x3802 p) :=
  if_neg (not_not_intro hmode)

theorem uin_blindPair_even (a : Nat) (s : State) : (blindPair a s).uin a = { s.uin a with blind := true } :=
  (uin_setUin_other _ _ (Nat.ne_of_lt (Nat.lt_succ_self a))).trans (uin_setUin_same s a _)

theorem uin_blindPair_odd (a : Nat) (s : State) : (blindPair a s).uin (a + 1) = { s.uin (a + 1) with blind := true } :=
  uin_setUin_same _ (a + 1) _

theorem uin_blindPair_other {a n : Nat} (s : State) (h : n ≠ a) (h' : n ≠ a + 1) : (blindPair a s).uin n = s.uin n :=
  (uin_setUin_other _ _ h').trans (uin_setUin_other s _ h)

/-- Settles O15: each clause is the command's answer; the effect on registers and recorder is built up from the writes,
that on the inputs read from the table of inputs. -/
theorem inputFaults : Obligations.InputFaults := by
  refine ⟨?uinFault, ?uinClear, ?edgeTimeout, ?edgeStillTime, ?quadIllegal, ?indexMissing, ?indexEdge, ?shuntClose⟩
  case uinFault =>
    intro s n x hout hok hroom
    refine ⟨_, exec_uinFault hout hok, ?_, ?_⟩
    · unfold uinRange
      rw [openShunt_eq]
      exact (does_fn s _).uinFail (by decide) (by decide) (by decide) hroom n _ _
    · unfold uinRange
      rw [openShunt_eq, fn_uinFail]
      rfl
  case uinClear =>
    intro s n hfault hgood hroom
    refine ⟨_, exec_uinFaultCleared hfault hgood, ?_, fn_evx _ _ _ _ _ _⟩
    exact (does_fn s _).ev (by decide) (by decide) hroom 0x3801 n
  case edgeTimeout =>
    intro s n hmode hquiet
    exact ⟨_, exec_edgeTimeout_due hmode hquiet, rfl, fun v => edgeFreq_of_noEdge (by simp) v _⟩
  case edgeStillTime =>
    intro s n h
    exact ⟨s, exec_edgeTimeout_early h, rfl⟩
  case quadIllegal =>
    intro s p hmode hroom
    have huin := uin_congr (fn_evx ((((blindPair (2 * p.val) s).putBit (fUinFlt (2 * p.val)) true).putBit
      (fUinFlt (2 * p.val + 1)) true).putBit fFUN_EVT_UIN_FLT true) 0x3802 p 0 f16NaN f16NaN)
    refine ⟨_, exec_quadIllegalTransition hmode, ?_, ?_, ?_, fun n hn hn' => ?_⟩
    · exact ((((does_fn s (blindPair (2 * p.val) s).fn).put (fUinFlt (2 * p.val)) 1).put
        (fUinFlt (2 * p.val + 1)) 1).put fFUN_EVT_UIN_FLT 1).ev (by decide) (by decide) hroom 0x3802 p
    · exact congrArg Uin.blind ((huin _).trans (uin_blindPair_even _ s))
    · exact congrArg Uin.blind ((huin _).trans (uin_blindPair_odd _ s))
    · exact (huin n).trans (uin_blindPair_other s hn hn')
  case indexMissing =>
    intro s p hmode hpulses hok hroom
    have hroom1 : Room s 1 := ⟨hroom.1, by have := hroom.2; omega⟩
    refine ⟨_, exec_indexMissing hmode hpulses hok, ?_, ?_, ?_⟩
    · exact (((does_refl s).uinFail (by decide) (by decide) (by decide) hroom1 (2 * p.val) f16NaN f16NaN).uinFail
        (by decide) (by decide) (by decide) hroom (2 * p.val + 1) f16NaN f16NaN)
    · rw [uin_uinFail_other _ _ _ (Nat.ne_of_lt (Nat.lt_succ_self _)), uin_uinFail_same]
    · rw [uin_uinFail_same]
  case indexEdge =>
    intro s p k hmode
    exact ⟨_, exec_indexEdge k hmode, rfl⟩
  case shuntClose =>
    intro s n
    refine ⟨_, rfl, rfl, fun k o => ?_⟩
    simp only [List.mem_filter, Bool.not_eq_true', ← Bool.not_eq_true, Bool.and_eq_true, beq_iff_eq, decide_eq_true_eq]

end Sys2Proof.Machine
end

section
/-!
Words and signals in memory: reads after writes.
-/
open Sys2Proof
namespace Sys2Proof.Machine

variable {s t u : State}

/-- A word of memory reads as its bytes do. -/
theorem rd32_congr {a b : Nat} (h : ∀ i, i < 4 → t.rd8 (b + i) = s.rd8 (a + i)) : t.rd32 b = s.rd32 a := by
  unfold State.rd32
  rw [h 3 (by decide), h 2 (by decide), h 1 (by decide), show t.rd8 b = s.rd8 a from h 0 (by decide)]

/-- A word written leaves every byte outside it. -/
theorem rd8_wr32_other (s : State) {a c : Nat} (w : Word) (h : c < a ∨ a + 4 ≤ c) : (s.wr32 a w).rd8 c = s.rd8 c := by
  unfold State.wr32
  rw [rd8_wr8_other _ _ (by omega), rd8_wr8_other _ _ (by omega), rd8_wr8_other _ _ (by omega),
    rd8_wr8_other _ _ (by omega)]

@[simp] theorem rd32_wr32_same (s : State) (a : Nat) (w : Word) : (s.wr32 a w).rd32 a = w := by
  have h3 : (s.wr32 a w).rd8 (a + 3) = w.extractLsb' 24 8 := rd8_wr8_same _ _ _
  have h2 : (s.wr32 a w).rd8 (a + 2) = w.extractLsb' 16 8 :=
    (rd8_wr8_other _ _ (by omega)).trans (rd8_wr8_same _ _ _)
  have h1 : (s.wr32 a w).rd8 (a + 1) = w.extractLsb' 8 8 :=
    (rd8_wr8_other _ _ (by omega)).trans ((rd8_wr8_other _ _ (by omega)).trans (rd8_wr8_same _ _ _))
  have h0 : (s.wr32 a w).rd8 a = w.extractLsb' 0 8 :=
    (rd8_wr8_other _ _ (by omega)).trans ((rd8_wr8_other _ _ (by omega)).trans
      ((rd8_wr8_other _ _ (by omega)).trans (rd8_wr8_same _ _ _)))
  have low2 : (w.extractLsb' 8 8 ++ w.extractLsb' 0 8 : BitVec 16) = w.extractLsb' 0 16 :=
    BitVec.extractLsb'_append_extractLsb'_eq_extractLsb' rfl
  have low3 : (w.extractLsb' 16 8 ++ w.extractLsb' 0 16 : BitVec 24) = w.extractLsb' 0 24 :=
    BitVec.extractLsb'_append_extractLsb'_eq_extractLsb' rfl
  have all4 : (w.extractLsb' 24 8 ++ w.extractLsb' 0 24 : BitVec 32) = w.extractLsb' 0 32 :=
    BitVec.extractLsb'_append_extractLsb'_eq_extractLsb' rfl
  unfold State.rd32
  rw [h3, h2, h1, h0, low2, low3]
  exact all4.trans BitVec.extractLsb'_eq_self

/-! ## Signals (R80) -/

/-- A signal is the eight bytes at its address. -/
theorem sig_congr {l i l' i' : Nat} (h : ∀ k, k < 8 → t.rd8 (sigAddr l' i' + k) = s.rd8 (sigAddr l i + k)) :
    t.sig l' i' = s.sig l i := by
  have hval : t.rd32 (sigAddr l' i') = s.rd32 (sigAddr l i) := rd32_congr fun k hk => h k (by omega)
  have hstat : t.rd32 (sigAddr l' i' + 4) = s.rd32 (sigAddr l i + 4) :=
    rd32_congr fun k hk => by rw [Nat.add_assoc, Nat.add_assoc]; exact h (4 + k) (by omega)
  unfold State.sig
  rw [hval, hstat]

theorem SameMem.sig (h : SameMem s t) (l i : Nat) : t.sig l i = s.sig l i := sig_congr fun _ _ => h _

/-- A signal that is written leaves every entry at another address. -/
theorem sig_putSig_other (s : State) {l i l' i' : Nat} (g : Sig) (h : sigAddr l' i' ≠ sigAddr l i) :
    (s.putSig l i g).sig l' i' = s.sig l' i' := by
  refine sig_congr fun k hk => ?_
  have hout : sigAddr l' i' + k < sigAddr l i ∨ sigAddr l i + 8 ≤ sigAddr l' i' + k := by
    unfold sigAddr laneBase at *
    omega
  unfold State.putSig
  rw [rd8_wr32_other _ _ (by omega), rd8_wr32_other _ _ (by omega)]

/-- The VALID bit of a status word: the age, which saturates, stays below it. -/
theorem validBit_sigStatus (g : Sig) : (sigStatus g).toNat / 0x10000 % 2 = if g.valid then 1 else 0 := by
  have hage : min g.age 65535 ≤ 65535 := Nat.min_le_right _ _
  unfold sigStatus
  rw [BitVec.toNat_ofNat]
  cases g.valid <;> cases g.clamped <;> cases g.first <;> simp only [↓reduceIte, Bool.false_eq_true] <;> omega

/-- A signal reads VALID as it was written. -/
theorem valid_putSig_same (s : State) (l i : Nat) (g : Sig) : ((s.putSig l i g).sig l i).valid = g.valid := by
  have hstat : (s.putSig l i g).rd32 (sigAddr l i + 4) = sigStatus g := rd32_wr32_same _ _ _
  have hvalid : ((s.putSig l i g).sig l i).valid = ((sigStatus g).toNat / 0x10000 % 2 == 1) := by
    unfold State.sig
    rw [hstat]
  rw [hvalid, validBit_sigStatus]
  cases g.valid <;> rfl

/-! ## States that differ in memory alone -/

/-- `t` is `s` but for its memory. -/
def OnlyMem (s t : State) : Prop := ∃ m, t = { s with mem := m }

theorem OnlyMem.trans (h : OnlyMem s t) (h' : OnlyMem t u) : OnlyMem s u := by
  obtain ⟨m, rfl⟩ := h
  obtain ⟨m', rfl⟩ := h'
  exact ⟨m', rfl⟩

theorem onlyMem_wr8 (s : State) (a : Nat) (b : Byte) : OnlyMem s (s.wr8 a b) := ⟨_, rfl⟩

theorem onlyMem_wr32 (s : State) (a : Nat) (w : Word) : OnlyMem s (s.wr32 a w) :=
  (onlyMem_wr8 s a _).trans ((onlyMem_wr8 _ (a + 1) _).trans
    ((onlyMem_wr8 _ (a + 2) _).trans (onlyMem_wr8 _ (a + 3) _)))

theorem onlyMem_putSig (s : State) (l i : Nat) (g : Sig) : OnlyMem s (s.putSig l i g) :=
  (onlyMem_wr32 s (sigAddr l i) _).trans (onlyMem_wr32 _ (sigAddr l i + 4) _)

theorem OnlyMem.fn (h : OnlyMem s t) : t.fn = s.fn := by
  obtain ⟨m, rfl⟩ := h
  rfl

theorem OnlyMem.parts (h : OnlyMem s t) {ps : List Part} : PartsBut s t ps := by
  obtain ⟨m, rfl⟩ := h
  exact fun p _ => by cases p <;> rfl

/-- What is written after a change of memory alone is written on the registers before it. -/
theorem OnlyMem.regsBut (h : OnlyMem s t) {ws : List (Fld × Nat)} (hu : RegsBut t u ws) : RegsBut s u ws := by
  obtain ⟨m, rfl⟩ := h
  exact hu

theorem OnlyMem.records (h : OnlyMem s t) {es : List Ev} (hu : Records t u es) : Records s u es := by
  obtain ⟨m, rfl⟩ := h
  exact hu

theorem OnlyMem.room (h : OnlyMem s t) {k : Nat} (hs : Room s k) : Room t k := by
  obtain ⟨m, rfl⟩ := h
  exact hs

theorem OnlyMem.evOf (h : OnlyMem s t) (code src flags : Nat) (mn mx : F16) :
    t.evOf code src flags mn mx = s.evOf code src flags mn mx := by
  obtain ⟨m, rfl⟩ := h
  rfl

end Sys2Proof.Machine
end

section
/-!
Impacts and silence of the loss sensors (O16).
-/
open Sys2Proof
namespace Sys2Proof.Machine

variable {s : State}

/-! ## Impacts (R74, R75) -/

/-- An impact is heard: the input is enabled, the dead time is over, and the peak is above half the minimum. -/
structure Heard (s : State) (n : Fin 16) (peak gap : Nat) : Prop where
  enabled : s.bit (fFUN_LOSS_CFG_EN n) = true
  late : s.get (fFUN_LOSS_CFG_DEAD n) ≤ gap
  loud : 128 * s.get (fFUN_LOSS_CFG_A_MIN n) < 2 * peak

section
variable {n : Fin 16} {peak rise gap : Nat}

theorem Heard.not_ignored (h : Heard s n peak gap) :
    ¬ ((!s.bit (fFUN_LOSS_CFG_EN n)) = true ∨ gap < s.get (fFUN_LOSS_CFG_DEAD n)
      ∨ 2 * peak ≤ 128 * s.get (fFUN_LOSS_CFG_A_MIN n)) := by
  obtain ⟨henabled, hlate, hloud⟩ := h
  rw [henabled]
  rintro (h | h | h)
  · cases h
  · omega
  · omega

theorem exec_lossImpact_ignored (rise : Nat) (h : s.bit (fFUN_LOSS_CFG_EN n) = false
      ∨ gap < s.get (fFUN_LOSS_CFG_DEAD n) ∨ 2 * peak ≤ 128 * s.get (fFUN_LOSS_CFG_A_MIN n)) :
    exec (.lossImpact n peak rise gap) s = .next s :=
  if_pos (h.imp_left fun hoff => by rw [hoff]; rfl)

theorem exec_lossImpact_saturated (rise : Nat) (h : Heard s n peak gap) (hsat : 32768 ≤ peak) :
    exec (.lossImpact n peak rise gap) s = .next ((s.inc (fFUN_LOSS_OTHER n)).evx 0x3810 n 0
      (f16OfRatio false peak 32768) (f16OfRatio false peak 32768)) :=
  (if_neg h.not_ignored).trans (if_pos hsat)

theorem exec_lossImpact_kernel (h : Heard s n peak gap) (hfull : peak < 32768)
    (hmin : 128 * s.get (fFUN_LOSS_CFG_A_MIN n) ≤ peak) (hmax : peak ≤ 128 * s.get (fFUN_LOSS_CFG_A_MAX n))
    (hrise : rise ≤ s.get (fFUN_LOSS_CFG_RISE_MAX n)) :
    exec (.lossImpact n peak rise gap) s = .next ((s.setLossIn n { s.lossIn n with
      kern := (s.lossIn n).kern + 1, quiet := 0, silent := false }).inc (fFUN_LOSS_TOTAL n)) :=
  (if_neg h.not_ignored).trans ((if_neg (Nat.not_le.mpr hfull)).trans (if_pos ⟨hmin, hmax, hrise⟩))

theorem exec_lossImpact_other (h : Heard s n peak gap) (hfull : peak < 32768)
    (hlimits : peak < 128 * s.get (fFUN_LOSS_CFG_A_MIN n) ∨ 128 * s.get (fFUN_LOSS_CFG_A_MAX n) < peak
      ∨ s.get (fFUN_LOSS_CFG_RISE_MAX n) < rise) :
    exec (.lossImpact n peak rise gap) s = .next (s.inc (fFUN_LOSS_OTHER n)) := by
  have hno : ¬ (128 * s.get (fFUN_LOSS_CFG_A_MIN n) ≤ peak ∧ peak ≤ 128 * s.get (fFUN_LOSS_CFG_A_MAX n)
      ∧ rise ≤ s.get (fFUN_LOSS_CFG_RISE_MAX n)) := by omega
  exact (if_neg h.not_ignored).trans ((if_neg (Nat.not_le.mpr hfull)).trans (if_neg hno))

end

/-! ## Silence (R76) -/

/-- Entry i of a lane loses VALID. -/
def dropValid (i l : Nat) (s : State) : State := s.putSig l i { s.sig l i with valid := false }

theorem dropValid_same (i l : Nat) (s : State) : ((dropValid i l s).sig l i).valid = false :=
  valid_putSig_same s l i _

/-- An entry that is not VALID stays so while others lose VALID. -/
theorem dropValid_keeps (i l : Nat) {i' l' : Nat} (h : (s.sig l' i').valid = false) :
    ((dropValid i l s).sig l' i').valid = false := by
  by_cases ha : sigAddr l' i' = sigAddr l i
  · have hsame : (dropValid i l s).sig l' i' = (dropValid i l s).sig l i := sig_congr fun k _ => by rw [ha]
    rw [hsame]
    exact dropValid_same i l s
  · rw [dropValid, sig_putSig_other s _ ha]
    exact h

/-- Entry i of both lanes loses VALID. -/
def dropBoth (i : Nat) (s : State) : State := forUp 2 (dropValid i) s

theorem dropBoth_eq (i : Nat) (s : State) : dropBoth i s = dropValid i 1 (dropValid i 0 s) := rfl

theorem dropBoth_same (i : Nat) (s : State) {l : Nat} (hl : l < 2) : ((dropBoth i s).sig l i).valid = false := by
  rw [dropBoth_eq]
  obtain rfl | rfl : l = 0 ∨ l = 1 := by omega
  · exact dropValid_keeps i 1 (dropValid_same i 0 s)
  · exact dropValid_same i 1 _

theorem dropBoth_keeps (i : Nat) {i' l' : Nat} (h : (s.sig l' i').valid = false) :
    ((dropBoth i s).sig l' i').valid = false := by
  rw [dropBoth_eq]
  exact dropValid_keeps i 1 (dropValid_keeps i 0 h)

theorem onlyMem_dropBoth (i : Nat) (s : State) : OnlyMem s (dropBoth i s) := by
  rw [dropBoth_eq]
  exact (onlyMem_putSig s 0 i _).trans (onlyMem_putSig _ 1 i _)

/-- The rate and the count of a loss input lose VALID in both lanes. -/
def dropLoss (n : Nat) (s : State) : State := dropBoth (112 + n) (dropBoth (96 + n) s)

theorem onlyMem_dropLoss (n : Nat) (s : State) : OnlyMem s (dropLoss n s) :=
  (onlyMem_dropBoth _ s).trans (onlyMem_dropBoth _ _)

theorem dropLoss_valid (n : Nat) (s : State) {l : Nat} (hl : l < 2) :
    ((dropLoss n s).sig l (96 + n)).valid = false ∧ ((dropLoss n s).sig l (112 + n)).valid = false :=
  ⟨dropBoth_keeps _ (dropBoth_same _ _ hl), dropBoth_same _ _ hl⟩

/-- The sensor is marked silent. -/
def markSilent (n : Nat) (s : State) : State := s.setLossIn n { s.lossIn n with silent := true }

theorem exec_lossSilent {n : Fin 16} (hen : s.bit (fFUN_LOSS_CFG_EN n) = true) (hquiet : 1200000 ≤ (s.lossIn n).quiet)
    (hnot : (s.lossIn n).silent = false) :
    exec (.lossSilent n) s = .next ((((dropLoss n (markSilent n s)).putBit (bitFld fFUN_LOSS_FLT_FLT n) true).putBit
      fFUN_EVT_LOSS_FLT true).evx 0x3811 n 0 (f16OfF32 (s.sig (topLane s) 144).val)
        (f16OfF32 (s.sig (topLane s) 144).val)) := by
  have hdue : ¬ ((!s.bit (fFUN_LOSS_CFG_EN n)) = true ∨ (s.lossIn n).quiet < 1200000
      ∨ (s.lossIn n).silent = true) := by
    rw [hen, hnot]
    rintro (h | h | h)
    · cases h
    · omega
    · cases h
  exact if_neg hdue

/-- Settles O16: each clause is the command's answer, with its effect built up from the writes and the record;
silence is read from the entries that lose VALID. -/
theorem lossSensors : Obligations.LossSensors := by
  refine ⟨?lossKernel, ?lossOther, ?lossSat, ?lossDead, ?lossSilent⟩
  case lossKernel =>
    intro s n peak rise gap hen hdead hloud hfull hmin hmax hrise
    exact ⟨_, exec_lossImpact_kernel ⟨hen, hdead, hloud⟩ hfull hmin hmax hrise,
      (does_fn s _).put (fFUN_LOSS_TOTAL n) (s.up (fFUN_LOSS_TOTAL n)), rfl⟩
  case lossOther =>
    intro s n peak rise gap hen hdead hloud hfull hlimits
    exact ⟨_, exec_lossImpact_other ⟨hen, hdead, hloud⟩ hfull hlimits,
      (does_refl s).put (fFUN_LOSS_OTHER n) (s.up (fFUN_LOSS_OTHER n))⟩
  case lossSat =>
    intro s n peak rise gap hen hdead hloud hsat hroom
    exact ⟨_, exec_lossImpact_saturated rise ⟨hen, hdead, hloud⟩ hsat,
      ((does_refl s).put (fFUN_LOSS_OTHER n) (s.up (fFUN_LOSS_OTHER n))).evx (by decide) (by decide) hroom
        0x3810 n 0 _ _⟩
  case lossDead =>
    intro s n peak rise gap h
    exact ⟨s, exec_lossImpact_ignored rise h, rfl⟩
  case lossSilent =>
    intro s n hen hquiet hnot hroom
    have hmem := onlyMem_dropLoss n (markSilent n s)
    have hdoes := (((does_refl (ps := []) (dropLoss n (markSilent n s))).put (bitFld fFUN_LOSS_FLT_FLT n) 1).put
      fFUN_EVT_LOSS_FLT 1).evx (by decide) (by decide) (hmem.room (s := markSilent n s) hroom) 0x3811 n 0
      (f16OfF32 (s.sig (topLane s) 144).val) (f16OfF32 (s.sig (topLane s) 144).val)
    have hevs := hmem.records hdoes.evs
    rw [List.nil_append, hmem.evOf] at hevs
    refine ⟨_, exec_lossSilent hen hquiet hnot, hmem.regsBut hdoes.regs, hevs,
      (partsBut_fn s (markSilent n s).fn).trans (hmem.parts.trans (hdoes.parts.mono (List.nil_subset _))), ?_,
      fun l hl => ?_⟩
    · rw [lossIn_congr (fn_evx _ _ _ _ _ _)]
      exact congrArg LossIn.silent ((lossIn_congr hmem.fn n).trans (lossIn_setLossIn_same s n _))
    · obtain ⟨hrate, hcount⟩ := dropLoss_valid n (markSilent n s) hl
      exact ⟨(congrArg Sig.valid (hdoes.mem.sig l _)).trans hrate,
        (congrArg Sig.valid (hdoes.mem.sig l _)).trans hcount⟩

end Sys2Proof.Machine
end

section
/-!
Swing search (O37).
-/
open Sys2Proof
namespace Sys2Proof.Machine

/-- An operator setpoint for a locked function is its request, from source 2 (R65, R67). -/
theorem exec_operatorSetpoint_of_locked {s : State} {f : Fin 30} (v : F32) (hlock : s.bitAt fFUN_LOCK_LOCK f = true) :
    exec (.operatorSetpoint f v) s
      = .next (request f 2 v (s.setFnSt f { s.fnSt f with opReq := some v })) :=
  if_pos hlock

/-- Function F1 locked, with the band from 0 to 0 of a record that nothing has written, and the recorder running with
every one of the 256 entries of its intake queue taken. -/
def lockedFullIntake : State :=
  { State.reset.put (bitFld fFUN_LOCK_LOCK 0) 1 with
    rst := { State.reset.rst with next := 2 }
    evr := { Evr.init with intake := List.replicate 256 ⟨0x1052, 0, 0, f16NaN, f16NaN, 0, 0⟩ } }

/-- Refutes O37: its clause on an operator setpoint that becomes the function's request (opTarget) lets the command
touch three registers and asks for no room in the intake queue. A request outside the function's band is recorded as
0x3821 (R63), and where the queue is full, that event is lost and counted in EVR_LOST (R461). -/
theorem not_swingSearch : ¬ Obligations.SwingSearch := by
  rintro ⟨-, -, -, -, -, -, -, -, -, -, -, -, -, -, -, -, -, -, -, -, -, -, -, -, -, -, -, -, -, -, -, -, opTarget, -⟩
  have hlock : lockedFullIntake.bitAt fFUN_LOCK_LOCK (0 : Fin 30) = true := by decide +kernel
  obtain ⟨t, hexec, -, -, -, -, -, -, -, htouches⟩ := opTarget lockedFullIntake 0 f32One (.inl hlock)
  have hlost : t.rd fEVR_LOST.addr = lockedFullIntake.rd fEVR_LOST.addr := htouches.regs _ (by decide)
  rw [exec_operatorSetpoint_of_locked f32One hlock] at hexec
  rw [← Host.Outcome.next.inj hexec] at hlost
  have hcounts : (request (0 : Fin 30) 2 f32One (lockedFullIntake.setFnSt (0 : Fin 30)
      { lockedFullIntake.fnSt (0 : Fin 30) with opReq := some f32One })).rd fEVR_LOST.addr = 1#32 := by decide +kernel
  have hzero : lockedFullIntake.rd fEVR_LOST.addr = 0#32 := by decide +kernel
  rw [hcounts, hzero] at hlost
  exact absurd hlost (by decide)

end Sys2Proof.Machine
end
